-- ==== Sys2Proof/Word.lean ====
section
/-! DEFINITION. The words of the device: bytes, 32-bit registers, 48-bit fabric addresses and 64-byte lines (R5-R8, R43,
R32). -/
namespace Sys2Proof

/-- A byte. -/
abbrev Byte := BitVec 8

/-- A 32-bit register (R43). -/
abbrev Word := BitVec 32

/-- A 48-bit fabric address (R34). -/
abbrev FAddr := BitVec 48

/-- A 64-byte line, byte 0 least significant (R8, R219). -/
abbrev LineData := BitVec 512

/-- A byte string, byte 0 first. -/
abbrev Bytes := List (BitVec 8)

end Sys2Proof
end

