-- ==== Sys2Proof/Machine/Types.lean ====
section
/-! DEFINITION. The kinds of things the device names: register blocks, requesters, syllables, states of units, answers. -/
namespace Sys2Proof.Machine

/-- Block types (R47). -/
inductive Blk where
  | hub | bru | pce | prp | eth | cls | nic | tsh | pol | sdt | nvc | cph | lpc | tel | pwr | sec | bbx | snp | dis
  | mov | pfx | d2d | fwp | mbx | die | hmc | noc | clu | cor
  deriving DecidableEq, Repr

/-- A register page: its block and instance (R47); FWP: hub * 16 + index, MBX: hub * 64 + page, COR: gc * 18 + slot. -/
structure Page where
  blk : Blk
  inst : Nat
  deriving DecidableEq, Repr

/-- Kinds of hub engine with a pending-signal table each (R182), and firmware. -/
inductive Engine where
  | dis | job | mov | pfx | sdt | storage | nic | lantern | firmware
  deriving DecidableEq, Repr

def Engine.num : Engine → Nat
  | .dis => 0
  | .job => 1
  | .mov => 2
  | .pfx => 3
  | .sdt => 4
  | .storage => 5
  | .nic => 6
  | .lantern => 7
  | .firmware => 8

/-- Who makes an access (R40, R178, R312). -/
inductive Req where
  /-- Move channel of a physical core slot. -/
  | core (gc : Fin 160) (slot : Fin 18) (ch : Fin 4)
  /-- Page gather of a cluster. -/
  | gather (gc : Fin 160)
  /-- A hub engine acting for a partition. -/
  | hub (hub : Fin 2) (engine : Engine) (part : Fin 12)
  /-- A firmware processor. -/
  | fwp (hub : Fin 2) (index : Fin 16)
  /-- The host through a PF0 BAR of a link. -/
  | host (link : Fin 2)
  /-- The host through the aperture of a slice on PF1. -/
  | slice (slice : Fin 256)
  deriving DecidableEq, Repr

/-- Where a mailbox command came from: its page, its link, or MCTP (R458-R463). -/
structure Src where
  hub : Fin 2
  page : Fin 64
  link : Fin 2
  mctp : Bool
  order : Nat
  deriving DecidableEq, Repr

/-- Who sends a signal: a cluster's table or a table of a hub engine (R182). -/
inductive SigSrc where
  | cluster (gc : Fin 160)
  | engine (hub : Fin 2) (engine : Engine)
  deriving DecidableEq, Repr

/-- A test controller: the HBM controller of a stack, or the tier-2 packages of a hub (R281-R283). -/
inductive TestCtl where
  | hmc (stack : Fin 20)
  | t2 (hub : Fin 2)
  deriving DecidableEq, Repr

/-- The patrol of an HBM controller or of a tier-2 package (R276). -/
inductive PatrolCtl where
  | hmc (stack : Fin 20)
  | t2 (unit : Fin 32)
  deriving DecidableEq, Repr

/-- An SRAM array with a patrol (R277): `tables` are the arrays of a hub that hold its tables and queues.
DESIGN CHOICE (log 93). -/
inductive SramArray where
  | pool (gc : Fin 160)
  | hub (hub : Fin 2)
  | dmem (gc : Fin 160) (slot : Fin 18)
  | istore (gc : Fin 160) (slot : Fin 18)
  | tile (gc : Fin 160) (slot : Fin 18)
  | alwaysOn
  | tables (hub : Fin 2)
  deriving DecidableEq, Repr

/-- A line in flight in a cluster move engine: of a channel's operation at a destination offset, or of the page gather
(R191). -/
inductive LineId where
  | chan (slot : Fin 18) (ch : Fin 4) (off : Nat)
  | gather (page line : Nat)
  deriving DecidableEq, Repr

/-- The two kinds of ring of R243. -/
inductive RingKind where
  | mover | index
  deriving DecidableEq, Repr

/-- What a host link gives a read of the device: data with its poison mark, an answer of Unsupported Request or Completer
Abort, no translation, so that nothing is sent, or no completion in time (R301, R303, R304). -/
inductive HostRead where
  | data (bytes : List (BitVec 8)) (poison : Bool)
  | refused
  | noTranslation
  | timeout
  deriving DecidableEq, Repr

/-- What becomes of a write of the device to host memory: sent; sent while the read of the slice's dirty-page bitmap fails
(R328); or not sent, since ATS gives no translation (R303). -/
inductive HostWrite where
  | done
  | logFail
  | noTranslation
  deriving DecidableEq, Repr

/-- What becomes of the writes that a command of an NVMe queue makes: of its data, and of its completion entry (R303, R328). -/
structure NvWrites where
  data : HostWrite
  entry : HostWrite
  deriving DecidableEq, Repr

/-- A parity error that a cipher pipe reports while it works on blocks of a command: the pipe and the blocks, counted from the
first (R435, R436). -/
structure PipeFault where
  pipe : Fin 16
  blocks : List Nat
  deriving DecidableEq, Repr

/-- An error entry of log 0x01: error count, submission queue, command identifier and status (R405). -/
structure NvError where
  num : Nat
  sq : Nat
  cid : BitVec 16
  status : Nat
  deriving DecidableEq, Repr

/-- An entry of the NVMe admin queue as the controller reads it; `prps` are the addresses its data pointer names, page by
page (R402, R405). -/
structure AdminCmd where
  flags : BitVec 8
  cid : BitVec 16
  nsid : BitVec 32
  prps : List (BitVec 64)
  cdw10 : BitVec 32
  cdw11 : BitVec 32
  writes : NvWrites
  deriving DecidableEq, Repr

/-- An entry of an I/O submission queue (R408). `ranges` are the ranges a Dataset Management names: first block and
blocks. -/
structure IoCmd where
  opc : BitVec 8
  flags : BitVec 8
  cid : BitVec 16
  nsid : BitVec 32
  prps : List (BitVec 64)
  slba : BitVec 64
  cdw11 : BitVec 32
  cdw12 : BitVec 32
  ranges : List (BitVec 64 × BitVec 32)
  writes : NvWrites
  deriving DecidableEq, Repr

/-- Protocol violations of an SSD (R421). -/
inductive SsdFault where
  | unknownCid
  | badDma
  | malformedTlp
  | undefinedStatus (cid : Nat)
  deriving DecidableEq, Repr

/-- What the training of a slot's link and SSD found (R419, R423). -/
structure SlotFound where
  link : Bool
  ready : Bool
  /-- NVMe version, laid out as VS is -/
  version : BitVec 32
  /-- Write Uncorrectable is supported -/
  uncorrectable : Bool
  /-- MDTS in bytes, 0 for no limit -/
  mdts : Nat
  /-- every namespace has blocks of 512 or 4,096 bytes without metadata -/
  plainBlocks : Bool
  width : Nat
  speed : Nat
  serial : List (BitVec 8)
  /-- NGUID of each of its namespaces -/
  nguids : List (BitVec 32 × BitVec 128)
  deriving DecidableEq, Repr

/-- What the SSD behind a member port reports of a backing namespace (R409, R419): blocks, 512-byte blocks, Write
Uncorrectable, and the blocks that it writes all or nothing over a power failure (R416). -/
structure Backing where
  port : Nat
  nsid : BitVec 32
  blocks : Nat
  lbaf : Bool
  uncorrectable : Bool
  atom : Nat
  deriving DecidableEq, Repr

/-! ## The sequencer -/

/-- M operations (R155). -/
inductive MKind where
  | mma | mdrain | mclr
  deriving DecidableEq, Repr

/-- Queued X operations (R160). -/
inductive XKind where
  | movs | fill | gather | wpull
  deriving DecidableEq, Repr

/-- COR_RUN.RUN (R170, R172). -/
inductive RunState where
  | held | stub | running | paused | halted | bootFailed
  deriving DecidableEq, Repr

/-- Scalar arithmetic (R153). -/
inductive AluOp where
  | add | sub | and | or | xor | shl | shr | sra | mul | mulhu | slt | sltu
  deriving DecidableEq, Repr

/-- Branch conditions (R146). -/
inductive Cond where
  | eq | ne | lt | ge | ltu | geu
  deriving DecidableEq, Repr

/-- Scalar loads (R153). -/
inductive LoadKind where
  | ldb | ldbu | ldh
  deriving DecidableEq, Repr

/-- Operations of the VR format by opcode (R157). -/
inductive VrOp where
  | vadd | vsub | vmul | vfma | vdiv | vsqrt | vmin | vmax | vabs | vneg | vand | vor | vxor | vnot | vshl | vshr
  | vsra | vcmpeq | vcmpne | vcmplt | vcmple | vperm | vrsum | vrmax | vrmin | vexp | vlog | vrailAdd | vrailFin
  | vqnt | vqcfg | vqrd | vseed | vflg | vflgc
  deriving DecidableEq, Repr

/-- Operand fields of the VR format (R156). -/
structure VrArgs where
  vd : BitVec 5
  va : BitVec 5
  vb : BitVec 5
  type : BitVec 4
  part : BitVec 2
  n : BitVec 1
  deriving DecidableEq, Repr

/-- A syllable with its operand fields (R138-R166). -/
inductive Syl where
  | nop
  | alu (op : AluOp) (rd ra rb : BitVec 4)
  | alui (op : AluOp) (rd ra : BitVec 4) (imm : BitVec 14)
  | li (rd : BitVec 4) (imm : BitVec 16)
  | load (kind : LoadKind) (rd ra : BitVec 4) (off : BitVec 10) (byte : BitVec 4)
  | store (half : Bool) (rs ra : BitVec 4) (off : BitVec 10) (byte : BitVec 4)
  | branch (cond : Cond) (ra rb : BitVec 4) (off : BitVec 12)
  | jump (target : BitVec 16)
  | jal (rd : BitVec 4) (target : BitVec 16)
  | jr (ra : BitVec 4)
  | loop (level : BitVec 1) (ra : BitVec 4) (last : BitVec 12)
  | loopi (level : BitVec 1) (count : BitVec 9) (last : BitVec 12)
  | mfsr (rd : BitVec 4) (code : BitVec 6)
  | mtsr (ra : BitVec 4) (code : BitVec 6)
  | halt
  | mop (kind : MKind) (reg : BitVec 1) (ra : BitVec 4) (addr : BitVec 16)
  | vld (v : BitVec 5) (ra : BitVec 4) (off : BitVec 13)
  | vst (v : BitVec 5) (ra : BitVec 4) (off : BitVec 13)
  | vr (op : VrOp) (a : VrArgs)
  | vsel (vd va vb vm : BitVec 5)
  | vcvt (vd vs : BitVec 5) (dtype stype : BitVec 4) (part : BitVec 2)
  | vsplat (vd : BitVec 5) (sx type : BitVec 4)
  | vext (sd : BitVec 4) (vs : BitVec 5) (lane : BitVec 7) (type : BitVec 4)
  | xset (ch : BitVec 2) (field : BitVec 3) (part : BitVec 2) (rs : BitVec 4)
  | xget (ch : BitVec 2) (field : BitVec 3) (part : BitVec 2) (rd : BitVec 4)
  | xop (kind : XKind) (ch : BitVec 2)
  | xstop (ch : BitVec 2)
  | xclr (ch : BitVec 2)
  | sigi (n : BitVec 7) (imm : BitVec 15)
  | sig (ra rb : BitVec 4)
  | rsigi (id : BitVec 15) (imm : BitVec 7)
  | rsig (ra rb : BitVec 4)
  | setb (ra rb rc : BitVec 4)
  | wait (ra rb rc : BitVec 4)
  | waiti (n : BitVec 7) (imm : BitVec 15)
  | brd (rd rb : BitVec 4) (hi : BitVec 1)
  /-- A word the decoder rejects, with its UNIT field (R139, R152). -/
  | illegal (unit : BitVec 3)
  /-- A fetch at or beyond syllable 32,768, or of an uncorrectable word (R140, R168). -/
  | noFetch
  deriving DecidableEq, Repr

/-- What lands when a vector operation's distance has passed (R145, R585). -/
inductive Landing where
  | sreg (r : BitVec 4) (v : BitVec 16)
  /-- Register write with byte mask and marks, SAT, INVALID, and the estimator terms of a VQNT made with QEN 1. -/
  | vreg (v : BitVec 5) (data : BitVec 1024) (bytes : BitVec 128) (mark : BitVec 8) (sat inv : Bool)
      (est : Option (List (BitVec 32)))
  | qcfg (lanes : BitVec 256)
  | seed (x : BitVec 32)
  | clearFlags
  deriving DecidableEq, Repr

/-! ## States of units -/

inductive MovPhase where
  | taken | run | fence | done
  deriving DecidableEq, Repr

/-- PART_STATE.STATE (R317). -/
inductive PartState where
  | free | creating | active | destroying
  deriving DecidableEq, Repr

/-- Connection states (R360). -/
inductive ConnState where
  | closed | opened | failed | closing
  deriving DecidableEq, Repr

/-- Slot indicators (R422, R423). -/
inductive LedState where
  | off | on | blink
  deriving DecidableEq, Repr

/-- Image slot states (R470). -/
inductive SlotState where
  | empty | trial | tried | valid | bad
  deriving DecidableEq, Repr

/-- What a non-posted request of the device is for: nothing any more, or a read that answers a requester (R299-R302). -/
inductive TagUse where
  | none
  | read (req : Req) (addr len : Nat)
  deriving DecidableEq, Repr

/-- What lies outside the device for the lines of a move in a host-link window (R39): the slice on whose behalf they are made,
what the host link returns for the entry that names the source and for the source itself, and what becomes of the write. -/
structure HostSide where
  slice : Fin 256
  entry : HostRead
  read : HostRead
  write : HostWrite
  deriving DecidableEq, Repr

/-- Who a request on a host link comes from, as the host sees it: the link, the function, its requester ID and a PASID
(R39, R324). -/
structure HostId where
  link : Nat
  fn : Nat
  rid : BitVec 16
  pasid : Option (BitVec 20)
  deriving DecidableEq, Repr

/-- A host access to a BAR2: a read of n bytes, or a write with byte enables and EP (R286-R288, R304). -/
inductive BarAccess where
  | read (n : Nat)
  | write (data : List (BitVec 8)) (enables : List Bool) (poison : Bool)
  deriving DecidableEq, Repr

/-- Violations of the protocol by the host (R308); `header` is the head of the offending header (R523). -/
inductive Violation where
  | malformed (header : List (BitVec 8))
  | outsideBars (posted : Bool) (header : List (BitVec 8))
  | toD3 (fn : Fin 4) (posted : Bool) (header : List (BitVec 8))
  | atomicOp (header : List (BitVec 8))
  | crossing (posted : Bool) (header : List (BitVec 8))
  | poisoned
  deriving DecidableEq, Repr

/-- Completions from the host (R301-R303, R308). -/
inductive Completion where
  | data (bytes : List (BitVec 8)) (poison : Bool)
  | refused
  | badFields (header : List (BitVec 8))
  deriving DecidableEq, Repr

/-- What a configuration write of the host changes (R284, R285, R289, R291, R300, R307, R489). Sizes are the encodings of
PCI Express: 128 bytes shifted left. -/
inductive CfgWrite where
  | maxPayload (fn : Fin 4) (v : BitVec 3)
  | maxReadRequest (fn : Fin 4) (v : BitVec 3)
  | tag10 (fn : Fin 4) (on : Bool)
  | tag14 (fn : Fin 4) (on : Bool)
  | ecrc (fn : Fin 4) (generate check : Bool)
  | aspm (fn : Fin 4) (l1 : Bool)
  | ideStream (stream : Fin 2) (on : Bool)
  | ctoRange (v : BitVec 4)
  | msixEnable (fn : Fin 4) (on : Bool)
  | interruptDisable (on : Bool)
  | pmeEnable (on : Bool)
  | pmeStatusClear
  | retrainLink
  | bar2Size (fn : Fin 2) (log2 : Nat)
  | atsEnable (fn : Fin 4) (on : Bool)
  deriving DecidableEq, Repr

/-- What a read of a function's configuration space shows: the identity and the BARs of R285, the limits and the features
that the capability registers of R284 advertise, and what the host has set. -/
inductive CfgField where
  | vendorId | deviceId | classCode | subsystemVendorId | subsystemId
  | barSize (bar : Fin 2) | barPrefetchable (bar : Fin 2) | bar64 (bar : Fin 2) | bar2Sizes
  | msixVectors | interruptPin
  | maxPayloadSupported | maxPayload | maxReadRequest | readCompletionBoundary
  | extendedTag | tag10Requester | tag14Requester | tag10Completer | tag14Completer | tag10Enable | tag14Enable
  | maxLinkSpeed | maxLinkWidth | aer | ecrcGeneration | ecrcCheck | ecrcGenerateEnable | ecrcCheckEnable
  | doe | ide | ideEnable (stream : Fin 2) | pasidWidth | pasidExecute | pasidPrivileged
  | ats | atsInvalidateQueueDepth | atsSmallestUnit | atsEnable | pri | flr
  | aspmL1 | aspmL0s | aspmEnable | d1 | d2 | pme | pmeEnable | pmeStatus | powerState
  | completionTimeoutRanges | completionTimeoutValue | completionTimeoutDisable
  | atomicOps | tph | ltr | ari | sriov | busMaster | interruptDisable | msixEnable
  deriving DecidableEq, Repr

/-- Errors reported on a host link through AER (R301-R308, R504). -/
inductive AerErr where
  | completionTimeout | unexpectedCompletion | malformedTlp | poisonedTlp | uncorrectableInternal
  deriving DecidableEq, Repr

/-- Who sent a frame (R353, R370, R387): firmware, a queue pair with its send slot, or an SDT connection. -/
inductive FrameOwner where
  | other
  | nic (qp slot : Nat)
  | sdt (conn : Nat)
  deriving DecidableEq, Repr

/-- A frame as the classifier hands it on: global port, MARK where MARK_EN is 1, and the frame without its FCS (R342). -/
structure ClsFrame where
  port : Nat
  mark : Option Nat
  bytes : List (BitVec 8)
  deriving DecidableEq, Repr

/-- A frame of a network queue pair that has been fetched (R353): its send slot, COOKIE, frame bytes without FCS, and its
status once the frame has left or has been refused. -/
structure NicSend where
  slot : Nat
  cookie : List (BitVec 8)
  len : Nat
  status : Option (BitVec 8)
  deriving DecidableEq, Repr

/-- Some bytes of a line: offset, bytes, poison mark (R219, R267). -/
abbrev Run := Nat × List (BitVec 8) × Bool

/-- A write held at its home while Lantern copies the granule (R536): a posted write of the host or a named access, with the
runs of its line, its requester, and the epoch of the acknowledgement that is still owed, none for a posted one; or the write of
an engine, which has not happened until the engine's event comes again. -/
structure HeldWrite where
  addr : Nat
  runs : List Run
  who : Option Req
  owed : Option (BitVec 8)
  engine : Bool
  deriving DecidableEq, Repr

/-- How an SPDM request comes (R448): by DOE on PF0 of a link, or by MCTP. -/
inductive SpdmVia where
  | doe (link : Fin 2)
  | mctp
  deriving DecidableEq, Repr

/-- What an IDE_KM request asks for (R448). -/
inductive IdeOp where
  | query | keyProg | setGo | setStop
  deriving DecidableEq, Repr

/-- Errors the security processor answers SPDM requests with (R448). -/
inductive SpdmErr where
  | busy | unspecified | unexpected | invalidSession | unsupported
  deriving DecidableEq, Repr

/-- Answers to SPDM requests (R448, R449): measurements are index and value, a signature where one is asked for. -/
inductive SpdmResp where
  | version
  | capabilities
  | algorithms
  | digests (digest : List (BitVec 8))
  | certificate (chain : List (BitVec 8)) (left : Nat)
  | challengeAuth (signature : List (BitVec 8))
  | measurements (values : List (Nat × List (BitVec 8))) (signature : List (BitVec 8))
  | keyExchange (session : Nat) (signature : List (BitVec 8))
  | finish (session : Nat)
  | heartbeat (session : Nat)
  | keyUpdate (session : Nat)
  | endSession (session : Nat)
  | vendor (op : IdeOp) (stream : Nat)
  | error (err : SpdmErr)
  deriving DecidableEq, Repr

/-- The payload of OWNER_SET (R450): the new record, and the owner's signature where the payload carries one: public key,
nonce and signature. -/
structure OwnerSet where
  keyHash : List (BitVec 8)
  salt : List (BitVec 8)
  pwHash : List (BitVec 8)
  signed : Option (List (BitVec 8) × List (BitVec 8) × List (BitVec 8))
  deriving DecidableEq, Repr

/-- The method of DBG_UNLOCK (R452). -/
inductive Unlock where
  | ownerKey (publicKey nonce signature : List (BitVec 8))
  | password (pw : List (BitVec 8))
  deriving DecidableEq, Repr

/-- A temperature sensor (R552). -/
inductive Sensor where
  | die (gc : Fin 160) (i : Fin 4)
  | hub (hub : Fin 2) (i : Fin 32)
  | stack (stack : Fin 20)
  deriving DecidableEq, Repr

/-- What the estimators and engines report of one millisecond (R552-R554): raw microjoules of clusters, and of the engines of a
hub by the partition served; microjoules of memory units and of all else; ops / 2^20, memory lines and bytes sent by partition. -/
structure Energy where
  clusters : List (Fin 160 × Nat)
  units : List (Fin 112 × Nat)
  engines : List ((Fin 2 × Fin 12) × Nat)
  other : Nat
  ops : List (Fin 12 × Nat)
  lines : List (Fin 12 × Nat)
  bytes : List (Fin 12 × Nat)
  deriving DecidableEq, Repr

/-- What the training of a unit found (R488): a die-to-die link's width, 0 below half, 1 half, 2 full, and its spares in use;
the good channels of an HBM unit, and whether any uses a spare lane; the good channels of a tier-2 package. -/
inductive UnitFound where
  | link (n : Fin 17) (width : Fin 3) (spares : Fin 9)
  | hbm (unit : Fin 80) (channels : BitVec 8) (spares : Bool)
  | package (unit : Fin 32) (channels : BitVec 2)
  deriving DecidableEq, Repr

/-- What SELF_TEST finds (R490): failed core slots and clusters, failing rows repaired, by the LOCATION of R517, and
whether a hub array has failed. -/
structure SelfFound where
  slots : List (Fin 160 × Fin 18)
  clusters : List (Fin 160)
  rows : List (BitVec 48)
  hubArray : Bool
  deriving DecidableEq, Repr

/-- What ROM_CHECK finds outside what State holds (R446, R447, R470, R480): bit n, slot record n fails its CRC; the
identity certificate names the device's key; the board record in flash, empty for none, and the Subsystem Vendor ID and
Subsystem ID that its body gives. -/
structure RomFound where
  badSlots : BitVec 2
  idMatch : Bool
  board : List (BitVec 8)
  sub : BitVec 32
  deriving DecidableEq, Repr

/-- Numeric sensors of the PLDM terminus (R566). -/
inductive PldmSensor where
  | die (d : Fin 10)
  | stack (s : Fin 20)
  | hub (h : Fin 2)
  | device
  | part (p : Fin 12)
  deriving DecidableEq, Repr

/-- What the PLDM terminus says (R566): answers, refusals, and its own event messages. -/
inductive Pldm where
  | tid (tid : BitVec 8)
  | receiverSet
  | repository (records : Nat)
  | pdr (handle : Nat) (sensor : PldmSensor)
  | reading (sensor : PldmSensor) (value : Nat)
  | invalid
  | event (receiver : BitVec 8) (sensor : PldmSensor) (limit : Nat) (above : Bool)
  deriving DecidableEq, Repr

/-- What the device sends or shows outside, newest first in State.outs. -/
inductive Out where
  /-- An ERR_STAT bit of the page at a BAR0 offset alerts Lamplighter (R53). -/
  | alert (page : Nat) (bit : Nat)
  /-- An MSI-X message or INTx level change of a link's function (R289-R291). -/
  | msix (link fn vector : Nat)
  | intx (link : Nat) (level : Bool)
  /-- The answer to a requester: status and data (R218, R40). -/
  | reply (dest : Req) (status : BitVec 8) (data : List (BitVec 8)) (poison : Bool)
  /-- A watch's answer: hub, engine, tag, status word (0 FIRED, 1 NO_RESOURCE, 2 DISARMED, 3 UNIT_ABSENT), value
  (R187). -/
  | watch (hub : Nat) (engine : Engine) (tag : BitVec 16) (answer : Nat) (value : BitVec 32)
  /-- An error reported through AER on a link (R301-R308, R504). -/
  | aer (link : Nat) (err : AerErr)
  /-- Poisoned data sent to host memory with EP set (R304): link and address. -/
  | epWrite (link addr : Nat)
  /-- A frame, from DMAC to FCS, starts on an Ethernet port (R393). -/
  | frame (port : Nat) (bytes : List (BitVec 8))
  /-- A host request completed with Unsupported Request, or a read with Completer Abort (R44, R287, R308). -/
  | ur (link : Nat)
  | ca (link : Nat)
  /-- The answer to an ATS Invalidate Request: link and tag (R284). -/
  | atsDone (link tag : Nat)
  /-- A PM_PME message, or a change of the WAKE_N level (R307). -/
  | pme (link : Nat)
  | wake (low : Bool)
  /-- An answer to an SPDM request (R448). -/
  | spdm (via : SpdmVia) (resp : SpdmResp)
  /-- A message to the board management controller over MCTP (R463). -/
  | mctp (bytes : List (BitVec 8))
  /-- A PLDM message of the power-and-telemetry processor over MCTP (R566). -/
  | pldm (msg : Pldm)
  /-- A voltage requested of the VR of VDD_CDd over AVSBus, in mV (R556, R571). -/
  | avs (die mv : Nat)
  /-- A command to the SSD behind a root port: opcode, backing NSID, first block, blocks, FUA and data (R408, R410, R419). -/
  | ssd (port : Nat) (opc : BitVec 8) (nsid : BitVec 32) (slba nlb : Nat) (fua : Bool) (data : List (BitVec 8))
  /-- What a root port answers or does to its SSD: Unsupported Request, an AER report, a controller reset, and a shutdown by
  CC.SHN (R420, R421, R423). -/
  | rootUr (port : Nat)
  | rootAer (port : Nat)
  | ssdReset (port : Nat)
  | ssdShutdown (port : Nat)
  /-- The answer to a read of a function's configuration space (R284, R285). -/
  | config (link fn value : Nat)
  deriving DecidableEq, Repr

/-- What lies outside the device for a register write that starts something: the message that a mailbox page reads from its
buffer (R459), or what SELF_TEST finds (R490). -/
inductive RegAux where
  | plain
  | message (read : HostRead)
  | found (f : SelfFound)
  deriving DecidableEq, Repr

/-- A place of an access: an offset of BAR0 of PF0 or of the fabric register space, or an offset of BAR0 of another function
(R41, R288, R354, R403). -/
inductive RegPlace where
  | pages (r : Req) (a : BitVec 26)
  | function (link : Fin 2) (fn : Fin 4) (off : Nat)
  deriving DecidableEq, Repr

/-- What a memory request reads: `more` + 1 bytes from a fabric address, a word of the always-on SRAM of hub 0, bytes of
BAR0 of a function (R288, R292, R354, R403), or a field of a function's configuration space (R284, R285). -/
inductive MemAt where
  | fabric (r : Req) (a : BitVec 48) (more : Fin 64)
  | alwaysOn (word : Fin 8192)
  | function (link : Fin 2) (fn : Fin 4) (off : Nat) (more : Fin 64)
  | config (link : Fin 2) (fn : Fin 4) (field : CfgField)
  deriving DecidableEq, Repr

end Sys2Proof.Machine
end

