-- ==== Sys2Proof/Syntax.lean ====
section
/-! DEFINITION. The commands of the block: one constructor for each row of spec/opcode_table.json, in its order, with the
row's operands. What the outside world finds or supplies (data that a host link returns, an upset of memory, the end of a
training) is an operand of the command that meets it. -/
namespace Sys2Proof
open Sys2Proof.Machine

/-- A command. -/
inductive Instr where
  /-- POWER_UP (R478). -/
  | powerUp (ok : Bool)
  /-- PORST_N (R478). -/
  | porstN
  /-- WRST_N (R478). -/
  | wrstN
  /-- ROM_CHECK (R480). -/
  | romCheck (f : RomFound)
  /-- PERST_ASSERT (R307). -/
  | perstAssert (link : Fin 2)
  /-- PERST_RELEASE (R307). -/
  | perstRelease (link : Fin 2)
  /-- PFAIL_N (R526). -/
  | pfailN
  /-- PFAIL_RELEASE (R526). -/
  | pfailRelease
  /-- THERM_ALERT_N (R557). -/
  | thermAlertN
  /-- PWR_OK_DEASSERT (R572). -/
  | pwrOkDeassert (i : Fin 16)
  /-- REFCLK_STOP (R579). -/
  | refclkStop (clk : Fin 5)
  /-- BLOCK_ENABLE (R56). -/
  | blockEnable (p : Page)
  /-- BLOCK_READY (R56). -/
  | blockReady (p : Page)
  /-- BLOCK_DISABLE (R56). -/
  | blockDisable (p : Page)
  /-- BLOCK_DRAIN (R56). -/
  | blockDrain (p : Page)
  /-- DRAIN_DONE (R56). -/
  | drainDone (p : Page)
  /-- RESET_DONE (R56). -/
  | resetDone (p : Page)
  /-- BLOCK_FENCE (R56). -/
  | blockFence (p : Page) (bit : Option (Fin 16))
  /-- CRC_SWEEP_END (R58). -/
  | crcSweepEnd (p : Page) (flips : List (Nat × BitVec 32))
  /-- BUCKET_PERIOD_END (R53). -/
  | bucketPeriodEnd (p : Page)
  /-- ERR_STAT_WRITE (R53). -/
  | errStatWrite (p : Page) (v : BitVec 32)
  /-- CFG_CRC_REF_WRITE (R52). -/
  | cfgCrcRefWrite (p : Page) (v : BitVec 32)
  /-- BUCKET_CFG_WRITE (R53). -/
  | bucketCfgWrite (p : Page) (v : BitVec 32)
  /-- REGISTER_WRITE (R54). -/
  | registerWrite (r : Req) (a : BitVec 26) (v : BitVec 32) (second : Option (BitVec 32)) (aux : RegAux)
  /-- UNIMPLEMENTED_ACCESS (R44). -/
  | unimplementedAccess (x : RegPlace) (n : Nat) (write : Bool)
  /-- NOP (R153). -/
  | nop (gc : Fin 160) (slot : Fin 18) (stop : Bool)
  /-- ADD (R153). -/
  | add (gc : Fin 160) (slot : Fin 18) (stop : Bool) (rd ra rb : BitVec 4)
  /-- SUB (R153). -/
  | sub (gc : Fin 160) (slot : Fin 18) (stop : Bool) (rd ra rb : BitVec 4)
  /-- AND (R153). -/
  | and (gc : Fin 160) (slot : Fin 18) (stop : Bool) (rd ra rb : BitVec 4)
  /-- OR (R153). -/
  | or (gc : Fin 160) (slot : Fin 18) (stop : Bool) (rd ra rb : BitVec 4)
  /-- XOR (R153). -/
  | xor (gc : Fin 160) (slot : Fin 18) (stop : Bool) (rd ra rb : BitVec 4)
  /-- SHL (R153). -/
  | shl (gc : Fin 160) (slot : Fin 18) (stop : Bool) (rd ra rb : BitVec 4)
  /-- SHR (R153). -/
  | shr (gc : Fin 160) (slot : Fin 18) (stop : Bool) (rd ra rb : BitVec 4)
  /-- SRA (R153). -/
  | sra (gc : Fin 160) (slot : Fin 18) (stop : Bool) (rd ra rb : BitVec 4)
  /-- MUL (R153). -/
  | mul (gc : Fin 160) (slot : Fin 18) (stop : Bool) (rd ra rb : BitVec 4)
  /-- MULHU (R153). -/
  | mulhu (gc : Fin 160) (slot : Fin 18) (stop : Bool) (rd ra rb : BitVec 4)
  /-- SLT (R153). -/
  | slt (gc : Fin 160) (slot : Fin 18) (stop : Bool) (rd ra rb : BitVec 4)
  /-- SLTU (R153). -/
  | sltu (gc : Fin 160) (slot : Fin 18) (stop : Bool) (rd ra rb : BitVec 4)
  /-- ADDI (R153). -/
  | addi (gc : Fin 160) (slot : Fin 18) (stop : Bool) (rd ra : BitVec 4) (imm : BitVec 14)
  /-- ANDI (R153). -/
  | andi (gc : Fin 160) (slot : Fin 18) (stop : Bool) (rd ra : BitVec 4) (imm : BitVec 14)
  /-- ORI (R153). -/
  | ori (gc : Fin 160) (slot : Fin 18) (stop : Bool) (rd ra : BitVec 4) (imm : BitVec 14)
  /-- XORI (R153). -/
  | xori (gc : Fin 160) (slot : Fin 18) (stop : Bool) (rd ra : BitVec 4) (imm : BitVec 14)
  /-- SHLI (R153). -/
  | shli (gc : Fin 160) (slot : Fin 18) (stop : Bool) (rd ra : BitVec 4) (imm : BitVec 14)
  /-- SHRI (R153). -/
  | shri (gc : Fin 160) (slot : Fin 18) (stop : Bool) (rd ra : BitVec 4) (imm : BitVec 14)
  /-- SRAI (R153). -/
  | srai (gc : Fin 160) (slot : Fin 18) (stop : Bool) (rd ra : BitVec 4) (imm : BitVec 14)
  /-- LI (R153). -/
  | li (gc : Fin 160) (slot : Fin 18) (stop : Bool) (rd : BitVec 4) (imm : BitVec 16)
  /-- LDB (R154). -/
  | ldb (gc : Fin 160) (slot : Fin 18) (stop : Bool) (rd ra : BitVec 4) (off : BitVec 10) (byte : BitVec 4)
  /-- LDBU (R154). -/
  | ldbu (gc : Fin 160) (slot : Fin 18) (stop : Bool) (rd ra : BitVec 4) (off : BitVec 10) (byte : BitVec 4)
  /-- LDH (R154). -/
  | ldh (gc : Fin 160) (slot : Fin 18) (stop : Bool) (rd ra : BitVec 4) (off : BitVec 10) (byte : BitVec 4)
  /-- STB (R154). -/
  | stb (gc : Fin 160) (slot : Fin 18) (stop : Bool) (rs ra : BitVec 4) (off : BitVec 10) (byte : BitVec 4)
  /-- STH (R154). -/
  | sth (gc : Fin 160) (slot : Fin 18) (stop : Bool) (rs ra : BitVec 4) (off : BitVec 10) (byte : BitVec 4)
  /-- BEQ (R146). -/
  | beq (gc : Fin 160) (slot : Fin 18) (stop : Bool) (ra rb : BitVec 4) (off : BitVec 12)
  /-- BNE (R146). -/
  | bne (gc : Fin 160) (slot : Fin 18) (stop : Bool) (ra rb : BitVec 4) (off : BitVec 12)
  /-- BLT (R146). -/
  | blt (gc : Fin 160) (slot : Fin 18) (stop : Bool) (ra rb : BitVec 4) (off : BitVec 12)
  /-- BGE (R146). -/
  | bge (gc : Fin 160) (slot : Fin 18) (stop : Bool) (ra rb : BitVec 4) (off : BitVec 12)
  /-- BLTU (R146). -/
  | bltu (gc : Fin 160) (slot : Fin 18) (stop : Bool) (ra rb : BitVec 4) (off : BitVec 12)
  /-- BGEU (R146). -/
  | bgeu (gc : Fin 160) (slot : Fin 18) (stop : Bool) (ra rb : BitVec 4) (off : BitVec 12)
  /-- J (R146). -/
  | j (gc : Fin 160) (slot : Fin 18) (stop : Bool) (target : BitVec 16)
  /-- JAL (R147). -/
  | jal (gc : Fin 160) (slot : Fin 18) (stop : Bool) (rd : BitVec 4) (target : BitVec 16)
  /-- JR (R146). -/
  | jr (gc : Fin 160) (slot : Fin 18) (stop : Bool) (ra : BitVec 4)
  /-- LOOP (R148). -/
  | loop (gc : Fin 160) (slot : Fin 18) (stop : Bool) (level : BitVec 1) (ra : BitVec 4) (last : BitVec 12)
  /-- LOOPI (R148). -/
  | loopi (gc : Fin 160) (slot : Fin 18) (stop : Bool) (level : BitVec 1) (count : BitVec 9) (last : BitVec 12)
  /-- MFSR (R143). -/
  | mfsr (gc : Fin 160) (slot : Fin 18) (stop : Bool) (rd : BitVec 4) (code : BitVec 6)
  /-- MTSR (R143). -/
  | mtsr (gc : Fin 160) (slot : Fin 18) (stop : Bool) (ra : BitVec 4) (code : BitVec 6)
  /-- HALT (R172). -/
  | halt (gc : Fin 160) (slot : Fin 18) (stop : Bool)
  /-- MMA (R105). -/
  | mma (gc : Fin 160) (slot : Fin 18) (stop : Bool) (reg : BitVec 1) (ra : BitVec 4) (addr : BitVec 16)
  /-- MDRAIN (R110). -/
  | mdrain (gc : Fin 160) (slot : Fin 18) (stop : Bool) (reg : BitVec 1) (ra : BitVec 4) (addr : BitVec 16)
  /-- MCLR (R115). -/
  | mclr (gc : Fin 160) (slot : Fin 18) (stop : Bool) (reg : BitVec 1) (ra : BitVec 4) (addr : BitVec 16)
  /-- MMA_START (R118). -/
  | mmaStart (gc : Fin 160) (slot : Fin 18)
  /-- MMA_DONE (R107). -/
  | mmaDone (gc : Fin 160) (slot : Fin 18) (found : List (Nat × Nat))
  /-- MDRAIN_START (R118). -/
  | mdrainStart (gc : Fin 160) (slot : Fin 18) (found : List (Nat × Nat))
  /-- MDRAIN_DONE (R113). -/
  | mdrainDone (gc : Fin 160) (slot : Fin 18)
  /-- MCLR_START (R116). -/
  | mclrStart (gc : Fin 160) (slot : Fin 18)
  /-- VLD (R123). -/
  | vld (gc : Fin 160) (slot : Fin 18) (stop : Bool) (v : BitVec 5) (ra : BitVec 4) (off : BitVec 13)
  /-- VST (R124). -/
  | vst (gc : Fin 160) (slot : Fin 18) (stop : Bool) (v : BitVec 5) (ra : BitVec 4) (off : BitVec 13)
  /-- VADD (R123). -/
  | vadd (gc : Fin 160) (slot : Fin 18) (stop : Bool) (a : VrArgs)
  /-- VSUB (R123). -/
  | vsub (gc : Fin 160) (slot : Fin 18) (stop : Bool) (a : VrArgs)
  /-- VMUL (R123). -/
  | vmul (gc : Fin 160) (slot : Fin 18) (stop : Bool) (a : VrArgs)
  /-- VFMA (R121). -/
  | vfma (gc : Fin 160) (slot : Fin 18) (stop : Bool) (a : VrArgs)
  /-- VDIV (R128). -/
  | vdiv (gc : Fin 160) (slot : Fin 18) (stop : Bool) (a : VrArgs)
  /-- VSQRT (R128). -/
  | vsqrt (gc : Fin 160) (slot : Fin 18) (stop : Bool) (a : VrArgs)
  /-- VMIN (R123). -/
  | vmin (gc : Fin 160) (slot : Fin 18) (stop : Bool) (a : VrArgs)
  /-- VMAX (R123). -/
  | vmax (gc : Fin 160) (slot : Fin 18) (stop : Bool) (a : VrArgs)
  /-- VABS (R123). -/
  | vabs (gc : Fin 160) (slot : Fin 18) (stop : Bool) (a : VrArgs)
  /-- VNEG (R123). -/
  | vneg (gc : Fin 160) (slot : Fin 18) (stop : Bool) (a : VrArgs)
  /-- VAND (R123). -/
  | vand (gc : Fin 160) (slot : Fin 18) (stop : Bool) (a : VrArgs)
  /-- VOR (R123). -/
  | vor (gc : Fin 160) (slot : Fin 18) (stop : Bool) (a : VrArgs)
  /-- VXOR (R123). -/
  | vxor (gc : Fin 160) (slot : Fin 18) (stop : Bool) (a : VrArgs)
  /-- VNOT (R123). -/
  | vnot (gc : Fin 160) (slot : Fin 18) (stop : Bool) (a : VrArgs)
  /-- VSHL (R123). -/
  | vshl (gc : Fin 160) (slot : Fin 18) (stop : Bool) (a : VrArgs)
  /-- VSHR (R123). -/
  | vshr (gc : Fin 160) (slot : Fin 18) (stop : Bool) (a : VrArgs)
  /-- VSRA (R123). -/
  | vsra (gc : Fin 160) (slot : Fin 18) (stop : Bool) (a : VrArgs)
  /-- VCMPEQ (R123). -/
  | vcmpeq (gc : Fin 160) (slot : Fin 18) (stop : Bool) (a : VrArgs)
  /-- VCMPNE (R123). -/
  | vcmpne (gc : Fin 160) (slot : Fin 18) (stop : Bool) (a : VrArgs)
  /-- VCMPLT (R123). -/
  | vcmplt (gc : Fin 160) (slot : Fin 18) (stop : Bool) (a : VrArgs)
  /-- VCMPLE (R123). -/
  | vcmple (gc : Fin 160) (slot : Fin 18) (stop : Bool) (a : VrArgs)
  /-- VSEL (R123). -/
  | vsel (gc : Fin 160) (slot : Fin 18) (stop : Bool) (vd va vb vm : BitVec 5)
  /-- VPERM (R123). -/
  | vperm (gc : Fin 160) (slot : Fin 18) (stop : Bool) (a : VrArgs)
  /-- VSPLAT (R125). -/
  | vsplat (gc : Fin 160) (slot : Fin 18) (stop : Bool) (vd : BitVec 5) (sx type : BitVec 4)
  /-- VEXT (R123). -/
  | vext (gc : Fin 160) (slot : Fin 18) (stop : Bool) (sd : BitVec 4) (vs : BitVec 5) (lane : BitVec 7) (type : BitVec 4)
  /-- VRSUM (R126). -/
  | vrsum (gc : Fin 160) (slot : Fin 18) (stop : Bool) (a : VrArgs)
  /-- VRMAX (R126). -/
  | vrmax (gc : Fin 160) (slot : Fin 18) (stop : Bool) (a : VrArgs)
  /-- VRMIN (R126). -/
  | vrmin (gc : Fin 160) (slot : Fin 18) (stop : Bool) (a : VrArgs)
  /-- VCVT (R136). -/
  | vcvt (gc : Fin 160) (slot : Fin 18) (stop : Bool) (vd vs : BitVec 5) (dtype stype : BitVec 4) (part : BitVec 2)
  /-- VEXP (R129). -/
  | vexp (gc : Fin 160) (slot : Fin 18) (stop : Bool) (a : VrArgs)
  /-- VLOG (R130). -/
  | vlog (gc : Fin 160) (slot : Fin 18) (stop : Bool) (a : VrArgs)
  /-- VRAIL_ADD (R132). -/
  | vrailAdd (gc : Fin 160) (slot : Fin 18) (stop : Bool) (a : VrArgs)
  /-- VRAIL_FIN (R132). -/
  | vrailFin (gc : Fin 160) (slot : Fin 18) (stop : Bool) (a : VrArgs)
  /-- VQNT (R134). -/
  | vqnt (gc : Fin 160) (slot : Fin 18) (stop : Bool) (a : VrArgs)
  /-- VQCFG (R133). -/
  | vqcfg (gc : Fin 160) (slot : Fin 18) (stop : Bool) (a : VrArgs)
  /-- VQRD (R133). -/
  | vqrd (gc : Fin 160) (slot : Fin 18) (stop : Bool) (a : VrArgs)
  /-- VSEED (R89). -/
  | vseed (gc : Fin 160) (slot : Fin 18) (stop : Bool) (a : VrArgs)
  /-- VFLG (R127). -/
  | vflg (gc : Fin 160) (slot : Fin 18) (stop : Bool) (a : VrArgs)
  /-- VFLGC (R127). -/
  | vflgc (gc : Fin 160) (slot : Fin 18) (stop : Bool) (a : VrArgs)
  /-- REGISTER_WRITE_LANDS (R145). -/
  | registerWriteLands (gc : Fin 160) (slot : Fin 18)
  /-- XSET (R158). -/
  | xset (gc : Fin 160) (slot : Fin 18) (stop : Bool) (ch : BitVec 2) (field : BitVec 3) (part : BitVec 2) (rs : BitVec 4)
  /-- XGET (R158). -/
  | xget (gc : Fin 160) (slot : Fin 18) (stop : Bool) (ch : BitVec 2) (field : BitVec 3) (part : BitVec 2) (rd : BitVec 4)
  /-- MOVS (R161). -/
  | movs (gc : Fin 160) (slot : Fin 18) (stop : Bool) (ch : BitVec 2)
  /-- FILL (R161). -/
  | fill (gc : Fin 160) (slot : Fin 18) (stop : Bool) (ch : BitVec 2)
  /-- GATHER (R161). -/
  | gather (gc : Fin 160) (slot : Fin 18) (stop : Bool) (ch : BitVec 2)
  /-- XSTOP (R164). -/
  | xstop (gc : Fin 160) (slot : Fin 18) (stop : Bool) (ch : BitVec 2)
  /-- XCLR (R160). -/
  | xclr (gc : Fin 160) (slot : Fin 18) (stop : Bool) (ch : BitVec 2)
  /-- WPULL (R161). -/
  | wpull (gc : Fin 160) (slot : Fin 18) (stop : Bool) (ch : BitVec 2)
  /-- X_OP_START (R162). -/
  | xOpStart (gc : Fin 160) (slot : Fin 18) (ch : Fin 4)
  /-- LINE_START (R223). -/
  | lineStart (gc : Fin 160) (host : HostSide)
  /-- LINE_COMPLETE (R163). -/
  | lineComplete (gc : Fin 160) (line : LineId) (host : HostSide)
  /-- X_OP_COMPLETE (R162). -/
  | xOpComplete (gc : Fin 160) (slot : Fin 18) (ch : Fin 4)
  /-- WPULL_TAKE (R199). -/
  | wpullTake (gc : Fin 160) (host : HostWrite)
  /-- SIGI (R165). -/
  | sigi (gc : Fin 160) (slot : Fin 18) (stop : Bool) (n : BitVec 7) (imm : BitVec 15)
  /-- SIG (R165). -/
  | sig (gc : Fin 160) (slot : Fin 18) (stop : Bool) (ra rb : BitVec 4)
  /-- RSIGI (R182). -/
  | rsigi (gc : Fin 160) (slot : Fin 18) (stop : Bool) (id : BitVec 15) (imm : BitVec 7)
  /-- RSIG (R182). -/
  | rsig (gc : Fin 160) (slot : Fin 18) (stop : Bool) (ra rb : BitVec 4)
  /-- SETB (R165). -/
  | setb (gc : Fin 160) (slot : Fin 18) (stop : Bool) (ra rb rc : BitVec 4)
  /-- WAIT (R166). -/
  | wait (gc : Fin 160) (slot : Fin 18) (stop : Bool) (ra rb rc : BitVec 4)
  /-- WAITI (R166). -/
  | waiti (gc : Fin 160) (slot : Fin 18) (stop : Bool) (n : BitVec 7) (imm : BitVec 15)
  /-- BRD (R165). -/
  | brd (gc : Fin 160) (slot : Fin 18) (stop : Bool) (rd rb : BitVec 4) (hi : BitVec 1)
  /-- SIGNAL_SEND (R185). -/
  | signalSend (src : SigSrc) (id : Fin 20480)
  /-- SIGNAL_ARRIVE (R185). -/
  | signalArrive (n : Nat)
  /-- BCN_VALUE_WRITE (R180). -/
  | bcnValueWrite (r : Req) (id : Fin 20480) (v : BitVec 32)
  /-- BCN_ADD_WRITE (R180). -/
  | bcnAddWrite (r : Req) (id : Fin 20480) (n : BitVec 32)
  /-- WATCH_ARM (R187). -/
  | watchArm (hub : Fin 2) (engine : Engine) (id : Fin 20480) (target : BitVec 32) (tag : BitVec 16)
  /-- DISARM (R187). -/
  | disarm (hub : Fin 2) (engine : Engine) (gc : Fin 160) (tag : BitVec 16)
  /-- DIS_RING_TAKE (R194). -/
  | disRingTake (hub : Fin 2) (ring : Fin 48)
  /-- GATE_RELEASE (R196). -/
  | gateRelease (hub : Fin 2) (src : Nat)
  /-- DESCRIPTOR_PLACE (R197). -/
  | descriptorPlace (hub : Fin 2) (part : Fin 12) (now : Nat)
  /-- WORK_CREDIT_RETURN (R198). -/
  | workCreditReturn (gc : Fin 160)
  /-- PARTITION_PAUSE (R201). -/
  | partitionPause (hub : Fin 2) (part : Fin 12)
  /-- PARTITION_RESUME (R202). -/
  | partitionResume (hub : Fin 2) (part : Fin 12)
  /-- CLUSTER_PAUSE_DONE (R201). -/
  | clusterPauseDone (gc : Fin 160)
  /-- CORE_PAUSE (R173). -/
  | corePause (gc : Fin 160) (slot : Fin 18)
  /-- CORE_UNPAUSE (R172). -/
  | coreUnpause (gc : Fin 160) (slot : Fin 18)
  /-- STUB_RUN (R175). -/
  | stubRun (gc : Fin 160) (slot : Fin 18)
  /-- MEMORY_READ (R218). -/
  | memoryRead (m : MemAt) (upset : Nat) (parity : Bool) (slice : Fin 256) (tag : Fin 16384)
  /-- MEMORY_WRITE (R219). -/
  | memoryWrite (r : Req) (line : BitVec 42) (mask : BitVec 4) (data : List (BitVec 8)) (marks : BitVec 4) (slice : Fin 256) (host : HostWrite)
  /-- REPLY_RX (R506). -/
  | replyRx (r : Req)
  /-- PATROL_STEP (R276). -/
  | patrolStep (c : PatrolCtl) (found : List (Nat × Nat))
  /-- SRAM_PATROL_STEP (R277). -/
  | sramPatrolStep (a : SramArray) (upset : Nat) (conflict : Bool)
  /-- TEST_WR_ARM (R281). -/
  | testWrArm (c : TestCtl) (hold : Bool)
  /-- TEST_RD_ARM (R281). -/
  | testRdArm (c : TestCtl) (hold : Bool)
  /-- GRANULE_RETIRE (R279). -/
  | granuleRetire (c : PatrolCtl)
  /-- PAGE_GATHER_TAKE (R241). -/
  | pageGatherTake (gc : Fin 160)
  /-- PAGE_GATHER_DONE (R241). -/
  | pageGatherDone (gc : Fin 160) (slice : Fin 256) (host : HostWrite)
  /-- PAGE_FENCE (R242). -/
  | pageFence (gc : Fin 160) (part : Fin 12) (slot : Nat)
  /-- MOV_CMD_TAKE (R243). -/
  | movCmdTake (k : RingKind) (part : Fin 12) (now : Nat)
  /-- INIT (R246). -/
  | init (part : Fin 12)
  /-- DEMOTE (R247). -/
  | demote (part : Fin 12)
  /-- PROMOTE (R247). -/
  | promote (part : Fin 12)
  /-- REF (R246). -/
  | ref (part : Fin 12)
  /-- SHARE (R246). -/
  | share (part : Fin 12)
  /-- MOVE_COPY_DONE (R247). -/
  | moveCopyDone (part : Fin 12) (slot : Nat) (ssd : BitVec 15) (blocks : List (BitVec 8))
  /-- MOVE_FENCE_DONE (R247). -/
  | moveFenceDone (part : Fin 12) (slot : Nat)
  /-- MOV_RECORD_WRITE (R243). -/
  | movRecordWrite (k : RingKind) (part : Fin 12)
  /-- LOOKUP (R255). -/
  | lookup (part : Fin 12)
  /-- INSERT (R256). -/
  | insert (part : Fin 12)
  /-- REMOVE (R257). -/
  | remove (part : Fin 12)
  /-- HOST_BAR2_ACCESS (R286). -/
  | hostBar2Access (link : Fin 2) (off : Nat) (acc : BarAccess)
  /-- APERTURE_ACCESS (R287). -/
  | apertureAccess (link : Fin 2) (off : Nat) (acc : BarAccess)
  /-- HOST_REQUEST_RX (R308). -/
  | hostRequestRx (link : Fin 2) (v : Violation)
  /-- JQ_SQ_TAIL (R294). -/
  | jqSqTail (link : Fin 2) (slice : Fin 256) (queue : Fin 16) (v : BitVec 16)
  /-- JQ_CQ_HEAD (R297). -/
  | jqCqHead (link : Fin 2) (slice : Fin 256) (queue : Fin 16) (v : BitVec 16)
  /-- BDB (R292). -/
  | bdb (link : Fin 2) (slice : Fin 256) (n : BitVec 32)
  /-- JQ_FETCH (R294). -/
  | jqFetch (slice : Fin 256) (queue : Fin 16) (desc : HostRead)
  /-- JQ_POST_TAKE (R296). -/
  | jqPostTake (slice : Fin 256) (queue : Fin 16)
  /-- JQ_RECORD_WRITE (R297). -/
  | jqRecordWrite (slice : Fin 256) (queue : Fin 16) (host : HostWrite)
  /-- PCE_MSIX_WRITE (R289). -/
  | pceMsixWrite (link : Fin 2) (fn : Fin 4) (v : Fin 2048) (word : Fin 4) (x : BitVec 32)
  /-- PCE_INTX_PEND (R291). -/
  | pceIntxPend (link : Fin 2) (w : BitVec 32)
  /-- COMPLETION_TIMEOUT (R301). -/
  | completionTimeout (link : Fin 2) (tag : Fin 16384)
  /-- TAG_QUARANTINE_END (R301). -/
  | tagQuarantineEnd (link : Fin 2) (tag : Fin 16384)
  /-- HOST_COMPLETION_RX (R302). -/
  | hostCompletionRx (link : Fin 2) (tag : Fin 16384) (c : Completion)
  /-- BME_CLEAR (R305). -/
  | bmeClear (link : Fin 2) (fn : Fin 4)
  /-- BME_SET (R305). -/
  | bmeSet (link : Fin 2) (fn : Fin 4)
  /-- FLR (R306). -/
  | flr (link : Fin 2) (fn : Fin 4)
  /-- D3HOT_ENTRY (R307). -/
  | d3hotEntry (link : Fin 2) (fn : Fin 4)
  /-- PART_CREATE (R316). -/
  | partCreate (hub : Fin 2) (page : Fin 64)
  /-- PART_CREATE_DONE (R317). -/
  | partCreateDone (part : Fin 12)
  /-- PART_DESTROY (R318). -/
  | partDestroy (hub : Fin 2) (page : Fin 64)
  /-- PART_DESTROY_DONE (R317). -/
  | partDestroyDone (part : Fin 12)
  /-- PART_SET_QOS (R330). -/
  | partSetQos (hub : Fin 2) (page : Fin 64)
  /-- SLICE_CREATE (R324). -/
  | sliceCreate (hub : Fin 2) (page : Fin 64)
  /-- SLICE_DESTROY (R326). -/
  | sliceDestroy (hub : Fin 2) (page : Fin 64)
  /-- DLOG_SWAP (R329). -/
  | dlogSwap (hub : Fin 2) (page : Fin 64)
  /-- RID_CHANGE (R325). -/
  | ridChange (link : Fin 2) (fn : Fin 4) (rid : BitVec 16)
  /-- ETH_RETRAIN (R333). -/
  | ethRetrain (port : Fin 8)
  /-- LINK_ALIGN (R333). -/
  | linkAlign (port : Fin 8)
  /-- TRAIN_TIMEOUT (R333). -/
  | trainTimeout (port : Fin 8)
  /-- LANE_FAIL (R333). -/
  | laneFail (port : Fin 8) (lane : Fin 4)
  /-- FRAME_RX (R335). -/
  | frameRx (port : Fin 8) (frame : List (BitVec 8)) (now ts : Nat) (overflow : Bool) (desc : HostRead) (parity : Option (Fin 16)) (data record : HostWrite)
  /-- CLS_SYNC (R345). -/
  | clsSync (hub : Fin 2) (who : Req)
  /-- CLS_FENCE (R346). -/
  | clsFence (hub : Fin 2)
  /-- CLS_FENCE_CLEAR (R346). -/
  | clsFenceClear (hub : Fin 2)
  /-- NIC_QP_CREATE (R349). -/
  | nicQpCreate (hub : Fin 2) (page : Fin 64)
  /-- NIC_QP_DESTROY (R349). -/
  | nicQpDestroy (hub : Fin 2) (page : Fin 64)
  /-- NQ_RX_TAIL (R354). -/
  | nqRxTail (link : Fin 2) (qp : Fin 4096) (v : BitVec 16)
  /-- NQ_TX_TAIL (R353). -/
  | nqTxTail (link : Fin 2) (qp : Fin 4096) (v : BitVec 16)
  /-- NQ_CQ_HEAD (R351). -/
  | nqCqHead (link : Fin 2) (qp : Fin 4096) (v : BitVec 16)
  /-- NIC_TX_FETCH (R353). -/
  | nicTxFetch (link : Fin 2) (qp : Fin 4096) (desc data : HostRead) (parity : Option (Fin 16))
  /-- NIC_TX_DONE (R353). -/
  | nicTxDone (link : Fin 2) (qp : Fin 4096) (host : HostWrite)
  /-- NIC_SA_ADD (R439). -/
  | nicSaAdd (hub : Fin 2) (page : Fin 64)
  /-- NIC_SA_DEL (R439). -/
  | nicSaDel (hub : Fin 2) (page : Fin 64)
  /-- SDT_CONN_OPEN (R359). -/
  | sdtConnOpen (hub : Fin 2) (page : Fin 64)
  /-- SDT_CONN_CLOSE (R384). -/
  | sdtConnClose (hub : Fin 2) (page : Fin 64)
  /-- SDT_CLOSE_DONE (R384). -/
  | sdtCloseDone (conn : Fin 65536)
  /-- SDT_KEY_GRANT (R381). -/
  | sdtKeyGrant (hub : Fin 2) (page : Fin 64)
  /-- SDT_KEY_REVOKE (R381). -/
  | sdtKeyRevoke (hub : Fin 2) (page : Fin 64)
  /-- SDT_ENTRY_TAKE (R365). -/
  | sdtEntryTake (conn : Fin 65536)
  /-- SDT_WRITE (R366). -/
  | sdtWrite (conn : Fin 65536)
  /-- SDT_FLUSH (R380). -/
  | sdtFlush (conn : Fin 65536)
  /-- SDT_WAIT (R382). -/
  | sdtWait (conn : Fin 65536)
  /-- SDT_WAIT_FIRED (R382). -/
  | sdtWaitFired (conn : Fin 65536)
  /-- SDT_PACKET_TX (R370). -/
  | sdtPacketTx (conn : Fin 65536) (now : Nat) (slice : Fin 256) (host : HostRead) (parity : Option (Fin 16))
  /-- SDT_DATA_RX (R374). -/
  | sdtDataRx (hub : Fin 2) (now : Nat) (parity : Option (Fin 16)) (host : HostWrite)
  /-- SDT_ACK_RX (R371). -/
  | sdtAckRx (hub : Fin 2) (now : Nat)
  /-- SDT_NACK_RX (R373). -/
  | sdtNackRx (hub : Fin 2) (now : Nat)
  /-- SDT_CLOSE_RX (R383). -/
  | sdtCloseRx (hub : Fin 2)
  /-- SDT_LOSS_TIMEOUT (R372). -/
  | sdtLossTimeout (conn : Fin 65536) (msn : BitVec 32) (index now : Nat)
  /-- SDT_BASE_RESET (R371). -/
  | sdtBaseReset (conn : Fin 65536) (path : Fin 256)
  /-- SDT_MSG_DELIVER (R376). -/
  | sdtMsgDeliver (conn : Fin 65536) (host : HostRead)
  /-- SDT_SEND_RECORD (R380). -/
  | sdtSendRecord (conn : Fin 65536)
  /-- EGRESS_ENQUEUE (R391). -/
  | egressEnqueue (hub : Fin 2) (queue : Nat) (port : Option (Fin 4)) (part : Option (Fin 12)) (frame : List (BitVec 8))
  /-- EGRESS_SELECT (R393). -/
  | egressSelect (port : Fin 8) (now ts : Nat)
  /-- TSH_COMMIT_GCL (R399). -/
  | tshCommitGcl (port : Fin 8)
  /-- TSH_COMMIT_WMAP (R399). -/
  | tshCommitWmap (port : Fin 8)
  /-- SHADOW_APPLY (R399). -/
  | shadowApply (port : Fin 8) (gcl : Bool) (ts : Nat)
  /-- NVME_DOORBELL (R404). -/
  | nvmeDoorbell (link : Fin 2) (cq : Bool) (qid : Fin 3072) (value : BitVec 16)
  /-- NVC_IDB (R404). -/
  | nvcIdb (link : Fin 2) (word : BitVec 32)
  /-- NVME_CC_EN_SET (R402). -/
  | nvmeCcEnSet (link : Fin 2) (cc aqa : BitVec 32) (asq acq : BitVec 64)
  /-- NVME_CC_EN_CLEAR (R418). -/
  | nvmeCcEnClear (link : Fin 2)
  /-- NVME_CC_SHN (R418). -/
  | nvmeCcShn (link : Fin 2)
  /-- DELETE_IO_SQ (R405). -/
  | deleteIoSq (link : Fin 2) (c : AdminCmd)
  /-- CREATE_IO_SQ (R405). -/
  | createIoSq (link : Fin 2) (c : AdminCmd)
  /-- DELETE_IO_CQ (R405). -/
  | deleteIoCq (link : Fin 2) (c : AdminCmd)
  /-- CREATE_IO_CQ (R405). -/
  | createIoCq (link : Fin 2) (c : AdminCmd)
  /-- GET_LOG_PAGE (R405). -/
  | getLogPage (link : Fin 2) (c : AdminCmd)
  /-- IDENTIFY (R405). -/
  | identify (link : Fin 2) (c : AdminCmd)
  /-- NVME_ABORT (R415). -/
  | nvmeAbort (link : Fin 2) (c : AdminCmd)
  /-- SET_FEATURES (R405). -/
  | setFeatures (link : Fin 2) (c : AdminCmd)
  /-- GET_FEATURES (R405). -/
  | getFeatures (link : Fin 2) (c : AdminCmd)
  /-- ASYNCHRONOUS_EVENT_REQUEST (R405). -/
  | asynchronousEventRequest (link : Fin 2) (c : AdminCmd)
  /-- QP_BIND (R406). -/
  | qpBind (link : Fin 2) (c : AdminCmd)
  /-- NS_MASK (R407). -/
  | nsMask (link : Fin 2) (c : AdminCmd) (map : HostRead)
  /-- NVME_CMD_FETCH (R413). -/
  | nvmeCmdFetch (link : Fin 2) (sq : Fin 16385) (c : IoCmd)
  /-- NVME_CMD_START (R413). -/
  | nvmeCmdStart (link : Fin 2) (num now : Nat)
  /-- NVME_FLUSH (R413). -/
  | nvmeFlush (link : Fin 2) (num : Nat)
  /-- NVME_WRITE (R410). -/
  | nvmeWrite (link : Fin 2) (num : Nat) (data : HostRead) (bad : List Nat) (parity : Option PipeFault)
  /-- NVME_READ (R410). -/
  | nvmeRead (link : Fin 2) (num : Nat) (parity : Option PipeFault)
  /-- COMPARE (R408). -/
  | compare (link : Fin 2) (num : Nat) (data : HostRead) (parity : Option PipeFault)
  /-- WRITE_ZEROES (R408). -/
  | writeZeroes (link : Fin 2) (num : Nat) (parity : Option PipeFault)
  /-- DATASET_MANAGEMENT (R408). -/
  | datasetManagement (link : Fin 2) (num : Nat) (parity : Option PipeFault)
  /-- SSD_CMD_COMPLETE (R410). -/
  | ssdCmdComplete (port : Fin 16) (cid : Nat) (status : BitVec 15) (data : List (BitVec 8)) (parity : Option PipeFault)
  /-- SSD_CMD_TIMEOUT (R420). -/
  | ssdCmdTimeout (port : Fin 16) (cid : Nat)
  /-- SSD_VIOLATION (R421). -/
  | ssdViolation (port : Fin 16) (kind : SsdFault)
  /-- NS_CREATE (R409). -/
  | nsCreate (hub : Fin 2) (page : Fin 64) (backing : List Backing)
  /-- NS_DELETE (R409). -/
  | nsDelete (hub : Fin 2) (page : Fin 64)
  /-- SLOT_SAMPLE (R422). -/
  | slotSample (port : Fin 16) (levels : BitVec 2)
  /-- PRESENCE_DETECT (R423). -/
  | presenceDetect (port : Fin 16)
  /-- BUTTON_PRESS (R423). -/
  | buttonPress (port : Fin 16)
  /-- SLOT_POWER_TIMER (R423). -/
  | slotPowerTimer (port : Fin 16)
  /-- SLOT_LINK_RESULT (R423). -/
  | slotLinkResult (port : Fin 16) (found : SlotFound)
  /-- EJECT_TIMEOUT (R423). -/
  | ejectTimeout (port : Fin 16)
  /-- PRP_CTL_EJECT (R423). -/
  | prpCtlEject (port : Fin 16)
  /-- PRP_CTL_POWER (R423). -/
  | prpCtlPower (port : Fin 16)
  /-- SURPRISE_REMOVAL (R424). -/
  | surpriseRemoval (port : Fin 16) (linkDown : Bool)
  /-- CIPHER_PIPE_OP (R429). -/
  | cipherPipeOp (hub : Fin 2) (now : Nat)
  /-- PIPE_LOST (R435). -/
  | pipeLost (hub : Fin 2) (pipe : Fin 16)
  /-- KEY_LOAD (R433). -/
  | keyLoad (hub : Fin 2) (page : Fin 64)
  /-- KEY_ZERO (R434). -/
  | keyZero (hub : Fin 2) (page : Fin 64)
  /-- OWNER_SET (R450). -/
  | ownerSet (hub : Fin 2) (page : Fin 64) (r : OwnerSet)
  /-- DBG_CHALLENGE (R452). -/
  | dbgChallenge (hub : Fin 2) (page : Fin 64)
  /-- DBG_UNLOCK (R452). -/
  | dbgUnlock (hub : Fin 2) (page : Fin 64) (scope : BitVec 8) (u : Unlock) (elapsed : Nat)
  /-- DBG_LOCK (R452). -/
  | dbgLock (hub : Fin 2) (page : Fin 64)
  /-- NONCE_EXPIRY (R452). -/
  | nonceExpiry (n : Nat)
  /-- GET_VERSION (R448). -/
  | getVersion (via : SpdmVia)
  /-- GET_CAPABILITIES (R448). -/
  | getCapabilities (via : SpdmVia)
  /-- NEGOTIATE_ALGORITHMS (R448). -/
  | negotiateAlgorithms (via : SpdmVia)
  /-- GET_DIGESTS (R448). -/
  | getDigests (via : SpdmVia)
  /-- GET_CERTIFICATE (R448). -/
  | getCertificate (via : SpdmVia) (offset len : Nat)
  /-- CHALLENGE (R448). -/
  | challenge (via : SpdmVia) (nonce : List (BitVec 8))
  /-- GET_MEASUREMENTS (R449). -/
  | getMeasurements (via : SpdmVia) (index : Option (Fin 12)) (signed : Bool) (nonce : List (BitVec 8))
  /-- KEY_EXCHANGE (R448). -/
  | keyExchange (via : SpdmVia) (req : BitVec 16) (exchange : List (BitVec 8))
  /-- FINISH (R448). -/
  | finish (via : SpdmVia) (id : Nat)
  /-- HEARTBEAT (R448). -/
  | heartbeat (via : SpdmVia) (id : Nat)
  /-- KEY_UPDATE (R448). -/
  | keyUpdate (via : SpdmVia) (id : Nat)
  /-- END_SESSION (R448). -/
  | endSession (via : SpdmVia) (id : Nat)
  /-- VENDOR_DEFINED_REQUEST (R448). -/
  | vendorDefinedRequest (via : SpdmVia) (id : Nat) (op : IdeOp) (stream : Fin 2)
  /-- MBX_GO (R459). -/
  | mbxGo (hub : Fin 2) (page : Fin 64) (link : Fin 2) (msg : HostRead)
  /-- MBX_REPLY (R459). -/
  | mbxReply (hub : Fin 2) (page : Fin 64)
  /-- MCTP_MESSAGE (R463). -/
  | mctpMessage (msg : List (BitVec 8))
  /-- LOG_MIRROR (R467). -/
  | logMirror (hub : Fin 2) (page : Fin 64)
  /-- TRACE_SET (R468). -/
  | traceSet (hub : Fin 2) (page : Fin 64)
  /-- FW_UPDATE (R471). -/
  | fwUpdate (hub : Fin 2) (page : Fin 64)
  /-- FW_COMMIT (R471). -/
  | fwCommit (hub : Fin 2) (page : Fin 64)
  /-- FW_ACTIVATE (R471). -/
  | fwActivate (hub : Fin 2) (page : Fin 64)
  /-- FW_CONFIRM (R471). -/
  | fwConfirm (hub : Fin 2) (page : Fin 64)
  /-- CORE_LOAD (R473). -/
  | coreLoad (hub : Fin 2) (page : Fin 64)
  /-- JQ_CREATE (R465). -/
  | jqCreate (hub : Fin 2) (page : Fin 64)
  /-- JQ_DESTROY (R465). -/
  | jqDestroy (hub : Fin 2) (page : Fin 64)
  /-- REATTACH (R476). -/
  | reattach (hub : Fin 2) (page : Fin 64)
  /-- RESUME (R476). -/
  | resume (hub : Fin 2) (page : Fin 64)
  /-- EVT_READ (R520). -/
  | evtRead (hub : Fin 2) (page : Fin 64)
  /-- CORE_RETIRE (R508). -/
  | coreRetire (hub : Fin 2) (page : Fin 64)
  /-- FWP_HB (R474). -/
  | fwpHb (link : Fin 2) (v : BitVec 32)
  /-- DRIVER_LOSS (R475). -/
  | driverLoss (link : Fin 2)
  /-- FWP_WATCHDOG (R457). -/
  | fwpWatchdog (hub : Fin 2) (index : Fin 16)
  /-- FWP_FAULT (R457). -/
  | fwpFault (hub : Fin 2) (index : Fin 16) (now : Nat)
  /-- FWP_CTL_RESTART (R457). -/
  | fwpCtlRestart (hub : Fin 2) (index : Fin 16)
  /-- FWP_RESTART_DONE (R457). -/
  | fwpRestartDone (hub : Fin 2) (index : Fin 16)
  /-- LAMPLIGHTER_TAKEOVER (R515). -/
  | lamplighterTakeover
  /-- TRAIN_D2D (R483). -/
  | trainD2d
  /-- TRAIN_HBM (R483). -/
  | trainHbm
  /-- TRAIN_LPDDR (R483). -/
  | trainLpddr
  /-- TRAIN_ETH (R483). -/
  | trainEth
  /-- TRAIN_SSD (R483). -/
  | trainSsd
  /-- SELF_TEST (R490). -/
  | selfTest (found : SelfFound)
  /-- BUILD_MAP (R494). -/
  | buildMap
  /-- MEM_FILL (R495). -/
  | memFill
  /-- LOAD_FW (R496). -/
  | loadFw
  /-- START (R499). -/
  | start
  /-- UNIT_TRAINED (R488). -/
  | unitTrained (found : UnitFound) (fallback : Bool)
  /-- BRU_STEP_FINISH (R485). -/
  | bruStepFinish (step : Fin 12)
  /-- D2D_RETRAIN (R489). -/
  | d2dRetrain (page : Fin 42) (i : Fin 2)
  /-- D2D_LANE_LOSS (R514). -/
  | d2dLaneLoss (link : Fin 17) (width : Fin 3) (spares : Fin 9)
  /-- CORE_FAIL (R509). -/
  | coreFail (gc : Fin 160) (slot : Fin 18)
  /-- CLUSTER_FAIL (R513). -/
  | clusterFail (gc : Fin 160)
  /-- BBX_RECORD (R525). -/
  | bbxRecord (typ : BitVec 16) (sev : BitVec 2) (src : Option Page) (part : Fin 16) (payload : List (BitVec 8))
  /-- BBX_PAGE_PROGRAM (R525). -/
  | bbxPageProgram (fail : BitVec 2)
  /-- SNAP_SETUP (R532). -/
  | snapSetup (hub : Fin 2) (page : Fin 64)
  /-- SNAP_TAKE (R534). -/
  | snapTake (hub : Fin 2) (page : Fin 64)
  /-- SNAP_ABORT (R543). -/
  | snapAbort (hub : Fin 2) (page : Fin 64)
  /-- SNAP_RESTORE (R545). -/
  | snapRestore (hub : Fin 2) (page : Fin 64) (manifests : List HostRead) (granules : List (Nat × HostRead))
  /-- SNAP_STEP_ADVANCE (R533). -/
  | snapStepAdvance (part : Fin 12)
  /-- SNAP_CUT (R535). -/
  | snapCut (part : Fin 12)
  /-- SNAP_GRANULE_COPY (R536). -/
  | snapGranuleCopy (part : Fin 12) (now : Nat) (bucket : HostRead) (hold : Nat)
  /-- SNAP_COMPLETE (R535). -/
  | snapComplete (part : Fin 12)
  /-- SNAP_PREWARNING (R544). -/
  | snapPrewarning (part : Fin 12) (now : Nat)
  /-- TEL_PAIR_GO (R550). -/
  | telPairGo (hub : Fin 2)
  /-- PAIR_CAPTURE_DONE (R550). -/
  | pairCaptureDone (hub : Fin 2) (a b : BitVec 48)
  /-- TEL_PERIOD (R563). -/
  | telPeriod (hub : Fin 2) (count : BitVec 48) (pairs : List (BitVec 48 × BitVec 48))
  /-- SENSOR_SAMPLE (R552). -/
  | sensorSample (sensor : Sensor) (temp : BitVec 16) (now : Nat)
  /-- DROOP_DETECT (R555). -/
  | droopDetect (gc : Fin 160)
  /-- DROOP_RECOVER (R555). -/
  | droopRecover (gc : Fin 160)
  /-- ESTIMATOR_SCALE (R553). -/
  | estimatorScale (rail : Fin 12) (measured static counted : Nat)
  /-- ENERGY_ACCUMULATE (R554). -/
  | energyAccumulate (e : Energy)
  /-- THERMAL_LIMIT_TICK (R557). -/
  | thermalLimitTick (die : Fin 10)
  /-- POWER_LIMIT_TICK (R560). -/
  | powerLimitTick (watts : BitVec 16)
  /-- DUTY_UPDATE (R561). -/
  | dutyUpdate (part : Fin 12)
  /-- DVFS_SWITCH (R556). -/
  | dvfsSwitch (die : Fin 10)
  /-- EMERGENCY_START (R559). -/
  | emergencyStart
  /-- EMERGENCY_END (R559). -/
  | emergencyEnd
  /-- GETTID (R566). -/
  | gettid
  /-- SETEVENTRECEIVER (R566). -/
  | seteventreceiver (polling : Bool) (receiver : Option (BitVec 8))
  /-- GETPDRREPOSITORYINFO (R566). -/
  | getpdrrepositoryinfo
  /-- GETPDR (R566). -/
  | getpdr (handle : Nat)
  /-- GETSENSORREADING (R566). -/
  | getsensorreading (sensor : PldmSensor)
  /-- THERM_ALERT_RELEASE (R557). -/
  | thermAlertRelease
  /-- PWR_OK_ASSERT (R574). -/
  | pwrOkAssert (i : Fin 16)
  /-- REFCLK_RESTART (R579). -/
  | refclkRestart (clk : Fin 5)
  /-- PCIE_LINK_UP (R307). -/
  | pcieLinkUp (link : Fin 2) (width : Fin 5) (speed : Fin 6) (flit : Bool)
  /-- PCIE_LINK_DOWN (R310). -/
  | pcieLinkDown (link : Fin 2)
  /-- D3HOT_EXIT (R307). -/
  | d3hotExit (link : Fin 2) (fn : Fin 4)
  /-- CONFIGURATION_WRITE (R300). -/
  | configurationWrite (link : Fin 2) (w : CfgWrite)
  /-- ATS_INVALIDATE (R284). -/
  | atsInvalidate (link : Fin 2) (fn : Fin 4) (itag : Fin 32) (pasid : Option (BitVec 20)) (page n : Nat)
  /-- SSD_CSTS_CFS (R420). -/
  | ssdCstsCfs (port : Fin 16)
  /-- SSD_NOT_READY (R420). -/
  | ssdNotReady (port : Fin 16)
  /-- MEMORY_UNIT_LOST (R212). -/
  | memoryUnitLost (unit : Fin 112) (channels : BitVec 8)
  /-- LANE_LOCK (R333). -/
  | laneLock (port : Fin 8) (lane : Fin 4)
  deriving DecidableEq, Repr

end Sys2Proof
end

