-- ==== Sys2Proof/Decode.lean ====
section
/-! DEFINITION. The commands that words spell. No row of spec/opcode_table.json gives bits: the device has no instruction
words of its own at this level, and no word spells a command. (The syllables of a core's program are decoded from its
instruction store in Machine/Bundle.lean.) -/
namespace Sys2Proof

/-- The command that a word of the table spells: none. -/
def decodeTableWord (_nbits _w : Nat) : Option Instr := none

end Sys2Proof
end

