-- ==== Sys2Proof/Config.lean ====
section
/-! DEFINITION. What one implementation fixes and the free values: constants with no body, so that no proof can see a
value of them. Each is applied to a counter that the step advances (State.freeCtr) and an index. -/
namespace Sys2Proof.Config

/-- A free value of any kind: the draw `ctr`, item `i`. Where the spec leaves a value open (the bracketing code of a
faithful rounding, R83; the order of additions into C, R79; the result of a race, R117; a byte written over its own
source, R162; a random tag or nonce), the model takes it from here. -/
opaque free (ctr i : Nat) : Nat

/-- Check bytes of a Reed-Solomon code (R262), n of them: the spec gives neither the field polynomial nor the generator. -/
opaque rsCheck (n : Nat) (line : Bytes) : BitVec 64

/-- The block cipher of the keyed pipes (AES-GCM, AES-XTS, SM4-GCM, SM4-XTS of R430): algorithm, direction (true
encrypts), key, nonce or tweak, additional data, input; the answer is the output bytes. -/
opaque cipher (alg : Nat) (encrypt : Bool) (key nonce aad input : Bytes) : Bytes

/-- The authentication tag that goes with `cipher`. -/
opaque cipherTag (alg : Nat) (key nonce aad input : Bytes) : Bytes

/-- An SM2 signature check: public key, message and signature (R442-R453). -/
opaque sm2Verify (publicKey message signature : Bytes) : Bool

/-- What the security processor signs or derives: a label, key material and a message. -/
opaque sm2Derive (label : Nat) (key message : Bytes) : Bytes

/-- The secret image of a chip: the seed its PUF yields (R446). -/
opaque pufSeed : BitVec 256

/-- ROM_ROOT_HASH, the SM3 of hub 0's mask ROM, and the device serial from ROM (R442, R449, R452). -/
opaque romRootHash : Bytes
opaque romDigest : Bytes
opaque serial : Bytes

/-- The certificate chain of slot 0 (R447, R448). -/
opaque certificates : Bytes

end Sys2Proof.Config
end

