-- ==== Sys2Proof/Machine/Num.lean ====
section
/-! DEFINITION. Exact arithmetic behind the numbers of the device: dyadic rationals, IEEE formats, the ring Z[sqrt 2] and
512th roots of powers of two (03_glim_numbers.md R60-R98). Every operation is exact and rounds once where the spec says. -/
namespace Sys2Proof.Machine

/-- Bits lo .. lo + len - 1 of a natural number. -/
def natBits (x lo len : Nat) : Nat := (x >>> lo) % 2 ^ len

/-- Two's complement value of the low w bits. -/
def signedOf (w x : Nat) : Int :=
  let y := x % 2 ^ w
  if w ≠ 0 ∧ 2 ^ (w - 1) ≤ y then (y : Int) - (2 : Int) ^ w else (y : Int)

/-- Two's complement code of an integer in w bits. -/
def codeOf (w : Nat) (x : Int) : Nat := (x % (2 : Int) ^ w).toNat

/-- m / 2^k rounded to nearest, ties to even. -/
def rneShift (m k : Nat) : Nat :=
  let q := m >>> k
  let r := m % 2 ^ k
  if k = 0 then m
  else if 2 ^ (k - 1) < r ∨ (r = 2 ^ (k - 1) ∧ q % 2 = 1) then q + 1 else q

/-- An integer divided by 2^k, rounded to nearest, ties to even. -/
def rneShiftInt (x : Int) (k : Nat) : Int :=
  if x < 0 then - (rneShift x.natAbs k : Int) else (rneShift x.natAbs k : Int)

/-- m * 2^e rounded to an integer, ties to even. -/
def rneInt (m : Nat) (e : Int) : Nat :=
  if 0 ≤ e then m <<< e.toNat else rneShift m (-e).toNat

/-- Compares m1 * 2^e1 with m2 * 2^e2. -/
def cmpDy (m1 : Int) (e1 : Int) (m2 : Int) (e2 : Int) : Ordering :=
  let e := min e1 e2
  compare (m1 * (2 : Int) ^ (e1 - e).toNat) (m2 * (2 : Int) ^ (e2 - e).toNat)

/-- Newton steps towards the integer square root. -/
def sqrtStep (n : Nat) : Nat → Nat → Nat
  | 0, x => x
  | k + 1, x =>
    let y := (x + n / x) / 2
    if x ≤ y then x else sqrtStep n k y

/-- Floor of the square root of n. -/
def isqrt (n : Nat) : Nat :=
  if n = 0 then 0 else sqrtStep n 200 (2 ^ (Nat.log2 n / 2 + 1))

/-- Floor of the 512th root: nine square roots. -/
def root512 (n : Nat) : Nat :=
  isqrt (isqrt (isqrt (isqrt (isqrt (isqrt (isqrt (isqrt (isqrt n))))))))

/-! ## Binary floating formats -/

/-- A binary format: exponent bits, fraction bits, and whether its top exponent holds infinities and NaNs. -/
structure FFmt where
  eb : Nat
  mb : Nat
  special : Bool
  deriving DecidableEq, Repr

def FFmt.fp32 : FFmt := ⟨8, 23, true⟩
def FFmt.bf16 : FFmt := ⟨8, 7, true⟩
def FFmt.fp16 : FFmt := ⟨5, 10, true⟩
/-- E5M2 of the OCP Microscaling Formats: it has infinities and NaNs. -/
def FFmt.e5m2 : FFmt := ⟨5, 2, true⟩
/-- E4M3: no infinity; the code with all ones is NaN. -/
def FFmt.e4m3 : FFmt := ⟨4, 3, false⟩
/-- E2M1: neither infinity nor NaN. -/
def FFmt.e2m1 : FFmt := ⟨2, 1, false⟩

def FFmt.bias (f : FFmt) : Int := (2 : Int) ^ (f.eb - 1) - 1

/-- Exponent of the last place of the least normal number. -/
def FFmt.qmin (f : FFmt) : Int := 1 - f.bias - f.mb

/-- The value of a floating code: NaN, an infinity, or (-1)^neg * m * 2^e. -/
inductive FVal where
  | nan
  | inf (neg : Bool)
  | fin (neg : Bool) (m : Nat) (e : Int)
  deriving DecidableEq, Repr

/-- The value of a code. -/
def FFmt.decode (f : FFmt) (x : Nat) : FVal :=
  let neg := natBits x (f.eb + f.mb) 1 = 1
  let ex := natBits x f.mb f.eb
  let fr := natBits x 0 f.mb
  if f.special ∧ ex = 2 ^ f.eb - 1 then (if fr = 0 then .inf neg else .nan)
  else if f = FFmt.e4m3 ∧ ex = 15 ∧ fr = 7 then .nan
  else if ex = 0 then .fin neg fr f.qmin
  else .fin neg (2 ^ f.mb + fr) (f.qmin + ex - 1)

/-- Magnitude code of m * 2^e rounded to nearest even, without the limits of the format. -/
def FFmt.roundMag (f : FFmt) (m : Nat) (e : Int) : Nat :=
  if m = 0 then 0
  else
    let top := e + Nat.log2 m
    let q := max (top - f.mb) f.qmin
    (q - f.qmin).toNat * 2 ^ f.mb + rneInt m (e - q)

/-- Code of the infinity of a format that has one. -/
def FFmt.infCode (f : FFmt) : Nat := (2 ^ f.eb - 1) * 2 ^ f.mb

def FFmt.signBit (f : FFmt) (neg : Bool) : Nat := if neg then 2 ^ (f.eb + f.mb) else 0

/-- The canonical quiet NaN (R95). -/
def FFmt.nanCode (f : FFmt) : Nat :=
  if f.special then f.infCode + 2 ^ (f.mb - 1) else 2 ^ (f.eb + f.mb) - 1

/-- IEEE 754 rounding to nearest even, with subnormals; overflow gives the infinity (R83). -/
def FFmt.round (f : FFmt) (neg : Bool) (m : Nat) (e : Int) : Nat :=
  f.signBit neg + min (f.roundMag m e) f.infCode

/-- The code of a value (R83, R95). -/
def FFmt.encode (f : FFmt) : FVal → Nat
  | .nan => f.nanCode
  | .inf neg => f.signBit neg + f.infCode
  | .fin neg m e => f.round neg m e

def FVal.isNan : FVal → Bool
  | .nan => true
  | _ => false

def FVal.isZero : FVal → Bool
  | .fin _ 0 _ => true
  | _ => false

def FVal.neg : FVal → FVal
  | .nan => .nan
  | .inf n => .inf (!n)
  | .fin n m e => .fin (!n) m e

def FVal.abs : FVal → FVal
  | .nan => .nan
  | .inf _ => .inf false
  | .fin _ m e => .fin false m e

/-- Signed significand. -/
def sgn (neg : Bool) (m : Nat) : Int := if neg then - (m : Int) else (m : Int)

/-- Exact sum of two values; an exact zero sum is -0 only when both terms are negative (IEEE 754, nearest even). -/
def FVal.add : FVal → FVal → FVal
  | .nan, _ => .nan
  | _, .nan => .nan
  | .inf a, .inf b => if a = b then .inf a else .nan
  | .inf a, .fin _ _ _ => .inf a
  | .fin _ _ _, .inf b => .inf b
  | .fin n1 m1 e1, .fin n2 m2 e2 =>
    let e := min e1 e2
    let t := sgn n1 m1 * (2 : Int) ^ (e1 - e).toNat + sgn n2 m2 * (2 : Int) ^ (e2 - e).toNat
    if t = 0 then .fin (n1 && n2) 0 e else .fin (decide (t < 0)) t.natAbs e

/-- Exact product. -/
def FVal.mul : FVal → FVal → FVal
  | .nan, _ => .nan
  | _, .nan => .nan
  | .inf a, .inf b => .inf (a != b)
  | .inf a, .fin b m _ => if m = 0 then .nan else .inf (a != b)
  | .fin b m _, .inf a => if m = 0 then .nan else .inf (a != b)
  | .fin n1 m1 e1, .fin n2 m2 e2 => .fin (n1 != n2) (m1 * m2) (e1 + e2)

/-- A quotient carried to 80 bits beyond the point with a sticky last bit, which rounds as the exact quotient does in
every format here. -/
def FVal.div : FVal → FVal → FVal
  | .fin n1 m1 e1, .fin n2 m2 e2 =>
    if m2 = 0 then (if m1 = 0 then .nan else .inf (n1 != n2))
    else
      let num := m1 <<< 160
      let q := num / m2
      let r := num % m2
      .fin (n1 != n2) (2 * q + (if r = 0 then 0 else 1)) (e1 - e2 - 161)
  | .inf a, .fin b _ _ => .inf (a != b)
  | .fin a _ _, .inf b => .fin (a != b) 0 0
  | _, _ => .nan

/-- Comparison of two values that are not NaN. -/
def FVal.cmp : FVal → FVal → Ordering
  | .inf a, .inf b => if a = b then .eq else if a then .lt else .gt
  | .inf a, _ => if a then .lt else .gt
  | _, .inf b => if b then .gt else .lt
  | .fin n1 m1 e1, .fin n2 m2 e2 => cmpDy (sgn n1 m1) e1 (sgn n2 m2) e2
  | _, _ => .eq

/-- Sum, product and fused multiply-add of codes of one format, rounded once (R121). -/
def FFmt.add (f : FFmt) (a b : Nat) : Nat := f.encode ((f.decode a).add (f.decode b))
def FFmt.sub (f : FFmt) (a b : Nat) : Nat := f.encode ((f.decode a).add (f.decode b).neg)
def FFmt.mul (f : FFmt) (a b : Nat) : Nat := f.encode ((f.decode a).mul (f.decode b))
def FFmt.fma (f : FFmt) (d a b : Nat) : Nat := f.encode ((f.decode d).add ((f.decode a).mul (f.decode b)))

/-! ## Exact values with square roots of two and 512th roots -/

/-- An exact value met by a conversion: a floating value, a half-octave power 2^(h/2) of a Glim code (R60), or a
GL16 magnitude 2^(n/512) (R72). -/
inductive Ex where
  | flt (v : FVal)
  | half (neg : Bool) (h : Int)
  | pow (neg : Bool) (n : Int)
  deriving DecidableEq, Repr

def Ex.zero : Ex := .flt (.fin false 0 0)

def Ex.isZero : Ex → Bool
  | .flt v => v.isZero
  | _ => false

/-- Neither an infinity nor a NaN. -/
def Ex.isFinite : Ex → Bool
  | .flt .nan => false
  | .flt (.inf _) => false
  | _ => true

def Ex.neg : Ex → Bool
  | .flt (.fin n _ _) => n
  | .flt (.inf n) => n
  | .flt .nan => false
  | .half n _ => n
  | .pow n _ => n

/-- 2^(n/512) as a dyadic with 80 bits below the leading one and a sticky last bit; exact when 512 divides n. -/
def powDy (n : Int) : Nat × Int :=
  let i := n / 512
  let f := (n % 512).toNat
  if f = 0 then (1, i) else (2 * root512 (2 ^ (f + 512 * 80)) + 1, i - 81)

/-- A dyadic that rounds as the value does in every format here (sticky where the value is irrational). -/
def Ex.dy : Ex → Nat × Int
  | .flt (.fin _ m e) => (m, e)
  | .flt _ => (0, 0)
  | .half _ h => powDy (256 * h)
  | .pow _ n => powDy n

/-- As a floating value that rounds as the exact value does. -/
def Ex.toF : Ex → FVal
  | .flt v => v
  | x => .fin x.neg x.dy.1 x.dy.2

/-- An element a + b * sqrt 2 of Z[sqrt 2] compared with 0. -/
def signR2 (a b : Int) : Ordering :=
  if b = 0 then compare a 0
  else if 0 ≤ a ∧ 0 < b then .gt
  else if a ≤ 0 ∧ b < 0 then .lt
  else if 0 < b then compare (2 * b * b) (a * a)
  else compare (a * a) (2 * b * b)

/-- Square in Z[sqrt 2], nine times over: the 512th power. -/
def powR2 : Nat → Int → Int → Int × Int
  | 0, a, b => (a, b)
  | k + 1, a, b => powR2 k (a * a + 2 * b * b) (2 * a * b)

/-- Compares |x| with the positive bound (a + b * sqrt 2) * 2^e, exactly (R84). -/
def Ex.cmpMag (x : Ex) (a b : Int) (e : Int) : Ordering :=
  match x with
  | .flt (.fin _ m e1) =>
    let e0 := min e1 e
    let k := (2 : Int) ^ (e - e0).toNat
    signR2 ((m : Int) * (2 : Int) ^ (e1 - e0).toNat - a * k) (- b * k)
  | .flt _ => .gt
  | .half _ h =>
    let i := h / 2
    let e0 := min i e
    let k := (2 : Int) ^ (e - e0).toNat
    let w := (2 : Int) ^ (i - e0).toNat
    if h % 2 = 0 then signR2 (w - a * k) (- b * k) else signR2 (- a * k) (w - b * k)
  | .pow _ n =>
    let p := powR2 9 a b
    -- 2^n against (a + b sqrt 2)^512 * 2^(512 e)
    let d := n - 512 * e
    let e0 := min d 0
    let k := (2 : Int) ^ (0 - e0).toNat
    signR2 ((2 : Int) ^ (d - e0).toNat - p.1 * k) (- p.2 * k)

/-- Compares |x| with 2^(h/2). -/
def Ex.cmpHalf (x : Ex) (h : Int) : Ordering :=
  if h % 2 = 0 then x.cmpMag 1 0 (h / 2) else x.cmpMag 0 1 (h / 2)

/-- Compares |x| with 2^(g/2) * |y| for finite x and y. -/
def Ex.cmpScaled (x y : Ex) (g : Int) : Ordering :=
  let mag512 : Ex → Nat × Int  -- the 512th power of the square of a magnitude
    | .flt (.fin _ m e) => (m ^ 1024, 1024 * e)
    | .flt _ => (0, 0)
    | .half _ h => (1, 512 * h)
    | .pow _ n => (1, 2 * n)
  let a := mag512 x
  let b := mag512 y
  cmpDy a.1 a.2 b.1 (b.2 + 512 * g)

/-- The order of two finite magnitudes. -/
def Ex.cmpAbs (x y : Ex) : Ordering :=
  match x, y with
  | .flt (.fin _ m1 e1), .flt (.fin _ m2 e2) => cmpDy m1 e1 m2 e2
  | _, _ => x.cmpScaled y 0

/-- Least integer k with |x| ≤ 2^(k/2), for x not zero: found from the bit length. -/
def Ex.ceilHalf (x : Ex) : Int :=
  match x with
  | .half _ h => h
  | .pow _ n => -((-n) / 256)
  | .flt (.fin _ m e) =>
    let top := e + Nat.log2 m           -- 2^top ≤ |x| < 2^(top + 1)
    if x.cmpHalf (2 * top) != .gt then 2 * top
    else if x.cmpHalf (2 * top + 1) != .gt then 2 * top + 1
    else 2 * top + 2
  | _ => 0

/-! ## GL16 (R72, R73, R83) -/

def gl16Zero : Nat := 0x4000
def gl16NoValue : Nat := 0xC000

/-- The GL16 code with sign and n; limits of R73 and R128: above 16,383 the largest magnitude with SAT, below -16,383
zero. The second component is SAT. -/
def gl16Of (neg : Bool) (n : Int) : Nat × Bool :=
  if 16383 < n then ((if neg then 0x8000 else 0) + 16383, true)
  else if n < -16383 then (gl16Zero, false)
  else ((if neg then 0x8000 else 0) + codeOf 15 n, false)

/-- A GL16 code read as a value; no value reads as NaN. -/
def gl16Ex (x : Nat) : Ex :=
  if x % 0x10000 = gl16Zero then .zero
  else if x % 0x10000 = gl16NoValue then .flt .nan
  else .pow (natBits x 15 1 = 1) (signedOf 15 x)

/-- Outcome of a conversion: the code and the flags SAT and INVALID it sets (R90). -/
structure Conv where
  code : Nat
  sat : Bool
  inv : Bool
  deriving DecidableEq, Repr

/-- Conversion to GL16 (R73, R83): a half-octave power exactly, any other value by a faithful rounding of
512 * log2 |x|; `up` is the free choice between the two bracketing codes. -/
def toGl16 (x : Ex) (up : Bool) : Conv :=
  match x with
  | .half neg h => let r := gl16Of neg (if h < -63 then -16384 else if 63 < h then 16384 else 256 * h); ⟨r.1, r.2, false⟩
  | .pow neg n => let r := gl16Of neg n; ⟨r.1, r.2, false⟩
  | .flt .nan => ⟨gl16NoValue, false, true⟩
  | .flt (.inf neg) => ⟨(gl16Of neg 16384).1, true, false⟩
  | .flt (.fin neg m e) =>
    if m = 0 then ⟨gl16Zero, false, false⟩
    else
      let p := m ^ 512
      let fl : Int := Nat.log2 p + 512 * e
      let exact := p = 2 ^ Nat.log2 p
      let n := if exact then fl else if up then fl + 1 else fl
      let r := gl16Of neg n
      ⟨r.1, r.2, false⟩

/-- T[f]: 2^(f/512) rounded to a 24-bit significand, nearest even (R95). The rounding never meets a tie. -/
def tableT (f : Nat) : Nat := (root512 (2 ^ (f + 512 * 24)) + 1) / 2

/-- GL16 to FP32 by table T (R95). -/
def gl16ToFp32 (x : Nat) : Nat :=
  if x % 0x10000 = gl16Zero then 0
  else if x % 0x10000 = gl16NoValue then FFmt.fp32.nanCode
  else
    let n := signedOf 15 x
    FFmt.fp32.round (natBits x 15 1 = 1) (tableT (n % 512).toNat) (n / 512 - 23)

end Sys2Proof.Machine
end

