-- ==== Sys2Proof/Machine/Glim.lean ====
section
/-! DEFINITION. The Glim number family: element codes and blocks, sidecar entries, quantisation, the block forms of the
OCP Microscaling Formats, the LFSR and the rails (03_glim_numbers.md R60-R98). -/
namespace Sys2Proof.Machine

/-! ## Element and block codes -/

/-- Operand formats by FMT code (R103). -/
inductive OFmt where
  | gl4 | gl3 | gt2 | e4m3 | e5m2 | e2m1 | bf16 | fp16
  deriving DecidableEq, Repr

def OFmt.ofCode : Nat → Option OFmt
  | 0 => some .gl4
  | 1 => some .gl3
  | 2 => some .gt2
  | 3 => some .e4m3
  | 4 => some .e5m2
  | 5 => some .e2m1
  | 6 => some .bf16
  | 7 => some .fp16
  | _ => none

/-- Bits of one element (R66, R103). -/
def OFmt.bits : OFmt → Nat
  | .gl4 => 4
  | .gl3 => 3
  | .gt2 => 2
  | .e4m3 => 8
  | .e5m2 => 8
  | .e2m1 => 4
  | .bf16 => 16
  | .fp16 => 16

def OFmt.isGlim : OFmt → Bool
  | .gl4 => true
  | .gl3 => true
  | .gt2 => true
  | _ => false

def OFmt.isMx : OFmt → Bool
  | .e4m3 => true
  | .e5m2 => true
  | .e2m1 => true
  | _ => false

/-- Whether blocks of the format carry a scale byte (R103). -/
def OFmt.hasScale (f : OFmt) : Bool := f.isGlim || f.isMx

/-- The IEEE-like format of an element that is no Glim element. -/
def OFmt.ffmt : OFmt → FFmt
  | .e4m3 => .e4m3
  | .e5m2 => .e5m2
  | .e2m1 => .e2m1
  | .bf16 => .bf16
  | _ => .fp16

/-- Element bytes of a block of bs elements (R65, R103). -/
def OFmt.blockBytes (f : OFmt) (bs : Nat) : Nat := bs * f.bits / 8

/-- A Glim element: zero, the escape, or a sign with its half-octave code e (R60-R63). -/
inductive GElem where
  | zero
  | esc
  | val (neg : Bool) (e : Int)
  deriving DecidableEq, Repr

/-- Meaning of an element code (R61-R63). -/
def glimElem (f : OFmt) (c : Nat) : GElem :=
  match f with
  | .gl4 => if c = 0 then .zero else if c = 8 then .esc else .val (8 ≤ c) ((c % 8 : Nat) - 7)
  | .gl3 => if c = 0 then .zero else if c = 4 then .esc else .val (4 ≤ c) (2 * (c % 4 : Nat) - 6)
  | _ => if c = 0 then .zero else if c = 2 then .esc else .val (c = 3) 0

/-- The escape code of a format (R61-R63). -/
def escCode : OFmt → Nat
  | .gl4 => 8
  | .gl3 => 4
  | _ => 2

/-- The element code of magnitude code M and a sign; M = 0 is the zero code (R86). -/
def glimCode (f : OFmt) (neg : Bool) (m : Nat) : Nat :=
  if m = 0 then 0
  else match f with
    | .gl4 => (if neg then 8 else 0) + m
    | .gl3 => (if neg then 4 else 0) + m
    | _ => if neg then 3 else 1

/-- Element i of a block held as one little-endian integer (R66). -/
def elemAt (bits x i : Nat) : Nat := natBits x (bits * i) bits

/-- Packs element codes, element 0 least significant (R66). -/
def packElems (bits : Nat) (codes : List Nat) : Nat :=
  codes.foldr (fun c acc => acc * 2 ^ bits + c % 2 ^ bits) 0

/-- A sidecar entry (R69). -/
structure Side where
  block : Nat
  index : Nat
  reserved : Nat
  value : Nat
  deriving DecidableEq, Repr

def Side.ofNat (x : Nat) : Side := ⟨natBits x 0 32, natBits x 32 5, natBits x 37 11, natBits x 48 16⟩
def Side.toNat (e : Side) : Nat := e.block % 2 ^ 32 + e.index % 32 * 2 ^ 32 + e.value % 2 ^ 16 * 2 ^ 48

/-- Entries strictly ascending in (BLOCK, INDEX) (R70). -/
def sidesOrdered : List Side → Bool
  | a :: b :: l => (a.block < b.block || (a.block == b.block && a.index < b.index)) && sidesOrdered (b :: l)
  | _ => true

/-- Whether the entries of a consumed block break R71: block number, size, scale byte, element codes and the window. -/
def blockEscapeFault (f : OFmt) (bs blk scale elems : Nat) (window : List Side) : Bool :=
  let own := window.filter (·.block = blk)
  let isEsc (i : Nat) : Bool := elemAt f.bits elems i = escCode f
  let escs := (List.range bs).filter isEsc
  let badEntry (e : Side) : Bool :=
    e.reserved ≠ 0 || bs ≤ e.index || !(match FFmt.bf16.decode e.value with | .fin _ _ _ => true | _ => false)
  own.any badEntry ||
  (if scale = 0 then !own.isEmpty
   else if scale = 0xFF then own.map (·.index) ≠ List.range bs
   else own.map (·.index) ≠ escs || 2 < escs.length)

/-- An element of a Glim operand: its exact value, with a mark when it goes by the correction path (R78). -/
def glimValue (f : OFmt) (scale elems blk : Nat) (window : List Side) (i : Nat) : Bool × Ex :=
  let side : Ex := match window.find? (fun e => e.block = blk ∧ e.index = i) with
    | some e => .flt (FFmt.bf16.decode e.value)
    | none => .flt .nan
  if scale = 0 then (false, .zero)
  else if scale = 0xFF then (true, side)
  else match glimElem f (elemAt f.bits elems i) with
    | .zero => (false, .zero)
    | .esc => (true, side)
    | .val neg e => (false, .half neg (e + (scale : Int) - 128))

/-- An element of an MX operand: its value times the shared scale 2^(X - 127); a scale byte 0xFF is NaN (R80, R95). -/
def mxValue (f : OFmt) (scale elems i : Nat) : FVal :=
  if scale = 0xFF then .nan
  else match f.ffmt.decode (elemAt f.bits elems i) with
    | .fin n m e => .fin n m (e + (scale : Int) - 127)
    | v => v

/-! ## Quantising (R84-R88) -/

/-- One step of the LFSR (R89). -/
def lfsrStep (x : BitVec 32) : BitVec 32 :=
  if x.getLsbD 0 then (x >>> 1) ^^^ 0x80200003#32 else x >>> 1

/-- n steps of the LFSR. -/
def lfsrSteps : Nat → BitVec 32 → BitVec 32
  | 0, x => x
  | n + 1, x => lfsrSteps n (lfsrStep x)

/-- Code magnitudes of a format in ascending order as (a, b, e) for (a + b sqrt 2) * 2^e, the zero code first. -/
def magnitudes : OFmt → List (Int × Int × Int)
  | .gl4 => [(0, 0, 0), (1, 0, -3), (0, 1, -3), (1, 0, -2), (0, 1, -2), (1, 0, -1), (0, 1, -1), (1, 0, 0)]
  | .gl3 => [(0, 0, 0), (1, 0, -2), (1, 0, -1), (1, 0, 0)]
  | _ => [(0, 0, 0), (1, 0, 0)]

/-- |x| compared with (a + b sqrt 2) * 2^e * 2^(k/2). -/
def cmpScaledBound (x : Ex) (k : Int) (b : Int × Int × Int) : Ordering :=
  if b.1 = 0 ∧ b.2.1 = 0 then (if x.isZero then .eq else .gt)
  else if k % 2 = 0 then x.cmpMag b.1 b.2.1 (b.2.2 + k / 2)
  else x.cmpMag (2 * b.2.1) b.1 (b.2.2 + k / 2)

/-- Weighted sum (65536 - u) * lo + u * hi over 65536 of two bounds. -/
def mixBounds (u : Nat) (lo hi : Int × Int × Int) : Int × Int × Int :=
  let e := min lo.2.2 hi.2.2
  let w (x : Int × Int × Int) : Int × Int := (x.1 * 2 ^ (x.2.2 - e).toNat, x.2.1 * 2 ^ (x.2.2 - e).toNat)
  ((65536 - (u : Int)) * (w lo).1 + u * (w hi).1, (65536 - (u : Int)) * (w lo).2 + u * (w hi).2, e - 16)

/-- Magnitude code nearest to y = |x| / 2^(k/2) by linear distance; a tie takes the even code (R85). -/
def nearestFrom (x : Ex) (k : Int) : Nat → List (Int × Int × Int) → Nat
  | m, lo :: hi :: l =>
    match cmpScaledBound x k (mixBounds 32768 lo hi) with
    | .lt => m
    | .eq => if m % 2 = 0 then m else m + 1
    | .gt => nearestFrom x k (m + 1) (hi :: l)
  | m, _ => m

/-- Stochastic magnitude code and the LFSR after it (R88). -/
def stochFrom (x : Ex) (k : Int) (r : BitVec 32) : Nat → List (Int × Int × Int) → Nat × BitVec 32
  | m, lo :: hi :: l =>
    match cmpScaledBound x k lo, cmpScaledBound x k hi with
    | .eq, _ => (m, r)
    | _, .lt =>
      let r' := lfsrSteps 16 r
      let u := (r'.setWidth 16).toNat
      (if cmpScaledBound x k (mixBounds u lo hi) = .gt then m + 1 else m, r')
    | _, _ => stochFrom x k r (m + 1) (hi :: l)
  | m, _ => (m, r)

/-- BF16 of a sidecar VALUE: nearest even, largest finite magnitude with SAT on overflow (R87). -/
def sideValue (x : Ex) : Nat × Bool :=
  let c := FFmt.bf16.roundMag x.dy.1 x.dy.2
  if FFmt.bf16.infCode ≤ c then (FFmt.bf16.signBit x.neg + 0x7F7F, true) else (FFmt.bf16.signBit x.neg + c, false)

/-- A quantised block: scale byte, element codes, escaped elements by ascending index with their VALUE, flags, the
LFSR after it. -/
structure QBlock where
  scale : Nat
  codes : List Nat
  sides : List (Nat × Nat)
  sat : Bool
  inv : Bool
  lfsr : BitVec 32
  deriving DecidableEq, Repr

/-- Indices with their magnitudes in descending order, ties by ascending index (R84): insertion. -/
def insertMag (p : Nat × Ex) : List (Nat × Ex) → List (Nat × Ex)
  | [] => [p]
  | q :: l => if p.2.cmpAbs q.2 = .gt then p :: q :: l else q :: insertMag p l

/-- The escape loop of R84: at most n outliers are set aside. -/
def escapeLoop (gap : Option Nat) : Nat → List (Nat × Ex) → List (Nat × Ex) → List (Nat × Ex) × List (Nat × Ex)
  | 0, live, esc => (live, esc)
  | n + 1, live, esc =>
    match gap, live with
    | some g, a :: b :: l =>
      if a.2.cmpScaled b.2 g = .gt then escapeLoop gap n (b :: l) (esc ++ [a]) else (live, esc)
    | _, _ => (live, esc)

/-- Quantises one block (R84-R88). gap: the escape gap, none when escapes are disabled; stoch: stochastic rounding
(GL4 only). -/
def quantBlock (f : OFmt) (gap : Option Nat) (stoch : Bool) (xs : List Ex) (r : BitVec 32) : QBlock :=
  let inv := xs.any fun x => !x.isFinite
  let ys := xs.map fun x => if x.isFinite then x else Ex.zero
  let idx := List.zip (List.range ys.length) ys
  let live0 := (idx.filter fun p => !p.2.isZero).foldl (fun l p => insertMag p l) []
  let (live, esc) := escapeLoop gap 2 live0 []
  let zeros := List.replicate ys.length 0
  match live, esc with
  | [], [] => ⟨0, zeros, [], false, inv, r⟩
  | _, _ =>
    let k := match live with
      | [] => -127
      | a :: _ => a.2.ceilHalf
    if 126 < k ∧ gap.isSome then
      let vs := idx.map fun p => (p.1, sideValue p.2)
      ⟨0xFF, zeros, vs.map fun v => (v.1, v.2.1), vs.any (·.2.2), inv, r⟩
    else
      let sat := decide (126 < k)
      let k := max (min k 126) (-127)
      let isEsc (i : Nat) : Bool := esc.any (·.1 = i)
      let ms := magnitudes f
      let step (acc : List Nat × BitVec 32) (p : Nat × Ex) : List Nat × BitVec 32 :=
        if isEsc p.1 then (acc.1 ++ [escCode f], acc.2)
        else if p.2.isZero then (acc.1 ++ [0], acc.2)
        else if stoch ∧ f = .gl4 then
          let c := stochFrom p.2 k acc.2 0 ms
          (acc.1 ++ [glimCode f p.2.neg c.1], c.2)
        else (acc.1 ++ [glimCode f p.2.neg (nearestFrom p.2 k 0 ms)], acc.2)
      let out := idx.foldl step ([], r)
      let vs := (idx.filter fun p => isEsc p.1).map fun p => (p.1, sideValue p.2)
      ⟨(k + 128).toNat, out.1, vs.map fun v => (v.1, v.2.1), sat || vs.any (·.2.2), inv, out.2⟩

/-- Quantises consecutive blocks, threading the LFSR. -/
def quantBlocks (f : OFmt) (gap : Option Nat) (stoch : Bool) : List (List Ex) → BitVec 32 → List QBlock
  | [], _ => []
  | xs :: l, r =>
    let b := quantBlock f gap stoch xs r
    b :: quantBlocks f gap stoch l b.lfsr

/-- Splits a list into runs of n; the fuel is the length of the list. -/
def chunksFuel {α : Type} (n : Nat) : Nat → List α → List (List α)
  | 0, _ => []
  | _, [] => []
  | k + 1, l => l.take n :: chunksFuel n k (l.drop n)

def chunks {α : Type} (n : Nat) (l : List α) : List (List α) := chunksFuel n l.length l

/-- Exact value of an element of a quantised block (R60, R69). -/
def QBlock.value (f : OFmt) (b : QBlock) (i : Nat) : Ex :=
  match b.sides.find? (·.1 = i) with
  | some e => .flt (FFmt.bf16.decode e.2)
  | none => match glimElem f (b.codes.getD i 0) with
    | .val neg e => if b.scale = 0 then .zero else .half neg (e + (b.scale : Int) - 128)
    | _ => .zero

/-! ## MX blocks (R95) -/

/-- Largest exponent of an element format (R95). -/
def mxEmax : OFmt → Int
  | .e4m3 => 8
  | .e5m2 => 15
  | _ => 2

/-- Largest finite magnitude code of an element format: 448, 57,344 or 6. -/
def mxMaxCode : OFmt → Nat
  | .e4m3 => 0x7E
  | .e5m2 => 0x7B
  | _ => 0x7

/-- Floor of log2 of a finite non-zero magnitude. -/
def Ex.floorLog2 : Ex → Int
  | .flt (.fin _ m e) => e + Nat.log2 m
  | .half _ h => h / 2
  | .pow _ n => n / 512
  | _ => 0

/-- An MX block of 32 elements: scale byte X, element codes, flags (R95). With no finite element but zero, a NaN or an
infinity still gives its own code and flag under X = 0. DESIGN CHOICE (log 106). -/
def mxBlock (f : OFmt) (xs : List Ex) : Nat × List Nat × Bool × Bool :=
  let fins := xs.filter fun x => x.isFinite && !x.isZero
  let lead := fins.foldl (fun (a : Option Int) x => match a with
    | none => some x.floorLog2
    | some l => some (max l x.floorLog2)) none
  let scale : Int := match lead with
    | none => 0
    | some l => max 0 (min 254 (l - mxEmax f + 127))
  let sgnBit (neg : Bool) : Nat := f.ffmt.signBit neg
  let elem (x : Ex) : Nat × Bool × Bool :=
    match x.toF with
    | .nan => if f = .e2m1 then (0, false, true) else (f.ffmt.nanCode, false, false)
    | .inf neg => (sgnBit neg + mxMaxCode f, true, false)
    | .fin neg m e => (sgnBit neg + min (f.ffmt.roundMag m (e - (scale - 127))) (mxMaxCode f), false, false)
  let es := xs.map elem
  if lead = none ∧ xs.all Ex.isFinite then (0, List.replicate xs.length 0, false, false)
  else (scale.toNat, es.map (·.1), es.any (·.2.1), es.any (·.2.2))

/-! ## Rails (R74-R82, R97) -/

/-- The rail limits: an exact sum outside 48 bits clamps and sets the sticky flag (R77). -/
def clampRail (x : Int) : BitVec 48 × Bool :=
  if (2 : Int) ^ 47 - 1 < x then (BitVec.ofInt 48 (2 ^ 47 - 1), true)
  else if x < - (2 : Int) ^ 47 then (BitVec.ofInt 48 (- 2 ^ 47), true)
  else (BitVec.ofInt 48 x, false)

/-- x * 2^(w - accExp) as an integer, rounded to nearest even when it is a right shift (R76). -/
def alignRail (x w accExp : Int) : Int :=
  if accExp ≤ w then x * 2 ^ (w - accExp).toNat else rneShiftInt x (accExp - w).toNat

/-- A product of two Glim elements of a block pair, as its term in half-octaves: t and its sign (R74). -/
structure Term where
  neg : Bool
  t : Int
  deriving DecidableEq, Repr

/-- The partials x_even and x_odd of a block pair (R74). -/
def partials (ts : List Term) : Int × Int :=
  ts.foldl (fun a x =>
    let s : Int := if x.neg then -1 else 1
    if x.t % 2 = 0 then (a.1 + s * 2 ^ (x.t / 2 + 6).toNat, a.2)
    else (a.1, a.2 + s * 2 ^ ((x.t - 1) / 2 + 6).toNat)) (0, 0)

/-- The rails of one element with their sticky flags. -/
structure Rails where
  p : BitVec 48
  q : BitVec 48
  c : BitVec 32
  ovfP : Bool
  ovfQ : Bool
  ovfC : Bool
  deriving DecidableEq, Repr

/-- Adds the partials of a block pair with scale half-octaves s into the rails (R75-R77). -/
def Rails.addPartials (r : Rails) (accExp s : Int) (x : Int × Int) : Rails :=
  let toP := if s % 2 = 0 then alignRail x.1 (s / 2 - 6) accExp else alignRail x.2 ((s - 1) / 2 - 5) accExp
  let toQ := if s % 2 = 0 then alignRail x.2 (s / 2 - 6) accExp else alignRail x.1 ((s - 1) / 2 - 6) accExp
  let p := clampRail (r.p.toInt + toP)
  let q := clampRail (r.q.toInt + toQ)
  { r with p := p.1, q := q.1, ovfP := r.ovfP || p.2, ovfQ := r.ovfQ || q.2 }

/-- Adds an FP32 term into C (R79). -/
def Rails.addC (r : Rails) (x : Nat) : Rails :=
  let sum := (FFmt.fp32.decode r.c.toNat).add (FFmt.fp32.decode x)
  let code := FFmt.fp32.encode sum
  let beyond := match sum with
    | .fin _ _ _ => code % 2 ^ 31 = FFmt.fp32.infCode
    | _ => false
  { r with c := BitVec.ofNat 32 code, ovfC := r.ovfC || beyond }

/-- The exact value a drain rounds (R82). -/
def Rails.sum (r : Rails) (accExp : Int) : FVal :=
  match FFmt.fp32.decode r.c.toNat with
  | .fin n m e =>
    let x := r.p.toInt * 2 ^ 31 + r.q.toInt * 0xB504F334
    let y : FVal := .fin (decide (x < 0)) x.natAbs (accExp - 31)
    match y.add (.fin n m e) with
    | .fin _ 0 e => .fin false 0 e
    | v => v
  | v => v

/-- A factor of a correction product as FP32 (R78, R80). -/
def asFp32 (x : Ex) : Nat := FFmt.fp32.encode x.toF

/-- A correction product in FP32: a zero factor makes it +0, except beside a NaN in MX and floating operands, which
IEEE 754 makes NaN (R78, R80). -/
def correction (glimPair : Bool) (a b : Nat) : Nat :=
  let isZero (x : Nat) : Bool := x % 2 ^ 31 = 0
  if glimPair ∧ (isZero a ∨ isZero b) then 0 else FFmt.fp32.mul a b

/-- CRC-32C, reflected, initial value and final XOR all ones (R55). -/
def crc32cByte (c : BitVec 32) (b : BitVec 8) : BitVec 32 :=
  let rec go : Nat → BitVec 32 → BitVec 32
    | 0, x => x
    | n + 1, x => go n (if x.getLsbD 0 then (x >>> 1) ^^^ 0x82F63B78#32 else x >>> 1)
  go 8 (c ^^^ b.setWidth 32)

def crc32c (bs : Bytes) : BitVec 32 := ~~~ (bs.foldl crc32cByte 0xFFFFFFFF#32)

end Sys2Proof.Machine
end

