-- ==== Sys2Proof/Machine/Lanes.lean ====
section
/-! DEFINITION. The lanes of vector registers and what each vector operation computes on them (R119-R136). Nothing here
reads or writes State. -/
namespace Sys2Proof.Machine

/-- Lane types by code (R119). -/
inductive LType where
  | i8 | u8 | i16 | u16 | i32 | u32 | bf16 | fp16 | fp32 | gl16 | gl4 | gl3 | gt2 | e4m3 | e5m2 | e2m1
  deriving DecidableEq, Repr

def LType.ofCode (c : BitVec 4) : LType :=
  match c.toNat with
  | 0 => .i8
  | 1 => .u8
  | 2 => .i16
  | 3 => .u16
  | 4 => .i32
  | 5 => .u32
  | 6 => .bf16
  | 7 => .fp16
  | 8 => .fp32
  | 9 => .gl16
  | 10 => .gl4
  | 11 => .gl3
  | 12 => .gt2
  | 13 => .e4m3
  | 14 => .e5m2
  | _ => .e2m1

/-- Lane width in bits; a blocked form counts 64 elements (R119, R122). -/
def LType.width : LType → Nat
  | .i8 => 8
  | .u8 => 8
  | .i32 => 32
  | .u32 => 32
  | .fp32 => 32
  | _ => 16

def LType.count (t : LType) : Nat := 1024 / t.width

def LType.isInt : LType → Bool
  | .i8 | .u8 | .i16 | .u16 | .i32 | .u32 => true
  | _ => false

def LType.isSigned : LType → Bool
  | .i8 | .i16 | .i32 => true
  | _ => false

def LType.isFloat : LType → Bool
  | .bf16 | .fp16 | .fp32 => true
  | _ => false

/-- The blocked forms as operand formats (R120). -/
def LType.blocked : LType → Option OFmt
  | .gl4 => some .gl4
  | .gl3 => some .gl3
  | .gt2 => some .gt2
  | .e4m3 => some .e4m3
  | .e5m2 => some .e5m2
  | .e2m1 => some .e2m1
  | _ => none

def LType.isLane (t : LType) : Bool := t.blocked.isNone

def LType.ffmt : LType → FFmt
  | .bf16 => .bf16
  | .fp16 => .fp16
  | _ => .fp32

/-- Lanes of a register, lane 0 first (R119). -/
def lanes (w : Nat) (d : BitVec 1024) : List Nat :=
  (List.range (1024 / w)).map fun i => natBits d.toNat (w * i) w

/-- A register from its lanes. -/
def ofLanes (w : Nat) (l : List Nat) : BitVec 1024 := BitVec.ofNat 1024 (packElems w l)

/-- Whether lane i of width w lies in a part marked with poison (R127). -/
def laneMark (w : Nat) (m : BitVec 8) (i : Nat) : Bool := m.getLsbD (w * i / 128)

/-- Parts that hold a marked lane (R127). -/
def partsOf (w : Nat) (ms : List Bool) : BitVec 8 :=
  (List.zip (List.range ms.length) ms).foldl
    (fun acc p => if p.2 then acc ||| (1#8 <<< (w * p.1 / 128)) else acc) 0#8

/-- What a vector operation writes: data, the bytes it writes, the marks of what it writes, and the sticky flags. -/
structure VRes where
  data : BitVec 1024
  bytes : BitVec 128
  mark : BitVec 8
  sat : Bool
  inv : Bool
  deriving DecidableEq, Repr

/-- A result that writes the whole register. -/
def VRes.whole (data : BitVec 1024) (mark : BitVec 8) : VRes := ⟨data, BitVec.allOnes 128, mark, false, false⟩

/-- A mask of the bytes lo .. lo + n - 1 of a register. -/
def byteMask (lo n : Nat) : BitVec 128 := BitVec.ofNat 128 ((2 ^ n - 1) * 2 ^ lo)

/-- Spreads a byte mask to bits. -/
def maskBits (m : BitVec 128) : BitVec 1024 :=
  ofLanes 8 ((List.range 128).map fun i => if m.getLsbD i then 0xFF else 0)

/-- Merges a write into a register's data; bytes outside the mask stay (R122). -/
def mergeData (old new : BitVec 1024) (m : BitVec 128) : BitVec 1024 :=
  if m = BitVec.allOnes 128 then new else (old &&& ~~~ maskBits m) ||| (new &&& maskBits m)

/-- Merges the marks: a part written whole takes the new mark, a part written in part keeps the mark of the rest. -/
def mergeMark (old new : BitVec 8) (m : BitVec 128) : BitVec 8 :=
  (List.range 8).foldl (fun acc q =>
    let w := natBits m.toNat (16 * q) 16
    let b := if w = 0xFFFF then new.getLsbD q else if w = 0 then old.getLsbD q else old.getLsbD q || new.getLsbD q
    if b then acc ||| (1#8 <<< q) else acc) 0#8

/-! ## Lane arithmetic (R121, R123, R128) -/

/-- Vector operations of one, two or three lane operands. -/
inductive LOp where
  | add | sub | mul | fma | div | sqrt | min | max | abs | neg | shl | shr | sra | cmpeq | cmpne | cmplt | cmple
  deriving DecidableEq, Repr

/-- The types an operation accepts (R123); any other raises the illegal-bundle trap. -/
def LOp.accepts (o : LOp) (t : LType) : Bool :=
  match o with
  | .add | .sub => t.isInt || t.isFloat
  | .mul => t.isInt || t.isFloat || t == .gl16
  | .fma => t.isFloat
  | .div | .sqrt => t == .gl16
  | .min | .max => t.isLane
  | .abs | .neg => t.isSigned || t.isFloat || t == .gl16
  | .shl | .shr | .sra => t.isInt
  | .cmpeq | .cmpne | .cmplt | .cmple => t.isLane

/-- A comparable value of a lane; none is a NaN or no value. -/
def laneVal (t : LType) (x : Nat) : Option FVal :=
  if t.isInt then
    let v := if t.isSigned then signedOf t.width x else (x : Int)
    some (.fin (decide (v < 0)) v.natAbs 0)
  else if t = .gl16 then
    (match gl16Ex x with
     | .flt .nan => none
     | y => some y.toF)
  else match t.ffmt.decode x with
    | .nan => none
    | v => some v

/-- Order of two lanes by value; GL16 codes by sign and n (R128). -/
def laneCmp (t : LType) (a b : Nat) : Option Ordering :=
  match laneVal t a, laneVal t b with
  | some x, some y =>
    if t = .gl16 then
      let key (c : Nat) : Int :=
        if c = gl16Zero then 0
        else if natBits c 15 1 = 1 then -(signedOf 15 c + 16384) else signedOf 15 c + 16384
      some (compare (key a) (key b))
    else some (x.cmp y)
  | _, _ => none

/-- One lane's result with SAT and INVALID. -/
abbrev LaneOut := Nat × Bool × Bool

def plain (x : Nat) : LaneOut := (x, false, false)

/-- Minimum or maximum: a NaN or no-value operand is ignored when the other is a value; of two equal values with
different codes either may result (`pick`), since the spec names none. DESIGN CHOICE (log 14). -/
def laneMinMax (isMax : Bool) (t : LType) (pick : Bool) (a b : Nat) : Nat :=
  match laneVal t a, laneVal t b with
  | none, none => if t = .gl16 then gl16NoValue else t.ffmt.nanCode
  | none, some _ => b
  | some _, none => a
  | some _, some _ =>
    match laneCmp t a b with
    | some .lt => if isMax then b else a
    | some .gt => if isMax then a else b
    | _ => if pick then a else b

/-- GL16 multiplication, division and square root (R128). -/
def gl16Op (o : LOp) (a b : Nat) : LaneOut :=
  let na := signedOf 15 a
  let nb := signedOf 15 b
  let sg := (natBits a 15 1 = 1) != (natBits b 15 1 = 1)
  let ranged (neg : Bool) (n : Int) : LaneOut := ((gl16Of neg n).1, (gl16Of neg n).2, false)
  match o with
  | .mul =>
    if a = gl16NoValue ∨ b = gl16NoValue then plain gl16NoValue
    else if a = gl16Zero ∨ b = gl16Zero then plain gl16Zero
    else ranged sg (na + nb)
  | .div =>
    if a = gl16NoValue ∨ b = gl16NoValue then plain gl16NoValue
    else if b = gl16Zero then (gl16NoValue, false, true)
    else if a = gl16Zero then plain gl16Zero
    else ranged sg (na - nb)
  | _ =>
    if a = gl16NoValue then plain gl16NoValue
    else if a = gl16Zero then plain gl16Zero
    else if natBits a 15 1 = 1 then (gl16NoValue, false, true)
    else ranged false (rneShiftInt na 1)

/-- The result of an operation on one lane: d the old destination lane (VFMA). `pick` is the free choice of
`laneMinMax`. -/
def laneOp (o : LOp) (t : LType) (pick : Bool) (d a b : Nat) : LaneOut :=
  let w := t.width
  let ones := 2 ^ w - 1
  let bool (c : Bool) : LaneOut := plain (if c then ones else 0)
  let sh := b % w
  match o with
  | .add => if t.isInt then plain ((a + b) % 2 ^ w) else plain (t.ffmt.add a b)
  | .sub => if t.isInt then plain ((a + 2 ^ w - b) % 2 ^ w) else plain (t.ffmt.sub a b)
  | .mul => if t.isInt then plain (a * b % 2 ^ w) else if t = .gl16 then gl16Op .mul a b else plain (t.ffmt.mul a b)
  | .fma => plain (t.ffmt.fma d a b)
  | .div => gl16Op .div a b
  | .sqrt => gl16Op .sqrt a b
  | .min => plain (laneMinMax false t pick a b)
  | .max => plain (laneMinMax true t pick a b)
  | .abs =>
    if t.isInt then plain (codeOf w (signedOf w a).natAbs)
    else if t = .gl16 then plain (if a = gl16Zero ∨ a = gl16NoValue then a else a % 0x8000)
    else plain (match t.ffmt.decode a with
      | .nan => t.ffmt.nanCode
      | _ => a % 2 ^ (w - 1))
  | .neg =>
    if t.isInt then plain (codeOf w (- signedOf w a))
    else if t = .gl16 then plain (if a = gl16Zero ∨ a = gl16NoValue then a else a ^^^ 0x8000)
    else plain (match t.ffmt.decode a with
      | .nan => t.ffmt.nanCode
      | _ => a ^^^ 2 ^ (w - 1))
  | .shl => plain (a * 2 ^ sh % 2 ^ w)
  | .shr => plain (a / 2 ^ sh)
  | .sra => plain (codeOf w (signedOf w a / 2 ^ sh))
  | .cmpeq => bool (laneCmp t a b == some .eq)
  | .cmpne => bool (laneCmp t a b != some .eq)
  | .cmplt => bool (laneCmp t a b == some .lt)
  | .cmple => bool (laneCmp t a b == some .lt || laneCmp t a b == some .eq)

/-- A register operand: data and marks. -/
structure VIn where
  data : BitVec 1024
  mark : BitVec 8
  deriving DecidableEq, Repr

def zip3 {α : Type} (f : Nat → Nat → Nat → Nat → α) (x y z : List Nat) : List α :=
  (List.zip (List.range x.length) (List.zip x (List.zip y z))).map fun p => f p.1 p.2.1 p.2.2.1 p.2.2.2

/-- A lane-by-lane operation over whole registers. `one` operations ignore vb; only VFMA reads d. -/
def vLanes (o : LOp) (t : LType) (pick : Nat → Bool) (d a b : VIn) : VRes :=
  let w := t.width
  let rs := zip3 (fun i x y z => laneOp o t (pick i) x y z) (lanes w d.data) (lanes w a.data) (lanes w b.data)
  let one := o = .sqrt ∨ o = .abs ∨ o = .neg
  let mark := a.mark ||| (if one then 0#8 else b.mark) ||| (if o = .fma then d.mark else 0#8)
  ⟨ofLanes w (rs.map (·.1)), BitVec.allOnes 128, mark, rs.any (·.2.1), rs.any (·.2.2)⟩

/-- Byte permutation (R123). -/
def vPerm (a b : VIn) : VRes :=
  let src := lanes 8 a.data
  let ix := lanes 8 b.data
  let data := ofLanes 8 (ix.map fun k => if 128 ≤ k then 0 else src.getD k 0)
  let ms := (List.zip (List.range 128) ix).map fun p => laneMark 8 b.mark p.1 || (p.2 < 128 && laneMark 8 a.mark p.2)
  .whole data (partsOf 8 ms)

/-- VSPLAT (R125). -/
def vSplat (t : LType) (x : BitVec 16) : VRes :=
  let v : Nat :=
    match t with
    | .i8 | .u8 => x.toNat % 256
    | .i32 => codeOf 32 x.toInt
    | .u32 => x.toNat
    | .fp32 => x.toNat * 65536
    | _ => x.toNat
  .whole (ofLanes t.width (List.replicate t.count v)) 0#8

/-- Reductions (R126). -/
inductive ROp where
  | sum | max | min
  deriving DecidableEq, Repr

def ROp.accepts (o : ROp) (t : LType) : Bool :=
  match o with
  | .sum => t.isInt || t.isFloat
  | _ => t.isLane

def ROp.lane (o : ROp) (t : LType) (pick : Bool) (a b : Nat) : Nat :=
  match o with
  | .sum => (laneOp .add t false 0 a b).1
  | .max => laneMinMax true t pick a b
  | .min => laneMinMax false t pick a b

/-- The pairwise tree: lane i with lane i + N/2, then the same on the first half (R126). -/
def tree (f : Nat → Nat → Nat) : Nat → List Nat → Nat
  | 0, l => l.headD 0
  | k + 1, l =>
    let h := l.length / 2
    if l.length ≤ 1 then l.headD 0 else tree f k (List.zipWith f (l.take h) (l.drop h))

def vReduce (o : ROp) (t : LType) (pick : Bool) (a : VIn) : VRes :=
  let w := t.width
  let r := tree (o.lane t pick) 8 (lanes w a.data)
  let mark := if a.mark = 0#8 then 0#8 else 1#8
  .whole (BitVec.ofNat 1024 r) mark

/-! ## Conversions (R120, R122, R136) -/

/-- Elements of a blocked form: code, scale byte and the marks of the parts they lie in. -/
structure BElem where
  code : Nat
  scale : Nat
  mark : Bool
  deriving DecidableEq, Repr

def blockElems (f : OFmt) (bs : Nat) (a : VIn) : List BElem :=
  let bb := f.blockBytes bs
  (List.range 64).map fun i =>
    let j := i / bs
    let lo := 8 * (j * bb) + f.bits * (i % bs)
    ⟨natBits a.data.toNat lo f.bits, natBits a.data.toNat (8 * (64 + j)) 8,
     a.mark.getLsbD (lo / 128) || a.mark.getLsbD ((lo + f.bits - 1) / 128) || a.mark.getLsbD ((64 + j) / 16)⟩

/-- The exact value of a source element, with INVALID for what a register conversion cannot read (R136). -/
def blockElemVal (f : OFmt) (e : BElem) : Ex × Bool :=
  if f.isMx then
    (.flt (if e.scale = 0xFF then .nan
           else match f.ffmt.decode e.code with
             | .fin n m x => .fin n m (x + (e.scale : Int) - 127)
             | v => v), false)
  else if e.scale = 0 then (.zero, false)
  else if e.scale = 0xFF then (.flt .nan, true)
  else match glimElem f e.code with
    | .zero => (.zero, false)
    | .esc => (.flt .nan, true)
    | .val neg x => (.half neg (x + (e.scale : Int) - 128), false)

/-- The exact value of a lane. -/
def laneEx (t : LType) (x : Nat) : Ex :=
  if t.isInt then
    let v := if t.isSigned then signedOf t.width x else (x : Int)
    .flt (.fin (decide (v < 0)) v.natAbs 0)
  else if t = .gl16 then gl16Ex x
  else .flt (t.ffmt.decode x)

/-- An exact value written as an integer: nearest even, saturating with SAT; a NaN gives 0 with INVALID (R136). -/
def toInt (t : LType) (x : FVal) : Conv :=
  let lo : Int := if t.isSigned then - 2 ^ (t.width - 1) else 0
  let hi : Int := if t.isSigned then 2 ^ (t.width - 1) - 1 else 2 ^ t.width - 1
  match x with
  | .nan => ⟨0, false, true⟩
  | .inf neg => ⟨codeOf t.width (if neg then lo else hi), true, false⟩
  | .fin neg m e =>
    let v := sgn neg (rneInt m e)
    if v < lo then ⟨codeOf t.width lo, true, false⟩
    else if hi < v then ⟨codeOf t.width hi, true, false⟩
    else ⟨codeOf t.width v, false, false⟩

/-- The value a source element has for a destination: a GL16 source reaches floating types and integers through table
T, and a blocked source reaches integers through FP32; an integer reaches GL16 and blocked forms through FP32 (R95,
R136). -/
def viaFp32 (src dst : LType) (x : Ex) : Ex :=
  let through : Ex := match x with
    | .pow neg n => .flt (FFmt.fp32.decode (gl16ToFp32 (gl16Of neg n).1))
    | y => .flt (FFmt.fp32.decode (asFp32 y))
  if src = .gl16 ∧ (dst.isFloat ∨ dst.isInt) then through
  else if dst.isInt ∧ src.blocked.isSome then through
  else if src.isInt ∧ (dst = .gl16 ∨ dst.blocked.isSome) then through
  else x

/-- One element converted into a lane type (R95, R136); `up` is the free choice of a faithful rounding. -/
def toLane (src dst : LType) (up : Bool) (x : Ex) : Conv :=
  let y := viaFp32 src dst x
  if dst.isInt then toInt dst y.toF
  else if dst = .gl16 then
    -- no value stays no value without a flag
    if src = .gl16 ∧ x = .flt .nan then ⟨gl16NoValue, false, false⟩ else toGl16 y up
  else ⟨dst.ffmt.encode y.toF, false, false⟩

/-- The quantiser settings a conversion or VQNT uses (R133). -/
structure QSet where
  bs : Nat
  stoch : Bool
  gap : Option Nat
  lfsr : BitVec 32
  deriving DecidableEq, Repr

/-- Writes blocks into a blocked form: n elements at part p (R120, R122). Each block is (scale, codes, mark). -/
def packBlocks (f : OFmt) (bs n p : Nat) (blocks : List (Nat × List Nat × Bool)) : VRes :=
  let bb := f.blockBytes bs
  let j0 := if n = 64 then 0 else p * (32 / bs)
  let put := List.zip (List.range blocks.length) blocks
  let data := put.foldl (fun acc q =>
    acc + packElems f.bits q.2.2.1 * 2 ^ (8 * ((j0 + q.1) * bb)) + q.2.1 * 2 ^ (8 * (64 + j0 + q.1))) 0
  let spans (q : Nat) : BitVec 128 := byteMask ((j0 + q) * bb) bb ||| byteMask (64 + j0 + q) 1
  let bytes := if n = 64 then BitVec.allOnes 128 else put.foldl (fun acc q => acc ||| spans q.1) 0#128
  let marked := put.foldl (fun acc q => if q.2.2.2 then acc ||| spans q.1 else acc) 0#128
  let mark := partsOf 8 ((List.range 128).map fun i => marked.getLsbD i)
  ⟨BitVec.ofNat 1024 data, bytes, mark, false, false⟩

/-- Number of elements a pair of types processes: the lane count of the wider side (R122). -/
def convCount (src dst : LType) : Nat := min src.count dst.count

/-- Number of parts of a conversion (R122). -/
def convParts (src dst : LType) : Nat := max src.count dst.count / convCount src dst

/-- The n source elements of a conversion at part p: exact value, INVALID, mark. -/
def convSource (bs : Nat) (src : LType) (n p : Nat) (a : VIn) : List (Ex × Bool × Bool) :=
  let all : List (Ex × Bool × Bool) := match src.blocked with
    | some f => (blockElems f (if f.isMx then 32 else bs) a).map fun e => ((blockElemVal f e).1, (blockElemVal f e).2, e.mark)
    | none => (List.zip (List.range src.count) (lanes src.width a.data)).map fun q =>
        (laneEx src q.2, false, laneMark src.width a.mark q.1)
  if src.count = n then all else (all.drop (p * n)).take n

/-- VCVT (R136): the result and the LFSR after it. DEDUCED (log 82). -/
def vCvt (q : QSet) (src dst : LType) (p : Nat) (up : Nat → Bool) (a : VIn) : VRes × BitVec 32 :=
  let n := convCount src dst
  let xs := convSource q.bs src n p a
  let inv0 := xs.any fun x => x.2.1
  match dst.blocked with
  | none =>
    let rs := (List.zip (List.range n) xs).map fun x => (toLane src dst (up x.1) x.2.1, x.2.2.2)
    let w := dst.width
    let lane0 := if dst.count = n then 0 else p * n
    let data := packElems w (rs.map (·.1.code)) * 2 ^ (w * lane0)
    let bytes := if dst.count = n then BitVec.allOnes 128 else byteMask (w * lane0 / 8) (w * n / 8)
    let mark := partsOf w (List.replicate lane0 false ++ rs.map (·.2))
    (⟨BitVec.ofNat 1024 data, bytes, mark, rs.any (·.1.sat), inv0 || rs.any (·.1.inv)⟩, q.lfsr)
  | some f =>
    let ys := xs.map fun x => viaFp32 src dst x.1
    let ms := xs.map fun x => x.2.2
    if f.isMx then
      let bl := (chunks 32 ys).map (mxBlock f)
      let r := packBlocks f 32 n p ((List.zip bl (chunks 32 ms)).map fun x => (x.1.1, x.1.2.1, x.2.any id))
      (⟨r.data, r.bytes, r.mark, bl.any (·.2.2.1), inv0 || bl.any (·.2.2.2)⟩, q.lfsr)
    else
      let bl := quantBlocks f none q.stoch (chunks q.bs ys) q.lfsr
      let r := packBlocks f q.bs n p ((List.zip bl (chunks q.bs ms)).map fun x => (x.1.scale, x.1.codes, x.2.any id))
      (⟨r.data, r.bytes, r.mark, bl.any (·.sat), inv0 || bl.any (·.inv)⟩, (bl.getLast?.map (·.lfsr)).getD q.lfsr)

/-- What VQNT produces beside vd (R134, R92): sidecar entries, blocks made, LFSR, estimator terms in element order. -/
structure VqntOut where
  res : VRes
  sides : List Side
  blocks : Nat
  lfsr : BitVec 32
  terms : List Nat
  deriving DecidableEq, Repr

/-- The estimator's term of one element (R92). -/
def estTerm (x q : Nat) : Nat :=
  let d := FFmt.fp32.sub q x
  let r := FFmt.fp32.encode ((FFmt.fp32.decode d).div (FFmt.fp32.decode x))
  FFmt.fp32.mul r r

def vQnt (q : QSet) (fmt : OFmt) (src : LType) (p : Nat) (qblk : Nat) (a : VIn) : VqntOut :=
  let n := if src = .fp32 then 32 else 64
  let codes := lanes src.width a.data
  let xs := codes.map (laneEx src)
  let ms := (List.range n).map (laneMark src.width a.mark)
  let bl := quantBlocks fmt q.gap q.stoch (chunks q.bs xs) q.lfsr
  let nb := List.zip (List.range bl.length) bl
  let sides := nb.flatMap fun b => b.2.sides.map fun e => (⟨(qblk + b.1) % 2 ^ 32, e.1, 0, e.2⟩ : Side)
  let fp (i : Nat) : Nat := if src = .gl16 then gl16ToFp32 (codes.getD i 0) else asFp32 (xs.getD i .zero)
  let measured := (List.range n).filter fun i => let x := xs.getD i .zero; x.isFinite && !x.isZero
  let terms := measured.map fun i =>
    match bl[i / q.bs]? with
    | some b => estTerm (fp i) (asFp32 (b.value fmt (i % q.bs)))
    | none => 0
  let r := packBlocks fmt q.bs n p ((List.zip bl (chunks q.bs ms)).map fun x => (x.1.scale, x.1.codes, x.2.any id))
  ⟨⟨r.data, r.bytes, r.mark, bl.any (·.sat), bl.any (·.inv)⟩, sides, bl.length,
   (bl.getLast?.map (·.lfsr)).getD q.lfsr, terms⟩

/-- VEXP of one lane (R129). -/
def expLane (x : FVal) : Conv :=
  match x with
  | .nan => ⟨gl16NoValue, false, true⟩
  | .inf true => ⟨gl16Zero, false, false⟩
  | .inf false => ⟨16383, true, false⟩
  | v => match v.mul (FFmt.fp32.decode 0x4438AA3B) with
    | .fin neg m e =>
      let r := gl16Of false (if 60 < e + Nat.log2 m then (if neg then -20000 else 20000) else sgn neg (rneInt m e))
      ⟨r.1, r.2, false⟩
    | _ => ⟨gl16NoValue, false, true⟩

/-- VEXP: FP32 lanes fill half p of vd, BF16 and FP16 lanes all of it (R129). -/
def vExp (t : LType) (p : Nat) (a : VIn) : VRes :=
  let w := t.width
  let rs := (lanes w a.data).map fun x => expLane (t.ffmt.decode x)
  let n := t.count
  let lane0 := if n = 64 then 0 else 32 * p
  let ms := (List.range n).map (laneMark w a.mark)
  ⟨BitVec.ofNat 1024 (packElems 16 (rs.map (·.code)) * 2 ^ (16 * lane0)),
   if n = 64 then BitVec.allOnes 128 else byteMask (64 * p) 64,
   partsOf 16 (List.replicate lane0 false ++ ms), rs.any (·.sat), rs.any (·.inv)⟩

/-- VLOG of one GL16 lane as an FP32 code (R130). -/
def logLane (natural : Bool) (x : Nat) : Conv :=
  if x = gl16Zero then ⟨FFmt.fp32.signBit true + FFmt.fp32.infCode, false, false⟩
  else if natBits x 15 1 = 1 then ⟨FFmt.fp32.nanCode, false, true⟩
  else
    let n := signedOf 15 x
    let v : FVal := .fin (decide (n < 0)) n.natAbs 0
    if natural then ⟨FFmt.fp32.encode (v.mul (FFmt.fp32.decode 0x3AB17218)), false, false⟩
    else ⟨FFmt.fp32.encode (.fin (decide (n < 0)) n.natAbs (-9)), false, false⟩

/-- VLOG: half p of vs into FP32 lanes, or all of it into BF16 lanes (R130). -/
def vLog (t : LType) (natural : Bool) (p : Nat) (a : VIn) : VRes :=
  let src := lanes 16 a.data
  let n := t.count
  let lane0 := if n = 64 then 0 else 32 * p
  let rs := ((src.drop lane0).take n).map (logLane natural)
  let out (c : Nat) : Nat := if t = .fp32 then c else FFmt.bf16.encode (FFmt.fp32.decode c)
  let ms := (List.range n).map fun i => laneMark 16 a.mark (lane0 + i)
  ⟨ofLanes t.width (rs.map fun r => out r.code), BitVec.allOnes 128, partsOf t.width ms, false, rs.any (·.inv)⟩

/-- The rail record at bytes 16 r .. 16 r + 15 (R131). -/
def railOf (d : BitVec 1024) (r : Nat) : Rails :=
  ⟨BitVec.ofNat 48 (natBits d.toNat (128 * r) 48), BitVec.ofNat 48 (natBits d.toNat (128 * r + 48) 48),
   BitVec.ofNat 32 (natBits d.toNat (128 * r + 96) 32), false, false, false⟩

/-- The 16 bytes of a rail record (R131). -/
def railRecord (r : Rails) : Nat := r.p.toNat + r.q.toNat * 2 ^ 48 + r.c.toNat * 2 ^ 96

/-- VRAIL.ADD (R132). -/
def vRailAdd (a b : VIn) : VRes :=
  let rs := (List.range 8).map fun i =>
    let x := railOf a.data i
    let y := railOf b.data i
    let p := clampRail (x.p.toInt + y.p.toInt)
    let q := clampRail (x.q.toInt + y.q.toInt)
    (railRecord { (x.addC y.c.toNat) with p := p.1, q := q.1 }, p.2 || q.2)
  ⟨ofLanes 128 (rs.map (·.1)), BitVec.allOnes 128, a.mark ||| b.mark, rs.any (·.2), false⟩

/-- VRAIL.FIN: 8 records into FP32 lanes 8p .. 8p + 7 (R132). -/
def vRailFin (p : Nat) (sx : BitVec 16) (a : VIn) : VRes :=
  let e := signedOf 7 sx.toNat
  let rs := (List.range 8).map fun i => FFmt.fp32.encode ((railOf a.data i).sum e)
  let ms := (List.range 8).map fun i => a.mark.getLsbD i
  ⟨BitVec.ofNat 1024 (packElems 32 rs * 2 ^ (256 * p)), byteMask (32 * p) 32,
   partsOf 32 (List.replicate (8 * p) false ++ ms), false, false⟩

end Sys2Proof.Machine
end

