-- ==== Sys2Proof/Machine/State.lean ====
section
/-! DEFINITION. The state of the device: every register, queue, table, counter, mode and pin that the spec gives it, as
plain data, and the state right after reset. A keyed collection is a list of (key, value) pairs in canonical form
(strictly rising keys, no entry equal to the default, see Machine/Ops.lean); the registers of BAR0 are one such list. -/
namespace Sys2Proof.Machine

/-- Why the machine stops. No meaning raises one: every access that the spec says does not exist has a reported outcome
(a bus error, a status, a trap) that the model takes. The one constructor is kept for the interface's fault type. -/
inductive Fault where
  /-- Raised by nobody. Safe: a stop proves nothing false. -/
  | unreachable
  deriving DecidableEq, Repr

/-- Why a command is refused. -/
inductive Refusal where
  /-- Raised by Dispatch alone for a row with no meaning yet. Safe: nothing follows from it. -/
  | notModelled (mnemonic : String)
  /-- Raised by a meaning whose operands name no unit or item of this device, so that no such command can be sent.
  Safe: no run of the hardware holds such a command. -/
  | noSuchItem (what : String)
  deriving DecidableEq, Repr

/-- The board pins and clocks the device samples (22_supplies_pins_package.md). -/
structure Pins where
  /-- PORST_N is asserted (R478 R577) -/
  porst : Bool
  /-- WRST_N is asserted (R478 R577) -/
  wrst : Bool
  /-- bit n: PERSTn_N is asserted (R307 R577) -/
  perst : BitVec 2
  /-- PFAIL_N is low (R526 R577) -/
  pfail : Bool
  /-- THERM_ALERT_N is asserted (R557 R577) -/
  thermAlert : Bool
  /-- the device drives WAKE_N low (R307 R577) -/
  wake : Bool
  /-- PWR_OK inputs: 0 AO, 1 PLL, 2 HUB, 3-12 CD0-9, 13 HBM, 14 LP, 15 SD (R572) -/
  pwrOk : BitVec 16
  /-- groups deasserted after ROM_CHECK, out of service until the next PORST_N (R572) -/
  lostGroups : BitVec 16
  /-- the PWR_OK inputs in the order in which they first rose (R574) -/
  riseOrder : List Nat
  /-- running reference clocks: 0 REFCLK_SYS, 1-2 PCIe links 0-1, 3-4 Ethernet hubs 0-1 (R579) -/
  refclk : BitVec 5
  /-- cause of the last reset (R574) -/
  resetCause : BitVec 4
  /-- the last reset was a WRST_N (R478 R492) -/
  warm : Bool
  /-- ROM_CHECK has finished since the last reset (R480) -/
  romDone : Bool
  deriving DecidableEq, Repr

/-- Pins right after reset. -/
def Pins.reset : Pins where
  porst := true
  wrst := true
  perst := 3#2
  pfail := false
  thermAlert := false
  wake := false
  pwrOk := 0xFFFF#16
  lostGroups := 0#16
  riseOrder := []
  refclk := 31#5
  resetCause := 0#4
  warm := false
  romDone := false

/-- The quantiser and estimator state of a core (R91, R133). -/
structure Quant where
  /-- sum of squared relative errors, FP32 (R91 R133) -/
  qerr : BitVec 32
  /-- elements measured (R91 R133) -/
  qcnt : BitVec 32
  /-- threshold, FP32 (R91 R133) -/
  qthr : BitVec 32
  /-- the threshold has been crossed (R93 R133) -/
  qtrip : Bool
  /-- estimator enabled (R91 R133) -/
  qen : Bool
  /-- beacon to signal (R91 R133) -/
  qbeacon : BitVec 15
  /-- number of the next block VQNT produces (R133) -/
  qblk : BitVec 32
  /-- next sidecar slot, in units of 8 bytes (R133) -/
  qside : BitVec 17
  /-- first slot VQNT may not write (R133) -/
  qslim : BitVec 17
  /-- 0 GL4, 1 GL3 (R133) -/
  qfmt : BitVec 2
  /-- stochastic rounding for GL4 (R133) -/
  stoch : Bool
  /-- 16-element blocks (R133) -/
  bs16 : Bool
  /-- escape gap (R133) -/
  qgap : BitVec 4
  deriving DecidableEq, Repr

/-- Quant right after reset. -/
def Quant.reset : Quant where
  qerr := 0#32
  qcnt := 0#32
  qthr := 0#32
  qtrip := false
  qen := false
  qbeacon := 0#15
  qblk := 0#32
  qside := 0#17
  qslim := 0#17
  qfmt := 0#2
  stoch := false
  bs16 := false
  qgap := 0#4

/-- The accumulator tile of a core; element (r, c) has key 64 r + c (R99). -/
structure Tile where
  /-- P rail (R99 R76) -/
  p : List (Nat × BitVec 48)
  /-- Q rail (R99 R76) -/
  q : List (Nat × BitVec 48)
  /-- C rail, binary32 (R99 R79) -/
  c : List (Nat × BitVec 32)
  /-- TILE_EXP, two's complement (R99 R100) -/
  tileExp : BitVec 7
  /-- FRESH (R99 R100) -/
  fresh : Bool
  /-- OVF_P (R77 R99) -/
  ovfP : Bool
  /-- OVF_Q (R77 R99) -/
  ovfQ : Bool
  /-- OVF_C (R79 R99) -/
  ovfC : Bool
  /-- POISON (R101) -/
  poison : Bool
  deriving DecidableEq, Repr

/-- Tile right after reset. -/
def Tile.reset : Tile where
  p := []
  q := []
  c := []
  tileExp := 0#7
  fresh := true
  ovfP := false
  ovfQ := false
  ovfC := false
  poison := false

/-- A vector register (R119). -/
structure VReg where
  /-- 128 bytes, byte 0 least significant (R119 R142) -/
  data : BitVec 1024
  /-- bit i: the 16-byte part i carries poison (R127) -/
  mark : BitVec 8
  deriving DecidableEq, Repr

/-- VReg right after reset. -/
def VReg.reset : VReg where
  data := 0#1024
  mark := 0#8

/-- One hardware loop level (R142, R148). -/
structure Loop where
  /-- loop count (R142 R143) -/
  lc : BitVec 16
  /-- loop start, syllable address (R142 R143) -/
  ls : BitVec 16
  /-- loop end, syllable address (R142 R143) -/
  le : BitVec 16
  deriving DecidableEq, Repr

/-- Loop right after reset. -/
def Loop.reset : Loop where
  lc := 0#16
  ls := 0#16
  le := 0#16

/-- One M operation with its captured command block (R105, R106, R110). -/
structure MOp where
  /-- MMA, MDRAIN or MCLR (R155) -/
  kind : MKind
  /-- captured word 0: A descriptor, or the drain descriptor (R106 R110) -/
  w0 : BitVec 128
  /-- captured word 1: B descriptor (R106) -/
  w1 : BitVec 128
  /-- captured word 2: control word (R106) -/
  w2 : BitVec 128
  /-- issue address carried with the queue entry (R169) -/
  pc : BitVec 16
  /-- bytes of the core's data memory at issue, as later drains of the core leave them: a racing write is seen or not (R117) -/
  image : List Host.Cell
  /-- output bytes of a started drain that are not yet all written (R117 R118) -/
  out : List Host.Cell
  /-- the drain found the tile's POISON set (R101) -/
  poison : Bool
  deriving DecidableEq, Repr

/-- MOp right after reset. -/
def MOp.reset : MOp where
  kind := .mclr
  w0 := 0#128
  w1 := 0#128
  w2 := 0#128
  pc := 0#16
  image := []
  out := []
  poison := false

/-- One queued X operation with its captured move-state registers (R161). -/
structure XOp where
  /-- MOVS, FILL, GATHER or WPULL (R160) -/
  kind : XKind
  /-- captured XS (R158) -/
  xs : BitVec 48
  /-- captured XD (R158) -/
  xd : BitVec 48
  /-- captured XC (R158) -/
  xc : BitVec 32
  /-- captured XG (R158) -/
  xg : BitVec 32
  /-- captured XB (R158) -/
  xb : BitVec 32
  deriving DecidableEq, Repr

/-- XOp right after reset. -/
def XOp.reset : XOp where
  kind := .movs
  xs := 0#48
  xd := 0#48
  xc := 0#32
  xg := 0#32
  xb := 0#32

/-- The running operation of a channel (R162, R164). -/
structure XRun where
  /-- the captured operation (R162) -/
  op : XOp
  /-- destination bytes whose lines have started (R224) -/
  next : Nat
  /-- destination bytes of the longest completed prefix (R164) -/
  done : Nat
  /-- lines completed beyond the prefix: offset and length, rising (R162 R164) -/
  early : List (Nat × Nat)
  /-- status of the line error that stops it (R163) -/
  stop : Option (BitVec 8)
  /-- an XSTOP takes effect when its lines in flight have completed (R164) -/
  pausing : Bool
  deriving DecidableEq, Repr

/-- XRun right after reset. -/
def XRun.reset : XRun where
  op := XOp.reset
  next := 0
  done := 0
  early := []
  stop := none
  pausing := false

/-- One move channel of a core (R158, R159). -/
structure Chan where
  /-- XS (R142 R158) -/
  xs : BitVec 48
  /-- XD (R142 R158) -/
  xd : BitVec 48
  /-- XC (R142 R158) -/
  xc : BitVec 32
  /-- XG (R142 R158) -/
  xg : BitVec 32
  /-- XB (R142 R158) -/
  xb : BitVec 32
  /-- XSTAT.STATUS (R159) -/
  status : BitVec 8
  /-- XSTAT.STATE: 0 IDLE, 1 BUSY, 2 PAUSED (R159) -/
  state : BitVec 2
  /-- operations not yet started, at most 8 (R167) -/
  queue : List XOp
  /-- the running operation (R162) -/
  run : Option XRun
  /-- a core pause holds the channel (R173) -/
  held : Bool
  deriving DecidableEq, Repr

/-- Chan right after reset. -/
def Chan.reset : Chan where
  xs := 0#48
  xd := 0#48
  xc := 0#32
  xg := 0#32
  xb := 0#32
  status := 0#8
  state := 0#2
  queue := []
  run := none
  held := false

/-- A pending result of a vector operation (R144, R145, R585). -/
structure Pend where
  /-- core clock at whose end it lands (R145) -/
  land : Nat
  /-- what lands (R145 R585) -/
  what : Landing
  deriving DecidableEq, Repr

/-- Pend right after reset. -/
def Pend.reset : Pend where
  land := 0
  what := .clearFlags

/-- One physical core slot; key gc * 18 + slot (R25, R142). -/
structure Core where
  /-- s0-s15; s0 reads 0 (R142) -/
  sreg : List (Nat × BitVec 16)
  /-- syllable address of the next bundle (R142) -/
  pc : BitVec 16
  /-- outer loop level (R142) -/
  loop0 : Loop
  /-- inner loop level (R142) -/
  loop1 : Loop
  /-- v0-v31 (R142 R119) -/
  vreg : List (Nat × VReg)
  /-- move channels 0-3 (R142 R158) -/
  chan : List (Nat × Chan)
  /-- quantiser state (R142 R133) -/
  quant : Quant
  /-- LFSR state (R89 R142) -/
  lfsr : BitVec 32
  /-- sticky SAT (R90 R127) -/
  sat : Bool
  /-- sticky INVALID (R90 R127) -/
  invalid : Bool
  /-- accumulator tile (R99 R142) -/
  tile : Tile
  /-- M operations not yet started, at most 8 (R167) -/
  mqueue : List MOp
  /-- M operations started and not finished (R116 R118) -/
  mrun : List MOp
  /-- pending vector results (R145) -/
  pend : List Pend
  /-- core clocks since the core left the stub; its low 48 bits are CYC0-CYC2 (R143 R548) -/
  clock : Nat
  /-- COR_RUN.RUN (R172) -/
  run : RunState
  /-- a pause has stopped issue and is taking effect (R173) -/
  pausing : Bool
  /-- COR_RUN.TRAP (R168 R170) -/
  trap : BitVec 4
  /-- COR_RUN.BOOT_STATUS (R170) -/
  bootStatus : BitVec 8
  /-- COR_PC.TRAP_PC (R169 R170) -/
  trapPc : BitVec 16
  /-- COR_TRAP_INFO.ASYNC (R169 R170) -/
  async : Bool
  /-- COR_TRAP_INFO.UNIT (R169 R170) -/
  unit : BitVec 3
  /-- syllables of the bundle now being presented (R139) -/
  bundle : List Syl
  /-- target of a taken branch and delay bundles still to issue (R147) -/
  branch : Option (BitVec 16 × Nat)
  deriving DecidableEq, Repr

/-- Core right after reset. -/
def Core.reset : Core where
  sreg := []
  pc := 0#16
  loop0 := Loop.reset
  loop1 := Loop.reset
  vreg := []
  chan := []
  quant := Quant.reset
  lfsr := 1#32
  sat := false
  invalid := false
  tile := Tile.reset
  mqueue := []
  mrun := []
  pend := []
  clock := 0
  run := .held
  pausing := false
  trap := 0#4
  bootStatus := 0#8
  trapPc := 0#16
  async := false
  unit := 0#3
  bundle := []
  branch := none

/-- One watch entry of a cluster (R187). -/
structure Watch where
  /-- beacon id (R187) -/
  bid : Nat
  /-- target (R187) -/
  target : BitVec 32
  /-- tag of the arming engine (R187) -/
  tag : BitVec 16
  /-- hub of the arming engine (R187) -/
  hub : Nat
  /-- arming engine (R187) -/
  engine : Engine
  deriving DecidableEq, Repr

/-- The answer to a watch as the arming engine has it (R187): code 0 FIRED, 1 NO_RESOURCE, 2 DISARMED, 3 UNIT_ABSENT. -/
structure WatchAnswer where
  /-- beacon id (R187) -/
  bid : Nat
  /-- target (R187) -/
  target : BitVec 32
  /-- code (R187) -/
  code : Nat
  /-- value (R187) -/
  value : BitVec 32
  deriving DecidableEq, Repr

/-- Watch right after reset. -/
def Watch.reset : Watch where
  bid := 0
  target := 0#32
  tag := 0#16
  hub := 0
  engine := .firmware

/-- A line request in flight in a cluster move engine (R191, R223). -/
structure Line where
  /-- physical slot of the core (R191) -/
  slot : Nat
  /-- channel (R191) -/
  chan : Nat
  /-- first destination byte of the line within the operation (R224) -/
  off : Nat
  /-- its bytes (R224) -/
  len : Nat
  deriving DecidableEq, Repr

/-- Line right after reset. -/
def Line.reset : Line where
  slot := 0
  chan := 0
  off := 0
  len := 0

/-- A line of a page gather in flight (R241). -/
structure PgLine where
  /-- page of the list (R241) -/
  page : Nat
  /-- line of the range (R241) -/
  line : Nat
  /-- source address (R241) -/
  src : Nat
  /-- handle of the page (R241) -/
  hd : BitVec 32
  deriving DecidableEq, Repr

/-- PgLine right after reset. -/
def PgLine.reset : PgLine where
  page := 0
  line := 0
  src := 0
  hd := 0#32

/-- The page-gather command that runs (R241). -/
structure PgRun where
  /-- the 64-byte command (R240) -/
  cmd : List (BitVec 8)
  /-- page whose lines start next (R241) -/
  page : Nat
  /-- next line of its range; above 0 its entry has been read (R241) -/
  line : Nat
  /-- source address of that page's first line (R241) -/
  base : Nat
  /-- its handle (R241) -/
  hd : BitVec 32
  /-- lines in flight (R191 R241) -/
  lines : List PgLine
  /-- page, status and handle of the stop (R241) -/
  stop : Option (Nat × BitVec 8 × BitVec 32)
  /-- a poisoned line has been copied (R241) -/
  poison : Bool
  deriving DecidableEq, Repr

/-- PgRun right after reset. -/
def PgRun.reset : PgRun where
  cmd := []
  page := 0
  line := 0
  base := 0
  hd := 0#32
  lines := []
  stop := none
  poison := false

/-- A page fence that a cluster has not yet answered (R242). -/
structure PgFence where
  /-- partition of the mover ring (R242) -/
  part : Nat
  /-- ring slot of the command (R242) -/
  slot : Nat
  /-- pages below this one were read before the fence (R242) -/
  page : Nat
  deriving DecidableEq, Repr

/-- PgFence right after reset. -/
def PgFence.reset : PgFence where
  part := 0
  slot := 0
  page := 0

/-- One cluster; key gc (R24). -/
structure Cluster where
  /-- armed watches, at most 64 (R187) -/
  watches : List Watch
  /-- work queue, oldest first, at most 64 (R198) -/
  wq : List (List (BitVec 8))
  /-- WPULLs waiting: (physical slot, channel), oldest first (R199) -/
  waiting : List (Nat × Nat)
  /-- pending-signal table by beacon id (R182) -/
  table : List (Nat × BitVec 32)
  /-- credit returns on their way to the distributor (R198) -/
  creditOut : Nat
  /-- CLU_PAUSE.DONE (R201 R205) -/
  pauseDone : Bool
  /-- channel served last, 4 * (lc mod 16) + channel (R223) -/
  rot : Nat
  /-- line requests in flight (R191) -/
  lines : List Line
  /-- the page gather takes the next start slot (R223) -/
  pgTurn : Bool
  /-- page-gather slots taken (R239) -/
  pgTaken : Nat
  /-- the page-gather command that runs (R241) -/
  pgRun : Option PgRun
  /-- page fences not yet answered (R242) -/
  fences : List PgFence
  /-- a partition pause has reached the cluster (CLU_PAUSE.PART) (R201 R205) -/
  pauseReq : Bool
  deriving DecidableEq, Repr

/-- Cluster right after reset. -/
def Cluster.reset : Cluster where
  watches := []
  wq := []
  waiting := []
  table := []
  creditOut := 0
  pauseDone := false
  rot := 63
  lines := []
  pgTurn := false
  pgTaken := 0
  pgRun := none
  fences := []
  pauseReq := false

/-- A signal on the beacon channel (R185). -/
structure Sig where
  /-- sending cluster, or none for a hub engine (R185 R186) -/
  srcGc : Option Nat
  /-- hub of a sending hub engine (R186) -/
  srcHub : Nat
  /-- beacon id (R185) -/
  bid : Nat
  /-- amount (R182) -/
  add : BitVec 32
  deriving DecidableEq, Repr

/-- Sig right after reset. -/
def Sig.reset : Sig where
  srcGc := none
  srcHub := 0
  bid := 0
  add := 0#32

/-- A work descriptor the distributor holds (R192, R193). -/
structure Desc where
  /-- partition (R192) -/
  part : Nat
  /-- its 64 bytes (R192) -/
  bytes : List (BitVec 8)
  /-- its gate is reached, or it has none (R196) -/
  ready : Bool
  deriving DecidableEq, Repr

/-- Desc right after reset. -/
def Desc.reset : Desc where
  part := 0
  bytes := []
  ready := false

/-- One hub's work distributor (R193-R204). -/
structure Dis where
  /-- descriptors held per source: ring r is r, job queue q of slice s is 64 + 16 s + q (R196 R197) -/
  held : List (Nat × List Desc)
  /-- free entries of each cluster as the distributor counts them (unlisted: 64) (R198) -/
  credit : List (Nat × Nat)
  /-- rings found wrong at enable, which are not served (R204) -/
  bad : List (Nat × Bool)
  /-- source of each partition served last (unlisted: 0) (R193) -/
  rr : List (Nat × Nat)
  deriving DecidableEq, Repr

/-- Dis right after reset. -/
def Dis.reset : Dis where
  held := []
  credit := []
  bad := []
  rr := []

/-- The turns of the shared partitions at an engine of a hub (R321). -/
structure Turn where
  /-- partition served last (R321) -/
  part : Nat
  /-- units of work it may still have in its turn (R321) -/
  left : Nat
  deriving DecidableEq, Repr

/-- Turn right after reset. -/
def Turn.reset : Turn where
  part := 11
  left := 0

/-- A mover or prefix-index command taken and not recorded (R243, R247). -/
structure MovCmd where
  /-- ring slot number k (R243) -/
  slot : Nat
  /-- the command, 32 bytes (R246 R255) -/
  bytes : List (BitVec 8)
  /-- taken, copying, fence out, or finished (R247) -/
  phase : MovPhase
  /-- clusters whose fence answer is awaited (R242 R247) -/
  acks : List Nat
  /-- STATUS (R245) -/
  status : BitVec 8
  /-- INDEX (R245) -/
  index : BitVec 32
  /-- RESULT (R245) -/
  result : BitVec 64
  deriving DecidableEq, Repr

/-- MovCmd right after reset. -/
def MovCmd.reset : MovCmd where
  slot := 0
  bytes := []
  phase := .taken
  acks := []
  status := 0#8
  index := 0xFFFFFFFF#32
  result := 0#64

/-- A mover or prefix-index ring of a partition (R243). -/
structure Ring where
  /-- slots taken (R243) -/
  taken : Nat
  /-- records written (R243) -/
  recorded : Nat
  /-- commands taken and not recorded, in slot order (R243 R252) -/
  cmds : List MovCmd
  deriving DecidableEq, Repr

/-- Ring right after reset. -/
def Ring.reset : Ring where
  taken := 0
  recorded := 0
  cmds := []

/-- One partition (R311-R318, R331). -/
structure Part where
  /-- FREE, CREATING, ACTIVE or DESTROYING (R317) -/
  state : PartState
  /-- STRICT (R319) -/
  strict : Bool
  /-- host link (R311) -/
  link : Nat
  /-- WEIGHT (R315 R331) -/
  weight : BitVec 8
  /-- PCAP in watts (R315 R331) -/
  pcap : BitVec 16
  /-- clusters held (R311) -/
  clusters : BitVec 160
  /-- quarter-stack units held (R311) -/
  hbm : BitVec 80
  /-- tier-2 units held (R311) -/
  t2 : BitVec 32
  /-- first connection / 256 (R311) -/
  sdtBase : Nat
  /-- connections / 256 (R311) -/
  sdtCount : Nat
  /-- first subscriber queue / 64 (R311) -/
  subqBase : Nat
  /-- queues / 64 (R311) -/
  subqCount : Nat
  /-- first key slot / 32 (R311) -/
  keyBase : Nat
  /-- slots / 32 (R311) -/
  keyCount : Nat
  /-- first hub SRAM granule (R311) -/
  sramBase : Nat
  /-- granules (R311) -/
  sramCount : Nat
  /-- descriptors placed since creation (R192 R317) -/
  seq : BitVec 64
  /-- the command that awaits its reply (R317) -/
  src : Option Src
  deriving DecidableEq, Repr

/-- Part right after reset. -/
def Part.reset : Part where
  state := .free
  strict := false
  link := 0
  weight := 0#8
  pcap := 0#16
  clusters := 0#160
  hbm := 0#80
  t2 := 0#32
  sdtBase := 0
  sdtCount := 0
  subqBase := 0
  subqCount := 0
  keyBase := 0
  keyCount := 0
  sramBase := 0
  sramCount := 0
  seq := 0#64
  src := none

/-- One slice (R323). -/
structure Slice where
  /-- partition (R323) -/
  part : Nat
  /-- function 1, 2 or 3 (R323) -/
  func : Nat
  /-- requester ID (R323) -/
  rid : BitVec 16
  /-- PASID (R323) -/
  pasid : BitVec 20
  /-- doorbell beacon (R323) -/
  beacon : BitVec 15
  /-- fabric address of aperture offset 0 (R323) -/
  winBase : BitVec 64
  /-- bytes of the window (R323) -/
  winSize : BitVec 64
  /-- keeps a dirty-page log (R323 R327) -/
  dlog : Bool
  /-- bitmap A (R323) -/
  logBase : BitVec 64
  /-- first address logged (R323) -/
  logIova : BitVec 64
  /-- pages logged (R323) -/
  logPages : BitVec 64
  /-- false: bitmap A active; true: bitmap B (R327 R329) -/
  active : Bool
  /-- MISSED (R328) -/
  missed : BitVec 32
  /-- bits set: key bitmap * 2^64 + page (R327) -/
  bits : List (Nat × Bool)
  /-- suspended by a bus number change (R325) -/
  suspended : Bool
  /-- SLICE_DESTROY awaits its reply (R326) -/
  dying : Option Src
  deriving DecidableEq, Repr

/-- Slice right after reset. -/
def Slice.reset : Slice where
  part := 0
  func := 1
  rid := 0#16
  pasid := 0#20
  beacon := 0#15
  winBase := 0#64
  winSize := 0#64
  dlog := false
  logBase := 0#64
  logIova := 0#64
  logPages := 0#64
  active := false
  missed := 0#32
  bits := []
  suspended := false
  dying := none

/-- One job queue; key slice * 16 + queue (R293-R297). -/
structure JobQ where
  /-- SQ_BASE (R293) -/
  sqBase : BitVec 64
  /-- CQ_BASE (R293) -/
  cqBase : BitVec 64
  /-- LOG2_SQ (R293) -/
  log2Sq : Nat
  /-- LOG2_CQ (R293) -/
  log2Cq : Nat
  /-- VECTOR (R293) -/
  vector : BitVec 16
  /-- STAGE_BASE (R293) -/
  stageBase : BitVec 20
  /-- LOG2_STAGE (R293) -/
  log2Stage : Nat
  /-- POST beacon (R293) -/
  post : BitVec 15
  /-- STAGE_CREDIT beacon (R293) -/
  stageCredit : BitVec 15
  /-- JQ_SQ_TAIL (R292) -/
  sqTail : BitVec 16
  /-- JQ_CQ_HEAD (R292) -/
  cqHead : BitVec 16
  /-- JQ_STAT.SQ_HEAD (R292) -/
  sqHead : BitVec 16
  /-- JQ_STAT.ERROR (R295) -/
  error : Bool
  /-- JQ_STAT.STATUS (R295) -/
  status : BitVec 8
  /-- staging slots taken (R296) -/
  postTaken : Nat
  /-- records written since creation (R296 R297) -/
  written : Nat
  /-- records released by JQ_CQ_HEAD (R297) -/
  released : Nat
  /-- records taken and not yet written, bytes 0-24, with their poison marks (R296 R297) -/
  ready : List (List (BitVec 8) × Bool)
  /-- the queue exists; false once an FLR has destroyed it while its held records await RESUME (R476) -/
  kept : Bool
  deriving DecidableEq, Repr

/-- JobQ right after reset. -/
def JobQ.reset : JobQ where
  sqBase := 0#64
  cqBase := 0#64
  log2Sq := 1
  log2Cq := 1
  vector := 0xFFFF#16
  stageBase := 0#20
  log2Stage := 0
  post := 0#15
  stageCredit := 0#15
  sqTail := 0#16
  cqHead := 0#16
  sqHead := 0#16
  error := false
  status := 0#8
  postTaken := 0
  written := 0
  released := 0
  ready := []
  kept := true

/-- A non-posted request of the device on a host link (R299-R302). -/
structure Tag where
  /-- tag (R299) -/
  tag : Nat
  /-- function (R299) -/
  fn : Nat
  /-- requester ID (R324) -/
  rid : BitVec 16
  /-- PASID (R326) -/
  pasid : Option (BitVec 20)
  /-- requester answered by it (R301) -/
  req : TagUse
  /-- in quarantine (R301) -/
  quar : Bool
  /-- abandoned by an FLR (R306) -/
  flr : Bool
  /-- timeout in force, in microseconds (R301) -/
  cto : Nat
  deriving DecidableEq, Repr

/-- Tag right after reset. -/
def Tag.reset : Tag where
  tag := 0
  fn := 0
  rid := 0#16
  pasid := none
  req := .none
  quar := false
  flr := false
  cto := 8000

/-- One PCIe function of a link (R285, R289, R305-R307). -/
structure Fn where
  /-- Bus Master Enable (R305) -/
  bme : Bool
  /-- in D3hot (R307) -/
  d3 : Bool
  /-- ATS Enable (R284) -/
  atsEn : Bool
  /-- MSI-X Enable (R289) -/
  msixEn : Bool
  /-- vector masks of PF1-PF3 (unlisted: masked) (R289) -/
  mask : List (Nat × Bool)
  /-- address and data words of the vectors of PF1-PF3: key 4 v + word (R289) -/
  table : List (Nat × BitVec 32)
  /-- pending bits (R289) -/
  pba : List (Nat × Bool)
  /-- captured requester ID (R324 R325) -/
  rid : BitVec 16
  /-- Max Payload Size: 128 bytes shifted left by 0-2 (R284) -/
  mps : BitVec 3
  /-- Max Read Request Size: 128 bytes shifted left by 0-5 (R284) -/
  mrrs : BitVec 3
  /-- 10-bit tags enabled (R284 R299) -/
  tag10 : Bool
  /-- 14-bit tags enabled (R284 R299) -/
  tag14 : Bool
  /-- ECRC generation enabled (R284) -/
  ecrcGen : Bool
  /-- ECRC check enabled (R284) -/
  ecrcChk : Bool
  /-- ASPM L1 enabled (R284) -/
  aspmL1 : Bool
  deriving DecidableEq, Repr

/-- Fn right after reset. -/
def Fn.reset : Fn where
  bme := false
  d3 := false
  atsEn := false
  msixEn := false
  mask := []
  table := []
  pba := []
  rid := 0#16
  mps := 0#3
  mrrs := 2#3
  tag10 := false
  tag14 := false
  ecrcGen := false
  ecrcChk := false
  aspmL1 := false

/-- One host link (R284-R310). -/
structure Link where
  /-- link in L0 or L1 (R310) -/
  up : Bool
  /-- PF0-PF3 (R285) -/
  fns : List (Nat × Fn)
  /-- Device Control 2 completion timeout range (R300) -/
  ctoRange : BitVec 4
  /-- PF0 Interrupt Disable (R291) -/
  intDis : Bool
  /-- PME_En of PF0 (R307) -/
  pmeEn : Bool
  /-- PME_Status of PF0 (R307) -/
  pmeStatus : Bool
  /-- level of INTA last sent (R291) -/
  inta : Bool
  /-- mailbox replies pending while MSI-X of PF0 is off (R290 R291) -/
  intxMbx : BitVec 64
  /-- log2 of the BAR2 size of PF0 and PF1 (unlisted: 36) (R285) -/
  bar2Log2 : List (Nat × Nat)
  /-- translation cache: key (function * 2^37 + requester ID * 2^21 + PASID + 1) * 2^52 + page (R284) -/
  ats : List (Nat × BitVec 64)
  /-- tags in flight or in quarantine (R299 R301) -/
  tags : List Tag
  /-- the link is training (R307) -/
  training : Bool
  /-- configuration requests are answered (R480) -/
  configReady : Bool
  /-- bit 0: the host has enabled the link IDE stream; bit 1: the selective one (R284) -/
  ideEn : BitVec 2
  deriving DecidableEq, Repr

/-- Link right after reset. -/
def Link.reset : Link where
  up := false
  fns := []
  ctoRange := 0#4
  intDis := false
  pmeEn := false
  pmeStatus := false
  inta := false
  intxMbx := 0#64
  bar2Log2 := []
  ats := []
  tags := []
  training := false
  configReady := false
  ideEn := 0#2

/-- A frame in an egress lane (R387, R391). -/
structure Frame where
  /-- the frame from DMAC to FCS (R391) -/
  bytes : List (BitVec 8)
  /-- the sender told when it has left (R353 R370) -/
  owner : FrameOwner
  /-- sender's partition (R390) -/
  part : Nat
  deriving DecidableEq, Repr

/-- Frame right after reset. -/
def Frame.reset : Frame where
  bytes := []
  owner := .other
  part := 15

/-- The credit buckets of a lane, a node or a port, with the rates and bursts that the last selection saw (R389, R395). -/
structure Buckets where
  /-- committed bucket level, bytes * 65536 (R395) -/
  cLevel : Int
  /-- peak bucket level (R395) -/
  pLevel : Int
  /-- hub fabric clock of the last update (R395) -/
  upd : Nat
  /-- the buckets have started (R395) -/
  live : Bool
  /-- committed rate and burst in force (R388) -/
  cir : Nat
  cbs : Nat
  /-- peak rate and burst in force (R388) -/
  pir : Nat
  pbs : Nat
  deriving DecidableEq, Repr

/-- Buckets right after reset. -/
def Buckets.reset : Buckets where
  cLevel := 0
  pLevel := 0
  upd := 0
  live := false
  cir := 0
  cbs := 0
  pir := 0
  pbs := 0

/-- One egress lane, key q * 8 + global port (R387, R392-R395). -/
structure Lane where
  /-- frames, oldest first (R391) -/
  frames : List Frame
  /-- node the lane belongs to (R389 R394) -/
  node : Nat
  /-- start tag (R392) -/
  s : BitVec 48
  /-- credit buckets (R395) -/
  bk : Buckets
  deriving DecidableEq, Repr

/-- Lane right after reset. -/
def Lane.reset : Lane where
  frames := []
  node := 0
  s := 0#48
  bk := Buckets.reset

/-- One service node; key port * 64 + n (R387, R392-R395). -/
structure Node where
  /-- start tag (R392) -/
  s : BitVec 48
  /-- virtual time among its lanes (R392) -/
  v : BitVec 48
  /-- credit buckets (R395) -/
  bk : Buckets
  deriving DecidableEq, Repr

/-- Node right after reset. -/
def Node.reset : Node where
  s := 0#48
  v := 0#48
  bk := Buckets.reset

/-- One Ethernet port; key 0-7 (R332-R336, R392-R399). -/
structure Port where
  /-- pairs tried in this training (R333) -/
  tried : BitVec 2
  /-- virtual time among its nodes (R392) -/
  v : BitVec 48
  /-- peak credit bucket; its committed one gains nothing (R395) -/
  bk : Buckets
  /-- ETH_TS at which the frame being sent ends (R396) -/
  busy : Nat
  /-- gate list in force: entries (R399) -/
  gclLen : Nat
  /-- gate list in force: base (R399) -/
  gclBase : Nat
  /-- gate list in force: durations (R399) -/
  gclDur : List (Nat × Nat)
  /-- gate list in force: open masks (R399) -/
  gclOpen : List (Nat × BitVec 64)
  /-- window map in force, none before the first commit (unlisted window: 0xF) (R397 R399) -/
  wmap : Option (List (Nat × BitVec 4))
  deriving DecidableEq, Repr

/-- Port right after reset. -/
def Port.reset : Port where
  tried := 0#2
  v := 0#48
  bk := Buckets.reset
  busy := 0
  gclLen := 0
  gclBase := 0
  gclDur := []
  gclOpen := []
  wmap := none

/-- One network queue pair; key link * 4096 + qp (R349-R354). -/
structure NicQp where
  /-- slice (R349) -/
  slice : Nat
  /-- RX_BASE (R349) -/
  rxBase : BitVec 64
  /-- TX_BASE (R349) -/
  txBase : BitVec 64
  /-- CQ_BASE (R349) -/
  cqBase : BitVec 64
  /-- receive slots (R349) -/
  log2Rx : Nat
  /-- send slots (R349) -/
  log2Tx : Nat
  /-- completion slots (R349) -/
  log2Cq : Nat
  /-- VECTOR (R349) -/
  vector : BitVec 16
  /-- SUBQ (R349) -/
  subq : Nat
  /-- NQ_RX_TAIL (R354) -/
  rxTail : BitVec 16
  /-- NQ_TX_TAIL (R354) -/
  txTail : BitVec 16
  /-- NQ_CQ_HEAD (R354) -/
  cqHead : BitVec 16
  /-- NQ_HEADS.RX (R354) -/
  rxHead : BitVec 16
  /-- NQ_HEADS.TX (R354) -/
  txHead : BitVec 16
  /-- NQ_STAT.ERROR (R354) -/
  error : Bool
  /-- NQ_STAT.STATUS (R354) -/
  status : BitVec 8
  /-- records written (R351) -/
  written : Nat
  /-- records released (R351) -/
  released : Nat
  /-- frames fetched and not yet recorded, in ring order (R353) -/
  sends : List NicSend
  /-- a fetched frame its lane has not accepted, and its send slot (R391) -/
  wait : Option (List (BitVec 8) × Nat)
  /-- send descriptors fetched (R353) -/
  fetched : Nat
  deriving DecidableEq, Repr

/-- NicQp right after reset. -/
def NicQp.reset : NicQp where
  slice := 0
  rxBase := 0#64
  txBase := 0#64
  cqBase := 0#64
  log2Rx := 1
  log2Tx := 1
  log2Cq := 1
  vector := 0xFFFF#16
  subq := 0
  rxTail := 0#16
  txTail := 0#16
  cqHead := 0#16
  rxHead := 0#16
  txHead := 0#16
  error := false
  status := 0#8
  written := 0
  released := 0
  sends := []
  wait := none
  fetched := 0

/-- One ESP security association; key link * 4096 + SA (R439). -/
structure Sa where
  /-- DIR (R439) -/
  inbound : Bool
  /-- slice (R439) -/
  slice : Nat
  /-- outbound queue pair (R439) -/
  qp : Nat
  /-- key slot (R439) -/
  keyslot : Nat
  /-- SPI, network byte order (R439) -/
  spi : List (BitVec 8)
  /-- SALT (R439) -/
  salt : List (BitVec 8)
  /-- DIP (R439) -/
  dip : List (BitVec 8)
  /-- IV count (R440) -/
  iv : BitVec 64
  deriving DecidableEq, Repr

/-- Sa right after reset. -/
def Sa.reset : Sa where
  inbound := false
  slice := 0
  qp := 0
  keyslot := 0
  spi := []
  salt := []
  dip := []
  iv := 0#64

/-- One path of an SDT connection (R370-R372). -/
structure SPath where
  /-- window in bytes (R371) -/
  cwnd : Nat
  /-- smoothed round-trip time (R371) -/
  srtt : Nat
  /-- an ACK has been measured (R371) -/
  measured : Bool
  /-- least rtt since base was forgotten (R371) -/
  base : Option Nat
  /-- time of the last cut (R371) -/
  lastCut : Nat
  deriving DecidableEq, Repr

/-- SPath right after reset. -/
def SPath.reset : SPath where
  cwnd := 0
  srtt := 0
  measured := false
  base := none
  lastCut := 0

/-- A data packet sent (R370-R372). -/
structure SPkt where
  /-- message (R364) -/
  msn : BitVec 32
  /-- packet index (R364) -/
  index : Nat
  /-- path of the last transmission (R370) -/
  path : Nat
  /-- TS of the last transmission (R362) -/
  ts : BitVec 32
  /-- transmissions (R372) -/
  sends : Nat
  /-- order of the last transmission (R372) -/
  order : Nat
  /-- later packets of its path that have been answered (R372) -/
  later : Nat
  /-- to be sent again (R372) -/
  lost : Bool
  /-- held by its path, whose lane does not accept it (R391) -/
  held : Bool
  /-- has been sent before (R372) -/
  sent : Bool
  /-- answered (R371) -/
  acked : Bool
  /-- bytes counted in flight (R370) -/
  bytes : Nat
  deriving DecidableEq, Repr

/-- SPkt right after reset. -/
def SPkt.reset : SPkt where
  msn := 0#32
  index := 0
  path := 0
  ts := 0#32
  sends := 0
  order := 0
  later := 0
  lost := false
  held := false
  sent := false
  acked := false
  bytes := 0

/-- An outgoing message or a record awaited, in slot order (R365-R368, R380). -/
structure SMsg where
  /-- send ring slot (R365) -/
  slot : Nat
  /-- OP (R366) -/
  op : BitVec 8
  /-- SENT mode (R380) -/
  sent : Bool
  /-- MLEN (R366) -/
  len : Nat
  /-- source (R366) -/
  laddr : BitVec 64
  /-- KEY (R366) -/
  key : BitVec 32
  /-- RADDR (R366) -/
  raddr : BitVec 64
  /-- TAG (R366) -/
  tag : List (BitVec 8)
  /-- the entry's operation has begun (R366) -/
  begun : Bool
  /-- MSN (R368) -/
  msn : Option (BitVec 32)
  /-- next packet to send the first time (R364) -/
  nextPkt : Nat
  /-- packets sent (R372) -/
  pkts : List SPkt
  /-- outcome once finished (R367) -/
  status : Option (BitVec 8)
  deriving DecidableEq, Repr

/-- SMsg right after reset. -/
def SMsg.reset : SMsg where
  slot := 0
  op := 0#8
  sent := false
  len := 0
  laddr := 0#64
  key := 0#32
  raddr := 0#64
  tag := []
  begun := false
  msn := none
  nextPkt := 0
  pkts := []
  status := none

/-- An incoming message (R374-R377). -/
structure RMsg where
  /-- MSN (R374) -/
  msn : BitVec 32
  /-- MLEN (R374) -/
  mlen : Nat
  /-- message bitmap (R374) -/
  bits : List (Nat × Bool)
  /-- status, OK unless failed (R377) -/
  status : BitVec 8
  /-- a FLUSH (R378) -/
  flush : Bool
  /-- SENT (R378) -/
  sent : Bool
  /-- KEY (R378) -/
  key : BitVec 32
  /-- RADDR (R378) -/
  raddr : BitVec 64
  /-- slice of the HOST key under which its last placed packet was written (R375, R380) -/
  hostSlice : Option Nat
  deriving DecidableEq, Repr

/-- RMsg right after reset. -/
def RMsg.reset : RMsg where
  msn := 0#32
  mlen := 0
  bits := []
  status := 0#8
  flush := false
  sent := false
  key := 0#32
  raddr := 0#64
  hostSlice := none

/-- One SDT connection (R356-R385). -/
structure Conn where
  /-- CLOSED, OPEN, FAILED or CLOSING (R360) -/
  state : ConnState
  /-- hub that serves it (R356) -/
  hub : Nat
  /-- partition (R356) -/
  part : Nat
  /-- GEN (R358) -/
  gen : BitVec 16
  /-- PEER_CONN (R358) -/
  peerConn : BitVec 16
  /-- PEER_GEN (R358) -/
  peerGen : BitVec 16
  /-- FLAGS: ROLE, IPV6, VLAN (R358) -/
  flags : BitVec 8
  /-- paths (R358) -/
  npath : Nat
  /-- KEYSLOT (R358) -/
  keyslot : Nat
  /-- TCI (R358) -/
  tci : BitVec 16
  /-- SUBQ (R358) -/
  subq : Nat
  /-- PEER_IP (R358) -/
  peerIp : List (BitVec 8)
  /-- PEER_MAC (R358) -/
  peerMac : List (BitVec 8)
  /-- TDELAY (R358) -/
  tdelay : Nat
  /-- send ring base, units of 64 bytes (R358) -/
  sqBase : Nat
  /-- LOG2_SQ (R358) -/
  log2Sq : Nat
  /-- receive record ring base (R358) -/
  rqBase : Nat
  /-- LOG2_RQ (R358) -/
  log2Rq : Nat
  /-- SUBMIT (R358) -/
  bSubmit : BitVec 15
  /-- CREDIT (R358) -/
  bCredit : BitVec 15
  /-- DONE (R358) -/
  bDone : BitVec 15
  /-- RDONE (R358) -/
  bRdone : BitVec 15
  /-- RCREDIT (R358) -/
  bRcredit : BitVec 15
  /-- next MSN (R360 R368) -/
  msn : Nat
  /-- control packets sent (R360 R362) -/
  ackseq : Nat
  /-- send ring slots taken (R365) -/
  taken : Nat
  /-- send records written (R365) -/
  recorded : Nat
  /-- entries taken and not recorded, in slot order (R365) -/
  msgs : List SMsg
  /-- the WAIT at the head: beacon and target (R382) -/
  waiting : Option (Nat × BitVec 32)
  /-- the ring is halted (R382) -/
  halted : Bool
  /-- paths (R371) -/
  paths : List (Nat × SPath)
  /-- path served last (R370) -/
  rrPath : Nat
  /-- packets it may still send in its turn (R370) -/
  rrLeft : Nat
  /-- control packets their lane has not accepted: local port and frame (R391) -/
  ctl : List (Nat × List (BitVec 8))
  /-- transmissions counted (R372) -/
  orderCtr : Nat
  /-- D, lowest MSN not yet delivered (R374) -/
  d : BitVec 32
  /-- incoming messages (R374) -/
  rmsgs : List RMsg
  /-- receive records written (R376) -/
  delivered : Nat
  /-- last address written by a delivered SENT message to a HOST key since the last FLUSH, and its slice (R380) -/
  hostSent : Option (Nat × Nat)
  /-- status of the failure (R383) -/
  failStatus : BitVec 8
  /-- SDT_CONN_CLOSE awaits its reply (R384) -/
  src : Option Src
  deriving DecidableEq, Repr

/-- Conn right after reset. -/
def Conn.reset : Conn where
  state := .closed
  hub := 0
  part := 0
  gen := 0#16
  peerConn := 0#16
  peerGen := 0#16
  flags := 0#8
  npath := 1
  keyslot := 0
  tci := 0#16
  subq := 0
  peerIp := []
  peerMac := []
  tdelay := 1
  sqBase := 0
  log2Sq := 0
  rqBase := 0
  log2Rq := 0
  bSubmit := 0#15
  bCredit := 0#15
  bDone := 0#15
  bRdone := 0#15
  bRcredit := 0#15
  msn := 0
  ackseq := 0
  taken := 0
  recorded := 0
  msgs := []
  waiting := none
  halted := false
  paths := []
  rrPath := 0
  rrLeft := 0
  ctl := []
  orderCtr := 0
  d := 0#32
  rmsgs := []
  delivered := 0
  hostSent := none
  failStatus := 0#8
  src := none

/-- One space key (R381). -/
structure SpaceKey where
  /-- granted; a key that has been revoked keeps its new tag (R381) -/
  granted : Bool
  /-- tag (R381) -/
  tag : BitVec 16
  /-- partition (R381) -/
  part : Nat
  /-- KIND HOST (R381) -/
  host : Bool
  /-- slice (R381) -/
  slice : Nat
  deriving DecidableEq, Repr

/-- SpaceKey right after reset. -/
def SpaceKey.reset : SpaceKey where
  granted := false
  tag := 0#16
  part := 0
  host := false
  slice := 0

/-- One NVMe queue, submission or completion (R402-R406). -/
structure NvQ where
  /-- base address (R405) -/
  base : BitVec 64
  /-- entries (R402) -/
  size : Nat
  /-- head (R404) -/
  head : Nat
  /-- tail (R404) -/
  tail : Nat
  /-- completion queue of a submission queue (R405) -/
  cq : Nat
  /-- interrupt vector of a completion queue (R405) -/
  vector : BitVec 16
  /-- interrupts enabled (R405) -/
  ien : Bool
  /-- phase of the next completion entry (R405) -/
  phase : Bool
  deriving DecidableEq, Repr

/-- NvQ right after reset. -/
def NvQ.reset : NvQ where
  base := 0#64
  size := 0
  head := 0
  tail := 0
  cq := 0
  vector := 0#16
  ien := false
  phase := true

/-- An NVMe I/O command fetched and not completed (R413). -/
structure NvCmd where
  /-- fetch number (R413) -/
  num : Nat
  /-- submission queue (R413) -/
  sq : Nat
  /-- command identifier (R405) -/
  cid : BitVec 16
  /-- opcode (R408) -/
  opc : BitVec 8
  /-- NSID (R408) -/
  nsid : Nat
  /-- first block (R410) -/
  slba : Nat
  /-- blocks (R410) -/
  nlb : Nat
  /-- FUA (R408) -/
  fua : Bool
  /-- range-lock entries: first block, blocks, write-kind (R413) -/
  locks : List (Nat × Nat × Bool)
  /-- Dataset Management ranges with AD (R408) -/
  ranges : List (Nat × Nat)
  /-- it has started (R413) -/
  started : Bool
  /-- member commands outstanding: (SSD port, command identifier), in block order (R410) -/
  members : List (Nat × Nat)
  /-- statuses of members that failed, by their first block (R410) -/
  fails : List (Nat × BitVec 16)
  /-- host data of a Compare (R408) -/
  data : List (BitVec 8)
  /-- its queue is gone; no data or completion reaches the host (R418) -/
  dead : Bool
  /-- data pointer (R402) -/
  prp : List (BitVec 64)
  /-- what becomes of its writes to the host (R303 R328) -/
  writes : NvWrites
  deriving DecidableEq, Repr

/-- NvCmd right after reset. -/
def NvCmd.reset : NvCmd where
  num := 0
  sq := 0
  cid := 0#16
  opc := 0#8
  nsid := 0
  slba := 0
  nlb := 0
  fua := false
  locks := []
  ranges := []
  started := false
  members := []
  fails := []
  data := []
  dead := false
  prp := []
  writes := ⟨.done, .done⟩

/-- Value of a feature that no Set Features has written: the notices of changed namespaces are on, all else 0. PRESUMED (log 73). -/
def featReset (key : Nat) : BitVec 32 := if key = 0x0B then 0x100#32 else 0#32

/-- The NVMe controller on PF2 of one link (R402-R418). -/
structure Nvme where
  /-- CC.EN (R402 R418) -/
  en : Bool
  /-- CSTS.RDY (R402) -/
  rdy : Bool
  /-- CSTS.SHST (R418) -/
  shst : BitVec 2
  /-- CC (R402) -/
  cc : BitVec 32
  /-- AQA (R402) -/
  aqa : BitVec 32
  /-- ASQ (R402) -/
  asq : BitVec 64
  /-- ACQ (R402) -/
  acq : BitVec 64
  /-- submission queues, 0 the admin queue (R402) -/
  sqs : List (Nat × NvQ)
  /-- completion queues (R402) -/
  cqs : List (Nat × NvQ)
  /-- slice bound to a queue number (plus 1; unlisted: unbound) (R406) -/
  bind : List (Nat × Nat)
  /-- namespace mask of a queue number (unlisted: every namespace reported) (R407) -/
  masks : List (Nat × BitVec 1024)
  /-- features by FID, 0x100 + vector for FID 0x09 (unlisted: `featReset`) (R405) -/
  feats : List (Nat × BitVec 32)
  /-- Asynchronous Event Requests outstanding (R405) -/
  aers : List (BitVec 16 × HostWrite)
  /-- events that wait for a request (R404 R409) -/
  events : List (BitVec 32)
  /-- log 0x04 (R405 R409) -/
  changed : List Nat
  /-- log 0x01, newest first (R405) -/
  errlog : List NvError
  /-- errors counted for log 0x01 (R405) -/
  errs : Nat
  /-- status with which the engine stalls (R305) -/
  status : BitVec 8
  /-- commands numbered (R413) -/
  fetched : Nat
  /-- commands in flight, in fetch order (R413) -/
  cmds : List NvCmd
  /-- fetching stopped for lack of lock entries (R414) -/
  stalled : Bool
  /-- a shutdown waits (R418) -/
  shn : Bool
  deriving DecidableEq, Repr

/-- Nvme right after reset. -/
def Nvme.reset : Nvme where
  en := false
  rdy := false
  shst := 0#2
  cc := 0#32
  aqa := 0#32
  asq := 0#64
  acq := 0#64
  sqs := []
  cqs := []
  bind := []
  masks := []
  feats := []
  aers := []
  events := []
  changed := []
  errlog := []
  errs := 0
  status := 0#8
  fetched := 0
  cmds := []
  stalled := false
  shn := false

/-- One member of a namespace (R409). -/
structure Member where
  /-- SSD root port (R409) -/
  port : Nat
  /-- backing NSID (R409) -/
  nsid : BitVec 32
  /-- first SSD block (R409) -/
  start : Nat
  deriving DecidableEq, Repr

/-- Member right after reset. -/
def Member.reset : Member where
  port := 0
  nsid := 0#32
  start := 0

/-- One namespace; key NSID (R409-R412). -/
structure Ns where
  /-- partition (R409) -/
  part : Nat
  /-- VOLATILE (R409) -/
  volatile : Bool
  /-- false 4096, true 512 (R409) -/
  lbaf : Bool
  /-- XTS key slot (R409) -/
  keyslot : Nat
  /-- blocks (R409) -/
  size : Nat
  /-- tier-2 address of block 0 (R411) -/
  t2Base : BitVec 48
  /-- members (R409) -/
  members : List Member
  /-- offline (R424) -/
  offline : Bool
  /-- members' SSDs that it expects: serial number, and NGUID of the backing namespace (R424) -/
  ssds : List (List (BitVec 8) × BitVec 128)
  /-- blocks written all or nothing over a power failure (R416) -/
  atom : Nat
  /-- NS_DELETE awaits its reply (R409) -/
  dying : Option Src
  deriving DecidableEq, Repr

/-- Ns right after reset. -/
def Ns.reset : Ns where
  part := 0
  volatile := false
  lbaf := false
  keyslot := 0
  size := 0
  t2Base := 0#48
  members := []
  offline := false
  ssds := []
  atom := 0
  dying := none

/-- A member command outstanding on an SSD (R420). -/
structure SsdCmd where
  /-- command identifier (R420) -/
  cid : Nat
  /-- controller (R410) -/
  link : Nat
  /-- host command's fetch number (R410) -/
  num : Nat
  /-- Abort sent (R420) -/
  aborted : Bool
  /-- reissued after a reset (R420) -/
  reissued : Bool
  /-- opcode sent (R410) -/
  opc : BitVec 8
  /-- backing namespace (R410) -/
  nsid : BitVec 32
  /-- FUA (R408) -/
  fua : Bool
  /-- SSD block (R410) -/
  slba : Nat
  /-- blocks (R410) -/
  nlb : Nat
  /-- first block of the namespace it covers (R410) -/
  lba : Nat
  /-- data sent, for a reissue (R420) -/
  data : List (BitVec 8)
  deriving DecidableEq, Repr

/-- SsdCmd right after reset. -/
def SsdCmd.reset : SsdCmd where
  cid := 0
  link := 0
  num := 0
  aborted := false
  reissued := false
  opc := 0#8
  nsid := 0#32
  fua := false
  slba := 0
  nlb := 0
  lba := 0
  data := []

/-- One SSD slot and its SSD; key 0-15 (R419-R426). -/
structure Slot where
  /-- accepted levels: 0 PRSNT_N, 1 BUTTON_N (R422) -/
  inputs : BitVec 2
  /-- last sample (R422) -/
  raw : BitVec 2
  /-- samples in a row that gave it (R422) -/
  same : Nat
  /-- an accepted press not yet acted on (R422 R423) -/
  button : Bool
  /-- milliseconds ATTN_LED still blinks (R423) -/
  blinkMs : Nat
  /-- PWR_EN (R422 R423) -/
  pwrEn : Bool
  /-- PWR_LED (R422 R423) -/
  pwrLed : LedState
  /-- ATTN_LED (R422 R423) -/
  attnLed : LedState
  /-- PERST of the slot held (R423) -/
  perst : Bool
  /-- commands outstanding (R420) -/
  cmds : List SsdCmd
  /-- next command identifier (R420) -/
  nextCid : Nat
  /-- identity of the SSD in the slot (R424) -/
  serial : List (BitVec 8)
  /-- NGUIDs of the namespaces of that SSD (R424) -/
  nguids : List (BitVec 32 × BitVec 128)
  /-- a controller reset is under way (R420) -/
  resetting : Bool
  deriving DecidableEq, Repr

/-- Slot right after reset. -/
def Slot.reset : Slot where
  inputs := 3#2
  raw := 3#2
  same := 0
  button := false
  blinkMs := 0
  pwrEn := false
  pwrLed := .off
  attnLed := .off
  perst := true
  cmds := []
  nextCid := 0
  serial := []
  nguids := []
  resetting := false

/-- A loaded key slot (R433). -/
structure KeySlot where
  /-- ALG (R433) -/
  alg : BitVec 3
  /-- HARDENED (R433) -/
  hardened : Bool
  /-- key material (R433) -/
  key : List (BitVec 8)
  deriving DecidableEq, Repr

/-- KeySlot right after reset. -/
def KeySlot.reset : KeySlot where
  alg := 0#3
  hardened := false
  key := []

/-- A cipher operation that waits for a pipe (R428, R429). -/
structure PipeOp where
  /-- class 0 SDT transmit, 1 SDT receive, 2 storage, 3 network function (R428) -/
  cls : Nat
  /-- partition (R320) -/
  part : Nat
  /-- algorithm of its key slot (R429) -/
  alg : BitVec 3
  /-- its key slot is hardened (R429 R430) -/
  hardened : Bool
  /-- bytes (R429) -/
  len : Nat
  deriving DecidableEq, Repr

/-- PipeOp right after reset. -/
def PipeOp.reset : PipeOp where
  cls := 0
  part := 15
  alg := 0#3
  hardened := false
  len := 0

/-- The cipher engine of one hub (R428-R436). -/
structure Cph where
  /-- waiting operations, in arrival order (R428) -/
  ops : List PipeOp
  /-- class served last (R428) -/
  turn : Nat
  /-- hub fabric clock at which each pipe is idle again (R429) -/
  busy : List (Nat × Nat)
  /-- hub fabric clocks of the last two parity errors that each pipe has reported, the last first (R435) -/
  parity : List (Nat × List Nat)
  deriving DecidableEq, Repr

/-- Cph right after reset. -/
def Cph.reset : Cph where
  ops := []
  turn := 3
  busy := []
  parity := []

/-- A debug nonce (R452). -/
structure Nonce where
  /-- 32 bytes (R452) -/
  value : List (BitVec 8)
  deriving DecidableEq, Repr

/-- Nonce right after reset. -/
def Nonce.reset : Nonce where
  value := []

/-- An SPDM session (R448). -/
structure SpdmSess where
  /-- session ID (R448) -/
  id : Nat
  /-- connection: 0-1 DOE of a link, 2 MCTP (R448) -/
  conn : Nat
  /-- FINISH has been answered (R448) -/
  done : Bool
  deriving DecidableEq, Repr

/-- SpdmSess right after reset. -/
def SpdmSess.reset : SpdmSess where
  id := 0
  conn := 0
  done := false

/-- The security processor (R442-R454). -/
structure Sec where
  /-- PUF seed (R446) -/
  seed : Option (BitVec 256)
  /-- ID_VALID (R447) -/
  idValid : Bool
  /-- OWNER_KEY_HASH of a valid owner record (R450) -/
  ownerKey : Option (List (BitVec 8))
  /-- salt (R450) -/
  salt : List (BitVec 8)
  /-- PW_HASH (R450) -/
  pwHash : Option (List (BitVec 8))
  /-- the owner record in flash while the device has no seed to check it with (R446 R450) -/
  ownerShut : Option (List (BitVec 8) × List (BitVec 8) × Option (List (BitVec 8)))
  /-- nonces outstanding (R452) -/
  nonces : List Nonce
  /-- SPDM sessions, oldest first (R448) -/
  sessions : List SpdmSess
  /-- what a connection has been answered, 0-1 DOE of a link, 2 MCTP: bit 0 GET_VERSION, 1 GET_CAPABILITIES, 2 NEGOTIATE_ALGORITHMS (R448) -/
  spdm : List (Nat × BitVec 3)
  /-- measurement values by index (R449) -/
  measure : List (Nat × List (BitVec 8))
  /-- SVN by index 2-7 (R445 R449) -/
  svns : List (Nat × BitVec 32)
  /-- IDE streams, key 2 * link + stream: 1 keyed through IDE_KM, 2 in use (R284 R448) -/
  ideKeys : List (Nat × BitVec 2)
  deriving DecidableEq, Repr

/-- Sec right after reset. -/
def Sec.reset : Sec where
  seed := none
  idValid := false
  ownerKey := none
  salt := []
  pwHash := none
  ownerShut := none
  nonces := []
  sessions := []
  spdm := []
  measure := []
  svns := []
  ideKeys := []

/-- One mailbox page; key hub * 64 + v (R458-R462). -/
structure Mbx where
  /-- the message being served (R459) -/
  held : List (BitVec 8)
  /-- status and payload of the outcome (R459) -/
  reply : Option (BitVec 8 × List (BitVec 8))
  /-- order in which its GO reached the device (R462) -/
  order : Nat
  /-- the command has begun and its reply waits for something (R462) -/
  started : Bool
  /-- the message came over MCTP (R463) -/
  mctp : Bool
  /-- GO has been written and the message is not yet read: PF0 may not master the link (R305 R459) -/
  unread : Bool
  deriving DecidableEq, Repr

/-- Mbx right after reset. -/
def Mbx.reset : Mbx where
  held := []
  reply := none
  order := 0
  started := false
  mctp := false
  unread := false

/-- A log mirror (R467). -/
structure Mirror where
  /-- host ring (R467) -/
  base : BitVec 64
  /-- entries; 0 for none (R467) -/
  size : Nat
  /-- link (R467) -/
  link : Nat
  /-- entries copied (R467) -/
  copied : Nat
  /-- entries not yet copied, oldest first: PF0 may not master the link (R305 R467) -/
  due : List (List (BitVec 8))
  deriving DecidableEq, Repr

/-- Mirror right after reset. -/
def Mirror.reset : Mirror where
  base := 0#64
  size := 0
  link := 0
  copied := 0
  due := []

/-- One firmware processor; key hub * 16 + index (R455-R457, R466-R468). -/
structure Fwp where
  /-- times in ms of fault restarts within 60 s (R457) -/
  faults : List Nat
  /-- log ring, newest first, at most 2,048 (R466) -/
  log : List (List (BitVec 8))
  /-- enabled trace points (R468) -/
  trace : List (Nat × Bool)
  /-- its mirror (R467) -/
  mirror : Mirror
  deriving DecidableEq, Repr

/-- Fwp right after reset. -/
def Fwp.reset : Fwp where
  faults := []
  log := []
  trace := []
  mirror := Mirror.reset

/-- One flash image slot (R469-R471). -/
structure FwSlot where
  /-- GEN (R470) -/
  gen : BitVec 32
  /-- STATE (R470) -/
  state : SlotState
  /-- what FW_UPDATE has written since the slot was erased, from offset 0 (R469 R471) -/
  bytes : List (BitVec 8)
  deriving DecidableEq, Repr

/-- FwSlot right after reset. -/
def FwSlot.reset : FwSlot where
  gen := 0#32
  state := .empty
  bytes := []

/-- Driver loss of one link (R474-R476). -/
structure LossState where
  /-- the timer is armed (R474) -/
  armed : Bool
  /-- cause of the last loss (R476) -/
  cause : BitVec 8
  deriving DecidableEq, Repr

/-- LossState right after reset. -/
def LossState.reset : LossState where
  armed := false
  cause := 0#8

/-- One Kennel ledger entry (R517). -/
structure LedgerEntry where
  /-- KIND (R517) -/
  kind : BitVec 8
  /-- BOOT (R517) -/
  boot : BitVec 32
  /-- LOCATION (R517) -/
  location : BitVec 64
  /-- black-box SEQ (R517) -/
  detail : BitVec 32
  deriving DecidableEq, Repr

/-- LedgerEntry right after reset. -/
def LedgerEntry.reset : LedgerEntry where
  kind := 0#8
  boot := 0#32
  location := 0#64
  detail := 0#32

/-- The retained record (R491). -/
structure Record where
  /-- a record is held and its CRC passes (R478 R491) -/
  valid : Bool
  /-- failed slots, gc * 18 + slot (R491) -/
  failedSlots : List Nat
  /-- failed clusters (R491) -/
  failedClusters : List Nat
  /-- core maps: lc to NOC_MAP value (R491) -/
  maps : List (Nat × Nat)
  /-- interleave modes (R491) -/
  modes : BitVec 4
  /-- ledger generation (R491) -/
  ledgerGen : BitVec 32
  /-- DIGEST of the running stage-1 image (R491) -/
  digest : List (BitVec 8)
  /-- trained settings of the die-to-die links (R491) -/
  d2d : List (Nat × BitVec 32)
  /-- trained settings of the Ethernet ports, 0-7, the SSD slots, 8 + port, and the host links, 24 + link (R491) -/
  links : List (Nat × BitVec 32)
  /-- trained settings of the memory units: unusable units (R491) -/
  memUnits : List (Nat × Bool)
  /-- row repairs, by the LOCATION of their ledger entries (R491) -/
  rows : List Nat
  deriving DecidableEq, Repr

/-- Record right after reset. -/
def Record.reset : Record where
  valid := false
  failedSlots := []
  failedClusters := []
  maps := []
  modes := 0#4
  ledgerGen := 0#32
  digest := []
  d2d := []
  links := []
  memUnits := []
  rows := []

/-- Bring-up (R478-R501). -/
structure Bru where
  /-- bit n: step n accepted (R483) -/
  accepted : BitVec 12
  /-- bit n: step n finished (R483) -/
  finished : BitVec 12
  /-- bit n: step n runs (R484) -/
  running : BitVec 12
  /-- results of the steps finished (R485) -/
  result : List (Nat × BitVec 8)
  /-- bit n: step n degraded (R485) -/
  stepDegraded : BitVec 12
  /-- no stage-1 image verified (R481) -/
  noImage : Bool
  /-- retained record (R491) -/
  record : Record
  /-- core slots failed by self-test (R490 R494) -/
  failedSlots : List Nat
  /-- clusters failed by self-test (R490 R494) -/
  failedClusters : List Nat
  /-- row repairs in force, by the LOCATION of their ledger entries (R490 R492) -/
  rows : List Nat
  /-- a hub array failed SELF_TEST (R490 R499) -/
  hubArray : Bool
  /-- START accepted and finished (R499) -/
  started : Bool
  /-- a START has been refused (R499) -/
  startRefused : Bool
  /-- the retained record is in use (R492) -/
  fast : Bool
  /-- bit u: memory unit u has trained this boot (0-79 HBM, 80-111 tier 2) (R212) -/
  memDone : BitVec 112
  /-- bit u: memory unit u unusable (R212) -/
  memBad : BitVec 112
  /-- tier-2 map (R35 R494) -/
  t2Mapped : BitVec 32
  /-- BUILD_MAP has run (R494) -/
  mapBuilt : Bool
  /-- Kennel ledger, oldest first (R517) -/
  ledger : List LedgerEntry
  /-- Subsystem Vendor ID and Subsystem ID (R285) -/
  boardSub : BitVec 32
  /-- boot count of this boot (R525) -/
  bootCount : BitVec 32
  /-- image slot booted (R470) -/
  slotBooted : Nat
  /-- a fatal event has happened since the last reset (R504) -/
  fatal : Bool
  deriving DecidableEq, Repr

/-- Bru right after reset. -/
def Bru.reset : Bru where
  accepted := 0#12
  finished := 0#12
  running := 0#12
  result := []
  stepDegraded := 0#12
  noImage := false
  record := Record.reset
  failedSlots := []
  failedClusters := []
  rows := []
  hubArray := false
  started := false
  startRefused := false
  fast := false
  memDone := 0#112
  memBad := 0#112
  t2Mapped := 0#32
  mapBuilt := false
  ledger := []
  boardSub := 0#32
  bootCount := 0#32
  slotBooted := 0
  fatal := false

/-- A black-box record (R522). -/
structure BbRec where
  /-- SEQ (R522) -/
  seq : BitVec 32
  /-- BOOT (R522) -/
  boot : BitVec 32
  /-- TYPE (R523) -/
  typ : BitVec 16
  /-- SRC_TYPE (R522) -/
  srcType : BitVec 16
  /-- SRC_INST (R522) -/
  srcInst : BitVec 8
  /-- class (R503) -/
  sev : BitVec 2
  /-- EPOCH (R522) -/
  epoch : BitVec 8
  /-- PART (R522) -/
  part : BitVec 8
  /-- DOMAIN (R522) -/
  domain : BitVec 16
  /-- COUNT (R522) -/
  count : BitVec 48
  /-- payload from byte 24 (R524) -/
  payload : List (BitVec 8)
  deriving DecidableEq, Repr

/-- BbRec right after reset. -/
def BbRec.reset : BbRec where
  seq := 0#32
  boot := 0#32
  typ := 0#16
  srcType := 0#16
  srcInst := 0#8
  sev := 0#2
  epoch := 0#8
  part := 0xFF#8
  domain := 0#16
  count := 0#48
  payload := []

/-- The black-box writer and Lamplighter's event ring (R520-R526). -/
structure Bbx where
  /-- records in the buffer, oldest first; the oldest four are the page being filled (R525) -/
  buffer : List BbRec
  /-- pages programmed, newest first (R525 R469) -/
  flash : List (List BbRec)
  /-- event ring, newest first, at most 4,096 (R520) -/
  ring : List BbRec
  /-- other flash operations are suspended (R526) -/
  suspended : Bool
  /-- pages that the flush of this power failure may still program (R526 R576) -/
  flushLeft : Nat
  /-- records lost at the last power failure (R526) -/
  pfLost : BitVec 32
  deriving DecidableEq, Repr

/-- Bbx right after reset. -/
def Bbx.reset : Bbx where
  buffer := []
  flash := []
  ring := []
  suspended := false
  flushLeft := 0
  pfLost := 0#32

/-- Lantern for one partition (R530-R546). -/
structure Snap where
  /-- a set-up exists (R532) -/
  setup : Bool
  /-- the SNAP_SETUP payload (R532) -/
  cfg : List (BitVec 8)
  /-- the payload of the running or last SNAP_TAKE (R534) -/
  take : List (BitVec 8)
  /-- the running snapshot is automatic (R544) -/
  auto : Bool
  /-- next automatic area (R544) -/
  autoHalf : Bool
  /-- MODE of the running snapshot (R534) -/
  mode : BitVec 8
  /-- SCOPE (R530) -/
  scope : BitVec 8
  /-- Lantern set DIS_PAUSE itself (R535) -/
  pausedBy : Bool
  /-- granules still to be copied, by home address / 65,536 (R535 R536) -/
  pendingG : List Nat
  /-- granules asked for by homes, in order (R536) -/
  urgent : List Nat
  /-- manifest entries, oldest first (R541) -/
  entries : List (List (BitVec 8))
  /-- next store slot (R540) -/
  slot : Nat
  /-- first slot it may not fill (R540) -/
  slotEnd : Nat
  /-- STEP value up to which RELEASE follows (R533) -/
  stepSeen : BitVec 32
  /-- granules stored (R542) -/
  stored : Nat
  /-- time in s of the last automatic start (R544) -/
  lastAuto : Option Nat
  /-- core-state and beacon granules still to be copied, by the SOURCE of their entries, and data memory granules (R535) -/
  items : List Nat
  /-- pre-warnings that Lantern has not taken up (R544) -/
  warned : Nat
  /-- logical cores without a core-state granule (R535) -/
  omitted : Nat
  /-- writes held at homes, in arrival order (R536) -/
  held : List HeldWrite
  deriving DecidableEq, Repr

/-- Snap right after reset. -/
def Snap.reset : Snap where
  setup := false
  cfg := []
  take := []
  auto := false
  autoHalf := false
  mode := 0#8
  scope := 0#8
  pausedBy := false
  pendingG := []
  urgent := []
  entries := []
  slot := 0
  slotEnd := 0
  stepSeen := 0#32
  stored := 0
  lastAuto := none
  items := []
  warned := 0
  omitted := 0
  held := []

/-- Power state of one compute die (R555-R561). -/
structure DieP where
  /-- thermal limit (R557) -/
  thermLimit : Nat
  /-- device limit (R560) -/
  devLimit : Nat
  /-- hardware holds point 0 (R557) -/
  hold : Bool
  /-- samples of the die's sensors (unlisted: 0x8000) (R552) -/
  temps : List (Nat × BitVec 16)
  /-- clusters whose core clock is halved (R555) -/
  stretch : BitVec 16
  /-- highest reading since a trend alert, until the sensor has fallen by TREND_DELTA (R558) -/
  trendPeak : Option Int
  /-- samples of the hottest sensor: time in ms, temperature (R558) -/
  history : List (Nat × Int)
  /-- milliseconds below the raise limit (R557) -/
  coolMs : Nat
  deriving DecidableEq, Repr

/-- DieP right after reset. -/
def DieP.reset : DieP where
  thermLimit := 6
  devLimit := 6
  hold := false
  temps := []
  stretch := 0#16
  trendPeak := none
  history := []
  coolMs := 0

/-- Power and thermal control of the device (R552-R561). -/
structure Pwr where
  /-- dies 0-9 (R556) -/
  dies : List (Nat × DieP)
  /-- conditions: 0 THERM_ALERT_N, 1 hardware limit, 2 PFAIL_N, 3 power over limit (R559) -/
  pmEmerg : BitVec 4
  /-- emergency in force (R559) -/
  emerg : Bool
  /-- milliseconds for which power has exceeded PWR_LIMIT (R559) -/
  overMs : Nat
  /-- dies lowered by the device limit, newest first (R560) -/
  lowered : List Nat
  /-- scale of each rail in 1/1024 (unlisted: 1024) (R553) -/
  scale : List (Nat × Nat)
  /-- stacks with doubled refresh (R557) -/
  stackHot : BitVec 20
  /-- stacks limited to half bandwidth (R557) -/
  stackHalf : BitVec 20
  /-- static energy for each microjoule that the estimators of a rail count, in 1/1024 (R553) -/
  statics : List (Nat × Nat)
  /-- samples of the hub sensors, 32 * hub + sensor (unlisted: 0x8000) (R552) -/
  hubTemps : List (Nat × BitVec 16)
  /-- power estimate of each die in mW, over the last ms (R553 R564) -/
  dieMw : List (Nat × Nat)
  deriving DecidableEq, Repr

/-- Pwr right after reset. -/
def Pwr.reset : Pwr where
  dies := []
  pmEmerg := 0#4
  emerg := false
  overMs := 0
  lowered := []
  scale := []
  stackHot := 0#20
  stackHalf := 0#20
  statics := []
  hubTemps := []
  dieMw := []

/-- Telemetry of one hub (R550-R567). -/
structure Tel where
  /-- next record SEQ (R563) -/
  seq : BitVec 32
  /-- PLDM event receiver (R566) -/
  receiver : Option (BitVec 8)
  /-- PLDM TID (R566) -/
  tid : BitVec 8
  /-- telemetry frames that wait for room in their lane, oldest first: queue and frame (R391 R567) -/
  held : List (Nat × Frame)
  deriving DecidableEq, Repr

/-- Tel right after reset. -/
def Tel.reset : Tel where
  seq := 0#32
  receiver := none
  tid := 0#8
  held := []

/-- A reply on its way to its requester (R506). -/
structure Reply where
  /-- requester (R506) -/
  req : Req
  /-- epoch carried (R506) -/
  epoch : BitVec 8
  /-- address (R218) -/
  addr : Nat
  /-- status (R218) -/
  status : BitVec 8
  /-- data of a read (R218) -/
  data : List (BitVec 8)
  /-- poison mark (R266) -/
  poison : Bool
  deriving DecidableEq, Repr

/-- Reply right after reset. -/
def Reply.reset : Reply where
  req := .fwp 0 0
  epoch := 0#8
  addr := 0
  status := 0#8
  data := []
  poison := false

/-- A correction filter of a controller or array (R274). -/
structure Filter where
  /-- units corrected, newest first, at most 64 (R274) -/
  units : List Nat
  deriving DecidableEq, Repr

/-- Filter right after reset. -/
def Filter.reset : Filter where
  units := []

/-- Patrol state of a controller beyond its registers (R276, R279). -/
structure Patrol where
  /-- lines corrected and the sweep in which (R279) -/
  lastSweep : List (Nat × Nat)
  /-- 4 KiB ranges found failing and not yet retired, by address / 4096, oldest first (R279) -/
  due : List Nat
  deriving DecidableEq, Repr

/-- Patrol right after reset. -/
def Patrol.reset : Patrol where
  lastSweep := []
  due := []

/-- The classifier of one hub (R342-R346). -/
structure Cls where
  /-- frames handed to the SDT engine, oldest first (R342) -/
  sdtq : List ClsFrame
  /-- network processor's queue, at most 1,024 frames (R342) -/
  fwq : List ClsFrame
  deriving DecidableEq, Repr

/-- Cls right after reset. -/
def Cls.reset : Cls where
  sdtq := []
  fwq := []

/-- The whole device. -/
structure State where
  /-- pins, supplies and reference clocks (R577) -/
  pins : Pins
  /-- every register of BAR0 that differs from its reset value, by BAR0 offset (R41 R52) -/
  regs : List (Nat × BitVec 32)
  /-- every byte that is not 0x00, by home address (R34 R218) -/
  mem : List Host.Cell
  /-- protected units whose state differs from their region's: true, the unit does not hold the poison word (R265 R270) -/
  clean : List (Nat × Bool)
  /-- regions written whole with zeros by MEM_FILL since their last poisoning: HBM unit u, 80 + tier-2 unit, 112 + gc pool, 272 + data memory slot, 3152 + instruction store slot, 6032 + 256 hub + granule of hub SRAM (R270 R272) -/
  filled : List (Nat × Bool)
  /-- lines stored with check bytes other than computed ones: the difference, byte i for check byte 64 + i (R281) -/
  chk : List (Nat × BitVec 64)
  /-- tier-2 lines stored by an armed write, as given (R438) -/
  raws : List (Nat × Option (BitVec 512))
  /-- line-cipher keys of the tier-2 units (R437) -/
  t2keys : List (Nat × BitVec 256)
  /-- core slots, gc * 18 + slot (R25) -/
  cores : List (Nat × Core)
  /-- clusters (R24) -/
  clusters : List (Nat × Cluster)
  /-- beacon values by id (R176) -/
  beacons : List (Nat × BitVec 32)
  /-- signals on the beacon channel (R185) -/
  signals : List Sig
  /-- hub engines' pending-signal tables, (hub * 16 + engine) * 32768 + id (R182) -/
  hubTable : List (Nat × BitVec 32)
  /-- doorbell words of the queues of a slice that have no job queue: 2 * (slice * 16 + queue), plus 1 for JQ_CQ_HEAD (R292) -/
  doorbells : List (Nat × BitVec 16)
  /-- turns of the shared partitions, hub * 16 + engine, 9 the cipher pipes (R321) -/
  turns : List (Nat × Turn)
  /-- answers to watches that their engines have not acted on, (hub * 16 + engine) * 65536 + tag (R187) -/
  answers : List (Nat × Option WatchAnswer)
  /-- replies under way (R506) -/
  replies : List Reply
  /-- work distributors (R193) -/
  dis : List (Nat × Dis)
  /-- mover rings by partition (R243) -/
  mov : List (Nat × Ring)
  /-- prefix-index rings by partition (R243) -/
  pfx : List (Nat × Ring)
  /-- correction filters by array: stack s, 32 + tier-2 unit, 64 + gc of a pool, 256 + hub, 1,000 + slot of a data memory, 5,000 + slot of an instruction store, 10,000 + slot of a tile, 9,990 the always-on SRAM, 9,992 + hub the tables of a hub (R262, R274) -/
  filters : List (Nat × Filter)
  /-- patrol history, keyed as filters (R279) -/
  patrols : List (Nat × Patrol)
  /-- SRAM patrol positions, keyed as filters (R277) -/
  sramPos : List (Nat × Nat)
  /-- partitions (R311) -/
  parts : List (Nat × Part)
  /-- slices (R323) -/
  slices : List (Nat × Option Slice)
  /-- host links (R284) -/
  links : List (Nat × Link)
  /-- job queues (R293) -/
  jobqs : List (Nat × Option JobQ)
  /-- classifiers (R342) -/
  cls : List (Nat × Cls)
  /-- Ethernet ports (R332) -/
  ports : List (Nat × Port)
  /-- egress lanes (R387) -/
  lanes : List (Nat × Lane)
  /-- service nodes (R387) -/
  nodes : List (Nat × Node)
  /-- network queue pairs (R349) -/
  nicqps : List (Nat × Option NicQp)
  /-- security associations (R439) -/
  sas : List (Nat × Option Sa)
  /-- SDT connections (R356) -/
  conns : List (Nat × Conn)
  /-- space keys (R381) -/
  skeys : List (Nat × Option SpaceKey)
  /-- NVMe controllers (R402) -/
  nvmes : List (Nat × Nvme)
  /-- namespaces (R409) -/
  nss : List (Nat × Option Ns)
  /-- SSD slots (R422) -/
  slots : List (Nat × Slot)
  /-- key slots (R432) -/
  keys : List (Nat × Option KeySlot)
  /-- cipher engines (R428) -/
  cph : List (Nat × Cph)
  /-- security processor (R446) -/
  sec : Sec
  /-- mailbox pages (R458) -/
  mbxs : List (Nat × Mbx)
  /-- GO writes counted (R462) -/
  mbxOrder : Nat
  /-- firmware processors (R455) -/
  fwps : List (Nat × Fwp)
  /-- image slots 0 A, 1 B (R470) -/
  fwslots : List (Nat × FwSlot)
  /-- commands being served: mailbox page and opcode (R515) -/
  journal : List (Nat × BitVec 16)
  /-- slot of the activation that FWP_ACT.PENDING shows (R472) -/
  actSlot : Nat
  /-- that activation runs: its processors restart (R472) -/
  actRun : Bool
  /-- driver loss of links 0-1 (R474) -/
  loss : List (Nat × LossState)
  /-- bring-up (R483) -/
  bru : Bru
  /-- black box (R525) -/
  bbx : Bbx
  /-- Lantern by partition (R532) -/
  snaps : List (Nat × Snap)
  /-- power (R552) -/
  pwr : Pwr
  /-- telemetry by hub (R563) -/
  tels : List (Nat × Tel)
  /-- domain counts by id (R547 R548) -/
  clocks : List (Nat × BitVec 48)
  /-- bytes the device has written to host memory (R298) -/
  hostMem : List Host.Cell
  /-- MODEL: what the device has sent on its links, wires and pins, newest first (—) -/
  outs : List Out
  /-- MODEL: free values drawn so far (—) -/
  freeCtr : Nat
  /-- MODEL: addresses at which writes of the running step meet a granule still to be copied; empty between steps (R536) -/
  holdHit : List Nat
  /-- MODEL: core slot whose bundle an idle step fetched last (—) -/
  fetchPtr : Nat
  /-- MODEL: commands that wait, first in first out (—) -/
  pending : List Instr
  deriving DecidableEq, Repr

/-- State right after reset. -/
def State.reset : State where
  pins := Pins.reset
  regs := []
  mem := []
  clean := []
  filled := []
  chk := []
  raws := []
  t2keys := []
  cores := []
  clusters := []
  beacons := []
  signals := []
  hubTable := []
  doorbells := []
  turns := []
  answers := []
  replies := []
  dis := []
  mov := []
  pfx := []
  filters := []
  patrols := []
  sramPos := []
  parts := []
  slices := []
  links := []
  jobqs := []
  cls := []
  ports := []
  lanes := []
  nodes := []
  nicqps := []
  sas := []
  conns := []
  skeys := []
  nvmes := []
  nss := []
  slots := []
  keys := []
  cph := []
  sec := Sec.reset
  mbxs := []
  mbxOrder := 0
  fwps := []
  fwslots := []
  journal := []
  actSlot := 0
  actRun := false
  loss := []
  bru := Bru.reset
  bbx := Bbx.reset
  snaps := []
  pwr := Pwr.reset
  tels := []
  clocks := []
  hostMem := []
  outs := []
  freeCtr := 0
  holdHit := []
  fetchPtr := 0
  pending := []

end Sys2Proof.Machine
end

