-- ==== Sys2Proof/Machine/Regs.lean ====
section
/-! DEFINITION. The register pages of BAR0 (02_register_pages.md R41-R59): the place of each page, the words each page
implements with their access types and reset values, and a name for each field, transcribed from the register tables
of the spec. -/
namespace Sys2Proof.Machine

/-- BAR0 offset of a page (R42). -/
def Page.base (p : Page) : Nat :=
  let hub (h off : Nat) : Nat := 0x100000 + h * 0x100000 + off
  let die (d off : Nat) : Nat := 0x1000000 + d * 0x400000 + off
  match p.blk with
  | .hub => hub p.inst 0x00000
  | .bru => hub p.inst 0x01000
  | .pce => hub p.inst 0x02000
  | .prp => hub (p.inst / 8) (0x03000 + 0x1000 * (p.inst % 8))
  | .eth => hub (p.inst / 4) (0x10000 + 0x1000 * (p.inst % 4))
  | .cls => hub p.inst 0x14000
  | .nic => hub p.inst 0x15000
  | .tsh => hub p.inst 0x16000
  | .pol => hub p.inst 0x17000
  | .sdt => hub p.inst 0x18000
  | .nvc => hub p.inst 0x19000
  | .cph => hub p.inst 0x1A000
  | .lpc => hub (p.inst / 4) (0x1B000 + 0x1000 * (p.inst % 4))
  | .tel => hub p.inst 0x20000
  | .pwr => hub p.inst 0x21000
  | .sec => hub p.inst 0x22000
  | .bbx => hub p.inst 0x23000
  | .snp => hub p.inst 0x24000
  | .dis => hub p.inst 0x25000
  | .mov => hub p.inst 0x26000
  | .pfx => hub p.inst 0x27000
  | .d2d => if p.inst < 40 then die (p.inst / 4) (0x1000 + 0x1000 * (p.inst % 4)) else hub (p.inst - 40) 0x28000
  | .fwp => hub (p.inst / 16) (0x30000 + 0x1000 * (p.inst % 16))
  | .mbx => hub (p.inst / 64) (0x40000 + 0x1000 * (p.inst % 64))
  | .die => die p.inst 0x0000
  | .hmc => die (p.inst / 2) (0x8000 + 0x1000 * (p.inst % 2))
  | .noc => die p.inst 0xC000
  | .clu => die (p.inst / 16) (0x100000 + 0x20000 * (p.inst % 16))
  | .cor => die (p.inst / 288) (0x100000 + 0x20000 * (p.inst / 18 % 16) + 0x1000 * (1 + p.inst % 18))

/-- The page that holds a BAR0 offset, or none where no page is implemented (R41, R42). -/
def pageAt (a : Nat) : Option Page :=
  let pn := a / 0x1000
  if pn < 0x100 then none
  else if pn < 0x300 then
    let h := pn / 0x100 - 1
    let q := pn % 0x100
    let at1 (b : Blk) : Option Page := some ⟨b, h⟩
    if q < 0x0B then
      match q with
      | 0 => at1 .hub
      | 1 => at1 .bru
      | 2 => at1 .pce
      | _ => some ⟨.prp, h * 8 + (q - 3)⟩
    else if q < 0x10 then none
    else if q < 0x14 then some ⟨.eth, h * 4 + (q - 0x10)⟩
    else if q < 0x1B then
      match q - 0x14 with
      | 0 => at1 .cls
      | 1 => at1 .nic
      | 2 => at1 .tsh
      | 3 => at1 .pol
      | 4 => at1 .sdt
      | 5 => at1 .nvc
      | _ => at1 .cph
    else if q < 0x1F then some ⟨.lpc, h * 4 + (q - 0x1B)⟩
    else if q < 0x20 then none
    else if q < 0x29 then
      match q - 0x20 with
      | 0 => at1 .tel
      | 1 => at1 .pwr
      | 2 => at1 .sec
      | 3 => at1 .bbx
      | 4 => at1 .snp
      | 5 => at1 .dis
      | 6 => at1 .mov
      | 7 => at1 .pfx
      | _ => some ⟨.d2d, 40 + h⟩
    else if q < 0x30 then none
    else if q < 0x40 then some ⟨.fwp, h * 16 + (q - 0x30)⟩
    else if q < 0x80 then some ⟨.mbx, h * 64 + (q - 0x40)⟩
    else none
  else if pn < 0x1000 then none
  else if pn < 0x3800 then
    let d := (pn - 0x1000) / 0x400
    let q := (pn - 0x1000) % 0x400
    if q = 0 then some ⟨.die, d⟩
    else if q < 5 then some ⟨.d2d, d * 4 + (q - 1)⟩
    else if q < 8 then none
    else if q < 10 then some ⟨.hmc, d * 2 + (q - 8)⟩
    else if q = 12 then some ⟨.noc, d⟩
    else if q < 0x100 then none
    else if q < 0x300 then
      let c := (q - 0x100) / 0x20
      let k := (q - 0x100) % 0x20
      let gc := d * 16 + c
      if k = 0 then some ⟨.clu, gc⟩
      else if k < 19 then some ⟨.cor, gc * 18 + (k - 1)⟩
      else none
    else none
  else none

/-- Number of pages of each block (R47). -/
def Blk.count : Blk → Nat
  | .hub => 2
  | .bru => 2
  | .pce => 2
  | .prp => 16
  | .eth => 8
  | .cls => 2
  | .nic => 2
  | .tsh => 2
  | .pol => 2
  | .sdt => 2
  | .nvc => 2
  | .cph => 2
  | .lpc => 8
  | .tel => 2
  | .pwr => 2
  | .sec => 2
  | .bbx => 2
  | .snp => 2
  | .dis => 2
  | .mov => 2
  | .pfx => 2
  | .d2d => 42
  | .fwp => 32
  | .mbx => 128
  | .die => 10
  | .hmc => 20
  | .noc => 10
  | .clu => 160
  | .cor => 2880

/-- Block type code of the page (R47). -/
def Blk.code : Blk → Nat
  | .hub => 0x01
  | .bru => 0x02
  | .pce => 0x03
  | .prp => 0x04
  | .eth => 0x05
  | .cls => 0x06
  | .nic => 0x07
  | .tsh => 0x08
  | .pol => 0x09
  | .sdt => 0x0A
  | .nvc => 0x0B
  | .cph => 0x0C
  | .lpc => 0x0D
  | .tel => 0x0E
  | .pwr => 0x0F
  | .sec => 0x10
  | .bbx => 0x11
  | .snp => 0x12
  | .dis => 0x13
  | .mov => 0x14
  | .pfx => 0x15
  | .d2d => 0x16
  | .fwp => 0x17
  | .mbx => 0x18
  | .die => 0x40
  | .hmc => 0x41
  | .noc => 0x42
  | .clu => 0x43
  | .cor => 0x44

/-- One row of a register table: a word, or an array of words in up to two dimensions, with the bits of each access
type and the value after reset. Bits in none of the masks are RO or reserved (R9, R10). -/
structure WordRow where
  off : Nat
  n1 : Nat
  s1 : Nat
  n2 : Nat
  s2 : Nat
  rw : BitVec 32
  rwl : BitVec 32
  w1c : BitVec 32
  w1s : BitVec 32
  reset : BitVec 32
  deriving DecidableEq, Repr

/-- Whether a row covers a page offset. -/
def WordRow.covers (r : WordRow) (o : Nat) : Bool :=
  if o < r.off then false
  else
    let x := o - r.off
    if r.n1 = 0 then x == 0
    else if r.n2 = 0 then x % r.s1 == 0 && x / r.s1 < r.n1
    else x / r.s1 < r.n1 && (x % r.s1) % r.s2 == 0 && (x % r.s1) / r.s2 < r.n2

/-- The words of the common page header (R52). -/
def headerRows : List WordRow :=
  [⟨0x0, 0, 0x0, 0, 0x0, 0x0#32, 0x0#32, 0x0#32, 0x0#32, 0x0#32⟩,
   ⟨0x4, 0, 0x0, 0, 0x0, 0x0#32, 0x0#32, 0x0#32, 0x0#32, 0x0#32⟩,
   ⟨0x8, 0, 0x0, 0, 0x0, 0x1#32, 0x0#32, 0x0#32, 0x2#32, 0x0#32⟩,
   ⟨0xC, 0, 0x0, 0, 0x0, 0x0#32, 0x0#32, 0x0#32, 0x0#32, 0x0#32⟩,
   ⟨0x10, 0, 0x0, 0, 0x0, 0x0#32, 0xFFFFFFFF#32, 0x0#32, 0x0#32, 0x0#32⟩,
   ⟨0x14, 0, 0x0, 0, 0x0, 0x0#32, 0x0#32, 0x0#32, 0x0#32, 0x0#32⟩,
   ⟨0x18, 0, 0x0, 0, 0x0, 0x0#32, 0x0#32, 0xFFFF000F#32, 0x0#32, 0x0#32⟩,
   ⟨0x1C, 0, 0x0, 0, 0x0, 0xFFFF000E#32, 0x0#32, 0x0#32, 0x0#32, 0x2#32⟩,
   ⟨0x20, 0, 0x0, 0, 0x0, 0x0#32, 0x0#32, 0x0#32, 0x0#32, 0x0#32⟩,
   ⟨0x24, 0, 0x0, 0, 0x0, 0xFFFFFFFF#32, 0x0#32, 0x0#32, 0x0#32, 0x0#32⟩,
   ⟨0x28, 0, 0x0, 0, 0x0, 0x0#32, 0x0#32, 0x0#32, 0x0#32, 0x0#32⟩]

/-- The block-specific words of a HUB page (R283, R331), part 0. -/
def hubRows0 : List WordRow :=
  [⟨0x100, 12, 0x40, 0, 0x0, 0x0#32, 0x0#32, 0x0#32, 0x0#32, 0x0#32⟩,
   ⟨0x104, 12, 0x40, 0, 0x0, 0x0#32, 0x0#32, 0x0#32, 0x0#32, 0x0#32⟩,
   ⟨0x108, 12, 0x40, 0, 0x0, 0x0#32, 0x0#32, 0x0#32, 0x0#32, 0x0#32⟩,
   ⟨0x10C, 12, 0x40, 0, 0x0, 0x0#32, 0x0#32, 0x0#32, 0x0#32, 0x0#32⟩,
   ⟨0x110, 12, 0x40, 0, 0x0, 0x0#32, 0x0#32, 0x0#32, 0x0#32, 0x0#32⟩,
   ⟨0x114, 12, 0x40, 0, 0x0, 0x0#32, 0x0#32, 0x0#32, 0x0#32, 0x0#32⟩,
   ⟨0x118, 12, 0x40, 0, 0x0, 0x0#32, 0x0#32, 0x0#32, 0x0#32, 0x0#32⟩,
   ⟨0x11C, 12, 0x40, 0, 0x0, 0x0#32, 0x0#32, 0x0#32, 0x0#32, 0x0#32⟩,
   ⟨0x120, 12, 0x40, 0, 0x0, 0x0#32, 0x0#32, 0x0#32, 0x0#32, 0x0#32⟩,
   ⟨0x124, 12, 0x40, 0, 0x0, 0x0#32, 0x0#32, 0x0#32, 0x0#32, 0x0#32⟩,
   ⟨0x400, 16, 0x40, 0, 0x0, 0x80FFFFFF#32, 0x0#32, 0x0#32, 0x0#32, 0x8000623A#32⟩,
   ⟨0x404, 16, 0x40, 0, 0x0, 0x0#32, 0x0#32, 0x0#32, 0x0#32, 0x0#32⟩,
   ⟨0x408, 16, 0x40, 0, 0x0, 0x0#32, 0x0#32, 0x0#32, 0x0#32, 0x0#32⟩,
   ⟨0x40C, 16, 0x40, 0, 0x0, 0x0#32, 0x0#32, 0x0#32, 0x0#32, 0x0#32⟩,
   ⟨0x410, 16, 0x40, 0, 0x0, 0x0#32, 0x0#32, 0x0#32, 0x0#32, 0x0#32⟩,
   ⟨0x414, 16, 0x40, 0, 0x0, 0x0#32, 0x0#32, 0x0#32, 0x0#32, 0x0#32⟩]

/-- The block-specific words of a HUB page (R283, R331), part 1. -/
def hubRows1 : List WordRow :=
  [⟨0x418, 16, 0x40, 0, 0x0, 0x0#32, 0x0#32, 0x0#32, 0x0#32, 0x0#32⟩,
   ⟨0x800, 0, 0x0, 0, 0x0, 0xE0000000#32, 0x0#32, 0x0#32, 0x0#32, 0x0#32⟩,
   ⟨0x804, 0, 0x0, 0, 0x0, 0xFFFFFFC0#32, 0x0#32, 0x0#32, 0x0#32, 0x0#32⟩,
   ⟨0x808, 0, 0x0, 0, 0x0, 0xFFFF#32, 0x0#32, 0x0#32, 0x0#32, 0x0#32⟩,
   ⟨0x80C, 0, 0x0, 0, 0x0, 0xFFFFFFFF#32, 0x0#32, 0x0#32, 0x0#32, 0x0#32⟩,
   ⟨0x810, 0, 0x0, 0, 0x0, 0x0#32, 0x0#32, 0x0#32, 0x0#32, 0x0#32⟩,
   ⟨0x900, 128, 0x8, 0, 0x0, 0xFFFFFFFF#32, 0x0#32, 0x0#32, 0x0#32, 0x0#32⟩,
   ⟨0x904, 128, 0x8, 0, 0x0, 0x80000000#32, 0x0#32, 0x0#32, 0x0#32, 0x0#32⟩,
   ⟨0xD00, 0, 0x0, 0, 0x0, 0x0#32, 0x0#32, 0x0#32, 0x0#32, 0x0#32⟩,
   ⟨0xD04, 0, 0x0, 0, 0x0, 0x0#32, 0x0#32, 0x0#32, 0x0#32, 0x0#32⟩,
   ⟨0xD08, 0, 0x0, 0, 0x0, 0x0#32, 0x0#32, 0x0#32, 0x0#32, 0x0#32⟩,
   ⟨0xE00, 20, 0x4, 0, 0x0, 0x0#32, 0x0#32, 0x0#32, 0x0#32, 0xFFFFFFFF#32⟩,
   ⟨0xE80, 4, 0x4, 0, 0x0, 0x0#32, 0x0#32, 0x0#32, 0x0#32, 0xEEEEEEEE#32⟩,
   ⟨0xE90, 28, 0x4, 0, 0x0, 0x0#32, 0x0#32, 0x0#32, 0x0#32, 0xFFFFFFFF#32⟩]

/-- The block-specific words of a HUB page. -/
def hubRows : List WordRow :=
  hubRows0 ++ hubRows1

/-- The block-specific words of a BRU page (R501). -/
def bruRows : List WordRow :=
  [⟨0x40, 0, 0x0, 0, 0x0, 0xF#32, 0x0#32, 0x0#32, 0x0#32, 0x1#32⟩,
   ⟨0x44, 0, 0x0, 0, 0x0, 0x0#32, 0x0#32, 0x0#32, 0x0#32, 0x1000101#32⟩,
   ⟨0x48, 0, 0x0, 0, 0x0, 0x0#32, 0x0#32, 0x0#32, 0x0#32, 0x0#32⟩,
   ⟨0x4C, 0, 0x0, 0, 0x0, 0x1FF#32, 0x0#32, 0x0#32, 0x0#32, 0xF0#32⟩,
   ⟨0x50, 0, 0x0, 0, 0x0, 0x0#32, 0x0#32, 0x0#32, 0x0#32, 0x0#32⟩,
   ⟨0x54, 0, 0x0, 0, 0x0, 0x0#32, 0x0#32, 0x0#32, 0x0#32, 0x0#32⟩,
   ⟨0x58, 0, 0x0, 0, 0x0, 0x0#32, 0x0#32, 0x0#32, 0x0#32, 0x0#32⟩,
   ⟨0x5C, 0, 0x0, 0, 0x0, 0xFFFFFFFF#32, 0x0#32, 0x0#32, 0x0#32, 0x0#32⟩,
   ⟨0x60, 0, 0x0, 0, 0x0, 0xFFFF#32, 0x0#32, 0x0#32, 0x0#32, 0x0#32⟩,
   ⟨0x64, 0, 0x0, 0, 0x0, 0xFFFFFFFF#32, 0x0#32, 0x0#32, 0x0#32, 0x0#32⟩,
   ⟨0x68, 0, 0x0, 0, 0x0, 0xFFFF#32, 0x0#32, 0x0#32, 0x0#32, 0x0#32⟩,
   ⟨0x6C, 0, 0x0, 0, 0x0, 0xFFFFFFFF#32, 0x0#32, 0x0#32, 0x0#32, 0x0#32⟩,
   ⟨0x70, 0, 0x0, 0, 0x0, 0xFFFF#32, 0x0#32, 0x0#32, 0x0#32, 0x0#32⟩,
   ⟨0x74, 0, 0x0, 0, 0x0, 0x0#32, 0x0#32, 0x0#32, 0x0#32, 0x0#32⟩]

/-- The block-specific words of a PCE page (R310), part 0. -/
def pceRows0 : List WordRow :=
  [⟨0x40, 0, 0x0, 0, 0x0, 0x0#32, 0x0#32, 0x0#32, 0x0#32, 0x0#32⟩,
   ⟨0x44, 0, 0x0, 0, 0x0, 0x1#32, 0x0#32, 0x0#32, 0x0#32, 0x0#32⟩,
   ⟨0x48, 0, 0x0, 0, 0x0, 0x0#32, 0x0#32, 0x0#32, 0x0#32, 0x1F40#32⟩,
   ⟨0x4C, 0, 0x0, 0, 0x0, 0x0#32, 0x0#32, 0x0#32, 0x0#32, 0x0#32⟩,
   ⟨0x50, 0, 0x0, 0, 0x0, 0x0#32, 0x0#32, 0x0#32, 0x0#32, 0x0#32⟩,
   ⟨0x54, 0, 0x0, 0, 0x0, 0x0#32, 0x0#32, 0x0#32, 0x0#32, 0x0#32⟩,
   ⟨0x58, 0, 0x0, 0, 0x0, 0x0#32, 0x0#32, 0x0#32, 0x0#32, 0x0#32⟩,
   ⟨0x5C, 0, 0x0, 0, 0x0, 0x0#32, 0x0#32, 0x0#32, 0x0#32, 0x0#32⟩,
   ⟨0x60, 0, 0x0, 0, 0x0, 0x0#32, 0x0#32, 0x0#32, 0x0#32, 0x0#32⟩,
   ⟨0x64, 0, 0x0, 0, 0x0, 0xC0000000#32, 0x0#32, 0x0#32, 0x0#32, 0x0#32⟩,
   ⟨0x68, 0, 0x0, 0, 0x0, 0xFFFF#32, 0x0#32, 0x0#32, 0x0#32, 0x0#32⟩,
   ⟨0x6C, 0, 0x0, 0, 0x0, 0x0#32, 0x0#32, 0x0#32, 0x0#32, 0x0#32⟩,
   ⟨0x70, 0, 0x0, 0, 0x0, 0x0#32, 0x0#32, 0x1#32, 0x0#32, 0x0#32⟩,
   ⟨0x800, 64, 0x10, 0, 0x0, 0xFFFFFFFC#32, 0x0#32, 0x0#32, 0x0#32, 0x0#32⟩,
   ⟨0x804, 64, 0x10, 0, 0x0, 0xFFFFFFFF#32, 0x0#32, 0x0#32, 0x0#32, 0x0#32⟩,
   ⟨0x808, 64, 0x10, 0, 0x0, 0xFFFFFFFF#32, 0x0#32, 0x0#32, 0x0#32, 0x0#32⟩]

/-- The block-specific words of a PCE page (R310), part 1. -/
def pceRows1 : List WordRow :=
  [⟨0x80C, 64, 0x10, 0, 0x0, 0x1#32, 0x0#32, 0x0#32, 0x0#32, 0x1#32⟩,
   ⟨0xC00, 0, 0x0, 0, 0x0, 0x0#32, 0x0#32, 0x0#32, 0x0#32, 0x0#32⟩,
   ⟨0xC04, 0, 0x0, 0, 0x0, 0x0#32, 0x0#32, 0x0#32, 0x0#32, 0x0#32⟩]

/-- The block-specific words of a PCE page. -/
def pceRows : List WordRow :=
  pceRows0 ++ pceRows1

/-- The block-specific words of a PRP page (R426). -/
def prpRows : List WordRow :=
  [⟨0x40, 0, 0x0, 0, 0x0, 0x0#32, 0xFFFFFFFF#32, 0x0#32, 0x0#32, 0x0#32⟩,
   ⟨0x44, 0, 0x0, 0, 0x0, 0x0#32, 0x0#32, 0x0#32, 0x3#32, 0x0#32⟩,
   ⟨0x48, 0, 0x0, 0, 0x0, 0xFFFF0000#32, 0x0#32, 0x0#32, 0x0#32, 0x27100000#32⟩,
   ⟨0x4C, 0, 0x0, 0, 0x0, 0x0#32, 0x0#32, 0x0#32, 0x0#32, 0x0#32⟩,
   ⟨0x50, 0, 0x0, 0, 0x0, 0x0#32, 0x0#32, 0x0#32, 0x0#32, 0x0#32⟩,
   ⟨0x54, 0, 0x0, 0, 0x0, 0x0#32, 0x0#32, 0x0#32, 0x0#32, 0x0#32⟩,
   ⟨0x58, 0, 0x0, 0, 0x0, 0x0#32, 0x0#32, 0x0#32, 0x0#32, 0x0#32⟩,
   ⟨0x5C, 0, 0x0, 0, 0x0, 0x0#32, 0x0#32, 0x0#32, 0x0#32, 0x0#32⟩]

/-- The block-specific words of a ETH page (R355), part 0. -/
def ethRows0 : List WordRow :=
  [⟨0x40, 0, 0x0, 0, 0x0, 0x0#32, 0xBFFF#32, 0x0#32, 0x0#32, 0x85F2#32⟩,
   ⟨0x44, 0, 0x0, 0, 0x0, 0x0#32, 0x0#32, 0x0#32, 0x1#32, 0x0#32⟩,
   ⟨0x48, 0, 0x0, 0, 0x0, 0x0#32, 0x0#32, 0x0#32, 0x0#32, 0x0#32⟩,
   ⟨0x50, 0, 0x0, 0, 0x0, 0x0#32, 0x0#32, 0x0#32, 0x0#32, 0x0#32⟩,
   ⟨0x54, 0, 0x0, 0, 0x0, 0x0#32, 0x0#32, 0x0#32, 0x0#32, 0x0#32⟩,
   ⟨0x58, 0, 0x0, 0, 0x0, 0x0#32, 0x0#32, 0x0#32, 0x0#32, 0x0#32⟩,
   ⟨0x5C, 0, 0x0, 0, 0x0, 0x0#32, 0x0#32, 0x0#32, 0x0#32, 0x0#32⟩,
   ⟨0x60, 0, 0x0, 0, 0x0, 0x0#32, 0x0#32, 0x0#32, 0x0#32, 0x0#32⟩,
   ⟨0x64, 0, 0x0, 0, 0x0, 0x0#32, 0x0#32, 0x0#32, 0x0#32, 0x0#32⟩,
   ⟨0x68, 0, 0x0, 0, 0x0, 0x0#32, 0x0#32, 0x0#32, 0x0#32, 0x0#32⟩,
   ⟨0x6C, 0, 0x0, 0, 0x0, 0x0#32, 0x0#32, 0x0#32, 0x0#32, 0x0#32⟩,
   ⟨0x70, 0, 0x0, 0, 0x0, 0x0#32, 0x0#32, 0x0#32, 0x0#32, 0x0#32⟩,
   ⟨0x74, 0, 0x0, 0, 0x0, 0x0#32, 0x0#32, 0x0#32, 0x0#32, 0x0#32⟩,
   ⟨0x78, 0, 0x0, 0, 0x0, 0x0#32, 0x0#32, 0x0#32, 0x0#32, 0x0#32⟩,
   ⟨0x7C, 0, 0x0, 0, 0x0, 0x0#32, 0x0#32, 0x0#32, 0x0#32, 0x0#32⟩,
   ⟨0x80, 0, 0x0, 0, 0x0, 0x0#32, 0x0#32, 0x0#32, 0x0#32, 0x0#32⟩]

/-- The block-specific words of a ETH page (R355), part 1. -/
def ethRows1 : List WordRow :=
  [⟨0x84, 0, 0x0, 0, 0x0, 0x0#32, 0x0#32, 0x0#32, 0x0#32, 0x0#32⟩]

/-- The block-specific words of a ETH page. -/
def ethRows : List WordRow :=
  ethRows0 ++ ethRows1

/-- The block-specific words of a CLS page (R355). -/
def clsRows : List WordRow :=
  [⟨0x40, 0, 0x0, 0, 0x0, 0x0#32, 0xFFFFFFFF#32, 0x0#32, 0x0#32, 0x12B5#32⟩,
   ⟨0x44, 0, 0x0, 0, 0x0, 0x0#32, 0x3FFFFC0#32, 0x0#32, 0x0#32, 0x0#32⟩,
   ⟨0x48, 0, 0x0, 0, 0x0, 0x0#32, 0x3FFFF#32, 0x0#32, 0x0#32, 0x0#32⟩,
   ⟨0x4C, 0, 0x0, 0, 0x0, 0x0#32, 0x3FFFFC0#32, 0x0#32, 0x0#32, 0x0#32⟩,
   ⟨0x50, 0, 0x0, 0, 0x0, 0x3#32, 0x0#32, 0x0#32, 0x0#32, 0x1#32⟩,
   ⟨0x54, 0, 0x0, 0, 0x0, 0x0#32, 0x0#32, 0x0#32, 0x0#32, 0x0#32⟩,
   ⟨0x58, 0, 0x0, 0, 0x0, 0x0#32, 0x0#32, 0x0#32, 0x1#32, 0x0#32⟩,
   ⟨0x5C, 0, 0x0, 0, 0x0, 0x0#32, 0x0#32, 0x0#32, 0x0#32, 0x0#32⟩,
   ⟨0x60, 0, 0x0, 0, 0x0, 0x0#32, 0x0#32, 0x0#32, 0x0#32, 0x0#32⟩,
   ⟨0x64, 0, 0x0, 0, 0x0, 0x0#32, 0x0#32, 0x0#32, 0x0#32, 0x0#32⟩]

/-- The block-specific words of a NIC page (R355). -/
def nicRows : List WordRow :=
  [⟨0x40, 0, 0x0, 0, 0x0, 0x0#32, 0x0#32, 0x0#32, 0x0#32, 0x0#32⟩,
   ⟨0x44, 0, 0x0, 0, 0x0, 0x0#32, 0x0#32, 0x0#32, 0x0#32, 0x0#32⟩,
   ⟨0x48, 0, 0x0, 0, 0x0, 0x0#32, 0x0#32, 0x0#32, 0x0#32, 0x0#32⟩,
   ⟨0x4C, 0, 0x0, 0, 0x0, 0x0#32, 0x0#32, 0x0#32, 0x0#32, 0x0#32⟩]

/-- The block-specific words of a TSH page (R401). -/
def tshRows : List WordRow :=
  [⟨0x40, 0, 0x0, 0, 0x0, 0x0#32, 0x3FFFFC0#32, 0x0#32, 0x0#32, 0x0#32⟩,
   ⟨0x44, 0, 0x0, 0, 0x0, 0x0#32, 0x3FFFFC0#32, 0x0#32, 0x0#32, 0x0#32⟩,
   ⟨0x48, 0, 0x0, 0, 0x0, 0x0#32, 0x0#32, 0x0#32, 0x0#32, 0x0#32⟩,
   ⟨0x100, 4, 0x80, 0, 0x0, 0xFFFFFFFF#32, 0x0#32, 0x0#32, 0x0#32, 0x0#32⟩,
   ⟨0x104, 4, 0x80, 0, 0x0, 0xFFFFFF#32, 0x0#32, 0x0#32, 0x0#32, 0x0#32⟩,
   ⟨0x108, 4, 0x80, 0, 0x0, 0x1F#32, 0x0#32, 0x0#32, 0x0#32, 0x0#32⟩,
   ⟨0x10C, 4, 0x80, 0, 0x0, 0x0#32, 0x0#32, 0x0#32, 0x3#32, 0x0#32⟩,
   ⟨0x110, 4, 0x80, 0, 0x0, 0xFFFFFFFF#32, 0x0#32, 0x0#32, 0x0#32, 0x0#32⟩,
   ⟨0x114, 4, 0x80, 0, 0x0, 0xFFFFFFFF#32, 0x0#32, 0x0#32, 0x0#32, 0x0#32⟩,
   ⟨0x120, 4, 0x80, 8, 0x4, 0xFFFFFFFF#32, 0x0#32, 0x0#32, 0x0#32, 0xFFFFFFFF#32⟩,
   ⟨0x400, 4, 0x100, 16, 0x10, 0xFFFFFF#32, 0x0#32, 0x0#32, 0x0#32, 0x0#32⟩,
   ⟨0x408, 4, 0x100, 16, 0x10, 0xFFFFFFFF#32, 0x0#32, 0x0#32, 0x0#32, 0x0#32⟩,
   ⟨0x40C, 4, 0x100, 16, 0x10, 0xFFFFFFFF#32, 0x0#32, 0x0#32, 0x0#32, 0x0#32⟩]

/-- The block-specific words of a POL page (R355). -/
def polRows : List WordRow :=
  [⟨0x40, 0, 0x0, 0, 0x0, 0x0#32, 0x3FFFFC0#32, 0x0#32, 0x0#32, 0x0#32⟩,
   ⟨0x44, 0, 0x0, 0, 0x0, 0x0#32, 0x0#32, 0x0#32, 0x0#32, 0x0#32⟩]

/-- The block-specific words of a SDT page (R386), part 0. -/
def sdtRows0 : List WordRow :=
  [⟨0x40, 0, 0x0, 0, 0x0, 0xFFFFFF#32, 0x0#32, 0x0#32, 0x0#32, 0x100032#32⟩,
   ⟨0x44, 0, 0x0, 0, 0x0, 0xFFFF#32, 0x0#32, 0x0#32, 0x0#32, 0x8004#32⟩,
   ⟨0x48, 0, 0x0, 0, 0x0, 0x0#32, 0x0#32, 0x0#32, 0x0#32, 0x0#32⟩,
   ⟨0x4C, 0, 0x0, 0, 0x0, 0x0#32, 0x0#32, 0x0#32, 0x0#32, 0x0#32⟩,
   ⟨0x50, 0, 0x0, 0, 0x0, 0x0#32, 0x0#32, 0x0#32, 0x0#32, 0x0#32⟩,
   ⟨0x54, 0, 0x0, 0, 0x0, 0x0#32, 0x0#32, 0x0#32, 0x0#32, 0x0#32⟩,
   ⟨0x58, 0, 0x0, 0, 0x0, 0x0#32, 0x0#32, 0x0#32, 0x0#32, 0x0#32⟩,
   ⟨0x5C, 0, 0x0, 0, 0x0, 0x0#32, 0x0#32, 0x0#32, 0x0#32, 0x0#32⟩,
   ⟨0x60, 0, 0x0, 0, 0x0, 0x0#32, 0x0#32, 0x0#32, 0x0#32, 0x0#32⟩,
   ⟨0x64, 0, 0x0, 0, 0x0, 0x0#32, 0x0#32, 0x0#32, 0x0#32, 0x0#32⟩,
   ⟨0x68, 0, 0x0, 0, 0x0, 0x0#32, 0x0#32, 0x0#32, 0x0#32, 0x0#32⟩,
   ⟨0x80, 4, 0x20, 0, 0x0, 0x0#32, 0xFFFFFFFF#32, 0x0#32, 0x0#32, 0x0#32⟩,
   ⟨0x84, 4, 0x20, 0, 0x0, 0x0#32, 0xFFFF#32, 0x0#32, 0x0#32, 0x0#32⟩,
   ⟨0x88, 4, 0x20, 0, 0x0, 0x0#32, 0xFFFFFFFF#32, 0x0#32, 0x0#32, 0x0#32⟩,
   ⟨0x8C, 4, 0x20, 0, 0x0, 0x0#32, 0xFFFFFFFF#32, 0x0#32, 0x0#32, 0x0#32⟩,
   ⟨0x90, 4, 0x20, 0, 0x0, 0x0#32, 0xFFFFFFFF#32, 0x0#32, 0x0#32, 0x0#32⟩]

/-- The block-specific words of a SDT page (R386), part 1. -/
def sdtRows1 : List WordRow :=
  [⟨0x94, 4, 0x20, 0, 0x0, 0x0#32, 0xFFFFFFFF#32, 0x0#32, 0x0#32, 0x0#32⟩,
   ⟨0x98, 4, 0x20, 0, 0x0, 0x0#32, 0xFFFFFFFF#32, 0x0#32, 0x0#32, 0x0#32⟩]

/-- The block-specific words of a SDT page. -/
def sdtRows : List WordRow :=
  sdtRows0 ++ sdtRows1

/-- The block-specific words of a NVC page (R425). -/
def nvcRows : List WordRow :=
  [⟨0x40, 0, 0x0, 0, 0x0, 0x0#32, 0x0#32, 0x0#32, 0x0#32, 0x0#32⟩,
   ⟨0x44, 0, 0x0, 0, 0x0, 0x0#32, 0x0#32, 0x0#32, 0x0#32, 0x0#32⟩,
   ⟨0x48, 0, 0x0, 0, 0x0, 0x0#32, 0x0#32, 0x0#32, 0x0#32, 0x0#32⟩,
   ⟨0x4C, 0, 0x0, 0, 0x0, 0x0#32, 0x0#32, 0x0#32, 0x0#32, 0x0#32⟩,
   ⟨0x50, 0, 0x0, 0, 0x0, 0x0#32, 0x0#32, 0x0#32, 0x0#32, 0x0#32⟩,
   ⟨0x54, 0, 0x0, 0, 0x0, 0x0#32, 0x0#32, 0x0#32, 0x0#32, 0x0#32⟩,
   ⟨0x58, 0, 0x0, 0, 0x0, 0x0#32, 0x0#32, 0x0#32, 0x0#32, 0x0#32⟩]

/-- The block-specific words of a CPH page (R453). -/
def cphRows : List WordRow :=
  [⟨0x40, 0, 0x0, 0, 0x0, 0x0#32, 0x0#32, 0x0#32, 0x0#32, 0xFFFF#32⟩,
   ⟨0x44, 0, 0x0, 0, 0x0, 0x0#32, 0x0#32, 0x0#32, 0x0#32, 0xF#32⟩,
   ⟨0x48, 0, 0x0, 0, 0x0, 0x0#32, 0x0#32, 0x0#32, 0x0#32, 0x0#32⟩,
   ⟨0x4C, 0, 0x0, 0, 0x0, 0x0#32, 0x0#32, 0x0#32, 0x0#32, 0x0#32⟩,
   ⟨0x50, 0, 0x0, 0, 0x0, 0x0#32, 0x0#32, 0x0#32, 0x0#32, 0x0#32⟩,
   ⟨0x54, 0, 0x0, 0, 0x0, 0x0#32, 0x0#32, 0x0#32, 0x0#32, 0x0#32⟩,
   ⟨0x58, 0, 0x0, 0, 0x0, 0x0#32, 0x0#32, 0x0#32, 0x0#32, 0x0#32⟩]

/-- The block-specific words of a LPC page (R229). -/
def lpcRows : List WordRow :=
  [⟨0x40, 0, 0x0, 0, 0x0, 0x0#32, 0x1#32, 0x0#32, 0x0#32, 0x0#32⟩,
   ⟨0x100, 4, 0x20, 0, 0x0, 0x0#32, 0x0#32, 0x0#32, 0x0#32, 0x0#32⟩,
   ⟨0x104, 4, 0x20, 0, 0x0, 0x0#32, 0x0#32, 0x0#32, 0x0#32, 0x0#32⟩,
   ⟨0x108, 4, 0x20, 0, 0x0, 0x0#32, 0x0#32, 0x0#32, 0x0#32, 0x0#32⟩,
   ⟨0x10C, 4, 0x20, 0, 0x0, 0x0#32, 0x0#32, 0x0#32, 0x0#32, 0x0#32⟩,
   ⟨0x110, 4, 0x20, 0, 0x0, 0x0#32, 0x0#32, 0x0#32, 0x0#32, 0x0#32⟩]

/-- The block-specific words of a TEL page (R569), part 0. -/
def telRows0 : List WordRow :=
  [⟨0x40, 0, 0x0, 0, 0x0, 0x3FFFF#32, 0x0#32, 0x0#32, 0x0#32, 0xA#32⟩,
   ⟨0x44, 0, 0x0, 0, 0x0, 0xFFFFF000#32, 0x0#32, 0x0#32, 0x0#32, 0x0#32⟩,
   ⟨0x48, 0, 0x0, 0, 0x0, 0xFFFFFFFF#32, 0x0#32, 0x0#32, 0x0#32, 0x0#32⟩,
   ⟨0x4C, 0, 0x0, 0, 0x0, 0x1F#32, 0x0#32, 0x0#32, 0x0#32, 0x6#32⟩,
   ⟨0x50, 0, 0x0, 0, 0x0, 0xFFFFFFFF#32, 0x0#32, 0x0#32, 0x0#32, 0x0#32⟩,
   ⟨0x54, 0, 0x0, 0, 0x0, 0x0#32, 0x0#32, 0x0#32, 0x0#32, 0x0#32⟩,
   ⟨0x58, 0, 0x0, 0, 0x0, 0x0#32, 0x0#32, 0x0#32, 0x0#32, 0x0#32⟩,
   ⟨0x5C, 0, 0x0, 0, 0x0, 0xFFFFFFFF#32, 0x0#32, 0x0#32, 0x0#32, 0x0#32⟩,
   ⟨0x60, 0, 0x0, 0, 0x0, 0x0#32, 0x0#32, 0x0#32, 0x1#32, 0x0#32⟩,
   ⟨0x64, 0, 0x0, 0, 0x0, 0x0#32, 0x0#32, 0x0#32, 0x0#32, 0x0#32⟩,
   ⟨0x68, 0, 0x0, 0, 0x0, 0x0#32, 0x0#32, 0x0#32, 0x0#32, 0x0#32⟩,
   ⟨0x6C, 0, 0x0, 0, 0x0, 0x0#32, 0x0#32, 0x0#32, 0x0#32, 0x0#32⟩,
   ⟨0x70, 0, 0x0, 0, 0x0, 0x0#32, 0x0#32, 0x0#32, 0x0#32, 0x0#32⟩,
   ⟨0x74, 0, 0x0, 0, 0x0, 0x0#32, 0x0#32, 0x0#32, 0x0#32, 0x0#32⟩,
   ⟨0x80, 0, 0x0, 0, 0x0, 0x3FFF#32, 0x0#32, 0x0#32, 0x0#32, 0x0#32⟩,
   ⟨0x84, 0, 0x0, 0, 0x0, 0xFFFFFFFF#32, 0x0#32, 0x0#32, 0x0#32, 0x0#32⟩]

/-- The block-specific words of a TEL page (R569), part 1. -/
def telRows1 : List WordRow :=
  [⟨0x88, 0, 0x0, 0, 0x0, 0xFFFFFFFF#32, 0x0#32, 0x0#32, 0x0#32, 0x0#32⟩,
   ⟨0x8C, 0, 0x0, 0, 0x0, 0xFFFFFFFF#32, 0x0#32, 0x0#32, 0x0#32, 0x0#32⟩,
   ⟨0x90, 0, 0x0, 0, 0x0, 0xFFFFFFFF#32, 0x0#32, 0x0#32, 0x0#32, 0x0#32⟩,
   ⟨0x94, 0, 0x0, 0, 0x0, 0xFFFFFFFF#32, 0x0#32, 0x0#32, 0x0#32, 0x0#32⟩,
   ⟨0x98, 0, 0x0, 0, 0x0, 0x1FFF#32, 0x0#32, 0x0#32, 0x0#32, 0x0#32⟩,
   ⟨0x9C, 0, 0x0, 0, 0x0, 0xFFFFFFFF#32, 0x0#32, 0x0#32, 0x0#32, 0x0#32⟩,
   ⟨0xA0, 0, 0x0, 0, 0x0, 0xFFFF#32, 0x0#32, 0x0#32, 0x0#32, 0x0#32⟩,
   ⟨0xA4, 0, 0x0, 0, 0x0, 0x0#32, 0x0#32, 0x0#32, 0x0#32, 0x0#32⟩,
   ⟨0x100, 12, 0x40, 0, 0x0, 0x0#32, 0x0#32, 0x0#32, 0x0#32, 0x0#32⟩,
   ⟨0x104, 12, 0x40, 0, 0x0, 0x0#32, 0x0#32, 0x0#32, 0x0#32, 0x0#32⟩,
   ⟨0x108, 12, 0x40, 0, 0x0, 0x0#32, 0x0#32, 0x0#32, 0x0#32, 0x0#32⟩,
   ⟨0x10C, 12, 0x40, 0, 0x0, 0x0#32, 0x0#32, 0x0#32, 0x0#32, 0x0#32⟩,
   ⟨0x110, 12, 0x40, 0, 0x0, 0x0#32, 0x0#32, 0x0#32, 0x0#32, 0x0#32⟩,
   ⟨0x114, 12, 0x40, 0, 0x0, 0x0#32, 0x0#32, 0x0#32, 0x0#32, 0x0#32⟩,
   ⟨0x118, 12, 0x40, 0, 0x0, 0x0#32, 0x0#32, 0x0#32, 0x0#32, 0x0#32⟩,
   ⟨0x11C, 12, 0x40, 0, 0x0, 0x0#32, 0x0#32, 0x0#32, 0x0#32, 0x0#32⟩]

/-- The block-specific words of a TEL page (R569), part 2. -/
def telRows2 : List WordRow :=
  [⟨0x120, 12, 0x40, 0, 0x0, 0x0#32, 0x0#32, 0x0#32, 0x0#32, 0x0#32⟩,
   ⟨0x124, 12, 0x40, 0, 0x0, 0x0#32, 0x0#32, 0x0#32, 0x0#32, 0x10#32⟩,
   ⟨0x400, 0, 0x0, 0, 0x0, 0x0#32, 0x0#32, 0x0#32, 0x0#32, 0x0#32⟩,
   ⟨0x404, 0, 0x0, 0, 0x0, 0x0#32, 0x0#32, 0x0#32, 0x0#32, 0x0#32⟩]

/-- The block-specific words of a TEL page. -/
def telRows : List WordRow :=
  telRows0 ++ telRows1 ++ telRows2

/-- The block-specific words of a PWR page (R568). -/
def pwrRows : List WordRow :=
  [⟨0x40, 0, 0x0, 0, 0x0, 0x0#32, 0x0#32, 0x0#32, 0x0#32, 0x0#32⟩,
   ⟨0x44, 0, 0x0, 0, 0x0, 0xFFFF#32, 0x0#32, 0x0#32, 0x0#32, 0xBB8#32⟩,
   ⟨0x48, 0, 0x0, 0, 0x0, 0xFFFFFFFF#32, 0x0#32, 0x0#32, 0x0#32, 0x550A055F#32⟩,
   ⟨0x4C, 0, 0x0, 0, 0x0, 0x0#32, 0x0#32, 0x0#32, 0x0#32, 0x8000#32⟩,
   ⟨0x50, 0, 0x0, 0, 0x0, 0xFF#32, 0x0#32, 0x0#32, 0x0#32, 0x28#32⟩,
   ⟨0x100, 10, 0x10, 0, 0x0, 0x7#32, 0x0#32, 0x0#32, 0x0#32, 0x4#32⟩,
   ⟨0x104, 10, 0x10, 0, 0x0, 0x0#32, 0x0#32, 0x0#32, 0x0#32, 0x0#32⟩,
   ⟨0x108, 10, 0x10, 0, 0x0, 0x0#32, 0x0#32, 0x0#32, 0x0#32, 0x80000000#32⟩,
   ⟨0x10C, 10, 0x10, 0, 0x0, 0x0#32, 0x0#32, 0x0#32, 0x0#32, 0x0#32⟩,
   ⟨0x200, 20, 0x4, 0, 0x0, 0x0#32, 0x0#32, 0x0#32, 0x0#32, 0x8000#32⟩]

/-- The block-specific words of a SEC page (R454). -/
def secRows : List WordRow :=
  [⟨0x40, 0, 0x0, 0, 0x0, 0x0#32, 0x0#32, 0x0#32, 0x0#32, 0x0#32⟩,
   ⟨0x44, 0, 0x0, 0, 0x0, 0x0#32, 0x0#32, 0x0#32, 0x0#32, 0x0#32⟩,
   ⟨0x48, 0, 0x0, 0, 0x0, 0x0#32, 0x0#32, 0x0#32, 0x0#32, 0x0#32⟩,
   ⟨0x4C, 0, 0x0, 0, 0x0, 0x0#32, 0x0#32, 0x0#32, 0x0#32, 0x0#32⟩,
   ⟨0x50, 0, 0x0, 0, 0x0, 0x0#32, 0x0#32, 0x0#32, 0x0#32, 0x0#32⟩]

/-- The block-specific words of a BBX page (R529). -/
def bbxRows : List WordRow :=
  [⟨0x40, 0, 0x0, 0, 0x0, 0x0#32, 0x0#32, 0x0#32, 0x0#32, 0x0#32⟩,
   ⟨0x44, 0, 0x0, 0, 0x0, 0x0#32, 0x0#32, 0x0#32, 0x0#32, 0x0#32⟩,
   ⟨0x48, 0, 0x0, 0, 0x0, 0x0#32, 0x0#32, 0x0#32, 0x0#32, 0x0#32⟩,
   ⟨0x4C, 0, 0x0, 0, 0x0, 0x0#32, 0x0#32, 0x0#32, 0x0#32, 0x0#32⟩,
   ⟨0x50, 0, 0x0, 0, 0x0, 0x0#32, 0x0#32, 0x0#32, 0x0#32, 0x0#32⟩,
   ⟨0x54, 0, 0x0, 0, 0x0, 0x0#32, 0x0#32, 0x0#32, 0x0#32, 0x0#32⟩,
   ⟨0x58, 0, 0x0, 0, 0x0, 0x0#32, 0x0#32, 0x0#32, 0x0#32, 0x0#32⟩]

/-- The block-specific words of a SNP page (R546). -/
def snpRows : List WordRow :=
  [⟨0x40, 0, 0x0, 0, 0x0, 0x0#32, 0x0#32, 0x0#32, 0x0#32, 0x0#32⟩,
   ⟨0x44, 0, 0x0, 0, 0x0, 0x0#32, 0x0#32, 0x0#32, 0x0#32, 0x0#32⟩,
   ⟨0x48, 0, 0x0, 0, 0x0, 0x0#32, 0x0#32, 0x0#32, 0x0#32, 0x0#32⟩,
   ⟨0x100, 12, 0x20, 0, 0x0, 0x0#32, 0x0#32, 0x0#32, 0x0#32, 0x0#32⟩,
   ⟨0x104, 12, 0x20, 0, 0x0, 0x0#32, 0x0#32, 0x0#32, 0x0#32, 0x0#32⟩,
   ⟨0x108, 12, 0x20, 0, 0x0, 0x0#32, 0x0#32, 0x0#32, 0x0#32, 0x0#32⟩,
   ⟨0x10C, 12, 0x20, 0, 0x0, 0x0#32, 0x0#32, 0x0#32, 0x0#32, 0x0#32⟩,
   ⟨0x110, 12, 0x20, 0, 0x0, 0x0#32, 0x0#32, 0x0#32, 0x0#32, 0x0#32⟩,
   ⟨0x114, 12, 0x20, 0, 0x0, 0x0#32, 0x0#32, 0x0#32, 0x0#32, 0x0#32⟩,
   ⟨0x118, 12, 0x20, 0, 0x0, 0x0#32, 0x0#32, 0x0#32, 0x0#32, 0x0#32⟩]

/-- The block-specific words of a DIS page (R203). -/
def disRows : List WordRow :=
  [⟨0x40, 0, 0x0, 0, 0x0, 0xFFF#32, 0x0#32, 0x0#32, 0x0#32, 0x0#32⟩,
   ⟨0x44, 0, 0x0, 0, 0x0, 0x0#32, 0x0#32, 0x0#32, 0x0#32, 0x0#32⟩,
   ⟨0x48, 0, 0x0, 0, 0x0, 0x0#32, 0x0#32, 0x0#32, 0x0#32, 0x0#32⟩,
   ⟨0x4C, 0, 0x0, 0, 0x0, 0x0#32, 0x0#32, 0x0#32, 0x0#32, 0x0#32⟩,
   ⟨0x50, 0, 0x0, 0, 0x0, 0x0#32, 0x0#32, 0x0#32, 0x0#32, 0x0#32⟩,
   ⟨0x100, 48, 0x10, 0, 0x0, 0x0#32, 0x3FFFFC0#32, 0x0#32, 0x0#32, 0x0#32⟩,
   ⟨0x104, 48, 0x10, 0, 0x0, 0x0#32, 0x800F7FFF#32, 0x0#32, 0x0#32, 0x0#32⟩,
   ⟨0x108, 48, 0x10, 0, 0x0, 0x0#32, 0x7FFF#32, 0x0#32, 0x0#32, 0x0#32⟩,
   ⟨0x10C, 48, 0x10, 0, 0x0, 0x0#32, 0x0#32, 0x0#32, 0x0#32, 0x0#32⟩]

/-- The block-specific words of a MOV page (R259). -/
def movRows : List WordRow :=
  [⟨0x40, 0, 0x0, 0, 0x0, 0x0#32, 0x0#32, 0x0#32, 0x0#32, 0x0#32⟩,
   ⟨0x44, 0, 0x0, 0, 0x0, 0x0#32, 0x0#32, 0x0#32, 0x0#32, 0x0#32⟩,
   ⟨0x100, 12, 0x20, 0, 0x0, 0x0#32, 0x3FFFFC0#32, 0x0#32, 0x0#32, 0x0#32⟩,
   ⟨0x104, 12, 0x20, 0, 0x0, 0x0#32, 0x3FFFFC0#32, 0x0#32, 0x0#32, 0x0#32⟩,
   ⟨0x108, 12, 0x20, 0, 0x0, 0x0#32, 0x800F7FFF#32, 0x0#32, 0x0#32, 0x0#32⟩,
   ⟨0x10C, 12, 0x20, 0, 0x0, 0x0#32, 0x7FFF7FFF#32, 0x0#32, 0x0#32, 0x0#32⟩,
   ⟨0x110, 12, 0x20, 0, 0x0, 0x0#32, 0xFFFFFFF0#32, 0x0#32, 0x0#32, 0x0#32⟩,
   ⟨0x114, 12, 0x20, 0, 0x0, 0x0#32, 0xFFFF#32, 0x0#32, 0x0#32, 0x0#32⟩,
   ⟨0x118, 12, 0x20, 0, 0x0, 0x0#32, 0xFFFFFFFF#32, 0x0#32, 0x0#32, 0x0#32⟩,
   ⟨0x11C, 12, 0x20, 0, 0x0, 0x0#32, 0x3FFFFC0#32, 0x0#32, 0x0#32, 0x0#32⟩]

/-- The block-specific words of a PFX page (R260). -/
def pfxRows : List WordRow :=
  [⟨0x100, 12, 0x40, 0, 0x0, 0x0#32, 0x3FFFFC0#32, 0x0#32, 0x0#32, 0x0#32⟩,
   ⟨0x104, 12, 0x40, 0, 0x0, 0x0#32, 0x3FFFFC0#32, 0x0#32, 0x0#32, 0x0#32⟩,
   ⟨0x108, 12, 0x40, 0, 0x0, 0x0#32, 0x800F7FFF#32, 0x0#32, 0x0#32, 0x0#32⟩,
   ⟨0x10C, 12, 0x40, 0, 0x0, 0x0#32, 0x7FFF7FFF#32, 0x0#32, 0x0#32, 0x0#32⟩,
   ⟨0x110, 12, 0x40, 0, 0x0, 0x0#32, 0xFFFFFF80#32, 0x0#32, 0x0#32, 0x0#32⟩,
   ⟨0x114, 12, 0x40, 0, 0x0, 0x0#32, 0xFFFF#32, 0x0#32, 0x0#32, 0x0#32⟩,
   ⟨0x118, 12, 0x40, 0, 0x0, 0x0#32, 0x1F#32, 0x0#32, 0x0#32, 0x0#32⟩,
   ⟨0x11C, 12, 0x40, 0, 0x0, 0x0#32, 0xFFFFFFFF#32, 0x0#32, 0x0#32, 0x0#32⟩,
   ⟨0x120, 12, 0x40, 0, 0x0, 0x0#32, 0xFFFFFFFF#32, 0x0#32, 0x0#32, 0x0#32⟩,
   ⟨0x124, 12, 0x40, 0, 0x0, 0x0#32, 0x0#32, 0x0#32, 0x0#32, 0x0#32⟩]

/-- The block-specific words of a D2D page (R502). -/
def d2dRows : List WordRow :=
  [⟨0x40, 2, 0x4, 0, 0x0, 0x0#32, 0x0#32, 0x0#32, 0x0#32, 0x0#32⟩,
   ⟨0x48, 0, 0x0, 0, 0x0, 0x0#32, 0x0#32, 0x0#32, 0x3#32, 0x0#32⟩,
   ⟨0x4C, 2, 0x4, 0, 0x0, 0x0#32, 0x0#32, 0x0#32, 0x0#32, 0x0#32⟩]

/-- The block-specific words of a FWP page (R477). -/
def fwpRows : List WordRow :=
  [⟨0x40, 0, 0x0, 0, 0x0, 0x0#32, 0x0#32, 0x0#32, 0x0#32, 0x0#32⟩,
   ⟨0x44, 0, 0x0, 0, 0x0, 0x0#32, 0x0#32, 0x0#32, 0x1#32, 0x0#32⟩,
   ⟨0x48, 0, 0x0, 0, 0x0, 0x0#32, 0x0#32, 0x0#32, 0x0#32, 0x0#32⟩,
   ⟨0x4C, 0, 0x0, 0, 0x0, 0x0#32, 0x0#32, 0x0#32, 0x0#32, 0x0#32⟩,
   ⟨0x50, 0, 0x0, 0, 0x0, 0x0#32, 0x0#32, 0x0#32, 0x0#32, 0x0#32⟩,
   ⟨0x54, 0, 0x0, 0, 0x0, 0xFFFFFFFF#32, 0x0#32, 0x0#32, 0x0#32, 0x0#32⟩,
   ⟨0x60, 2, 0x8, 0, 0x0, 0xFFFFFFFF#32, 0x0#32, 0x0#32, 0x0#32, 0x0#32⟩,
   ⟨0x64, 2, 0x8, 0, 0x0, 0x0#32, 0x0#32, 0x0#32, 0x0#32, 0x0#32⟩,
   ⟨0x70, 0, 0x0, 0, 0x0, 0x0#32, 0x0#32, 0x0#32, 0x0#32, 0x0#32⟩]

/-- The block-specific words of a MBX page (R458). -/
def mbxRows : List WordRow :=
  [⟨0x40, 0, 0x0, 0, 0x0, 0xFFFFF000#32, 0x0#32, 0x0#32, 0x0#32, 0x0#32⟩,
   ⟨0x44, 0, 0x0, 0, 0x0, 0xFFFFFFFF#32, 0x0#32, 0x0#32, 0x0#32, 0x0#32⟩,
   ⟨0x48, 0, 0x0, 0, 0x0, 0x0#32, 0x0#32, 0x0#32, 0x1#32, 0x0#32⟩,
   ⟨0x4C, 0, 0x0, 0, 0x0, 0x0#32, 0x0#32, 0x0#32, 0x0#32, 0x0#32⟩]

/-- The block-specific words of a DIE page (R282). -/
def dieRows : List WordRow :=
  [⟨0x400, 2, 0x200, 0, 0x0, 0x80FFFFFF#32, 0x0#32, 0x0#32, 0x0#32, 0x80014F47#32⟩,
   ⟨0x404, 2, 0x200, 0, 0x0, 0x0#32, 0x0#32, 0x0#32, 0x0#32, 0x0#32⟩,
   ⟨0x408, 2, 0x200, 0, 0x0, 0x0#32, 0x0#32, 0x0#32, 0x0#32, 0x0#32⟩,
   ⟨0x40C, 2, 0x200, 0, 0x0, 0x0#32, 0x0#32, 0x0#32, 0x0#32, 0x0#32⟩,
   ⟨0x410, 2, 0x200, 0, 0x0, 0x0#32, 0x0#32, 0x0#32, 0x0#32, 0x0#32⟩,
   ⟨0x414, 2, 0x200, 0, 0x0, 0x0#32, 0x0#32, 0x0#32, 0x0#32, 0x0#32⟩,
   ⟨0x418, 2, 0x200, 0, 0x0, 0x0#32, 0x0#32, 0x0#32, 0x0#32, 0x0#32⟩,
   ⟨0x41C, 2, 0x200, 0, 0x0, 0xE0000000#32, 0x0#32, 0x0#32, 0x0#32, 0x0#32⟩,
   ⟨0x420, 2, 0x200, 0, 0x0, 0xFFFFFFC0#32, 0x0#32, 0x0#32, 0x0#32, 0x0#32⟩,
   ⟨0x424, 2, 0x200, 0, 0x0, 0xFFFF#32, 0x0#32, 0x0#32, 0x0#32, 0x0#32⟩,
   ⟨0x428, 2, 0x200, 0, 0x0, 0xFFFFFFFF#32, 0x0#32, 0x0#32, 0x0#32, 0x0#32⟩,
   ⟨0x42C, 2, 0x200, 0, 0x0, 0xFFFFFFFF#32, 0x0#32, 0x0#32, 0x0#32, 0x0#32⟩,
   ⟨0x430, 2, 0x200, 0, 0x0, 0x0#32, 0x0#32, 0x0#32, 0x0#32, 0x0#32⟩,
   ⟨0x434, 2, 0x200, 0, 0x0, 0x0#32, 0x0#32, 0x0#32, 0x0#32, 0x0#32⟩,
   ⟨0x500, 2, 0x200, 32, 0x8, 0xFFFFFFFF#32, 0x0#32, 0x0#32, 0x0#32, 0x0#32⟩,
   ⟨0x504, 2, 0x200, 32, 0x8, 0x80000000#32, 0x0#32, 0x0#32, 0x0#32, 0x0#32⟩]

/-- The block-specific words of a HMC page (R228). -/
def hmcRows : List WordRow :=
  [⟨0x40, 0, 0x0, 0, 0x0, 0x0#32, 0x0#32, 0x0#32, 0x0#32, 0x0#32⟩,
   ⟨0x44, 0, 0x0, 0, 0x0, 0x0#32, 0x0#32, 0x0#32, 0x0#32, 0x0#32⟩,
   ⟨0x48, 0, 0x0, 0, 0x0, 0x0#32, 0x0#32, 0x0#32, 0x0#32, 0x0#32⟩,
   ⟨0x4C, 0, 0x0, 0, 0x0, 0x0#32, 0x1#32, 0x0#32, 0x0#32, 0x0#32⟩,
   ⟨0x50, 0, 0x0, 0, 0x0, 0xFF#32, 0x0#32, 0x0#32, 0x0#32, 0x20#32⟩,
   ⟨0x54, 0, 0x0, 0, 0x0, 0x0#32, 0x0#32, 0x0#32, 0x0#32, 0x0#32⟩,
   ⟨0x58, 0, 0x0, 0, 0x0, 0x0#32, 0x0#32, 0x0#32, 0x0#32, 0x0#32⟩,
   ⟨0x5C, 0, 0x0, 0, 0x0, 0x0#32, 0x0#32, 0x0#32, 0x0#32, 0x0#32⟩,
   ⟨0x60, 0, 0x0, 0, 0x0, 0x0#32, 0x0#32, 0x0#32, 0x0#32, 0x0#32⟩,
   ⟨0x64, 0, 0x0, 0, 0x0, 0x0#32, 0x0#32, 0x0#32, 0x0#32, 0x0#32⟩,
   ⟨0x68, 0, 0x0, 0, 0x0, 0x0#32, 0x0#32, 0x0#32, 0x0#32, 0x0#32⟩]

/-- The block-specific words of a NOC page (R528). -/
def nocRows : List WordRow :=
  [⟨0x40, 0, 0x0, 0, 0x0, 0x0#32, 0x0#32, 0x0#32, 0x0#32, 0x0#32⟩,
   ⟨0x44, 0, 0x0, 0, 0x0, 0x0#32, 0x0#32, 0x0#32, 0x0#32, 0x0#32⟩,
   ⟨0x100, 16, 0x40, 16, 0x4, 0x0#32, 0x0#32, 0x0#32, 0x0#32, 0x80#32⟩]

/-- The block-specific words of a CLU page (R174, R205, R261). -/
def cluRows : List WordRow :=
  [⟨0x80, 0, 0x0, 0, 0x0, 0xFFFFFFFF#32, 0x0#32, 0x0#32, 0x0#32, 0x0#32⟩,
   ⟨0x84, 0, 0x0, 0, 0x0, 0xFFFF#32, 0x0#32, 0x0#32, 0x0#32, 0x0#32⟩,
   ⟨0x100, 0, 0x0, 0, 0x0, 0x1#32, 0x0#32, 0x0#32, 0x0#32, 0x1#32⟩,
   ⟨0x104, 0, 0x0, 0, 0x0, 0x1#32, 0x0#32, 0x0#32, 0x0#32, 0x0#32⟩,
   ⟨0x108, 0, 0x0, 0, 0x0, 0x0#32, 0x0#32, 0x0#32, 0x0#32, 0x0#32⟩,
   ⟨0x10C, 0, 0x0, 0, 0x0, 0x0#32, 0x0#32, 0x0#32, 0x0#32, 0x0#32⟩,
   ⟨0x110, 0, 0x0, 0, 0x0, 0x0#32, 0x0#32, 0x0#32, 0x0#32, 0x0#32⟩,
   ⟨0x120, 0, 0x0, 0, 0x0, 0x0#32, 0xFFFFC0#32, 0x0#32, 0x0#32, 0x0#32⟩,
   ⟨0x124, 0, 0x0, 0, 0x0, 0x0#32, 0x800F7F00#32, 0x0#32, 0x0#32, 0x0#32⟩,
   ⟨0x128, 0, 0x0, 0, 0x0, 0x0#32, 0x7FFF#32, 0x0#32, 0x0#32, 0x0#32⟩,
   ⟨0x12C, 0, 0x0, 0, 0x0, 0x0#32, 0x0#32, 0x0#32, 0x0#32, 0x0#32⟩]

/-- The block-specific words of a COR page (R170), part 0. -/
def corRows0 : List WordRow :=
  [⟨0x40, 0, 0x0, 0, 0x0, 0x0#32, 0x0#32, 0x0#32, 0x0#32, 0x0#32⟩,
   ⟨0x44, 0, 0x0, 0, 0x0, 0x0#32, 0x0#32, 0x0#32, 0x0#32, 0x0#32⟩,
   ⟨0x48, 0, 0x0, 0, 0x0, 0x0#32, 0x0#32, 0x0#32, 0x0#32, 0x0#32⟩,
   ⟨0x4C, 0, 0x0, 0, 0x0, 0x1#32, 0x0#32, 0x0#32, 0x0#32, 0x0#32⟩,
   ⟨0x50, 0, 0x0, 0, 0x0, 0x1F#32, 0x0#32, 0x0#32, 0x0#32, 0x0#32⟩,
   ⟨0x54, 0, 0x0, 0, 0x0, 0x0#32, 0x0#32, 0x0#32, 0x0#32, 0x0#32⟩,
   ⟨0x100, 16, 0x4, 0, 0x0, 0xFFFF#32, 0x0#32, 0x0#32, 0x0#32, 0x0#32⟩,
   ⟨0x140, 6, 0x4, 0, 0x0, 0xFFFF#32, 0x0#32, 0x0#32, 0x0#32, 0x0#32⟩,
   ⟨0x180, 4, 0x20, 0, 0x0, 0xFFFFFFFF#32, 0x0#32, 0x0#32, 0x0#32, 0x0#32⟩,
   ⟨0x184, 4, 0x20, 0, 0x0, 0xFFFF#32, 0x0#32, 0x0#32, 0x0#32, 0x0#32⟩,
   ⟨0x188, 4, 0x20, 0, 0x0, 0xFFFFFFFF#32, 0x0#32, 0x0#32, 0x0#32, 0x0#32⟩,
   ⟨0x18C, 4, 0x20, 0, 0x0, 0xFFFF#32, 0x0#32, 0x0#32, 0x0#32, 0x0#32⟩,
   ⟨0x190, 4, 0x20, 0, 0x0, 0xFFFFFFFF#32, 0x0#32, 0x0#32, 0x0#32, 0x0#32⟩,
   ⟨0x194, 4, 0x20, 0, 0x0, 0xFFFFFFFF#32, 0x0#32, 0x0#32, 0x0#32, 0x0#32⟩,
   ⟨0x198, 4, 0x20, 0, 0x0, 0xFFFFFFFF#32, 0x0#32, 0x0#32, 0x0#32, 0x0#32⟩,
   ⟨0x19C, 4, 0x20, 0, 0x0, 0x0#32, 0x0#32, 0x0#32, 0x0#32, 0x0#32⟩]

/-- The block-specific words of a COR page (R170), part 1. -/
def corRows1 : List WordRow :=
  [⟨0x200, 0, 0x0, 0, 0x0, 0xFFFFFFFF#32, 0x0#32, 0x0#32, 0x0#32, 0x0#32⟩,
   ⟨0x204, 0, 0x0, 0, 0x0, 0xFFFFFFFF#32, 0x0#32, 0x0#32, 0x0#32, 0x0#32⟩,
   ⟨0x208, 0, 0x0, 0, 0x0, 0xFFFFFFFF#32, 0x0#32, 0x0#32, 0x0#32, 0x0#32⟩,
   ⟨0x20C, 0, 0x0, 0, 0x0, 0x17FFF#32, 0x0#32, 0x0#32, 0x0#32, 0x0#32⟩,
   ⟨0x210, 0, 0x0, 0, 0x0, 0xFFFFFFFF#32, 0x0#32, 0x0#32, 0x0#32, 0x0#32⟩,
   ⟨0x214, 0, 0x0, 0, 0x0, 0x1FFFF#32, 0x0#32, 0x0#32, 0x0#32, 0x0#32⟩,
   ⟨0x218, 0, 0x0, 0, 0x0, 0x1FFFF#32, 0x0#32, 0x0#32, 0x0#32, 0x0#32⟩,
   ⟨0x21C, 0, 0x0, 0, 0x0, 0xFF#32, 0x0#32, 0x0#32, 0x0#32, 0x0#32⟩,
   ⟨0x220, 0, 0x0, 0, 0x0, 0xFFFFFFFF#32, 0x0#32, 0x0#32, 0x0#32, 0x1#32⟩,
   ⟨0x224, 0, 0x0, 0, 0x0, 0x3#32, 0x0#32, 0x0#32, 0x0#32, 0x0#32⟩,
   ⟨0x400, 32, 0x4, 0, 0x0, 0xFFFFFFFF#32, 0x0#32, 0x0#32, 0x0#32, 0x0#32⟩]

/-- The block-specific words of a COR page. -/
def corRows : List WordRow :=
  corRows0 ++ corRows1

/-- The block-specific words of each block's page. -/
def Blk.rows : Blk → List WordRow
  | .hub => hubRows
  | .bru => bruRows
  | .pce => pceRows
  | .prp => prpRows
  | .eth => ethRows
  | .cls => clsRows
  | .nic => nicRows
  | .tsh => tshRows
  | .pol => polRows
  | .sdt => sdtRows
  | .nvc => nvcRows
  | .cph => cphRows
  | .lpc => lpcRows
  | .tel => telRows
  | .pwr => pwrRows
  | .sec => secRows
  | .bbx => bbxRows
  | .snp => snpRows
  | .dis => disRows
  | .mov => movRows
  | .pfx => pfxRows
  | .d2d => d2dRows
  | .fwp => fwpRows
  | .mbx => mbxRows
  | .die => dieRows
  | .hmc => hmcRows
  | .noc => nocRows
  | .clu => cluRows
  | .cor => corRows

/-- The row that implements a page offset of a page: the header below 0x040, the block's own words from 0x040. D2D_LINK
and D2D_CRC_ERR of instance 1 exist on the hub pages alone (R502), and the heartbeat and activation registers on FWP page
0 of hub 0 alone (R477). -/
def Page.row (p : Page) (o : Nat) : Option WordRow :=
  if o < 0x40 then headerRows.find? (·.covers o)
  else if p.blk = .d2d ∧ p.inst < 40 ∧ (o = 0x44 ∨ o = 0x50) then none
  else if p.blk = .fwp ∧ p.inst ≠ 0 ∧ 0x60 ≤ o then none
  else p.blk.rows.find? (·.covers o)

/-- Edges of compute dies that face HBM stacks and have no partner (R19). -/
def edgeNone (i : Nat) : Bool :=
  i < 40 && ((i / 4 < 5 && i % 4 == 0) || (5 ≤ i / 4 && i % 4 == 2))

/-- A page that exists and whose block has no function on this device (R48). -/
def Page.inactive (p : Page) : Bool :=
  match p.blk with
  | .bru => p.inst == 1
  | .sec => p.inst == 1
  | .bbx => p.inst == 1
  | .d2d => edgeNone p.inst
  | _ => false

/-- ID.INSTANCE of a page (R50). -/
def Page.idInstance (p : Page) : Nat :=
  match p.blk with
  | .fwp => p.inst % 16
  | .mbx => p.inst % 64
  | .cor => p.inst % 18
  | _ => p.inst

/-- The value after reset of the word at a BAR0 offset; 0 where nothing is implemented (R52, R170-R569). -/
def regReset (a : Nat) : BitVec 32 :=
  match pageAt a with
  | none => 0#32
  | some p =>
    let o := a % 0x1000
    if o = 0 then BitVec.ofNat 32 (p.blk.code * 0x10000 + p.idInstance * 0x100 + 1)
    else if o = 4 then (if p.inactive then 0#32 else 1#32)
    else match p.row o with
      | some r => r.reset
      | none => 0#32

/-- A field of a register: BAR0 offset of its word, lowest bit and width. -/
structure Fld where
  addr : Nat
  lo : Nat
  len : Nat
  deriving DecidableEq, Repr

/-! Field names. The first argument is the page's instance (R47; FWP: hub * 16 + index, MBX: hub * 64 + page, COR:
gc * 18 + slot); further arguments index arrays. -/

def Reg.ID_TYPE (p : Page) : Fld := ⟨p.base + 0x000, 16, 16⟩
def Reg.ID_INSTANCE (p : Page) : Fld := ⟨p.base + 0x000, 8, 8⟩
def Reg.ID_VERSION (p : Page) : Fld := ⟨p.base + 0x000, 0, 8⟩
def Reg.CAP (p : Page) : Fld := ⟨p.base + 0x004, 1, 31⟩
def Reg.CAP_FUNCTIONAL (p : Page) : Fld := ⟨p.base + 0x004, 0, 1⟩
def Reg.CTRL_DRAIN (p : Page) : Fld := ⟨p.base + 0x008, 1, 1⟩
def Reg.CTRL_ENABLE (p : Page) : Fld := ⟨p.base + 0x008, 0, 1⟩
def Reg.STATE_CRC_MISMATCH (p : Page) : Fld := ⟨p.base + 0x00C, 16, 1⟩
def Reg.STATE_EPOCH (p : Page) : Fld := ⟨p.base + 0x00C, 8, 8⟩
def Reg.STATE_STATE (p : Page) : Fld := ⟨p.base + 0x00C, 0, 4⟩
def Reg.CFG_CRC_REF (p : Page) : Fld := ⟨p.base + 0x010, 0, 32⟩
def Reg.CFG_CRC_LIVE (p : Page) : Fld := ⟨p.base + 0x014, 0, 32⟩
def Reg.ERR_STAT_BLOCK (p : Page) : Fld := ⟨p.base + 0x018, 16, 16⟩
def Reg.ERR_STAT_BUCKET_OVERFLOW (p : Page) : Fld := ⟨p.base + 0x018, 3, 1⟩
def Reg.ERR_STAT_BUS_ERROR (p : Page) : Fld := ⟨p.base + 0x018, 2, 1⟩
def Reg.ERR_STAT_CFG_CORRUPT (p : Page) : Fld := ⟨p.base + 0x018, 1, 1⟩
def Reg.ERR_STAT_IGNORED_WRITE (p : Page) : Fld := ⟨p.base + 0x018, 0, 1⟩
def Reg.ERR_EN_BLOCK (p : Page) : Fld := ⟨p.base + 0x01C, 16, 16⟩
def Reg.ERR_EN (p : Page) : Fld := ⟨p.base + 0x01C, 1, 3⟩
def Reg.IGN_WRITE_COUNT (p : Page) : Fld := ⟨p.base + 0x020, 16, 16⟩
def Reg.IGN_WRITE_OFFSET (p : Page) : Fld := ⟨p.base + 0x020, 0, 12⟩
def Reg.BUCKET_CFG_PERIOD (p : Page) : Fld := ⟨p.base + 0x024, 16, 16⟩
def Reg.BUCKET_CFG_THRESHOLD (p : Page) : Fld := ⟨p.base + 0x024, 0, 16⟩
def Reg.BUCKET_LEVEL_HALF (p : Page) : Fld := ⟨p.base + 0x028, 16, 1⟩
def Reg.BUCKET_LEVEL_LEVEL (p : Page) : Fld := ⟨p.base + 0x028, 0, 16⟩
/-- R170 -/
def Reg.COR_RUN_BOOT_STATUS (h : Nat) : Fld := ⟨(Page.mk .cor h).base + 0x40, 24, 8⟩
/-- R170 -/
def Reg.COR_RUN_TRAP (h : Nat) : Fld := ⟨(Page.mk .cor h).base + 0x40, 8, 4⟩
/-- R170 -/
def Reg.COR_RUN_RUN (h : Nat) : Fld := ⟨(Page.mk .cor h).base + 0x40, 0, 3⟩
/-- R170 -/
def Reg.COR_PC_TRAP_PC (h : Nat) : Fld := ⟨(Page.mk .cor h).base + 0x44, 16, 16⟩
/-- R170 -/
def Reg.COR_PC_PC (h : Nat) : Fld := ⟨(Page.mk .cor h).base + 0x44, 0, 16⟩
/-- R170 -/
def Reg.COR_TRAP_INFO_ASYNC (h : Nat) : Fld := ⟨(Page.mk .cor h).base + 0x48, 3, 1⟩
/-- R170 -/
def Reg.COR_TRAP_INFO_UNIT (h : Nat) : Fld := ⟨(Page.mk .cor h).base + 0x48, 0, 3⟩
/-- R170 -/
def Reg.COR_PAUSE_REQ (h : Nat) : Fld := ⟨(Page.mk .cor h).base + 0x4C, 0, 1⟩
/-- R170 -/
def Reg.COR_VSEL_REG (h : Nat) : Fld := ⟨(Page.mk .cor h).base + 0x50, 0, 5⟩
/-- R170 -/
def Reg.COR_QOCC_X (h : Nat) : Fld := ⟨(Page.mk .cor h).base + 0x54, 4, 16⟩
/-- R170 -/
def Reg.COR_QOCC_M (h : Nat) : Fld := ⟨(Page.mk .cor h).base + 0x54, 0, 4⟩
/-- R170 -/
def Reg.COR_SREG (h i : Nat) : Fld := ⟨(Page.mk .cor h).base + 0x100 + 0x4 * i, 0, 16⟩
/-- R170 -/
def Reg.COR_LOOP (h i : Nat) : Fld := ⟨(Page.mk .cor h).base + 0x140 + 0x4 * i, 0, 16⟩
/-- R170 -/
def Reg.COR_XS_LO (h i : Nat) : Fld := ⟨(Page.mk .cor h).base + 0x180 + 0x20 * i, 0, 32⟩
/-- R170 -/
def Reg.COR_XS_HI (h i : Nat) : Fld := ⟨(Page.mk .cor h).base + 0x184 + 0x20 * i, 0, 16⟩
/-- R170 -/
def Reg.COR_XD_LO (h i : Nat) : Fld := ⟨(Page.mk .cor h).base + 0x188 + 0x20 * i, 0, 32⟩
/-- R170 -/
def Reg.COR_XD_HI (h i : Nat) : Fld := ⟨(Page.mk .cor h).base + 0x18C + 0x20 * i, 0, 16⟩
/-- R170 -/
def Reg.COR_XC (h i : Nat) : Fld := ⟨(Page.mk .cor h).base + 0x190 + 0x20 * i, 0, 32⟩
/-- R170 -/
def Reg.COR_XG (h i : Nat) : Fld := ⟨(Page.mk .cor h).base + 0x194 + 0x20 * i, 0, 32⟩
/-- R170 -/
def Reg.COR_XB (h i : Nat) : Fld := ⟨(Page.mk .cor h).base + 0x198 + 0x20 * i, 0, 32⟩
/-- R170 -/
def Reg.COR_XSTAT (h i : Nat) : Fld := ⟨(Page.mk .cor h).base + 0x19C + 0x20 * i, 0, 32⟩
/-- R170 -/
def Reg.COR_QSTATE (h i : Nat) : Fld := ⟨(Page.mk .cor h).base + 0x200 + 0x4 * i, 0, 32⟩
/-- R170 -/
def Reg.COR_LFSR (h : Nat) : Fld := ⟨(Page.mk .cor h).base + 0x220, 0, 32⟩
/-- R170 -/
def Reg.COR_FLAGS (h : Nat) : Fld := ⟨(Page.mk .cor h).base + 0x224, 0, 2⟩
/-- R170 -/
def Reg.COR_VWIN (h i : Nat) : Fld := ⟨(Page.mk .cor h).base + 0x400 + 0x4 * i, 0, 32⟩
/-- R203 -/
def Reg.DIS_PAUSE (h : Nat) : Fld := ⟨(Page.mk .dis h).base + 0x40, 0, 12⟩
/-- R203 -/
def Reg.DIS_PAUSED (h : Nat) : Fld := ⟨(Page.mk .dis h).base + 0x44, 0, 12⟩
/-- R203 -/
def Reg.DIS_BAD (h : Nat) : Fld := ⟨(Page.mk .dis h).base + 0x48, 0, 32⟩
/-- R203 -/
def Reg.DIS_BAD_LAST_STATUS (h : Nat) : Fld := ⟨(Page.mk .dis h).base + 0x4C, 24, 8⟩
/-- R203 -/
def Reg.DIS_BAD_LAST_RING (h : Nat) : Fld := ⟨(Page.mk .dis h).base + 0x4C, 8, 6⟩
/-- R203 -/
def Reg.DIS_BAD_LAST_SLICE (h : Nat) : Fld := ⟨(Page.mk .dis h).base + 0x4C, 0, 8⟩
/-- R203 -/
def Reg.DIS_LOST (h : Nat) : Fld := ⟨(Page.mk .dis h).base + 0x50, 0, 32⟩
/-- R203 -/
def Reg.DIS_RING_BASE (h i : Nat) : Fld := ⟨(Page.mk .dis h).base + 0x100 + 0x10 * i, 6, 20⟩
/-- R203 -/
def Reg.DIS_RING_CFG_EN (h i : Nat) : Fld := ⟨(Page.mk .dis h).base + 0x104 + 0x10 * i, 31, 1⟩
/-- R203 -/
def Reg.DIS_RING_CFG_LOG2_SIZE (h i : Nat) : Fld := ⟨(Page.mk .dis h).base + 0x104 + 0x10 * i, 16, 4⟩
/-- R203 -/
def Reg.DIS_RING_CFG_SUBMIT (h i : Nat) : Fld := ⟨(Page.mk .dis h).base + 0x104 + 0x10 * i, 0, 15⟩
/-- R203 -/
def Reg.DIS_RING_CREDIT (h i : Nat) : Fld := ⟨(Page.mk .dis h).base + 0x108 + 0x10 * i, 0, 15⟩
/-- R203 -/
def Reg.DIS_RING_TAKEN (h i : Nat) : Fld := ⟨(Page.mk .dis h).base + 0x10C + 0x10 * i, 0, 32⟩
/-- R205 -/
def Reg.CLU_WQ_OCC (h : Nat) : Fld := ⟨(Page.mk .clu h).base + 0x100, 8, 7⟩
/-- R205 -/
def Reg.CLU_WQ_ELIG (h : Nat) : Fld := ⟨(Page.mk .clu h).base + 0x100, 0, 1⟩
/-- R205 -/
def Reg.CLU_PAUSE_PART (h : Nat) : Fld := ⟨(Page.mk .clu h).base + 0x104, 2, 1⟩
/-- R205 -/
def Reg.CLU_PAUSE_DONE (h : Nat) : Fld := ⟨(Page.mk .clu h).base + 0x104, 1, 1⟩
/-- R205 -/
def Reg.CLU_PAUSE_REQ (h : Nat) : Fld := ⟨(Page.mk .clu h).base + 0x104, 0, 1⟩
/-- R205 -/
def Reg.CLU_SIG_DROP (h : Nat) : Fld := ⟨(Page.mk .clu h).base + 0x108, 0, 32⟩
/-- R205 -/
def Reg.CLU_WATCH_PEAK (h : Nat) : Fld := ⟨(Page.mk .clu h).base + 0x10C, 16, 7⟩
/-- R205 -/
def Reg.CLU_WATCH_ARMED (h : Nat) : Fld := ⟨(Page.mk .clu h).base + 0x10C, 0, 7⟩
/-- R205 -/
def Reg.CLU_XREQ (h : Nat) : Fld := ⟨(Page.mk .clu h).base + 0x110, 0, 13⟩
/-- R228 -/
def Reg.HMC_MODE_REFUSED (h : Nat) : Fld := ⟨(Page.mk .hmc h).base + 0x40, 8, 4⟩
/-- R228 -/
def Reg.HMC_MODE_GLOBAL (h : Nat) : Fld := ⟨(Page.mk .hmc h).base + 0x40, 0, 4⟩
/-- R228 -/
def Reg.HMC_UNITS_USABLE (h : Nat) : Fld := ⟨(Page.mk .hmc h).base + 0x44, 0, 4⟩
/-- R228 -/
def Reg.HMC_CH_OK (h : Nat) : Fld := ⟨(Page.mk .hmc h).base + 0x48, 0, 32⟩
/-- R228 -/
def Reg.HMC_CFG_CLOSED_PAGE (h : Nat) : Fld := ⟨(Page.mk .hmc h).base + 0x4C, 0, 1⟩
/-- R228 -/
def Reg.HMC_ARB_WR_BATCH (h : Nat) : Fld := ⟨(Page.mk .hmc h).base + 0x50, 0, 8⟩
/-- R228 -/
def Reg.HMC_RD_LINES_LO (h : Nat) : Fld := ⟨(Page.mk .hmc h).base + 0x58, 0, 32⟩
/-- R228 -/
def Reg.HMC_RD_LINES_HI (h : Nat) : Fld := ⟨(Page.mk .hmc h).base + 0x5C, 0, 32⟩
/-- R228 -/
def Reg.HMC_WR_LINES_LO (h : Nat) : Fld := ⟨(Page.mk .hmc h).base + 0x60, 0, 32⟩
/-- R228 -/
def Reg.HMC_WR_LINES_HI (h : Nat) : Fld := ⟨(Page.mk .hmc h).base + 0x64, 0, 32⟩
/-- R228 -/
def Reg.HMC_RMW (h : Nat) : Fld := ⟨(Page.mk .hmc h).base + 0x68, 0, 32⟩
/-- R229 -/
def Reg.LPC_CFG_CLOSED_PAGE (h : Nat) : Fld := ⟨(Page.mk .lpc h).base + 0x40, 0, 1⟩
/-- R229 -/
def Reg.LPC_PKG_CH_OK (h i : Nat) : Fld := ⟨(Page.mk .lpc h).base + 0x100 + 0x20 * i, 4, 2⟩
/-- R229 -/
def Reg.LPC_PKG_LOST (h i : Nat) : Fld := ⟨(Page.mk .lpc h).base + 0x100 + 0x20 * i, 1, 1⟩
/-- R229 -/
def Reg.LPC_PKG_MAPPED (h i : Nat) : Fld := ⟨(Page.mk .lpc h).base + 0x100 + 0x20 * i, 0, 1⟩
/-- R229 -/
def Reg.LPC_RD_LINES (h i : Nat) : Fld := ⟨(Page.mk .lpc h).base + 0x104 + 0x20 * i, 0, 32⟩
/-- R229 -/
def Reg.LPC_WR_LINES (h i : Nat) : Fld := ⟨(Page.mk .lpc h).base + 0x108 + 0x20 * i, 0, 32⟩
/-- R229 -/
def Reg.LPC_CHK_MISS (h i : Nat) : Fld := ⟨(Page.mk .lpc h).base + 0x10C + 0x20 * i, 0, 32⟩
/-- R229 -/
def Reg.LPC_RMW (h i : Nat) : Fld := ⟨(Page.mk .lpc h).base + 0x110 + 0x20 * i, 0, 32⟩
/-- R259 -/
def Reg.MOV_ACTIVE (h : Nat) : Fld := ⟨(Page.mk .mov h).base + 0x40, 0, 7⟩
/-- R259 -/
def Reg.MOV_SAT (h : Nat) : Fld := ⟨(Page.mk .mov h).base + 0x44, 0, 32⟩
/-- R259 -/
def Reg.MOV_RING_CMD_BASE (h i : Nat) : Fld := ⟨(Page.mk .mov h).base + 0x100 + 0x20 * i, 6, 20⟩
/-- R259 -/
def Reg.MOV_RING_CPL_BASE (h i : Nat) : Fld := ⟨(Page.mk .mov h).base + 0x104 + 0x20 * i, 6, 20⟩
/-- R259 -/
def Reg.MOV_RING_CFG_EN (h i : Nat) : Fld := ⟨(Page.mk .mov h).base + 0x108 + 0x20 * i, 31, 1⟩
/-- R259 -/
def Reg.MOV_RING_CFG_LOG2_SIZE (h i : Nat) : Fld := ⟨(Page.mk .mov h).base + 0x108 + 0x20 * i, 16, 4⟩
/-- R259 -/
def Reg.MOV_RING_CFG_SUBMIT (h i : Nat) : Fld := ⟨(Page.mk .mov h).base + 0x108 + 0x20 * i, 0, 15⟩
/-- R259 -/
def Reg.MOV_RING_DONE (h i : Nat) : Fld := ⟨(Page.mk .mov h).base + 0x10C + 0x20 * i, 16, 15⟩
/-- R259 -/
def Reg.MOV_RING_CREDIT (h i : Nat) : Fld := ⟨(Page.mk .mov h).base + 0x10C + 0x20 * i, 0, 15⟩
/-- R259 -/
def Reg.MOV_PT_BASE_LO (h i : Nat) : Fld := ⟨(Page.mk .mov h).base + 0x110 + 0x20 * i, 4, 28⟩
/-- R259 -/
def Reg.MOV_PT_BASE_HI (h i : Nat) : Fld := ⟨(Page.mk .mov h).base + 0x114 + 0x20 * i, 0, 16⟩
/-- R259 -/
def Reg.MOV_PT_COUNT (h i : Nat) : Fld := ⟨(Page.mk .mov h).base + 0x118 + 0x20 * i, 0, 32⟩
/-- R259 -/
def Reg.MOV_FMT_BASE (h i : Nat) : Fld := ⟨(Page.mk .mov h).base + 0x11C + 0x20 * i, 6, 20⟩
/-- R260 -/
def Reg.PFX_TBL_BASE_LO (h i : Nat) : Fld := ⟨(Page.mk .pfx h).base + 0x110 + 0x40 * i, 7, 25⟩
/-- R260 -/
def Reg.PFX_TBL_BASE_HI (h i : Nat) : Fld := ⟨(Page.mk .pfx h).base + 0x114 + 0x40 * i, 0, 16⟩
/-- R260 -/
def Reg.PFX_LOG2_BUCKETS (h i : Nat) : Fld := ⟨(Page.mk .pfx h).base + 0x118 + 0x40 * i, 0, 5⟩
/-- R260 -/
def Reg.PFX_SEED_LO (h i : Nat) : Fld := ⟨(Page.mk .pfx h).base + 0x11C + 0x40 * i, 0, 32⟩
/-- R260 -/
def Reg.PFX_SEED_HI (h i : Nat) : Fld := ⟨(Page.mk .pfx h).base + 0x120 + 0x40 * i, 0, 32⟩
/-- R260 -/
def Reg.PFX_FALSE (h i : Nat) : Fld := ⟨(Page.mk .pfx h).base + 0x124 + 0x40 * i, 0, 32⟩
/-- R261 -/
def Reg.CLU_PG_BASE (h : Nat) : Fld := ⟨(Page.mk .clu h).base + 0x120, 6, 18⟩
/-- R261 -/
def Reg.CLU_PG_CFG_EN (h : Nat) : Fld := ⟨(Page.mk .clu h).base + 0x124, 31, 1⟩
/-- R261 -/
def Reg.CLU_PG_CFG_LOG2_SIZE (h : Nat) : Fld := ⟨(Page.mk .clu h).base + 0x124, 16, 4⟩
/-- R261 -/
def Reg.CLU_PG_CFG_SUBMIT (h : Nat) : Fld := ⟨(Page.mk .clu h).base + 0x124, 8, 7⟩
/-- R261 -/
def Reg.CLU_PG_CREDIT (h : Nat) : Fld := ⟨(Page.mk .clu h).base + 0x128, 0, 15⟩
/-- R261 -/
def Reg.CLU_PG_DONE (h : Nat) : Fld := ⟨(Page.mk .clu h).base + 0x12C, 0, 32⟩
/-- R282 -/
def Reg.DIE_SCRUB_CFG_EN (h i : Nat) : Fld := ⟨(Page.mk .die h).base + 0x400 + 0x200 * i, 31, 1⟩
/-- R282 -/
def Reg.DIE_SCRUB_CFG_INTERVAL (h i : Nat) : Fld := ⟨(Page.mk .die h).base + 0x400 + 0x200 * i, 0, 24⟩
/-- R282 -/
def Reg.DIE_SCRUB_POS (h i : Nat) : Fld := ⟨(Page.mk .die h).base + 0x404 + 0x200 * i, 0, 25⟩
/-- R282 -/
def Reg.DIE_SCRUB_SWEEPS (h i : Nat) : Fld := ⟨(Page.mk .die h).base + 0x408 + 0x200 * i, 0, 32⟩
/-- R282 -/
def Reg.DIE_CE_COUNT (h i : Nat) : Fld := ⟨(Page.mk .die h).base + 0x40C + 0x200 * i, 0, 32⟩
/-- R282 -/
def Reg.DIE_UE_COUNT (h i : Nat) : Fld := ⟨(Page.mk .die h).base + 0x410 + 0x200 * i, 0, 32⟩
/-- R282 -/
def Reg.DIE_LAST_ERR_ADDR_LO (h i : Nat) : Fld := ⟨(Page.mk .die h).base + 0x414 + 0x200 * i, 6, 26⟩
/-- R282 -/
def Reg.DIE_LAST_ERR_UE (h i : Nat) : Fld := ⟨(Page.mk .die h).base + 0x418 + 0x200 * i, 31, 1⟩
/-- R282 -/
def Reg.DIE_LAST_ERR_BY_SCRUB (h i : Nat) : Fld := ⟨(Page.mk .die h).base + 0x418 + 0x200 * i, 30, 1⟩
/-- R282 -/
def Reg.DIE_LAST_ERR_SYMBOLS (h i : Nat) : Fld := ⟨(Page.mk .die h).base + 0x418 + 0x200 * i, 24, 3⟩
/-- R282 -/
def Reg.DIE_LAST_ERR_ADDR_HI (h i : Nat) : Fld := ⟨(Page.mk .die h).base + 0x418 + 0x200 * i, 0, 16⟩
/-- R282 -/
def Reg.DIE_TEST_CTL_WR_ARM (h i : Nat) : Fld := ⟨(Page.mk .die h).base + 0x41C + 0x200 * i, 31, 1⟩
/-- R282 -/
def Reg.DIE_TEST_CTL_RD_ARM (h i : Nat) : Fld := ⟨(Page.mk .die h).base + 0x41C + 0x200 * i, 30, 1⟩
/-- R282 -/
def Reg.DIE_TEST_CTL_HOLD (h i : Nat) : Fld := ⟨(Page.mk .die h).base + 0x41C + 0x200 * i, 29, 1⟩
/-- R282 -/
def Reg.DIE_TEST_CTL_RD_RESULT (h i : Nat) : Fld := ⟨(Page.mk .die h).base + 0x41C + 0x200 * i, 0, 2⟩
/-- R282 -/
def Reg.DIE_TEST_ADDR_LO (h i : Nat) : Fld := ⟨(Page.mk .die h).base + 0x420 + 0x200 * i, 6, 26⟩
/-- R282 -/
def Reg.DIE_TEST_ADDR_HI (h i : Nat) : Fld := ⟨(Page.mk .die h).base + 0x424 + 0x200 * i, 0, 16⟩
/-- R282 -/
def Reg.DIE_TEST_CHECK_LO (h i : Nat) : Fld := ⟨(Page.mk .die h).base + 0x428 + 0x200 * i, 0, 32⟩
/-- R282 -/
def Reg.DIE_TEST_CHECK_HI (h i : Nat) : Fld := ⟨(Page.mk .die h).base + 0x42C + 0x200 * i, 0, 32⟩
/-- R282 -/
def Reg.DIE_TEST_CHECK_RD_LO (h i : Nat) : Fld := ⟨(Page.mk .die h).base + 0x430 + 0x200 * i, 0, 32⟩
/-- R282 -/
def Reg.DIE_TEST_CHECK_RD_HI (h i : Nat) : Fld := ⟨(Page.mk .die h).base + 0x434 + 0x200 * i, 0, 32⟩
/-- R282 -/
def Reg.DIE_RETIRE_ADDR (h i j : Nat) : Fld := ⟨(Page.mk .die h).base + 0x500 + 0x200 * i + 0x8 * j, 0, 32⟩
/-- R282 -/
def Reg.DIE_RETIRE_VALID (h i j : Nat) : Fld := ⟨(Page.mk .die h).base + 0x504 + 0x200 * i + 0x8 * j, 31, 1⟩
/-- R283 -/
def Reg.HUB_T2_SCRUB_CFG (h i : Nat) : Fld := ⟨(Page.mk .hub h).base + 0x400 + 0x40 * i, 0, 32⟩
/-- R283 -/
def Reg.HUB_T2_SCRUB_POS (h i : Nat) : Fld := ⟨(Page.mk .hub h).base + 0x404 + 0x40 * i, 0, 32⟩
/-- R283 -/
def Reg.HUB_T2_SCRUB_SWEEPS (h i : Nat) : Fld := ⟨(Page.mk .hub h).base + 0x408 + 0x40 * i, 0, 32⟩
/-- R283 -/
def Reg.HUB_T2_CE_COUNT (h i : Nat) : Fld := ⟨(Page.mk .hub h).base + 0x40C + 0x40 * i, 0, 32⟩
/-- R283 -/
def Reg.HUB_T2_UE_COUNT (h i : Nat) : Fld := ⟨(Page.mk .hub h).base + 0x410 + 0x40 * i, 0, 32⟩
/-- R283 -/
def Reg.HUB_T2_LAST_ERR_LO (h i : Nat) : Fld := ⟨(Page.mk .hub h).base + 0x414 + 0x40 * i, 0, 32⟩
/-- R283 -/
def Reg.HUB_T2_LAST_ERR_HI (h i : Nat) : Fld := ⟨(Page.mk .hub h).base + 0x418 + 0x40 * i, 0, 32⟩
/-- R283 -/
def Reg.HUB_T2_TEST_CTL (h : Nat) : Fld := ⟨(Page.mk .hub h).base + 0x800, 0, 32⟩
/-- R283 -/
def Reg.HUB_T2_TEST_ADDR_LO (h : Nat) : Fld := ⟨(Page.mk .hub h).base + 0x804, 0, 32⟩
/-- R283 -/
def Reg.HUB_T2_TEST_ADDR_HI (h : Nat) : Fld := ⟨(Page.mk .hub h).base + 0x808, 0, 32⟩
/-- R283 -/
def Reg.HUB_T2_TEST_CHECK (h : Nat) : Fld := ⟨(Page.mk .hub h).base + 0x80C, 0, 32⟩
/-- R283 -/
def Reg.HUB_T2_TEST_CHECK_RD (h : Nat) : Fld := ⟨(Page.mk .hub h).base + 0x810, 0, 32⟩
/-- R283 -/
def Reg.HUB_T2_RETIRE (h i : Nat) : Fld := ⟨(Page.mk .hub h).base + 0x900 + 0x8 * i, 0, 32⟩
/-- R283 -/
def Reg.HUB_SRAM_CE (h : Nat) : Fld := ⟨(Page.mk .hub h).base + 0xD00, 0, 32⟩
/-- R283 -/
def Reg.HUB_SRAM_UE (h : Nat) : Fld := ⟨(Page.mk .hub h).base + 0xD04, 0, 32⟩
/-- R283 -/
def Reg.HUB_SIG_DROP (h : Nat) : Fld := ⟨(Page.mk .hub h).base + 0xD08, 0, 32⟩
/-- R310 -/
def Reg.PCE_LINK_UP (h : Nat) : Fld := ⟨(Page.mk .pce h).base + 0x40, 10, 1⟩
/-- R310 -/
def Reg.PCE_LINK_FLIT (h : Nat) : Fld := ⟨(Page.mk .pce h).base + 0x40, 9, 1⟩
/-- R310 -/
def Reg.PCE_LINK_WIDTH (h : Nat) : Fld := ⟨(Page.mk .pce h).base + 0x40, 4, 5⟩
/-- R310 -/
def Reg.PCE_LINK_SPEED (h : Nat) : Fld := ⟨(Page.mk .pce h).base + 0x40, 0, 4⟩
/-- R310 -/
def Reg.PCE_CTL_FORCE_A (h : Nat) : Fld := ⟨(Page.mk .pce h).base + 0x44, 0, 1⟩
/-- R310 -/
def Reg.PCE_CTO (h : Nat) : Fld := ⟨(Page.mk .pce h).base + 0x48, 0, 32⟩
/-- R310 -/
def Reg.PCE_TAGS_QUAR (h : Nat) : Fld := ⟨(Page.mk .pce h).base + 0x4C, 16, 13⟩
/-- R310 -/
def Reg.PCE_TAGS_INFLIGHT (h : Nat) : Fld := ⟨(Page.mk .pce h).base + 0x4C, 0, 13⟩
/-- R310 -/
def Reg.PCE_CTO_COUNT (h : Nat) : Fld := ⟨(Page.mk .pce h).base + 0x50, 0, 32⟩
/-- R310 -/
def Reg.PCE_LATE_CPL (h : Nat) : Fld := ⟨(Page.mk .pce h).base + 0x54, 0, 32⟩
/-- R310 -/
def Reg.PCE_FLR_DROP (h : Nat) : Fld := ⟨(Page.mk .pce h).base + 0x58, 0, 32⟩
/-- R310 -/
def Reg.PCE_UR (h : Nat) : Fld := ⟨(Page.mk .pce h).base + 0x5C, 0, 32⟩
/-- R310 -/
def Reg.PCE_FN_FLR_BUSY (h : Nat) : Fld := ⟨(Page.mk .pce h).base + 0x60, 8, 4⟩
/-- R310 -/
def Reg.PCE_FN_D3 (h : Nat) : Fld := ⟨(Page.mk .pce h).base + 0x60, 4, 4⟩
/-- R310 -/
def Reg.PCE_FN_BME (h : Nat) : Fld := ⟨(Page.mk .pce h).base + 0x60, 0, 4⟩
/-- R310 -/
def Reg.PCE_WIN0_BASE_LO (h : Nat) : Fld := ⟨(Page.mk .pce h).base + 0x64, 30, 2⟩
/-- R310 -/
def Reg.PCE_WIN0_BASE_HI (h : Nat) : Fld := ⟨(Page.mk .pce h).base + 0x68, 0, 16⟩
/-- R310 -/
def Reg.PCE_INTX_LEVEL (h : Nat) : Fld := ⟨(Page.mk .pce h).base + 0x6C, 0, 1⟩
/-- R310 -/
def Reg.PCE_INTX_PEND (h : Nat) : Fld := ⟨(Page.mk .pce h).base + 0x70, 0, 32⟩
/-- R310 -/
def Reg.PCE_MSIX_ADDR_LO (h i : Nat) : Fld := ⟨(Page.mk .pce h).base + 0x800 + 0x10 * i, 0, 32⟩
/-- R310 -/
def Reg.PCE_MSIX_ADDR_HI (h i : Nat) : Fld := ⟨(Page.mk .pce h).base + 0x804 + 0x10 * i, 0, 32⟩
/-- R310 -/
def Reg.PCE_MSIX_DATA (h i : Nat) : Fld := ⟨(Page.mk .pce h).base + 0x808 + 0x10 * i, 0, 32⟩
/-- R310 -/
def Reg.PCE_MSIX_CTRL (h i : Nat) : Fld := ⟨(Page.mk .pce h).base + 0x80C + 0x10 * i, 0, 32⟩
/-- R310 -/
def Reg.PCE_PBA_LO (h : Nat) : Fld := ⟨(Page.mk .pce h).base + 0xC00, 0, 32⟩
/-- R310 -/
def Reg.PCE_PBA_HI (h : Nat) : Fld := ⟨(Page.mk .pce h).base + 0xC04, 0, 32⟩
/-- R331 -/
def Reg.PART_STATE_SLICES (h i : Nat) : Fld := ⟨(Page.mk .hub h).base + 0x100 + 0x40 * i, 16, 9⟩
/-- R331 -/
def Reg.PART_STATE_LINK (h i : Nat) : Fld := ⟨(Page.mk .hub h).base + 0x100 + 0x40 * i, 5, 1⟩
/-- R331 -/
def Reg.PART_STATE_STRICT (h i : Nat) : Fld := ⟨(Page.mk .hub h).base + 0x100 + 0x40 * i, 4, 1⟩
/-- R331 -/
def Reg.PART_STATE_STATE (h i : Nat) : Fld := ⟨(Page.mk .hub h).base + 0x100 + 0x40 * i, 0, 3⟩
/-- R331 -/
def Reg.PART_HBM0 (h i : Nat) : Fld := ⟨(Page.mk .hub h).base + 0x104 + 0x40 * i, 0, 32⟩
/-- R331 -/
def Reg.PART_HBM1 (h i : Nat) : Fld := ⟨(Page.mk .hub h).base + 0x108 + 0x40 * i, 0, 32⟩
/-- R331 -/
def Reg.PART_HBM2 (h i : Nat) : Fld := ⟨(Page.mk .hub h).base + 0x10C + 0x40 * i, 0, 16⟩
/-- R331 -/
def Reg.PART_T2 (h i : Nat) : Fld := ⟨(Page.mk .hub h).base + 0x110 + 0x40 * i, 0, 32⟩
/-- R331 -/
def Reg.PART_SDT_COUNT (h i : Nat) : Fld := ⟨(Page.mk .hub h).base + 0x114 + 0x40 * i, 16, 9⟩
/-- R331 -/
def Reg.PART_SDT_BASE (h i : Nat) : Fld := ⟨(Page.mk .hub h).base + 0x114 + 0x40 * i, 0, 8⟩
/-- R331 -/
def Reg.PART_SUBQ (h i : Nat) : Fld := ⟨(Page.mk .hub h).base + 0x118 + 0x40 * i, 0, 32⟩
/-- R331 -/
def Reg.PART_KEYS (h i : Nat) : Fld := ⟨(Page.mk .hub h).base + 0x11C + 0x40 * i, 0, 32⟩
/-- R331 -/
def Reg.PART_SRAM_COUNT (h i : Nat) : Fld := ⟨(Page.mk .hub h).base + 0x120 + 0x40 * i, 8, 8⟩
/-- R331 -/
def Reg.PART_SRAM_BASE (h i : Nat) : Fld := ⟨(Page.mk .hub h).base + 0x120 + 0x40 * i, 0, 8⟩
/-- R331 -/
def Reg.PART_QOS_PCAP (h i : Nat) : Fld := ⟨(Page.mk .hub h).base + 0x124 + 0x40 * i, 16, 16⟩
/-- R331 -/
def Reg.PART_QOS_WEIGHT (h i : Nat) : Fld := ⟨(Page.mk .hub h).base + 0x124 + 0x40 * i, 0, 8⟩
/-- R331 -/
def Reg.PART_CLU_OWN (h i : Nat) : Fld := ⟨(Page.mk .hub h).base + 0xE00 + 0x4 * i, 0, 32⟩
/-- R355 -/
def Reg.ETH_CFG_DEGRADE_EN (h : Nat) : Fld := ⟨(Page.mk .eth h).base + 0x40, 15, 1⟩
/-- R355 -/
def Reg.ETH_CFG_MAX_FRAME (h : Nat) : Fld := ⟨(Page.mk .eth h).base + 0x40, 0, 14⟩
/-- R355 -/
def Reg.ETH_CTL_RETRAIN (h : Nat) : Fld := ⟨(Page.mk .eth h).base + 0x44, 0, 1⟩
/-- R355 -/
def Reg.ETH_LINK_LANES_OK (h : Nat) : Fld := ⟨(Page.mk .eth h).base + 0x48, 8, 4⟩
/-- R355 -/
def Reg.ETH_LINK_RATE (h : Nat) : Fld := ⟨(Page.mk .eth h).base + 0x48, 4, 2⟩
/-- R355 -/
def Reg.ETH_LINK_PAIR (h : Nat) : Fld := ⟨(Page.mk .eth h).base + 0x48, 3, 1⟩
/-- R355 -/
def Reg.ETH_LINK_STATE (h : Nat) : Fld := ⟨(Page.mk .eth h).base + 0x48, 0, 3⟩
/-- R355 -/
def Reg.ETH_TS_LO (h : Nat) : Fld := ⟨(Page.mk .eth h).base + 0x50, 0, 32⟩
/-- R355 -/
def Reg.ETH_TS_HI (h : Nat) : Fld := ⟨(Page.mk .eth h).base + 0x54, 0, 32⟩
/-- R355 -/
def Reg.ETH_RX_FRAMES_LO (h : Nat) : Fld := ⟨(Page.mk .eth h).base + 0x58, 0, 32⟩
/-- R355 -/
def Reg.ETH_RX_FRAMES_HI (h : Nat) : Fld := ⟨(Page.mk .eth h).base + 0x5C, 0, 32⟩
/-- R355 -/
def Reg.ETH_RX_BYTES_LO (h : Nat) : Fld := ⟨(Page.mk .eth h).base + 0x60, 0, 32⟩
/-- R355 -/
def Reg.ETH_RX_BYTES_HI (h : Nat) : Fld := ⟨(Page.mk .eth h).base + 0x64, 0, 32⟩
/-- R355 -/
def Reg.ETH_TX_FRAMES_LO (h : Nat) : Fld := ⟨(Page.mk .eth h).base + 0x68, 0, 32⟩
/-- R355 -/
def Reg.ETH_TX_FRAMES_HI (h : Nat) : Fld := ⟨(Page.mk .eth h).base + 0x6C, 0, 32⟩
/-- R355 -/
def Reg.ETH_TX_BYTES_LO (h : Nat) : Fld := ⟨(Page.mk .eth h).base + 0x70, 0, 32⟩
/-- R355 -/
def Reg.ETH_TX_BYTES_HI (h : Nat) : Fld := ⟨(Page.mk .eth h).base + 0x74, 0, 32⟩
/-- R355 -/
def Reg.ETH_RX_FCS_ERR (h : Nat) : Fld := ⟨(Page.mk .eth h).base + 0x78, 0, 32⟩
/-- R355 -/
def Reg.ETH_RX_LEN_ERR (h : Nat) : Fld := ⟨(Page.mk .eth h).base + 0x7C, 0, 32⟩
/-- R355 -/
def Reg.ETH_RX_PAUSE (h : Nat) : Fld := ⟨(Page.mk .eth h).base + 0x80, 0, 32⟩
/-- R355 -/
def Reg.ETH_RX_OVF (h : Nat) : Fld := ⟨(Page.mk .eth h).base + 0x84, 0, 32⟩
/-- R355 -/
def Reg.CLS_PARSE_SDT_PORT (h : Nat) : Fld := ⟨(Page.mk .cls h).base + 0x40, 16, 16⟩
/-- R355 -/
def Reg.CLS_PARSE_VXLAN_PORT (h : Nat) : Fld := ⟨(Page.mk .cls h).base + 0x40, 0, 16⟩
/-- R355 -/
def Reg.CLS_TBL_BASE (h : Nat) : Fld := ⟨(Page.mk .cls h).base + 0x44, 6, 20⟩
/-- R355 -/
def Reg.CLS_TBL_COUNT (h : Nat) : Fld := ⟨(Page.mk .cls h).base + 0x48, 0, 18⟩
/-- R355 -/
def Reg.CLS_CNT_BASE (h : Nat) : Fld := ⟨(Page.mk .cls h).base + 0x4C, 6, 20⟩
/-- R355 -/
def Reg.CLS_DEFAULT (h : Nat) : Fld := ⟨(Page.mk .cls h).base + 0x50, 0, 2⟩
/-- R355 -/
def Reg.CLS_SYNC (h : Nat) : Fld := ⟨(Page.mk .cls h).base + 0x54, 0, 32⟩
/-- R355 -/
def Reg.CLS_FENCE (h : Nat) : Fld := ⟨(Page.mk .cls h).base + 0x58, 0, 1⟩
/-- R355 -/
def Reg.CLS_BAD_NODE (h : Nat) : Fld := ⟨(Page.mk .cls h).base + 0x5C, 0, 32⟩
/-- R355 -/
def Reg.CLS_SDT_MISS (h : Nat) : Fld := ⟨(Page.mk .cls h).base + 0x60, 0, 32⟩
/-- R355 -/
def Reg.CLS_FW_DROP (h : Nat) : Fld := ⟨(Page.mk .cls h).base + 0x64, 0, 32⟩
/-- R355 -/
def Reg.POL_TBL_BASE (h : Nat) : Fld := ⟨(Page.mk .pol h).base + 0x40, 6, 20⟩
/-- R355 -/
def Reg.POL_BAD (h : Nat) : Fld := ⟨(Page.mk .pol h).base + 0x44, 0, 32⟩
/-- R355 -/
def Reg.NIC_QP_ACTIVE (h : Nat) : Fld := ⟨(Page.mk .nic h).base + 0x40, 0, 13⟩
/-- R355 -/
def Reg.NIC_RX_NOQP (h : Nat) : Fld := ⟨(Page.mk .nic h).base + 0x44, 0, 32⟩
/-- R355 -/
def Reg.NIC_RX_NOBUF (h : Nat) : Fld := ⟨(Page.mk .nic h).base + 0x48, 0, 32⟩
/-- R355 -/
def Reg.NIC_TX_BAD (h : Nat) : Fld := ⟨(Page.mk .nic h).base + 0x4C, 0, 32⟩
/-- R386 -/
def Reg.SDT_TUNE_RETRY_MAX (h : Nat) : Fld := ⟨(Page.mk .sdt h).base + 0x40, 16, 8⟩
/-- R386 -/
def Reg.SDT_TUNE_RTO_MIN (h : Nat) : Fld := ⟨(Page.mk .sdt h).base + 0x40, 0, 16⟩
/-- R386 -/
def Reg.SDT_CC_BETA (h : Nat) : Fld := ⟨(Page.mk .sdt h).base + 0x44, 8, 8⟩
/-- R386 -/
def Reg.SDT_CC_INIT (h : Nat) : Fld := ⟨(Page.mk .sdt h).base + 0x44, 0, 8⟩
/-- R386 -/
def Reg.SDT_OPEN (h : Nat) : Fld := ⟨(Page.mk .sdt h).base + 0x48, 0, 17⟩
/-- R386 -/
def Reg.SDT_CTX (h : Nat) : Fld := ⟨(Page.mk .sdt h).base + 0x4C, 0, 18⟩
/-- R386 -/
def Reg.SDT_STALE (h : Nat) : Fld := ⟨(Page.mk .sdt h).base + 0x50, 0, 32⟩
/-- R386 -/
def Reg.SDT_DUP (h : Nat) : Fld := ⟨(Page.mk .sdt h).base + 0x54, 0, 32⟩
/-- R386 -/
def Reg.SDT_AUTH_DROP (h : Nat) : Fld := ⟨(Page.mk .sdt h).base + 0x58, 0, 32⟩
/-- R386 -/
def Reg.SDT_RETX (h : Nat) : Fld := ⟨(Page.mk .sdt h).base + 0x5C, 0, 32⟩
/-- R386 -/
def Reg.SDT_BAD_HDR (h : Nat) : Fld := ⟨(Page.mk .sdt h).base + 0x60, 0, 32⟩
/-- R386 -/
def Reg.SDT_NOCONN (h : Nat) : Fld := ⟨(Page.mk .sdt h).base + 0x64, 0, 32⟩
/-- R386 -/
def Reg.SDT_NOCTX (h : Nat) : Fld := ⟨(Page.mk .sdt h).base + 0x68, 0, 32⟩
/-- R386 -/
def Reg.SDT_SRC_MAC_LO (h i : Nat) : Fld := ⟨(Page.mk .sdt h).base + 0x80 + 0x20 * i, 0, 32⟩
/-- R386 -/
def Reg.SDT_SRC_MAC_HI (h i : Nat) : Fld := ⟨(Page.mk .sdt h).base + 0x84 + 0x20 * i, 0, 16⟩
/-- R386 -/
def Reg.SDT_SRC_IP6_W0 (h i : Nat) : Fld := ⟨(Page.mk .sdt h).base + 0x88 + 0x20 * i, 0, 32⟩
/-- R386 -/
def Reg.SDT_SRC_IP6_W1 (h i : Nat) : Fld := ⟨(Page.mk .sdt h).base + 0x8C + 0x20 * i, 0, 32⟩
/-- R386 -/
def Reg.SDT_SRC_IP6_W2 (h i : Nat) : Fld := ⟨(Page.mk .sdt h).base + 0x90 + 0x20 * i, 0, 32⟩
/-- R386 -/
def Reg.SDT_SRC_IP6_W3 (h i : Nat) : Fld := ⟨(Page.mk .sdt h).base + 0x94 + 0x20 * i, 0, 32⟩
/-- R386 -/
def Reg.SDT_SRC_IP4 (h i : Nat) : Fld := ⟨(Page.mk .sdt h).base + 0x98 + 0x20 * i, 0, 32⟩
/-- R401 -/
def Reg.TSH_QTBL_BASE (h : Nat) : Fld := ⟨(Page.mk .tsh h).base + 0x40, 6, 20⟩
/-- R401 -/
def Reg.TSH_NTBL_BASE (h : Nat) : Fld := ⟨(Page.mk .tsh h).base + 0x44, 6, 20⟩
/-- R401 -/
def Reg.TSH_REFUSED (h : Nat) : Fld := ⟨(Page.mk .tsh h).base + 0x48, 0, 32⟩
/-- R401 -/
def Reg.TSH_PORT_PIR (h i : Nat) : Fld := ⟨(Page.mk .tsh h).base + 0x100 + 0x80 * i, 0, 32⟩
/-- R401 -/
def Reg.TSH_PORT_PBS (h i : Nat) : Fld := ⟨(Page.mk .tsh h).base + 0x104 + 0x80 * i, 0, 24⟩
/-- R401 -/
def Reg.TSH_GCL_LEN (h i : Nat) : Fld := ⟨(Page.mk .tsh h).base + 0x108 + 0x80 * i, 0, 5⟩
/-- R401 -/
def Reg.TSH_COMMIT_WMAP (h i : Nat) : Fld := ⟨(Page.mk .tsh h).base + 0x10C + 0x80 * i, 1, 1⟩
/-- R401 -/
def Reg.TSH_COMMIT_GCL (h i : Nat) : Fld := ⟨(Page.mk .tsh h).base + 0x10C + 0x80 * i, 0, 1⟩
/-- R401 -/
def Reg.TSH_GCL_BASE_LO (h i : Nat) : Fld := ⟨(Page.mk .tsh h).base + 0x110 + 0x80 * i, 0, 32⟩
/-- R401 -/
def Reg.TSH_GCL_BASE_HI (h i : Nat) : Fld := ⟨(Page.mk .tsh h).base + 0x114 + 0x80 * i, 0, 32⟩
/-- R401 -/
def Reg.TSH_WMAP (h i j : Nat) : Fld := ⟨(Page.mk .tsh h).base + 0x120 + 0x80 * i + 0x4 * j, 0, 32⟩
/-- R401 -/
def Reg.TSH_GCL_DURATION (h i j : Nat) : Fld := ⟨(Page.mk .tsh h).base + 0x400 + 0x100 * i + 0x10 * j, 0, 24⟩
/-- R401 -/
def Reg.TSH_GCL_OPEN_LO (h i j : Nat) : Fld := ⟨(Page.mk .tsh h).base + 0x408 + 0x100 * i + 0x10 * j, 0, 32⟩
/-- R401 -/
def Reg.TSH_GCL_OPEN_HI (h i j : Nat) : Fld := ⟨(Page.mk .tsh h).base + 0x40C + 0x100 * i + 0x10 * j, 0, 32⟩
/-- R425 -/
def Reg.NVC_NS (h : Nat) : Fld := ⟨(Page.mk .nvc h).base + 0x40, 0, 11⟩
/-- R425 -/
def Reg.NVC_SQS (h : Nat) : Fld := ⟨(Page.mk .nvc h).base + 0x44, 0, 15⟩
/-- R425 -/
def Reg.NVC_LOCKS (h : Nat) : Fld := ⟨(Page.mk .nvc h).base + 0x48, 0, 14⟩
/-- R425 -/
def Reg.NVC_LOCK_STALL (h : Nat) : Fld := ⟨(Page.mk .nvc h).base + 0x4C, 0, 32⟩
/-- R425 -/
def Reg.NVC_NOT_READY (h : Nat) : Fld := ⟨(Page.mk .nvc h).base + 0x50, 0, 32⟩
/-- R425 -/
def Reg.NVC_DB_ERR (h : Nat) : Fld := ⟨(Page.mk .nvc h).base + 0x54, 0, 32⟩
/-- R425 -/
def Reg.NVC_POISON (h : Nat) : Fld := ⟨(Page.mk .nvc h).base + 0x58, 0, 32⟩
/-- R426 -/
def Reg.PRP_SLOT_IO_BUS (h : Nat) : Fld := ⟨(Page.mk .prp h).base + 0x40, 31, 1⟩
/-- R426 -/
def Reg.PRP_SLOT_IO_ADDR (h : Nat) : Fld := ⟨(Page.mk .prp h).base + 0x40, 24, 7⟩
/-- R426 -/
def Reg.PRP_SLOT_IO_PIN (h : Nat) : Fld := ⟨(Page.mk .prp h).base + 0x40, 0, 8⟩
/-- R426 -/
def Reg.PRP_CTL_POWER (h : Nat) : Fld := ⟨(Page.mk .prp h).base + 0x44, 1, 1⟩
/-- R426 -/
def Reg.PRP_CTL_EJECT (h : Nat) : Fld := ⟨(Page.mk .prp h).base + 0x44, 0, 1⟩
/-- R426 -/
def Reg.PRP_TMO (h : Nat) : Fld := ⟨(Page.mk .prp h).base + 0x48, 16, 16⟩
/-- R426 -/
def Reg.PRP_SLOT_STATE (h : Nat) : Fld := ⟨(Page.mk .prp h).base + 0x48, 8, 3⟩
/-- R426 -/
def Reg.PRP_SLOT_WIDTH (h : Nat) : Fld := ⟨(Page.mk .prp h).base + 0x48, 4, 4⟩
/-- R426 -/
def Reg.PRP_SLOT_SPEED (h : Nat) : Fld := ⟨(Page.mk .prp h).base + 0x48, 0, 4⟩
/-- R426 -/
def Reg.PRP_CMDS (h : Nat) : Fld := ⟨(Page.mk .prp h).base + 0x4C, 0, 32⟩
/-- R426 -/
def Reg.PRP_RESETS (h : Nat) : Fld := ⟨(Page.mk .prp h).base + 0x50, 0, 32⟩
/-- R426 -/
def Reg.PRP_BAD (h : Nat) : Fld := ⟨(Page.mk .prp h).base + 0x54, 0, 32⟩
/-- R426 -/
def Reg.PRP_TIMEOUTS (h : Nat) : Fld := ⟨(Page.mk .prp h).base + 0x58, 0, 32⟩
/-- R426 -/
def Reg.PRP_DEPEND (h : Nat) : Fld := ⟨(Page.mk .prp h).base + 0x5C, 0, 32⟩
/-- R453 -/
def Reg.CPH_PIPE_OK (h : Nat) : Fld := ⟨(Page.mk .cph h).base + 0x40, 0, 16⟩
/-- R453 -/
def Reg.CPH_SM3_OK (h : Nat) : Fld := ⟨(Page.mk .cph h).base + 0x44, 0, 4⟩
/-- R453 -/
def Reg.CPH_SLOTS (h : Nat) : Fld := ⟨(Page.mk .cph h).base + 0x48, 0, 14⟩
/-- R453 -/
def Reg.CPH_PARITY (h : Nat) : Fld := ⟨(Page.mk .cph h).base + 0x4C, 0, 32⟩
/-- R453 -/
def Reg.CPH_TAG_FAIL (h : Nat) : Fld := ⟨(Page.mk .cph h).base + 0x50, 0, 32⟩
/-- R453 -/
def Reg.CPH_ESP_NOSA (h : Nat) : Fld := ⟨(Page.mk .cph h).base + 0x54, 0, 32⟩
/-- R453 -/
def Reg.CPH_SA (h : Nat) : Fld := ⟨(Page.mk .cph h).base + 0x58, 0, 13⟩
/-- R454 -/
def Reg.SEC_STATE_DEBUG_SCOPE (h : Nat) : Fld := ⟨(Page.mk .sec h).base + 0x40, 4, 2⟩
/-- R454 -/
def Reg.SEC_STATE_OWNER (h : Nat) : Fld := ⟨(Page.mk .sec h).base + 0x40, 2, 1⟩
/-- R454 -/
def Reg.SEC_STATE_ID_VALID (h : Nat) : Fld := ⟨(Page.mk .sec h).base + 0x40, 1, 1⟩
/-- R454 -/
def Reg.SEC_STATE_PUF_OK (h : Nat) : Fld := ⟨(Page.mk .sec h).base + 0x40, 0, 1⟩
/-- R454 -/
def Reg.SEC_DBG_FAILS (h : Nat) : Fld := ⟨(Page.mk .sec h).base + 0x44, 0, 16⟩
/-- R454 -/
def Reg.SEC_DBG_WAIT (h : Nat) : Fld := ⟨(Page.mk .sec h).base + 0x48, 0, 16⟩
/-- R454 -/
def Reg.SEC_SESSIONS (h : Nat) : Fld := ⟨(Page.mk .sec h).base + 0x4C, 0, 3⟩
/-- R454 -/
def Reg.SEC_REJECTS (h : Nat) : Fld := ⟨(Page.mk .sec h).base + 0x50, 0, 32⟩
/-- R458 -/
def Reg.MBX_BUF_LO (h : Nat) : Fld := ⟨(Page.mk .mbx h).base + 0x40, 12, 20⟩
/-- R458 -/
def Reg.MBX_BUF_HI (h : Nat) : Fld := ⟨(Page.mk .mbx h).base + 0x44, 0, 32⟩
/-- R458 -/
def Reg.MBX_CTL_GO (h : Nat) : Fld := ⟨(Page.mk .mbx h).base + 0x48, 0, 1⟩
/-- R458 -/
def Reg.MBX_STAT_BUSY (h : Nat) : Fld := ⟨(Page.mk .mbx h).base + 0x4C, 31, 1⟩
/-- R458 -/
def Reg.MBX_STAT_VALID (h : Nat) : Fld := ⟨(Page.mk .mbx h).base + 0x4C, 30, 1⟩
/-- R458 -/
def Reg.MBX_STAT_LINK (h : Nat) : Fld := ⟨(Page.mk .mbx h).base + 0x4C, 29, 1⟩
/-- R458 -/
def Reg.MBX_STAT_STATUS (h : Nat) : Fld := ⟨(Page.mk .mbx h).base + 0x4C, 16, 8⟩
/-- R458 -/
def Reg.MBX_STAT_SEQ (h : Nat) : Fld := ⟨(Page.mk .mbx h).base + 0x4C, 0, 16⟩
/-- R477 -/
def Reg.FWP_RUN_RESTARTS (h : Nat) : Fld := ⟨(Page.mk .fwp h).base + 0x40, 16, 16⟩
/-- R477 -/
def Reg.FWP_RUN_SLOT (h : Nat) : Fld := ⟨(Page.mk .fwp h).base + 0x40, 8, 1⟩
/-- R477 -/
def Reg.FWP_RUN_STATE (h : Nat) : Fld := ⟨(Page.mk .fwp h).base + 0x40, 0, 3⟩
/-- R477 -/
def Reg.FWP_CTL_RESTART (h : Nat) : Fld := ⟨(Page.mk .fwp h).base + 0x44, 0, 1⟩
/-- R477 -/
def Reg.FWP_SVN (h : Nat) : Fld := ⟨(Page.mk .fwp h).base + 0x48, 0, 32⟩
/-- R477 -/
def Reg.FWP_LOG_HEAD (h : Nat) : Fld := ⟨(Page.mk .fwp h).base + 0x4C, 0, 32⟩
/-- R477 -/
def Reg.FWP_LOG_LOST (h : Nat) : Fld := ⟨(Page.mk .fwp h).base + 0x50, 0, 32⟩
/-- R477 -/
def Reg.FWP_MIRROR_TAIL (h : Nat) : Fld := ⟨(Page.mk .fwp h).base + 0x54, 0, 32⟩
/-- R477 -/
def Reg.FWP_HB (h i : Nat) : Fld := ⟨(Page.mk .fwp h).base + 0x60 + 0x8 * i, 0, 32⟩
/-- R477 -/
def Reg.FWP_LINK_STATE (h i : Nat) : Fld := ⟨(Page.mk .fwp h).base + 0x64 + 0x8 * i, 0, 2⟩
/-- R477 -/
def Reg.FWP_ACT_PENDING (h : Nat) : Fld := ⟨(Page.mk .fwp h).base + 0x70, 0, 5⟩
/-- R501 -/
def Reg.BRU_STEP (h : Nat) : Fld := ⟨(Page.mk .bru h).base + 0x40, 0, 4⟩
/-- R501 -/
def Reg.BRU_STATUS_SEQ (h : Nat) : Fld := ⟨(Page.mk .bru h).base + 0x44, 24, 8⟩
/-- R501 -/
def Reg.BRU_STATUS_RESULT (h : Nat) : Fld := ⟨(Page.mk .bru h).base + 0x44, 16, 8⟩
/-- R501 -/
def Reg.BRU_STATUS_DEGRADED (h : Nat) : Fld := ⟨(Page.mk .bru h).base + 0x44, 11, 1⟩
/-- R501 -/
def Reg.BRU_STATUS_FAST (h : Nat) : Fld := ⟨(Page.mk .bru h).base + 0x44, 10, 1⟩
/-- R501 -/
def Reg.BRU_STATUS_BUSY (h : Nat) : Fld := ⟨(Page.mk .bru h).base + 0x44, 9, 1⟩
/-- R501 -/
def Reg.BRU_STATUS_VALID (h : Nat) : Fld := ⟨(Page.mk .bru h).base + 0x44, 8, 1⟩
/-- R501 -/
def Reg.BRU_STATUS_STEP (h : Nat) : Fld := ⟨(Page.mk .bru h).base + 0x44, 0, 4⟩
/-- R501 -/
def Reg.BRU_TRAIN_DEGRADED (h : Nat) : Fld := ⟨(Page.mk .bru h).base + 0x48, 8, 5⟩
/-- R501 -/
def Reg.BRU_TRAIN_DONE (h : Nat) : Fld := ⟨(Page.mk .bru h).base + 0x48, 0, 5⟩
/-- R501 -/
def Reg.BRU_CFG_FORCE_FULL (h : Nat) : Fld := ⟨(Page.mk .bru h).base + 0x4C, 8, 1⟩
/-- R501 -/
def Reg.BRU_CFG_FILL (h : Nat) : Fld := ⟨(Page.mk .bru h).base + 0x4C, 4, 4⟩
/-- R501 -/
def Reg.BRU_CFG_GLOBAL (h : Nat) : Fld := ⟨(Page.mk .bru h).base + 0x4C, 0, 4⟩
/-- R501 -/
def Reg.BRU_LINKS_FAILED (h : Nat) : Fld := ⟨(Page.mk .bru h).base + 0x50, 16, 5⟩
/-- R501 -/
def Reg.BRU_LINKS_HALF (h : Nat) : Fld := ⟨(Page.mk .bru h).base + 0x50, 8, 5⟩
/-- R501 -/
def Reg.BRU_LINKS_REPAIRED (h : Nat) : Fld := ⟨(Page.mk .bru h).base + 0x50, 0, 5⟩
/-- R501 -/
def Reg.BRU_MEM_HBM_UNITS (h : Nat) : Fld := ⟨(Page.mk .bru h).base + 0x54, 16, 7⟩
/-- R501 -/
def Reg.BRU_MEM_T2_UNITS (h : Nat) : Fld := ⟨(Page.mk .bru h).base + 0x54, 0, 6⟩
/-- R501 -/
def Reg.BRU_CORES_BOOT_FAILED (h : Nat) : Fld := ⟨(Page.mk .bru h).base + 0x58, 16, 12⟩
/-- R501 -/
def Reg.BRU_CORES_ABSENT (h : Nat) : Fld := ⟨(Page.mk .bru h).base + 0x58, 0, 12⟩
/-- R501 -/
def Reg.BRU_FW_MANIFEST_LO (h : Nat) : Fld := ⟨(Page.mk .bru h).base + 0x5C, 0, 32⟩
/-- R501 -/
def Reg.BRU_FW_MANIFEST_HI (h : Nat) : Fld := ⟨(Page.mk .bru h).base + 0x60, 0, 16⟩
/-- R501 -/
def Reg.BRU_FW_IMAGES_LO (h : Nat) : Fld := ⟨(Page.mk .bru h).base + 0x64, 0, 32⟩
/-- R501 -/
def Reg.BRU_FW_IMAGES_HI (h : Nat) : Fld := ⟨(Page.mk .bru h).base + 0x68, 0, 16⟩
/-- R501 -/
def Reg.BRU_FW_TABLES_LO (h : Nat) : Fld := ⟨(Page.mk .bru h).base + 0x6C, 0, 32⟩
/-- R501 -/
def Reg.BRU_FW_TABLES_HI (h : Nat) : Fld := ⟨(Page.mk .bru h).base + 0x70, 0, 16⟩
/-- R501 -/
def Reg.BRU_LEDGER_GEN (h : Nat) : Fld := ⟨(Page.mk .bru h).base + 0x74, 0, 32⟩
/-- R502 -/
def Reg.D2D_LINK_SPARES_USED (h i : Nat) : Fld := ⟨(Page.mk .d2d h).base + 0x40 + 0x4 * i, 16, 8⟩
/-- R502 -/
def Reg.D2D_LINK_WIDTH (h i : Nat) : Fld := ⟨(Page.mk .d2d h).base + 0x40 + 0x4 * i, 4, 2⟩
/-- R502 -/
def Reg.D2D_LINK_STATE (h i : Nat) : Fld := ⟨(Page.mk .d2d h).base + 0x40 + 0x4 * i, 0, 3⟩
/-- R502 -/
def Reg.D2D_CTL_RETRAIN (h : Nat) : Fld := ⟨(Page.mk .d2d h).base + 0x48, 0, 2⟩
/-- R502 -/
def Reg.D2D_CRC_ERR (h i : Nat) : Fld := ⟨(Page.mk .d2d h).base + 0x4C + 0x4 * i, 0, 32⟩
/-- R528 -/
def Reg.NOC_ABSENT (h : Nat) : Fld := ⟨(Page.mk .noc h).base + 0x40, 0, 32⟩
/-- R528 -/
def Reg.NOC_STALE (h : Nat) : Fld := ⟨(Page.mk .noc h).base + 0x44, 0, 32⟩
/-- R528 -/
def Reg.NOC_MAP_ABSENT (h i j : Nat) : Fld := ⟨(Page.mk .noc h).base + 0x100 + 0x40 * i + 0x4 * j, 7, 1⟩
/-- R528 -/
def Reg.NOC_MAP_SLOT (h i j : Nat) : Fld := ⟨(Page.mk .noc h).base + 0x100 + 0x40 * i + 0x4 * j, 0, 5⟩
/-- R529 -/
def Reg.BBX_SEQ (h : Nat) : Fld := ⟨(Page.mk .bbx h).base + 0x40, 0, 32⟩
/-- R529 -/
def Reg.BBX_BOOT (h : Nat) : Fld := ⟨(Page.mk .bbx h).base + 0x44, 0, 32⟩
/-- R529 -/
def Reg.BBX_PEND (h : Nat) : Fld := ⟨(Page.mk .bbx h).base + 0x48, 0, 8⟩
/-- R529 -/
def Reg.BBX_DROPPED (h : Nat) : Fld := ⟨(Page.mk .bbx h).base + 0x4C, 0, 32⟩
/-- R529 -/
def Reg.BBX_PTR (h : Nat) : Fld := ⟨(Page.mk .bbx h).base + 0x50, 6, 19⟩
/-- R529 -/
def Reg.BBX_FLASH_ERR_COUNT (h : Nat) : Fld := ⟨(Page.mk .bbx h).base + 0x54, 16, 16⟩
/-- R529 -/
def Reg.BBX_FLASH_ERR_FLASH (h : Nat) : Fld := ⟨(Page.mk .bbx h).base + 0x54, 0, 2⟩
/-- R529 -/
def Reg.BBX_PF_LOST (h : Nat) : Fld := ⟨(Page.mk .bbx h).base + 0x58, 0, 32⟩
/-- R546 -/
def Reg.SNP_URGENT (h : Nat) : Fld := ⟨(Page.mk .snp h).base + 0x40, 0, 7⟩
/-- R546 -/
def Reg.SNP_HOLD_MAX (h : Nat) : Fld := ⟨(Page.mk .snp h).base + 0x44, 0, 32⟩
/-- R546 -/
def Reg.SNP_HELD_TOTAL (h : Nat) : Fld := ⟨(Page.mk .snp h).base + 0x48, 0, 32⟩
/-- R546 -/
def Reg.SNP_STATE_STATUS (h i : Nat) : Fld := ⟨(Page.mk .snp h).base + 0x100 + 0x20 * i, 24, 8⟩
/-- R546 -/
def Reg.SNP_STATE_SCOPE (h i : Nat) : Fld := ⟨(Page.mk .snp h).base + 0x100 + 0x20 * i, 16, 8⟩
/-- R546 -/
def Reg.SNP_STATE_STATE (h i : Nat) : Fld := ⟨(Page.mk .snp h).base + 0x100 + 0x20 * i, 0, 3⟩
/-- R546 -/
def Reg.SNP_STEP (h i : Nat) : Fld := ⟨(Page.mk .snp h).base + 0x104 + 0x20 * i, 0, 32⟩
/-- R546 -/
def Reg.SNP_DONE_GRAN (h i : Nat) : Fld := ⟨(Page.mk .snp h).base + 0x108 + 0x20 * i, 0, 32⟩
/-- R546 -/
def Reg.SNP_TOTAL_GRAN (h i : Nat) : Fld := ⟨(Page.mk .snp h).base + 0x10C + 0x20 * i, 0, 32⟩
/-- R546 -/
def Reg.SNP_REFS (h i : Nat) : Fld := ⟨(Page.mk .snp h).base + 0x110 + 0x20 * i, 0, 32⟩
/-- R546 -/
def Reg.SNP_HELD (h i : Nat) : Fld := ⟨(Page.mk .snp h).base + 0x114 + 0x20 * i, 0, 32⟩
/-- R546 -/
def Reg.SNP_WARN (h i : Nat) : Fld := ⟨(Page.mk .snp h).base + 0x118 + 0x20 * i, 0, 32⟩
/-- R568 -/
def Reg.PWR_DEV_WATTS (h : Nat) : Fld := ⟨(Page.mk .pwr h).base + 0x40, 16, 16⟩
/-- R568 -/
def Reg.PWR_DEV_EMERG (h : Nat) : Fld := ⟨(Page.mk .pwr h).base + 0x40, 0, 1⟩
/-- R568 -/
def Reg.PWR_LIMIT (h : Nat) : Fld := ⟨(Page.mk .pwr h).base + 0x44, 0, 16⟩
/-- R568 -/
def Reg.PWR_THERM_HBM_THROTTLE (h : Nat) : Fld := ⟨(Page.mk .pwr h).base + 0x48, 24, 8⟩
/-- R568 -/
def Reg.PWR_THERM_TREND_WINDOW (h : Nat) : Fld := ⟨(Page.mk .pwr h).base + 0x48, 16, 8⟩
/-- R568 -/
def Reg.PWR_THERM_TREND_DELTA (h : Nat) : Fld := ⟨(Page.mk .pwr h).base + 0x48, 8, 8⟩
/-- R568 -/
def Reg.PWR_THERM_T_THROTTLE (h : Nat) : Fld := ⟨(Page.mk .pwr h).base + 0x48, 0, 8⟩
/-- R568 -/
def Reg.PWR_HUB_TEMP (h : Nat) : Fld := ⟨(Page.mk .pwr h).base + 0x4C, 0, 16⟩
/-- R568 -/
def Reg.PWR_DROOP_MV (h : Nat) : Fld := ⟨(Page.mk .pwr h).base + 0x50, 0, 8⟩
/-- R568 -/
def Reg.PWR_DIE_REQ_POINT (h i : Nat) : Fld := ⟨(Page.mk .pwr h).base + 0x100 + 0x10 * i, 0, 3⟩
/-- R568 -/
def Reg.PWR_DIE_CLK_MHZ (h i : Nat) : Fld := ⟨(Page.mk .pwr h).base + 0x104 + 0x10 * i, 16, 16⟩
/-- R568 -/
def Reg.PWR_DIE_CLK_MV (h i : Nat) : Fld := ⟨(Page.mk .pwr h).base + 0x104 + 0x10 * i, 0, 16⟩
/-- R568 -/
def Reg.PWR_DIE_TEMP (h i : Nat) : Fld := ⟨(Page.mk .pwr h).base + 0x108 + 0x10 * i, 16, 16⟩
/-- R568 -/
def Reg.PWR_DIE_STAT_LIMIT_CAUSE (h i : Nat) : Fld := ⟨(Page.mk .pwr h).base + 0x108 + 0x10 * i, 4, 3⟩
/-- R568 -/
def Reg.PWR_DIE_STAT_POINT (h i : Nat) : Fld := ⟨(Page.mk .pwr h).base + 0x108 + 0x10 * i, 0, 3⟩
/-- R568 -/
def Reg.PWR_DIE_DROOP (h i : Nat) : Fld := ⟨(Page.mk .pwr h).base + 0x10C + 0x10 * i, 0, 32⟩
/-- R568 -/
def Reg.PWR_HBM_TEMP (h i : Nat) : Fld := ⟨(Page.mk .pwr h).base + 0x200 + 0x4 * i, 0, 16⟩
/-- R569 -/
def Reg.TEL_CFG_UDP_EN (h : Nat) : Fld := ⟨(Page.mk .tel h).base + 0x40, 17, 1⟩
/-- R569 -/
def Reg.TEL_CFG_RING_EN (h : Nat) : Fld := ⟨(Page.mk .tel h).base + 0x40, 16, 1⟩
/-- R569 -/
def Reg.TEL_CFG_PERIOD (h : Nat) : Fld := ⟨(Page.mk .tel h).base + 0x40, 0, 16⟩
/-- R569 -/
def Reg.TEL_RING_BASE_LO (h : Nat) : Fld := ⟨(Page.mk .tel h).base + 0x44, 12, 20⟩
/-- R569 -/
def Reg.TEL_RING_BASE_HI (h : Nat) : Fld := ⟨(Page.mk .tel h).base + 0x48, 0, 32⟩
/-- R569 -/
def Reg.TEL_RING_LOG2 (h : Nat) : Fld := ⟨(Page.mk .tel h).base + 0x4C, 0, 5⟩
/-- R569 -/
def Reg.TEL_RING_TAIL (h : Nat) : Fld := ⟨(Page.mk .tel h).base + 0x50, 0, 32⟩
/-- R569 -/
def Reg.TEL_RING_HEAD (h : Nat) : Fld := ⟨(Page.mk .tel h).base + 0x54, 0, 32⟩
/-- R569 -/
def Reg.TEL_LOST (h : Nat) : Fld := ⟨(Page.mk .tel h).base + 0x58, 0, 32⟩
/-- R569 -/
def Reg.TEL_PAIR_DOM_B (h : Nat) : Fld := ⟨(Page.mk .tel h).base + 0x5C, 16, 16⟩
/-- R569 -/
def Reg.TEL_PAIR_DOM_A (h : Nat) : Fld := ⟨(Page.mk .tel h).base + 0x5C, 0, 16⟩
/-- R569 -/
def Reg.TEL_PAIR_CTL_GO (h : Nat) : Fld := ⟨(Page.mk .tel h).base + 0x60, 0, 1⟩
/-- R569 -/
def Reg.TEL_PAIR_STAT_VALID (h : Nat) : Fld := ⟨(Page.mk .tel h).base + 0x64, 31, 1⟩
/-- R569 -/
def Reg.TEL_PAIR_STAT_STATUS (h : Nat) : Fld := ⟨(Page.mk .tel h).base + 0x64, 16, 8⟩
/-- R569 -/
def Reg.TEL_PAIR_STAT_SEQ (h : Nat) : Fld := ⟨(Page.mk .tel h).base + 0x64, 0, 16⟩
/-- R569 -/
def Reg.TEL_PAIR_COUNT_A_LO (h : Nat) : Fld := ⟨(Page.mk .tel h).base + 0x68, 0, 32⟩
/-- R569 -/
def Reg.TEL_PAIR_COUNT_A_HI (h : Nat) : Fld := ⟨(Page.mk .tel h).base + 0x6C, 0, 16⟩
/-- R569 -/
def Reg.TEL_PAIR_COUNT_B_LO (h : Nat) : Fld := ⟨(Page.mk .tel h).base + 0x70, 0, 32⟩
/-- R569 -/
def Reg.TEL_PAIR_COUNT_B_HI (h : Nat) : Fld := ⟨(Page.mk .tel h).base + 0x74, 0, 16⟩
/-- R569 -/
def Reg.TEL_UDP_SUBQ (h : Nat) : Fld := ⟨(Page.mk .tel h).base + 0x80, 0, 14⟩
/-- R569 -/
def Reg.TEL_UDP_PORTS_SPORT (h : Nat) : Fld := ⟨(Page.mk .tel h).base + 0x84, 16, 16⟩
/-- R569 -/
def Reg.TEL_UDP_PORTS_DPORT (h : Nat) : Fld := ⟨(Page.mk .tel h).base + 0x84, 0, 16⟩
/-- R569 -/
def Reg.TEL_UDP_DIP_W0 (h : Nat) : Fld := ⟨(Page.mk .tel h).base + 0x88, 0, 32⟩
/-- R569 -/
def Reg.TEL_UDP_DIP_W1 (h : Nat) : Fld := ⟨(Page.mk .tel h).base + 0x8C, 0, 32⟩
/-- R569 -/
def Reg.TEL_UDP_DIP_W2 (h : Nat) : Fld := ⟨(Page.mk .tel h).base + 0x90, 0, 32⟩
/-- R569 -/
def Reg.TEL_UDP_DIP_W3 (h : Nat) : Fld := ⟨(Page.mk .tel h).base + 0x94, 0, 32⟩
/-- R569 -/
def Reg.TEL_UDP_CFG_IPV6 (h : Nat) : Fld := ⟨(Page.mk .tel h).base + 0x98, 12, 1⟩
/-- R569 -/
def Reg.TEL_UDP_PARTS (h : Nat) : Fld := ⟨(Page.mk .tel h).base + 0x98, 0, 12⟩
/-- R569 -/
def Reg.TEL_UDP_DMAC_LO (h : Nat) : Fld := ⟨(Page.mk .tel h).base + 0x9C, 0, 32⟩
/-- R569 -/
def Reg.TEL_UDP_DMAC_HI (h : Nat) : Fld := ⟨(Page.mk .tel h).base + 0xA0, 0, 16⟩
/-- R569 -/
def Reg.TEL_P_ENERGY_LO (h i : Nat) : Fld := ⟨(Page.mk .tel h).base + 0x100 + 0x40 * i, 0, 32⟩
/-- R569 -/
def Reg.TEL_P_ENERGY_HI (h i : Nat) : Fld := ⟨(Page.mk .tel h).base + 0x104 + 0x40 * i, 0, 32⟩
/-- R569 -/
def Reg.TEL_P_OPS_LO (h i : Nat) : Fld := ⟨(Page.mk .tel h).base + 0x108 + 0x40 * i, 0, 32⟩
/-- R569 -/
def Reg.TEL_P_OPS_HI (h i : Nat) : Fld := ⟨(Page.mk .tel h).base + 0x10C + 0x40 * i, 0, 32⟩
/-- R569 -/
def Reg.TEL_P_LINES_LO (h i : Nat) : Fld := ⟨(Page.mk .tel h).base + 0x110 + 0x40 * i, 0, 32⟩
/-- R569 -/
def Reg.TEL_P_LINES_HI (h i : Nat) : Fld := ⟨(Page.mk .tel h).base + 0x114 + 0x40 * i, 0, 32⟩
/-- R569 -/
def Reg.TEL_P_TXBYTES_LO (h i : Nat) : Fld := ⟨(Page.mk .tel h).base + 0x118 + 0x40 * i, 0, 32⟩
/-- R569 -/
def Reg.TEL_P_TXBYTES_HI (h i : Nat) : Fld := ⟨(Page.mk .tel h).base + 0x11C + 0x40 * i, 0, 32⟩
/-- R569 -/
def Reg.TEL_P_MW (h i : Nat) : Fld := ⟨(Page.mk .tel h).base + 0x120 + 0x40 * i, 0, 32⟩
/-- R569 -/
def Reg.TEL_P_CAP_UNMET (h i : Nat) : Fld := ⟨(Page.mk .tel h).base + 0x124 + 0x40 * i, 8, 1⟩
/-- R569 -/
def Reg.TEL_P_CAP_DUTY (h i : Nat) : Fld := ⟨(Page.mk .tel h).base + 0x124 + 0x40 * i, 0, 5⟩
/-- R569 -/
def Reg.TEL_UNASSIGNED_LO (h : Nat) : Fld := ⟨(Page.mk .tel h).base + 0x400, 0, 32⟩
/-- R569 -/
def Reg.TEL_UNASSIGNED_HI (h : Nat) : Fld := ⟨(Page.mk .tel h).base + 0x404, 0, 32⟩
/-- R174 -/
def Reg.CLU_FW_BASE_LO (h : Nat) : Fld := ⟨(Page.mk .clu h).base + 0x80, 0, 32⟩
/-- R174 -/
def Reg.CLU_FW_BASE_HI (h : Nat) : Fld := ⟨(Page.mk .clu h).base + 0x84, 0, 16⟩
/-- R260 -/
def Reg.PFX_RING_CMD_BASE (h i : Nat) : Fld := ⟨(Page.mk .pfx h).base + 0x100 + 0x40 * i, 6, 20⟩
/-- R260 -/
def Reg.PFX_RING_CPL_BASE (h i : Nat) : Fld := ⟨(Page.mk .pfx h).base + 0x104 + 0x40 * i, 6, 20⟩
/-- R260 -/
def Reg.PFX_RING_CFG_EN (h i : Nat) : Fld := ⟨(Page.mk .pfx h).base + 0x108 + 0x40 * i, 31, 1⟩
/-- R260 -/
def Reg.PFX_RING_CFG_LOG2_SIZE (h i : Nat) : Fld := ⟨(Page.mk .pfx h).base + 0x108 + 0x40 * i, 16, 4⟩
/-- R260 -/
def Reg.PFX_RING_CFG_SUBMIT (h i : Nat) : Fld := ⟨(Page.mk .pfx h).base + 0x108 + 0x40 * i, 0, 15⟩
/-- R260 -/
def Reg.PFX_RING_DONE (h i : Nat) : Fld := ⟨(Page.mk .pfx h).base + 0x10C + 0x40 * i, 16, 15⟩
/-- R260 -/
def Reg.PFX_RING_CREDIT (h i : Nat) : Fld := ⟨(Page.mk .pfx h).base + 0x10C + 0x40 * i, 0, 15⟩
/-- R283 -/
def Reg.HUB_T2_SCRUB_EN (h i : Nat) : Fld := ⟨(Page.mk .hub h).base + 0x400 + 0x40 * i, 31, 1⟩
/-- R283 -/
def Reg.HUB_T2_SCRUB_INTERVAL (h i : Nat) : Fld := ⟨(Page.mk .hub h).base + 0x400 + 0x40 * i, 0, 24⟩
/-- R283 -/
def Reg.HUB_T2_TEST_WR_ARM (h : Nat) : Fld := ⟨(Page.mk .hub h).base + 0x800, 31, 1⟩
/-- R283 -/
def Reg.HUB_T2_TEST_RD_ARM (h : Nat) : Fld := ⟨(Page.mk .hub h).base + 0x800, 30, 1⟩
/-- R283 -/
def Reg.HUB_T2_TEST_HOLD (h : Nat) : Fld := ⟨(Page.mk .hub h).base + 0x800, 29, 1⟩
/-- R283 -/
def Reg.HUB_T2_TEST_RD_RESULT (h : Nat) : Fld := ⟨(Page.mk .hub h).base + 0x800, 0, 2⟩
/-- R283 -/
def Reg.HUB_T2_RETIRE_ADDR (h i : Nat) : Fld := ⟨(Page.mk .hub h).base + 0x900 + 0x8 * i, 0, 32⟩
/-- R283 -/
def Reg.HUB_T2_RETIRE_VALID (h i : Nat) : Fld := ⟨(Page.mk .hub h).base + 0x904 + 0x8 * i, 31, 1⟩
/-- R331 -/
def Reg.PART_SRAM_OWN_W (h i : Nat) : Fld := ⟨(Page.mk .hub h).base + 0xE80 + 0x4 * i, 0, 32⟩

end Sys2Proof.Machine
end

