-- ==== Sys2Proof/Machine/SMap.lean ====
section
/-! DEFINITION. Keyed collections in canonical form: a list of (key, value) pairs with strictly rising keys and no entry
equal to what an unlisted key holds, so that equal collections are equal lists. -/
namespace Sys2Proof.Machine

variable {α : Type}

/-- The value of a key; an unlisted key holds `d k`. -/
def SMap.get (d : Nat → α) : List (Nat × α) → Nat → α
  | [], k => d k
  | (j, v) :: m, k => if k = j then v else SMap.get d m k

/-- Removes a key. -/
def SMap.del (m : List (Nat × α)) (k : Nat) : List (Nat × α) := m.filter fun p => p.1 != k

/-- Puts a value at a key. -/
def SMap.ins : List (Nat × α) → Nat → α → List (Nat × α)
  | [], k, x => [(k, x)]
  | (j, v) :: m, k, x => if k = j then (k, x) :: m else if k < j then (k, x) :: (j, v) :: m else (j, v) :: SMap.ins m k x

/-- Sets a key; the value an unlisted key holds removes the entry. -/
def SMap.set [DecidableEq α] (d : Nat → α) (m : List (Nat × α)) (k : Nat) (x : α) : List (Nat × α) :=
  if x = d k then SMap.del m k else SMap.ins m k x

/-- The collection with the values of f on 0 .. n - 1 and no others. -/
def SMap.ofFn [DecidableEq α] (d : Nat → α) (n : Nat) (f : Nat → α) : List (Nat × α) :=
  (List.range n).filterMap fun k => if f k = d k then none else some (k, f k)

/-- Changes every listed value; an entry that becomes what its key holds unlisted is removed. -/
def SMap.mapVals [DecidableEq α] (d : Nat → α) (f : Nat → α → α) (m : List (Nat × α)) : List (Nat × α) :=
  m.filterMap fun p => if f p.1 p.2 = d p.1 then none else some (p.1, f p.1 p.2)

/-- Keeps the entries whose key passes the test. -/
def SMap.keep (f : Nat → Bool) (m : List (Nat × α)) : List (Nat × α) := m.filter fun p => f p.1

/-- Keys strictly rising. -/
def SMap.rising : List (Nat × α) → Bool
  | a :: b :: m => decide (a.1 < b.1) && SMap.rising (b :: m)
  | _ => true

/-- The canonical form. -/
def SMap.wf [DecidableEq α] (d : Nat → α) (m : List (Nat × α)) : Bool :=
  SMap.rising m && m.all fun p => decide (p.2 ≠ d p.1)

end Sys2Proof.Machine
end

