-- ==== Sys2Proof/Machine/Access.lean ====
section
/-! DEFINITION. Reading and writing one entry of each keyed collection of State; an unlisted key holds the entry's value
after reset. -/
namespace Sys2Proof.Machine

/-- Regions written whole with zeros by MEM_FILL since their last poisoning: HBM unit u, 80 + tier-2 unit, 112 + gc pool, 272 + data memory slot, 3152 + instruction store slot, 6032 + 256 hub + granule of hub SRAM: one entry. -/
def State.filledRegion (s : State) (k : Nat) : Bool := SMap.get (fun _ => false) s.filled k
def State.setFilledRegion (s : State) (k : Nat) (x : Bool) : State :=
  { s with filled := SMap.set (fun _ => false) s.filled k x }
def State.modFilledRegion (s : State) (k : Nat) (f : Bool → Bool) : State := s.setFilledRegion k (f (s.filledRegion k))

/-- Lines stored with check bytes other than computed ones: the difference, byte i for check byte 64 + i: one entry. -/
def State.chkOf (s : State) (k : Nat) : BitVec 64 := SMap.get (fun _ => 0#64) s.chk k
def State.setChkOf (s : State) (k : Nat) (x : BitVec 64) : State :=
  { s with chk := SMap.set (fun _ => 0#64) s.chk k x }
def State.modChkOf (s : State) (k : Nat) (f : BitVec 64 → BitVec 64) : State := s.setChkOf k (f (s.chkOf k))

/-- Tier-2 lines stored by an armed write, as given: one entry. -/
def State.rawLine (s : State) (k : Nat) : Option (BitVec 512) := SMap.get (fun _ => none) s.raws k
def State.setRawLine (s : State) (k : Nat) (x : Option (BitVec 512)) : State :=
  { s with raws := SMap.set (fun _ => none) s.raws k x }
def State.modRawLine (s : State) (k : Nat) (f : Option (BitVec 512) → Option (BitVec 512)) : State := s.setRawLine k (f (s.rawLine k))

/-- Line-cipher keys of the tier-2 units: one entry. -/
def State.t2key (s : State) (k : Nat) : BitVec 256 := SMap.get (fun _ => 0#256) s.t2keys k
def State.setT2key (s : State) (k : Nat) (x : BitVec 256) : State :=
  { s with t2keys := SMap.set (fun _ => 0#256) s.t2keys k x }
def State.modT2key (s : State) (k : Nat) (f : BitVec 256 → BitVec 256) : State := s.setT2key k (f (s.t2key k))

/-- Core slots, gc * 18 + slot: one entry. -/
def State.core (s : State) (k : Nat) : Core := SMap.get (fun _ => Core.reset) s.cores k
def State.setCore (s : State) (k : Nat) (x : Core) : State :=
  { s with cores := SMap.set (fun _ => Core.reset) s.cores k x }
def State.modCore (s : State) (k : Nat) (f : Core → Core) : State := s.setCore k (f (s.core k))

/-- Clusters: one entry. -/
def State.cluster (s : State) (k : Nat) : Cluster := SMap.get (fun _ => Cluster.reset) s.clusters k
def State.setCluster (s : State) (k : Nat) (x : Cluster) : State :=
  { s with clusters := SMap.set (fun _ => Cluster.reset) s.clusters k x }
def State.modCluster (s : State) (k : Nat) (f : Cluster → Cluster) : State := s.setCluster k (f (s.cluster k))

/-- Beacon values by id: one entry. -/
def State.beacon (s : State) (k : Nat) : BitVec 32 := SMap.get (fun _ => 0#32) s.beacons k
def State.setBeacon (s : State) (k : Nat) (x : BitVec 32) : State :=
  { s with beacons := SMap.set (fun _ => 0#32) s.beacons k x }
def State.modBeacon (s : State) (k : Nat) (f : BitVec 32 → BitVec 32) : State := s.setBeacon k (f (s.beacon k))

/-- Hub engines' pending-signal tables, (hub * 16 + engine) * 32768 + id: one entry. -/
def State.hubSum (s : State) (k : Nat) : BitVec 32 := SMap.get (fun _ => 0#32) s.hubTable k
def State.setHubSum (s : State) (k : Nat) (x : BitVec 32) : State :=
  { s with hubTable := SMap.set (fun _ => 0#32) s.hubTable k x }
def State.modHubSum (s : State) (k : Nat) (f : BitVec 32 → BitVec 32) : State := s.setHubSum k (f (s.hubSum k))

/-- Work distributors: one entry. -/
def State.disOf (s : State) (k : Nat) : Dis := SMap.get (fun _ => Dis.reset) s.dis k
def State.setDisOf (s : State) (k : Nat) (x : Dis) : State :=
  { s with dis := SMap.set (fun _ => Dis.reset) s.dis k x }
def State.modDisOf (s : State) (k : Nat) (f : Dis → Dis) : State := s.setDisOf k (f (s.disOf k))

/-- Mover rings by partition: one entry. -/
def State.movRing (s : State) (k : Nat) : Ring := SMap.get (fun _ => Ring.reset) s.mov k
def State.setMovRing (s : State) (k : Nat) (x : Ring) : State :=
  { s with mov := SMap.set (fun _ => Ring.reset) s.mov k x }
def State.modMovRing (s : State) (k : Nat) (f : Ring → Ring) : State := s.setMovRing k (f (s.movRing k))

/-- Prefix-index rings by partition: one entry. -/
def State.pfxRing (s : State) (k : Nat) : Ring := SMap.get (fun _ => Ring.reset) s.pfx k
def State.setPfxRing (s : State) (k : Nat) (x : Ring) : State :=
  { s with pfx := SMap.set (fun _ => Ring.reset) s.pfx k x }
def State.modPfxRing (s : State) (k : Nat) (f : Ring → Ring) : State := s.setPfxRing k (f (s.pfxRing k))

/-- Answers to watches, (hub * 16 + engine) * 65536 + tag: one entry. -/
def State.doorbellOf (s : State) (k : Nat) : BitVec 16 := SMap.get (fun _ => 0#16) s.doorbells k
def State.setDoorbellOf (s : State) (k : Nat) (x : BitVec 16) : State :=
  { s with doorbells := SMap.set (fun _ => 0#16) s.doorbells k x }
def State.turnOf (s : State) (k : Nat) : Turn := SMap.get (fun _ => Turn.reset) s.turns k
def State.setTurnOf (s : State) (k : Nat) (x : Turn) : State :=
  { s with turns := SMap.set (fun _ => Turn.reset) s.turns k x }
def State.answered (s : State) (k : Nat) : Option WatchAnswer := SMap.get (fun _ => none) s.answers k
def State.setAnswered (s : State) (k : Nat) (x : Option WatchAnswer) : State :=
  { s with answers := SMap.set (fun _ => none) s.answers k x }

/-- Correction filters by array: stack s, 32 + tier-2 unit, 64 + gc of a pool, 256 + hub, 1,000 + slot of a data memory, 5,000 + slot of an instruction store: one entry. -/
def State.filterOf (s : State) (k : Nat) : Filter := SMap.get (fun _ => Filter.reset) s.filters k
def State.setFilterOf (s : State) (k : Nat) (x : Filter) : State :=
  { s with filters := SMap.set (fun _ => Filter.reset) s.filters k x }
def State.modFilterOf (s : State) (k : Nat) (f : Filter → Filter) : State := s.setFilterOf k (f (s.filterOf k))

/-- Patrol history, keyed as filters: one entry. -/
def State.patrol (s : State) (k : Nat) : Patrol := SMap.get (fun _ => Patrol.reset) s.patrols k
def State.setPatrol (s : State) (k : Nat) (x : Patrol) : State :=
  { s with patrols := SMap.set (fun _ => Patrol.reset) s.patrols k x }
def State.modPatrol (s : State) (k : Nat) (f : Patrol → Patrol) : State := s.setPatrol k (f (s.patrol k))

/-- SRAM patrol positions, keyed as filters: one entry. -/
def State.sramPosOf (s : State) (k : Nat) : Nat := SMap.get (fun _ => 0) s.sramPos k
def State.setSramPosOf (s : State) (k : Nat) (x : Nat) : State :=
  { s with sramPos := SMap.set (fun _ => 0) s.sramPos k x }
def State.modSramPosOf (s : State) (k : Nat) (f : Nat → Nat) : State := s.setSramPosOf k (f (s.sramPosOf k))

/-- Partitions: one entry. -/
def State.part (s : State) (k : Nat) : Part := SMap.get (fun _ => Part.reset) s.parts k
def State.setPart (s : State) (k : Nat) (x : Part) : State :=
  { s with parts := SMap.set (fun _ => Part.reset) s.parts k x }
def State.modPart (s : State) (k : Nat) (f : Part → Part) : State := s.setPart k (f (s.part k))

/-- Slices: one entry. -/
def State.slice (s : State) (k : Nat) : Option Slice := SMap.get (fun _ => none) s.slices k
def State.setSlice (s : State) (k : Nat) (x : Option Slice) : State :=
  { s with slices := SMap.set (fun _ => none) s.slices k x }
def State.modSlice (s : State) (k : Nat) (f : Option Slice → Option Slice) : State := s.setSlice k (f (s.slice k))

/-- Host links: one entry. -/
def State.link (s : State) (k : Nat) : Link := SMap.get (fun _ => Link.reset) s.links k
def State.setLink (s : State) (k : Nat) (x : Link) : State :=
  { s with links := SMap.set (fun _ => Link.reset) s.links k x }
def State.modLink (s : State) (k : Nat) (f : Link → Link) : State := s.setLink k (f (s.link k))

/-- Job queues: one entry. -/
def State.jobq (s : State) (k : Nat) : Option JobQ := SMap.get (fun _ => none) s.jobqs k
def State.setJobq (s : State) (k : Nat) (x : Option JobQ) : State :=
  { s with jobqs := SMap.set (fun _ => none) s.jobqs k x }
def State.modJobq (s : State) (k : Nat) (f : Option JobQ → Option JobQ) : State := s.setJobq k (f (s.jobq k))

/-- Classifiers: one entry. -/
def State.clsOf (s : State) (k : Nat) : Cls := SMap.get (fun _ => Cls.reset) s.cls k
def State.setClsOf (s : State) (k : Nat) (x : Cls) : State :=
  { s with cls := SMap.set (fun _ => Cls.reset) s.cls k x }
def State.modClsOf (s : State) (k : Nat) (f : Cls → Cls) : State := s.setClsOf k (f (s.clsOf k))

/-- Ethernet ports: one entry. -/
def State.port (s : State) (k : Nat) : Port := SMap.get (fun _ => Port.reset) s.ports k
def State.setPort (s : State) (k : Nat) (x : Port) : State :=
  { s with ports := SMap.set (fun _ => Port.reset) s.ports k x }
def State.modPort (s : State) (k : Nat) (f : Port → Port) : State := s.setPort k (f (s.port k))

/-- Egress lanes: one entry. -/
def State.lane (s : State) (k : Nat) : Lane := SMap.get (fun _ => Lane.reset) s.lanes k
def State.setLane (s : State) (k : Nat) (x : Lane) : State :=
  { s with lanes := SMap.set (fun _ => Lane.reset) s.lanes k x }
def State.modLane (s : State) (k : Nat) (f : Lane → Lane) : State := s.setLane k (f (s.lane k))

/-- Service nodes: one entry. -/
def State.node (s : State) (k : Nat) : Node := SMap.get (fun _ => Node.reset) s.nodes k
def State.setNode (s : State) (k : Nat) (x : Node) : State :=
  { s with nodes := SMap.set (fun _ => Node.reset) s.nodes k x }
def State.modNode (s : State) (k : Nat) (f : Node → Node) : State := s.setNode k (f (s.node k))

/-- Network queue pairs: one entry. -/
def State.nicqp (s : State) (k : Nat) : Option NicQp := SMap.get (fun _ => none) s.nicqps k
def State.setNicqp (s : State) (k : Nat) (x : Option NicQp) : State :=
  { s with nicqps := SMap.set (fun _ => none) s.nicqps k x }
def State.modNicqp (s : State) (k : Nat) (f : Option NicQp → Option NicQp) : State := s.setNicqp k (f (s.nicqp k))

/-- Security associations: one entry. -/
def State.sa (s : State) (k : Nat) : Option Sa := SMap.get (fun _ => none) s.sas k
def State.setSa (s : State) (k : Nat) (x : Option Sa) : State :=
  { s with sas := SMap.set (fun _ => none) s.sas k x }
def State.modSa (s : State) (k : Nat) (f : Option Sa → Option Sa) : State := s.setSa k (f (s.sa k))

/-- SDT connections: one entry. -/
def State.conn (s : State) (k : Nat) : Conn := SMap.get (fun _ => Conn.reset) s.conns k
def State.setConn (s : State) (k : Nat) (x : Conn) : State :=
  { s with conns := SMap.set (fun _ => Conn.reset) s.conns k x }
def State.modConn (s : State) (k : Nat) (f : Conn → Conn) : State := s.setConn k (f (s.conn k))

/-- Space keys: one entry. -/
def State.skey (s : State) (k : Nat) : Option SpaceKey := SMap.get (fun _ => none) s.skeys k
def State.setSkey (s : State) (k : Nat) (x : Option SpaceKey) : State :=
  { s with skeys := SMap.set (fun _ => none) s.skeys k x }
def State.modSkey (s : State) (k : Nat) (f : Option SpaceKey → Option SpaceKey) : State := s.setSkey k (f (s.skey k))

/-- NVMe controllers: one entry. -/
def State.nvme (s : State) (k : Nat) : Nvme := SMap.get (fun _ => Nvme.reset) s.nvmes k
def State.setNvme (s : State) (k : Nat) (x : Nvme) : State :=
  { s with nvmes := SMap.set (fun _ => Nvme.reset) s.nvmes k x }
def State.modNvme (s : State) (k : Nat) (f : Nvme → Nvme) : State := s.setNvme k (f (s.nvme k))

/-- Namespaces: one entry. -/
def State.ns (s : State) (k : Nat) : Option Ns := SMap.get (fun _ => none) s.nss k
def State.setNs (s : State) (k : Nat) (x : Option Ns) : State :=
  { s with nss := SMap.set (fun _ => none) s.nss k x }
def State.modNs (s : State) (k : Nat) (f : Option Ns → Option Ns) : State := s.setNs k (f (s.ns k))

/-- SSD slots: one entry. -/
def State.slot (s : State) (k : Nat) : Slot := SMap.get (fun _ => Slot.reset) s.slots k
def State.setSlot (s : State) (k : Nat) (x : Slot) : State :=
  { s with slots := SMap.set (fun _ => Slot.reset) s.slots k x }
def State.modSlot (s : State) (k : Nat) (f : Slot → Slot) : State := s.setSlot k (f (s.slot k))

/-- Key slots: one entry. -/
def State.key (s : State) (k : Nat) : Option KeySlot := SMap.get (fun _ => none) s.keys k
def State.setKey (s : State) (k : Nat) (x : Option KeySlot) : State :=
  { s with keys := SMap.set (fun _ => none) s.keys k x }
def State.modKey (s : State) (k : Nat) (f : Option KeySlot → Option KeySlot) : State := s.setKey k (f (s.key k))

/-- Cipher engines: one entry. -/
def State.cphOf (s : State) (k : Nat) : Cph := SMap.get (fun _ => Cph.reset) s.cph k
def State.setCphOf (s : State) (k : Nat) (x : Cph) : State :=
  { s with cph := SMap.set (fun _ => Cph.reset) s.cph k x }
def State.modCphOf (s : State) (k : Nat) (f : Cph → Cph) : State := s.setCphOf k (f (s.cphOf k))

/-- Mailbox pages: one entry. -/
def State.mbx (s : State) (k : Nat) : Mbx := SMap.get (fun _ => Mbx.reset) s.mbxs k
def State.setMbx (s : State) (k : Nat) (x : Mbx) : State :=
  { s with mbxs := SMap.set (fun _ => Mbx.reset) s.mbxs k x }
def State.modMbx (s : State) (k : Nat) (f : Mbx → Mbx) : State := s.setMbx k (f (s.mbx k))

/-- Firmware processors: one entry. -/
def State.fwp (s : State) (k : Nat) : Fwp := SMap.get (fun _ => Fwp.reset) s.fwps k
def State.setFwp (s : State) (k : Nat) (x : Fwp) : State :=
  { s with fwps := SMap.set (fun _ => Fwp.reset) s.fwps k x }
def State.modFwp (s : State) (k : Nat) (f : Fwp → Fwp) : State := s.setFwp k (f (s.fwp k))

/-- Image slots 0 A, 1 B: one entry. -/
def State.fwslot (s : State) (k : Nat) : FwSlot := SMap.get (fun _ => FwSlot.reset) s.fwslots k
def State.setFwslot (s : State) (k : Nat) (x : FwSlot) : State :=
  { s with fwslots := SMap.set (fun _ => FwSlot.reset) s.fwslots k x }
def State.modFwslot (s : State) (k : Nat) (f : FwSlot → FwSlot) : State := s.setFwslot k (f (s.fwslot k))

/-- Commands being served: mailbox page and opcode: one entry. -/
def State.journalAt (s : State) (k : Nat) : BitVec 16 := SMap.get (fun _ => 0#16) s.journal k
def State.setJournalAt (s : State) (k : Nat) (x : BitVec 16) : State :=
  { s with journal := SMap.set (fun _ => 0#16) s.journal k x }
def State.modJournalAt (s : State) (k : Nat) (f : BitVec 16 → BitVec 16) : State := s.setJournalAt k (f (s.journalAt k))

/-- Driver loss of links 0-1: one entry. -/
def State.lossOf (s : State) (k : Nat) : LossState := SMap.get (fun _ => LossState.reset) s.loss k
def State.setLossOf (s : State) (k : Nat) (x : LossState) : State :=
  { s with loss := SMap.set (fun _ => LossState.reset) s.loss k x }
def State.modLossOf (s : State) (k : Nat) (f : LossState → LossState) : State := s.setLossOf k (f (s.lossOf k))

/-- Lantern by partition: one entry. -/
def State.snap (s : State) (k : Nat) : Snap := SMap.get (fun _ => Snap.reset) s.snaps k
def State.setSnap (s : State) (k : Nat) (x : Snap) : State :=
  { s with snaps := SMap.set (fun _ => Snap.reset) s.snaps k x }
def State.modSnap (s : State) (k : Nat) (f : Snap → Snap) : State := s.setSnap k (f (s.snap k))

/-- Telemetry by hub: one entry. -/
def State.tel (s : State) (k : Nat) : Tel := SMap.get (fun _ => Tel.reset) s.tels k
def State.setTel (s : State) (k : Nat) (x : Tel) : State :=
  { s with tels := SMap.set (fun _ => Tel.reset) s.tels k x }
def State.modTel (s : State) (k : Nat) (f : Tel → Tel) : State := s.setTel k (f (s.tel k))

/-- Domain counts by id: one entry. -/
def State.clockOf (s : State) (k : Nat) : BitVec 48 := SMap.get (fun _ => 0#48) s.clocks k
def State.setClockOf (s : State) (k : Nat) (x : BitVec 48) : State :=
  { s with clocks := SMap.set (fun _ => 0#48) s.clocks k x }
def State.modClockOf (s : State) (k : Nat) (f : BitVec 48 → BitVec 48) : State := s.setClockOf k (f (s.clockOf k))

def Tile.getP (x : Tile) (k : Nat) : BitVec 48 := SMap.get (fun _ => 0#48) x.p k
def Tile.setP (x : Tile) (k : Nat) (v : BitVec 48) : Tile := { x with p := SMap.set (fun _ => 0#48) x.p k v }

def Tile.getQ (x : Tile) (k : Nat) : BitVec 48 := SMap.get (fun _ => 0#48) x.q k
def Tile.setQ (x : Tile) (k : Nat) (v : BitVec 48) : Tile := { x with q := SMap.set (fun _ => 0#48) x.q k v }

def Tile.getC (x : Tile) (k : Nat) : BitVec 32 := SMap.get (fun _ => 0#32) x.c k
def Tile.setC (x : Tile) (k : Nat) (v : BitVec 32) : Tile := { x with c := SMap.set (fun _ => 0#32) x.c k v }

def XRun.getEarly (x : XRun) (k : Nat) : Nat := SMap.get (fun _ => 0) x.early k
def XRun.setEarly (x : XRun) (k : Nat) (v : Nat) : XRun := { x with early := SMap.set (fun _ => 0) x.early k v }

def Core.getSreg (x : Core) (k : Nat) : BitVec 16 := SMap.get (fun _ => 0#16) x.sreg k
def Core.setSreg (x : Core) (k : Nat) (v : BitVec 16) : Core := { x with sreg := SMap.set (fun _ => 0#16) x.sreg k v }

def Core.getVreg (x : Core) (k : Nat) : VReg := SMap.get (fun _ => VReg.reset) x.vreg k
def Core.setVreg (x : Core) (k : Nat) (v : VReg) : Core := { x with vreg := SMap.set (fun _ => VReg.reset) x.vreg k v }

def Core.getChan (x : Core) (k : Nat) : Chan := SMap.get (fun _ => Chan.reset) x.chan k
def Core.setChan (x : Core) (k : Nat) (v : Chan) : Core := { x with chan := SMap.set (fun _ => Chan.reset) x.chan k v }

def Cluster.getWaiting (x : Cluster) (k : Nat) : Nat := SMap.get (fun _ => 0) x.waiting k
def Cluster.setWaiting (x : Cluster) (k : Nat) (v : Nat) : Cluster := { x with waiting := SMap.set (fun _ => 0) x.waiting k v }

def Cluster.getTable (x : Cluster) (k : Nat) : BitVec 32 := SMap.get (fun _ => 0#32) x.table k
def Cluster.setTable (x : Cluster) (k : Nat) (v : BitVec 32) : Cluster := { x with table := SMap.set (fun _ => 0#32) x.table k v }

def Dis.getHeld (x : Dis) (k : Nat) : List Desc := SMap.get (fun _ => []) x.held k
def Dis.setHeld (x : Dis) (k : Nat) (v : List Desc) : Dis := { x with held := SMap.set (fun _ => []) x.held k v }

def Dis.getCredit (x : Dis) (k : Nat) : Nat := SMap.get (fun _ => 64) x.credit k
def Dis.setCredit (x : Dis) (k : Nat) (v : Nat) : Dis := { x with credit := SMap.set (fun _ => 64) x.credit k v }

def Dis.getBad (x : Dis) (k : Nat) : Bool := SMap.get (fun _ => false) x.bad k
def Dis.setBad (x : Dis) (k : Nat) (v : Bool) : Dis := { x with bad := SMap.set (fun _ => false) x.bad k v }

def Dis.getRr (x : Dis) (k : Nat) : Nat := SMap.get (fun _ => 0) x.rr k
def Dis.setRr (x : Dis) (k : Nat) (v : Nat) : Dis := { x with rr := SMap.set (fun _ => 0) x.rr k v }

def Slice.getBits (x : Slice) (k : Nat) : Bool := SMap.get (fun _ => false) x.bits k
def Slice.setBits (x : Slice) (k : Nat) (v : Bool) : Slice := { x with bits := SMap.set (fun _ => false) x.bits k v }

def Fn.getMask (x : Fn) (k : Nat) : Bool := SMap.get (fun _ => true) x.mask k
def Fn.setMask (x : Fn) (k : Nat) (v : Bool) : Fn := { x with mask := SMap.set (fun _ => true) x.mask k v }

def Fn.getTable (x : Fn) (k : Nat) : BitVec 32 := SMap.get (fun _ => 0#32) x.table k
def Fn.setTable (x : Fn) (k : Nat) (v : BitVec 32) : Fn := { x with table := SMap.set (fun _ => 0#32) x.table k v }

def Fn.getPba (x : Fn) (k : Nat) : Bool := SMap.get (fun _ => false) x.pba k
def Fn.setPba (x : Fn) (k : Nat) (v : Bool) : Fn := { x with pba := SMap.set (fun _ => false) x.pba k v }

def Link.getFns (x : Link) (k : Nat) : Fn := SMap.get (fun _ => Fn.reset) x.fns k
def Link.setFns (x : Link) (k : Nat) (v : Fn) : Link := { x with fns := SMap.set (fun _ => Fn.reset) x.fns k v }

def Link.getBar2Log2 (x : Link) (k : Nat) : Nat := SMap.get (fun _ => 36) x.bar2Log2 k
def Link.setBar2Log2 (x : Link) (k : Nat) (v : Nat) : Link := { x with bar2Log2 := SMap.set (fun _ => 36) x.bar2Log2 k v }

def Link.getAts (x : Link) (k : Nat) : BitVec 64 := SMap.get (fun _ => 0#64) x.ats k
def Link.setAts (x : Link) (k : Nat) (v : BitVec 64) : Link := { x with ats := SMap.set (fun _ => 0#64) x.ats k v }

def Port.getGclDur (x : Port) (k : Nat) : Nat := SMap.get (fun _ => 0) x.gclDur k
def Port.setGclDur (x : Port) (k : Nat) (v : Nat) : Port := { x with gclDur := SMap.set (fun _ => 0) x.gclDur k v }

def Port.getGclOpen (x : Port) (k : Nat) : BitVec 64 := SMap.get (fun _ => 0#64) x.gclOpen k
def Port.setGclOpen (x : Port) (k : Nat) (v : BitVec 64) : Port := { x with gclOpen := SMap.set (fun _ => 0#64) x.gclOpen k v }

def RMsg.getBits (x : RMsg) (k : Nat) : Bool := SMap.get (fun _ => false) x.bits k
def RMsg.setBits (x : RMsg) (k : Nat) (v : Bool) : RMsg := { x with bits := SMap.set (fun _ => false) x.bits k v }

def Conn.getPaths (x : Conn) (k : Nat) : SPath := SMap.get (fun _ => SPath.reset) x.paths k
def Conn.setPaths (x : Conn) (k : Nat) (v : SPath) : Conn := { x with paths := SMap.set (fun _ => SPath.reset) x.paths k v }

def Conn.getCtl (x : Conn) (k : Nat) : List (BitVec 8) := SMap.get (fun _ => []) x.ctl k
def Conn.setCtl (x : Conn) (k : Nat) (v : List (BitVec 8)) : Conn := { x with ctl := SMap.set (fun _ => []) x.ctl k v }

def NvCmd.getRanges (x : NvCmd) (k : Nat) : Nat := SMap.get (fun _ => 0) x.ranges k
def NvCmd.setRanges (x : NvCmd) (k : Nat) (v : Nat) : NvCmd := { x with ranges := SMap.set (fun _ => 0) x.ranges k v }

def NvCmd.getMembers (x : NvCmd) (k : Nat) : Nat := SMap.get (fun _ => 0) x.members k
def NvCmd.setMembers (x : NvCmd) (k : Nat) (v : Nat) : NvCmd := { x with members := SMap.set (fun _ => 0) x.members k v }

def NvCmd.getFails (x : NvCmd) (k : Nat) : BitVec 16 := SMap.get (fun _ => 0#16) x.fails k
def NvCmd.setFails (x : NvCmd) (k : Nat) (v : BitVec 16) : NvCmd := { x with fails := SMap.set (fun _ => 0#16) x.fails k v }

def Nvme.getSqs (x : Nvme) (k : Nat) : NvQ := SMap.get (fun _ => NvQ.reset) x.sqs k
def Nvme.setSqs (x : Nvme) (k : Nat) (v : NvQ) : Nvme := { x with sqs := SMap.set (fun _ => NvQ.reset) x.sqs k v }

def Nvme.getCqs (x : Nvme) (k : Nat) : NvQ := SMap.get (fun _ => NvQ.reset) x.cqs k
def Nvme.setCqs (x : Nvme) (k : Nat) (v : NvQ) : Nvme := { x with cqs := SMap.set (fun _ => NvQ.reset) x.cqs k v }

def Nvme.getBind (x : Nvme) (k : Nat) : Nat := SMap.get (fun _ => 0) x.bind k
def Nvme.setBind (x : Nvme) (k : Nat) (v : Nat) : Nvme := { x with bind := SMap.set (fun _ => 0) x.bind k v }

def Nvme.getMasks (x : Nvme) (k : Nat) : BitVec 1024 := SMap.get (fun _ => BitVec.allOnes 1024) x.masks k
def Nvme.setMasks (x : Nvme) (k : Nat) (v : BitVec 1024) : Nvme := { x with masks := SMap.set (fun _ => BitVec.allOnes 1024) x.masks k v }

def Nvme.getFeats (x : Nvme) (k : Nat) : BitVec 32 := SMap.get featReset x.feats k
def Nvme.setFeats (x : Nvme) (k : Nat) (v : BitVec 32) : Nvme := { x with feats := SMap.set featReset x.feats k v }

def Cph.getBusy (x : Cph) (k : Nat) : Nat := SMap.get (fun _ => 0) x.busy k
def Cph.setBusy (x : Cph) (k : Nat) (v : Nat) : Cph := { x with busy := SMap.set (fun _ => 0) x.busy k v }

def Cph.getParity (x : Cph) (k : Nat) : List Nat := SMap.get (fun _ => []) x.parity k
def Cph.setParity (x : Cph) (k : Nat) (v : List Nat) : Cph := { x with parity := SMap.set (fun _ => []) x.parity k v }

def Sec.getSpdm (x : Sec) (k : Nat) : BitVec 3 := SMap.get (fun _ => 0#3) x.spdm k
def Sec.setSpdm (x : Sec) (k : Nat) (v : BitVec 3) : Sec := { x with spdm := SMap.set (fun _ => 0#3) x.spdm k v }

def Sec.getMeasure (x : Sec) (k : Nat) : List (BitVec 8) := SMap.get (fun _ => []) x.measure k
def Sec.setMeasure (x : Sec) (k : Nat) (v : List (BitVec 8)) : Sec := { x with measure := SMap.set (fun _ => []) x.measure k v }

def Sec.getSvns (x : Sec) (k : Nat) : BitVec 32 := SMap.get (fun _ => 0#32) x.svns k
def Sec.setSvns (x : Sec) (k : Nat) (v : BitVec 32) : Sec := { x with svns := SMap.set (fun _ => 0#32) x.svns k v }

def Sec.getIdeKeys (x : Sec) (k : Nat) : BitVec 2 := SMap.get (fun _ => 0#2) x.ideKeys k
def Sec.setIdeKeys (x : Sec) (k : Nat) (v : BitVec 2) : Sec := { x with ideKeys := SMap.set (fun _ => 0#2) x.ideKeys k v }

def Fwp.getTrace (x : Fwp) (k : Nat) : Bool := SMap.get (fun _ => false) x.trace k
def Fwp.setTrace (x : Fwp) (k : Nat) (v : Bool) : Fwp := { x with trace := SMap.set (fun _ => false) x.trace k v }

def Record.getMaps (x : Record) (k : Nat) : Nat := SMap.get (fun _ => 0) x.maps k
def Record.setMaps (x : Record) (k : Nat) (v : Nat) : Record := { x with maps := SMap.set (fun _ => 0) x.maps k v }

def Record.getD2d (x : Record) (k : Nat) : BitVec 32 := SMap.get (fun _ => 0#32) x.d2d k
def Record.setD2d (x : Record) (k : Nat) (v : BitVec 32) : Record := { x with d2d := SMap.set (fun _ => 0#32) x.d2d k v }

def Record.getMemUnits (x : Record) (k : Nat) : Bool := SMap.get (fun _ => false) x.memUnits k
def Record.setMemUnits (x : Record) (k : Nat) (v : Bool) : Record := { x with memUnits := SMap.set (fun _ => false) x.memUnits k v }

def Bru.getResult (x : Bru) (k : Nat) : BitVec 8 := SMap.get (fun _ => 0#8) x.result k
def Bru.setResult (x : Bru) (k : Nat) (v : BitVec 8) : Bru := { x with result := SMap.set (fun _ => 0#8) x.result k v }

def DieP.getTemps (x : DieP) (k : Nat) : BitVec 16 := SMap.get (fun _ => 0x8000#16) x.temps k
def DieP.setTemps (x : DieP) (k : Nat) (v : BitVec 16) : DieP := { x with temps := SMap.set (fun _ => 0x8000#16) x.temps k v }

def DieP.getHistory (x : DieP) (k : Nat) : Int := SMap.get (fun _ => 0) x.history k
def DieP.setHistory (x : DieP) (k : Nat) (v : Int) : DieP := { x with history := SMap.set (fun _ => 0) x.history k v }

def Pwr.getDies (x : Pwr) (k : Nat) : DieP := SMap.get (fun _ => DieP.reset) x.dies k
def Pwr.setDies (x : Pwr) (k : Nat) (v : DieP) : Pwr := { x with dies := SMap.set (fun _ => DieP.reset) x.dies k v }

def Pwr.getScale (x : Pwr) (k : Nat) : Nat := SMap.get (fun _ => 1024) x.scale k
def Pwr.setScale (x : Pwr) (k : Nat) (v : Nat) : Pwr := { x with scale := SMap.set (fun _ => 1024) x.scale k v }

def Pwr.getStatics (x : Pwr) (k : Nat) : Nat := SMap.get (fun _ => 0) x.statics k
def Pwr.setStatics (x : Pwr) (k : Nat) (v : Nat) : Pwr := { x with statics := SMap.set (fun _ => 0) x.statics k v }

def Pwr.getHubTemps (x : Pwr) (k : Nat) : BitVec 16 := SMap.get (fun _ => 0x8000#16) x.hubTemps k
def Pwr.setHubTemps (x : Pwr) (k : Nat) (v : BitVec 16) : Pwr := { x with hubTemps := SMap.set (fun _ => 0x8000#16) x.hubTemps k v }

def Pwr.getDieMw (x : Pwr) (k : Nat) : Nat := SMap.get (fun _ => 0) x.dieMw k
def Pwr.setDieMw (x : Pwr) (k : Nat) (v : Nat) : Pwr := { x with dieMw := SMap.set (fun _ => 0) x.dieMw k v }

def Patrol.getLastSweep (x : Patrol) (k : Nat) : Nat := SMap.get (fun _ => 0) x.lastSweep k
def Patrol.setLastSweep (x : Patrol) (k : Nat) (v : Nat) : Patrol := { x with lastSweep := SMap.set (fun _ => 0) x.lastSweep k v }


end Sys2Proof.Machine
end

