-- ==== Sys2Proof/Machine/Flags.lean ====
section
/-! DEFINITION. Registers, the common page header and the flags it raises: error bits, alerts, leaky buckets, fences,
interrupts and black-box records (R41-R59, R289-R291, R503-R526). -/
namespace Sys2Proof.Machine

/-! ## Status codes (R12) -/

def St.ok : BitVec 8 := 0x00#8
def St.stateError : BitVec 8 := 0x01#8
def St.badParam : BitVec 8 := 0x02#8
def St.noResource : BitVec 8 := 0x03#8
def St.unitAbsent : BitVec 8 := 0x04#8
def St.poisoned : BitVec 8 := 0x05#8
def St.authFail : BitVec 8 := 0x06#8
def St.timeout : BitVec 8 := 0x07#8
def St.deferred : BitVec 8 := 0x08#8
def St.notPermitted : BitVec 8 := 0x09#8
def St.versionMismatch : BitVec 8 := 0x0A#8
def St.stale : BitVec 8 := 0x0B#8
def St.masterDisabled : BitVec 8 := 0x0C#8
def St.doNotTrust : BitVec 8 := 0x0D#8

/-- Reporting order of several faults met at once: the first of these that is present (R14). -/
def St.order : List (BitVec 8) :=
  [St.unitAbsent, St.stale, St.notPermitted, St.badParam, St.stateError, St.masterDisabled, St.noResource,
   St.authFail, St.poisoned, St.doNotTrust, St.timeout]

/-- The status of an operation from the conditions that fail, in the order of R14; OK when none does. -/
def firstFault (fs : List (BitVec 8 × Bool)) : BitVec 8 :=
  match St.order.find? (fun c => fs.any fun f => f.1 == c && f.2) with
  | some c => c
  | none => St.ok

/-! ## Registers -/

/-- The stored word at a BAR0 offset. -/
def State.reg (s : State) (a : Nat) : BitVec 32 := SMap.get regReset s.regs a

def State.setReg (s : State) (a : Nat) (v : BitVec 32) : State := { s with regs := SMap.set regReset s.regs a v }

/-- A field of a register. -/
def State.rd (s : State) (f : Fld) : Nat := natBits (s.reg f.addr).toNat f.lo f.len

/-- Replaces the bits lo .. lo + len - 1 of a word. -/
def putBits (x : BitVec 32) (lo len v : Nat) : BitVec 32 :=
  let m := BitVec.ofNat 32 ((2 ^ len - 1) * 2 ^ lo)
  (x &&& ~~~ m) ||| (BitVec.ofNat 32 (v * 2 ^ lo) &&& m)

def State.wr (s : State) (f : Fld) (v : Nat) : State := s.setReg f.addr (putBits (s.reg f.addr) f.lo f.len v)

/-- A field as a flag. -/
def State.on (s : State) (f : Fld) : Bool := s.rd f != 0

/-- A 64-bit register from its LO and HI words (R43). -/
def State.rd64 (s : State) (lo : Fld) : Nat := (s.reg lo.addr).toNat + (s.reg (lo.addr + 4)).toNat * 2 ^ 32

def State.wr64 (s : State) (lo : Fld) (v : Nat) : State :=
  (s.setReg lo.addr (BitVec.ofNat 32 v)).setReg (lo.addr + 4) (BitVec.ofNat 32 (v / 2 ^ 32))

/-- Adds to a counter that saturates. -/
def State.bump (s : State) (f : Fld) (n : Nat := 1) : State := s.wr f (min (s.rd f + n) (2 ^ f.len - 1))

/-- Adds to a counter that wraps. -/
def State.step1 (s : State) (f : Fld) (n : Nat := 1) : State := s.wr f ((s.rd f + n) % 2 ^ f.len)

/-- Adds to a 64-bit counter modulo 2^64. -/
def State.step64 (s : State) (lo : Fld) (n : Nat := 1) : State := s.wr64 lo ((s.rd64 lo + n) % 2 ^ 64)

/-- Appends an output of the device. DESIGN CHOICE (log 6). -/
def State.out (s : State) (o : Out) : State := { s with outs := o :: s.outs }

/-- Draws a free value: the draw's number, and the state with the counter advanced. DESIGN CHOICE (log 3). -/
def State.draw (s : State) : State := { s with freeCtr := s.freeCtr + 1 }

/-- The i-th item of the present draw. DESIGN CHOICE (log 3). -/
def State.free (s : State) (i : Nat) : Nat := Config.free s.freeCtr i

/-! ## Page states (R56) -/

def PS.off : Nat := 0
def PS.disabled : Nat := 1
def PS.enabling : Nat := 2
def PS.enabled : Nat := 3
def PS.draining : Nat := 4
def PS.fenced : Nat := 5
def PS.resetting : Nat := 6

def State.st (s : State) (p : Page) : Nat := s.rd (Reg.STATE_STATE p)

/-- The page answers every request with UNIT_ABSENT (R56, R505). -/
def State.absentPage (s : State) (p : Page) : Bool :=
  s.st p = PS.fenced || s.st p = PS.resetting || s.st p = PS.off

/-- The page's block serves: ENABLED, or DRAINING with work in flight. -/
def State.serving (s : State) (p : Page) : Bool := s.st p = PS.enabled || s.st p = PS.draining

/-! ## Interrupts (R289-R291) -/

/-- Whether a PF0 source of R290 is pending while MSI-X is off. -/
def State.intxSource (s : State) (l : Nat) : Bool :=
  s.on (Reg.PCE_INTX_PEND l) || (s.link l).intxMbx != 0#64

/-- Follows the INTA level after a change of its inputs (R291). -/
def State.updateInta (s : State) (l : Nat) : State :=
  let k := s.link l
  let level := s.intxSource l && !k.intDis && !(k.getFns 0).msixEn
  if level = k.inta then s
  else ((s.modLink l fun k => { k with inta := level }).wr (Reg.PCE_INTX_LEVEL l) (if level then 1 else 0)).out
    (.intx l level)

/-- Whether a vector of a function is masked. -/
def State.vectorMasked (s : State) (l f v : Nat) : Bool :=
  if f = 0 then s.on (Reg.PCE_MSIX_CTRL l v) else ((s.link l).getFns f).getMask v

def State.setPba (s : State) (l f v : Nat) (b : Bool) : State :=
  if f = 0 then
    let w := if v < 32 then Reg.PCE_PBA_LO l else Reg.PCE_PBA_HI l
    s.setReg w.addr (putBits (s.reg w.addr) (v % 32) 1 (if b then 1 else 0))
  else s.modLink l fun k => k.setFns f ((k.getFns f).setPba v b)

def State.pba (s : State) (l f v : Nat) : Bool :=
  if f = 0 then
    let w := if v < 32 then Reg.PCE_PBA_LO l else Reg.PCE_PBA_HI l
    (s.reg w.addr).getLsbD (v % 32)
  else ((s.link l).getFns f).getPba v

/-- Raises vector v of function f of link l (R289-R291); in D3hot it waits as with Bus Master Enable clear (R307). -/
def State.vector (s : State) (l f v : Nat) : State :=
  let k := s.link l
  let fn := k.getFns f
  if !fn.msixEn then
    if f = 0 then
      (if v = 0 then s.wr (Reg.PCE_INTX_PEND l) 1
       else s.modLink l fun k => { k with intxMbx := k.intxMbx ||| (1#64 <<< v) }).updateInta l
    else s.setPba l f v true
  else if s.vectorMasked l f v || !fn.bme || fn.d3 || !k.up then s.setPba l f v true
  else s.out (.msix l f v)

/-! ## The black box (R520-R525) -/

/-- Severity classes (R503). -/
def Sev.corrected : BitVec 2 := 0#2
def Sev.deferred : BitVec 2 := 1#2
def Sev.contained : BitVec 2 := 2#2
def Sev.fatal : BitVec 2 := 3#2

/-- Little-endian bytes of a number (R8). -/
def leBytes (n x : Nat) : Bytes := (List.range n).map fun i => BitVec.ofNat 8 (x / 256 ^ i)

/-- Big-endian bytes, for named standards (R8). -/
def beBytes (n x : Nat) : Bytes := (leBytes n x).reverse

/-- Little-endian value of bytes. -/
def leNat (bs : Bytes) : Nat := bs.foldr (fun b acc => acc * 256 + b.toNat) 0

def beNat (bs : Bytes) : Nat := leNat bs.reverse

/-- A field of n bytes at offset o of a structure in memory; bytes beyond its end read as zero. -/
def fieldAt (bs : Bytes) (o n : Nat) : Nat := leNat ((bs.drop o).take n)

/-- The clock domain of a page: 0x0001 + hub for hub pages, 0x0010 + die for die pages (R58, R547). -/
def Page.isHub (p : Page) : Bool := p.base < 0x1000000

/-- The hub of a hub page. -/
def Page.hubNum (p : Page) : Nat := (p.base - 0x100000) / 0x100000

/-- The die of a die page. -/
def Page.dieNum (p : Page) : Nat := (p.base - 0x1000000) / 0x400000

/-- Partitions to which a rise of HALF in a page's bucket is a pre-warning (R544): those of a memory unit that an HMC or LPC page
serves, and the one of a CLU or COR page's cluster. -/
def State.warnParts (s : State) (p : Page) : List Nat :=
  (List.range 12).filter fun q =>
    let x := s.part q
    (x.state == .active || x.state == .destroying) && (match p.blk with
      | .hmc => (List.range 4).any fun k => x.hbm.getLsbD (4 * p.inst + k)
      | .lpc => (List.range 4).any fun k => x.t2.getLsbD (4 * p.inst + k)
      | .clu => x.clusters.getLsbD p.inst
      | .cor => x.clusters.getLsbD (p.inst / 18)
      | _ => false)

/-- A pre-warning reaches Lantern for each of some partitions (R544). -/
def State.preWarn (s : State) (qs : List Nat) : State := qs.foldl (fun s q => s.modSnap q fun x => { x with warned := x.warned + 1 }) s

/-- HALF follows LEVEL and THRESHOLD (R52); its rise is a pre-warning (R544). -/
def State.updateHalf (s : State) (p : Page) : State :=
  let t := s.rd (Reg.BUCKET_CFG_THRESHOLD p)
  let half : Bool := t ≠ 0 && t / 2 ≤ s.rd (Reg.BUCKET_LEVEL_LEVEL p)
  let rises := half && !s.on (Reg.BUCKET_LEVEL_HALF p)
  let s := s.wr (Reg.BUCKET_LEVEL_HALF p) (if half then 1 else 0)
  if rises then s.preWarn (s.warnParts p) else s

/-- The BBX page, active on hub 0. -/
def bbxPage : Page := ⟨.bbx, 0⟩


/-- The 64 bytes of a record (R522). -/
def BbRec.bytes (r : BbRec) : Bytes :=
  let b := leBytes 4 r.seq.toNat ++ leBytes 4 r.boot.toNat ++ leBytes 2 r.typ.toNat ++ leBytes 2 r.srcType.toNat ++
    [r.srcInst, BitVec.ofNat 8 r.sev.toNat, r.epoch, r.part] ++ leBytes 2 r.domain.toNat ++ leBytes 6 r.count.toNat ++
    ((r.payload ++ List.replicate 36 0#8).take 36)
  b ++ leBytes 4 (crc32c b).toNat

/-- Clock domain of a record: NoC clock of a die, fabric clock of a hub, or Lamplighter's own for a record of firmware
(R58, R547). -/
def domainOf : Option Page → Nat
  | some p => if p.isHub then 0x0300 + p.hubNum else 0x0200 + p.dieNum
  | none => 0x0400

/-- The writer's buffer has no room for a record of the class (R525). -/
def State.bbFull (s : State) (sev : BitVec 2) : Bool :=
  (if sev = Sev.contained ∨ sev = Sev.fatal then 128 else 96) ≤ s.bbx.buffer.length

/-- A record that has room reaches the writer's buffer and Lamplighter's event ring (R520, R525). `part` beyond 11 stands
for none. DESIGN CHOICE (log 9). -/
def State.bbPut (s : State) (typ : Nat) (sev : BitVec 2) (src : Option Page) (part : Nat) (payload : Bytes) : State :=
  let seq := s.rd (Reg.BBX_SEQ 0)
  let r : BbRec :=
    { seq := BitVec.ofNat 32 seq
      boot := BitVec.ofNat 32 (s.rd (Reg.BBX_BOOT 0))
      typ := BitVec.ofNat 16 typ
      srcType := BitVec.ofNat 16 (match src with | some p => p.blk.code | none => 0)
      srcInst := BitVec.ofNat 8 (match src with | some p => p.idInstance | none => 0)
      sev := sev
      epoch := BitVec.ofNat 8 (match src with | some p => s.rd (Reg.STATE_EPOCH p) | none => 0)
      part := if part < 12 then BitVec.ofNat 8 part else 0xFF#8
      domain := BitVec.ofNat 16 (domainOf src)
      -- the moment of the record in its domain is no function of the commands: free (R2, R522)
      count := BitVec.ofNat 48 (s.free 0)
      payload := payload.take 36 }
  let s := s.draw
  let s := s.wr (Reg.BBX_SEQ 0) ((seq + 1) % 2 ^ 32)
  let s := { s with bbx := { s.bbx with buffer := s.bbx.buffer ++ [r], ring := (r :: s.bbx.ring).take 4096 } }
  let s := s.wr (Reg.BBX_PEND 0) s.bbx.buffer.length
  (s.vector 0 0 0).vector 1 0 0

/-! ## Error bits, alerts and fences (R53, R56) -/

/-- Payload of the ALERT record of a page (R523). -/
def State.alertBytes (s : State) (p : Page) : Bytes :=
  leBytes 4 (s.reg (p.base + 0x18)).toNat ++ leBytes 4 (s.reg (p.base + 0x1C)).toNat ++ leBytes 4 (s.reg (p.base + 0x28)).toNat

/-- An alert reaches a link in D3cold or D3hot whose PF0 has PME_En set: PME_Status is set and WAKE_N asserted, or a
PM_PME message sent (R307). -/
def State.pmeAlert (s : State) (l : Nat) : State :=
  let k := s.link l
  let cold := s.pins.perst.getLsbD l
  if !k.pmeEn then s
  else if cold then
    let s := s.modLink l fun k => { k with pmeStatus := true }
    if s.pins.wake then s else { s with pins := { s.pins with wake := true } }.out (.wake true)
  else if (k.getFns 0).d3 then (s.modLink l fun k => { k with pmeStatus := true }).out (.pme l)
  else s

/-- A fence of a page whose unit loses nothing by it, from any state but OFF and RESETTING (R56). -/
def State.fenceBare (s : State) (p : Page) : State :=
  if s.st p = PS.off ∨ s.st p = PS.resetting then s else s.wr (Reg.STATE_STATE p) PS.fenced

/-- Sets ERR_STAT bit n of the BBX page: the alert, its record where there is room, and the fence that ERR_EN asks for. A
record of the alert that finds no room counts as dropped too (R53, R525, R529). -/
def State.bbxBit (s : State) (n : Nat) : State :=
  let a := bbxPage.base + 0x18
  let fences : Bool := (s.reg (bbxPage.base + 0x1C)).getLsbD n
  let sev := if fences then Sev.contained else Sev.corrected
  let s1 := s.setReg a (s.reg a ||| (1#32 <<< n))
  let s1 := if (s.reg a).getLsbD n then s1
    else
      let t := ((s1.out (.alert bbxPage.base n)).pmeAlert 0).pmeAlert 1
      if t.bbFull sev then t.bump (Reg.BBX_DROPPED 0) else t.bbPut 0x0001 sev (some bbxPage) 0xFF (t.alertBytes bbxPage)
  if fences then s1.fenceBare bbxPage else s1

/-- A record is dropped: counted, ERR_STAT bit 17 of the BBX page set, and its bucket raised (R525, R529). -/
def State.bbDrop (s : State) : State :=
  let s := ((s.bump (Reg.BBX_DROPPED 0)).bump (Reg.BUCKET_LEVEL_LEVEL bbxPage)).updateHalf bbxPage
  let s := s.bbxBit 17
  let t := s.rd (Reg.BUCKET_CFG_THRESHOLD bbxPage)
  if t ≠ 0 ∧ t ≤ s.rd (Reg.BUCKET_LEVEL_LEVEL bbxPage) then s.bbxBit 3 else s

/-- A record reaches the writer, or is dropped when its class has no room (R520, R525). DESIGN CHOICE (log 9). -/
def State.bbAdd (s : State) (typ : Nat) (sev : BitVec 2) (src : Option Page) (part : Nat) (payload : Bytes) : State :=
  if s.bbFull sev then s.bbDrop else s.bbPut typ sev src part payload

/-- Sets bit n of a page's ERR_STAT. A newly set bit raises an alert and a black-box ALERT record, which firmware forwards
to the hosts (R53, R290, R307). -/
def State.errBit (s : State) (p : Page) (n : Nat) (sev : BitVec 2) (part : Nat) : State :=
  let a := p.base + 0x18
  let s1 := s.setReg a (s.reg a ||| (1#32 <<< n))
  if (s.reg a).getLsbD n then s1
  else (((s1.out (.alert p.base n)).bbAdd 0x0001 sev (some p) part (s1.alertBytes p)).pmeAlert 0).pmeAlert 1

/-- An error of a page whose unit loses nothing by a fence, or which is out of service already. -/
def State.errBare (s : State) (p : Page) (n : Nat) (sev : BitVec 2) (part : Nat) : State :=
  if (s.reg (p.base + 0x1C)).getLsbD n then (s.errBit p n Sev.contained part).fenceBare p else s.errBit p n sev part

/-- A counted event of such a page (R53). -/
def State.bucketBare (s : State) (p : Page) : State :=
  let s := (s.bump (Reg.BUCKET_LEVEL_LEVEL p)).updateHalf p
  let t := s.rd (Reg.BUCKET_CFG_THRESHOLD p)
  if t ≠ 0 ∧ t ≤ s.rd (Reg.BUCKET_LEVEL_LEVEL p) then s.errBare p 3 Sev.corrected 0xFF else s

/-- Partition that owns a cluster, 15 for none: owner entries stand from CREATING's end until DESTROYING's end (R313,
R317). -/
def State.clusterPart (s : State) (gc : Nat) : Nat :=
  match (List.range 12).find? (fun p =>
      ((s.part p).state == .active || (s.part p).state == .destroying) && (s.part p).clusters.getLsbD gc) with
  | some p => p
  | none => 15

/-- Host link, and so hub, of a partition (R193). -/
def State.partHub (s : State) (p : Nat) : Nat := (s.part p).link

/-- What a core slot loses when its page leaves ENABLED: it issues no more, its pending register writes and queued
operations are gone (R172, R507, R509). Lines already sent stay in flight. -/
def Core.stop (c : Core) : Core :=
  { c with
    run := .held, bundle := [], pend := [], mqueue := [], mrun := [], branch := none
    chan := SMap.mapVals (fun _ => Chan.reset) (fun _ x => { x with queue := [], run := none, held := false }) c.chan }

/-- The work-queue contents of a cluster are discarded: the distributor restores its credit to 64 and counts what is
lost (R200). -/
def State.loseQueue (s : State) (gc : Nat) : State :=
  let n := (s.cluster gc).wq.length
  let part := s.clusterPart gc
  let h := s.partHub part
  let s := s.modCluster gc fun c => { c with wq := [], waiting := [] }
  let s := s.modDisOf h fun d => d.setCredit gc 64
  if n = 0 then s
  else
    (s.bump (Reg.DIS_LOST h) n).errBare ⟨.dis, h⟩ 17 Sev.contained part

/-- Key of a watch of an engine among the answers. -/
def watchKey (hub : Nat) (e : Engine) (tag : BitVec 16) : Nat := (hub * 16 + e.num) * 65536 + tag.toNat

/-- A watch is answered with a code and a value, and the engine learns it (R187). -/
def State.watchAnswer (s : State) (w : Watch) (code : Nat) (v : BitVec 32) : State :=
  (s.out (.watch w.hub w.engine w.tag code v)).setAnswered (watchKey w.hub w.engine w.tag) (some ⟨w.bid, w.target, code, v⟩)

/-- Every armed watch of a cluster is answered with UNIT_ABSENT and its entry freed (R187). -/
def State.dropWatches (s : State) (gc : Nat) : State :=
  let ws := (s.cluster gc).watches
  let s := ws.foldl (fun s w => s.watchAnswer w 3 0#32) s
  s.modCluster gc fun c => { c with watches := [] }

/-- A connection enters FAILED with a status (R383): every unfinished message and entry, and every incoming message, takes
it. -/
def Conn.failWith (c : Conn) (st : BitVec 8) : Conn :=
  { c with
    state := .failed, failStatus := st
    msgs := c.msgs.map fun m => if m.status.isSome then m else { m with status := some st, begun := true }
    rmsgs := c.rmsgs.map fun m => { m with status := st }, waiting := none }

/-- The connections of a hub whose SDT page is fenced or reset fail with UNIT_ABSENT; the unit sends nothing (R383, R505). -/
def State.failConns (s : State) (h : Nat) : State :=
  let hit (c : Conn) : Bool := c.hub = h && c.state == .opened
  if s.conns.any fun e => hit e.2 then
    { s with conns := SMap.mapVals (fun _ => Conn.reset) (fun _ c => if hit c then c.failWith St.unitAbsent else c) s.conns }.errBit
      ⟨.sdt, h⟩ 17 Sev.contained 0xFF
  else s

/-- An Ethernet port whose page leaves ENABLED is DOWN; leaving UP is LINK_DOWN, counted (R333, R355). -/
def State.ethLeave (s : State) (port : Nat) : State :=
  let was := s.rd (Reg.ETH_LINK_STATE port)
  let s := (s.wr (Reg.ETH_LINK_STATE port) 0).wr (Reg.ETH_LINK_RATE port) 0
  if was = 3 then (s.errBare ⟨.eth, port⟩ 16 Sev.contained 0xFF).bucketBare ⟨.eth, port⟩ else s

/-- The lines of a cluster move engine that pass the test are given up: their answers come back stale (R506, R507). -/
def State.dropLines (s : State) (gc : Nat) (f : Line → Bool) : State :=
  let n := ((s.cluster gc).lines.filter f).length
  let s := s.modCluster gc fun c => { c with lines := c.lines.filter fun l => !f l }
  s.bump (Reg.NOC_STALE (gc / 16)) n

/-- What a unit does when its page leaves service: a core stops and the answers of its lines come back stale; a cluster
loses its watches and its queue; connections fail and a port goes down (R172, R187, R200, R333, R383, R506, R507). -/
def State.leaveService (s : State) (p : Page) : State :=
  match p.blk with
  | .cor =>
    let s := s.modCluster (p.inst / 18) fun c => { c with waiting := c.waiting.filter fun w => w.1 != p.inst % 18 }
    (s.modCore p.inst Core.stop).dropLines (p.inst / 18) fun l => l.slot = p.inst % 18
  | .clu =>
    let s := ((s.dropWatches p.inst).loseQueue p.inst).dropLines p.inst fun _ => true
    let n := match (s.cluster p.inst).pgRun with
      | some r => r.lines.length
      | none => 0
    (s.bump (Reg.NOC_STALE (p.inst / 16)) n).modCluster p.inst fun c => { c with table := [], pgRun := none, creditOut := 0 }
  | .sdt => s.failConns p.inst
  | .eth => s.ethLeave p.inst
  | _ => s

/-- The cores of a fenced cluster count as failed (R513): none issues or starts anything more. -/
def State.stopCluster (s : State) (p : Page) : State :=
  if p.blk = .clu then
    { s with cores := SMap.mapVals (fun _ => Core.reset) (fun k c => if k / 18 = p.inst then c.stop else c) s.cores }
  else s

/-- Puts a page in FENCED, from any state but OFF and RESETTING, with what its unit loses (R56, R505-R507). -/
def State.fencePage (s : State) (p : Page) : State :=
  if s.st p = PS.off ∨ s.st p = PS.resetting ∨ s.st p = PS.fenced then s
  else ((s.wr (Reg.STATE_STATE p) PS.fenced).leaveService p).stopCluster p

/-- An error of a page (R53): its ERR_STAT bit, the alert, and a fence when its ERR_EN bit is 1. An ignored write never
fences (R52). DEDUCED (log 21). -/
def State.err (s : State) (p : Page) (n : Nat) (sev : BitVec 2 := 0#2) (part : Nat := 0xFF) : State :=
  let fences := n ≠ 0 ∧ (s.reg (p.base + 0x1C)).getLsbD n
  let s := s.errBit p n (if fences then Sev.contained else sev) part
  if fences then s.fencePage p else s

/-- One counted event of a page: LEVEL rises by 1, saturating, and BUCKET_OVERFLOW is set when it reaches THRESHOLD
(R53). -/
def State.bucket (s : State) (p : Page) : State :=
  let s := (s.bump (Reg.BUCKET_LEVEL_LEVEL p)).updateHalf p
  let t := s.rd (Reg.BUCKET_CFG_THRESHOLD p)
  if t ≠ 0 ∧ t ≤ s.rd (Reg.BUCKET_LEVEL_LEVEL p) then s.err p 3 else s

/-- A violation by a partner is recorded in the black box (R308, R518, R523): partner kind, number, page offset of the counter
or bit, and the head of the offending header. -/
def State.partner (s : State) (p : Page) (kind num off : Nat) (header : Bytes) : State :=
  s.bbAdd 0x000D Sev.corrected (some p) 0xFF ([BitVec.ofNat 8 kind, BitVec.ofNat 8 num] ++ leBytes 2 off ++ header.take 16)

/-- Bits of ERR_STAT.BLOCK whose events a page counts in its bucket, bit b for ERR_STAT bit 16 + b (R205, R259, R309, R355,
R386, R392, R421, R453, R454, R477, R502, R529, R546). -/
def Page.countMask (p : Page) : BitVec 16 :=
  match p.blk with
  | .clu | .eth | .fwp | .snp => 0x0001#16
  | .cls | .pol | .mov | .pfx | .d2d => 0x0002#16
  | .bbx | .cph => 0x0003#16
  | .tsh | .sec => 0x0004#16
  | .prp => 0x0008#16
  | .sdt => 0x0005#16
  | .pce => 0x000D#16
  | _ => 0x0000#16

/-- An error of ERR_STAT.BLOCK bit 16 + b that the page's chapter lists: the error, and its count (R53). -/
def State.blockErr (s : State) (p : Page) (b : Nat) : State :=
  let s := s.err p (16 + b)
  if p.countMask.getLsbD b then s.bucket p else s

/-- A refused write (R54): recorded in IGN_WRITE and ERR_STAT.IGNORED_WRITE. -/
def State.ignoreWrite (s : State) (p : Page) (off : Nat) : State :=
  let s := (s.bump (Reg.IGN_WRITE_COUNT p)).wr (Reg.IGN_WRITE_OFFSET p) off
  s.err p 0

/-- The configuration CRC of a page over its mask table (R49, R55). -/
def maskTable (b : Blk) : List (Nat × BitVec 32) :=
  let expand (r : WordRow) : List (Nat × BitVec 32) :=
    if r.rwl = 0#32 then []
    else if r.n1 = 0 then [(r.off, r.rwl)]
    else (List.range r.n1).flatMap fun i =>
      if r.n2 = 0 then [(r.off + i * r.s1, r.rwl)]
      else (List.range r.n2).map fun j => (r.off + i * r.s1 + j * r.s2, r.rwl)
  let rec insert (x : Nat × BitVec 32) : List (Nat × BitVec 32) → List (Nat × BitVec 32)
    | [] => [x]
    | y :: l => if x.1 < y.1 then x :: y :: l else y :: insert x l
  (b.rows.flatMap expand).foldl (fun l x => insert x l) []

def State.cfgCrc (s : State) (p : Page) : BitVec 32 :=
  let t := maskTable p.blk
  if t.isEmpty then 0#32
  else crc32c (t.flatMap fun e => leBytes 4 (s.reg (p.base + e.1) &&& e.2).toNat)

end Sys2Proof.Machine
end

