-- ==== Sys2Proof/Machine/Routes.lean ====
section
/-! DEFINITION. The die-to-die links and the routes over them (01_five_levels.md R17-R22; 19_faults_and_spares.md R514). -/
namespace Sys2Proof.Machine

/-- Where a unit lies: die d is d, hub h is 10 + h. -/
def hubNode (h : Nat) : Nat := 10 + h

/-- The two ends of die-to-die link n, each a D2D page instance and its link instance (R19): 0-7 the row links from west to
east, row by row; 8-12 the links between the rows; 13-14 of hub 0 and 15-16 of hub 1. -/
def linkEnds (n : Nat) : (Nat × Nat) × (Nat × Nat) :=
  if n < 8 then
    let d := n / 4 * 5 + n % 4
    ((d * 4 + 1, 0), ((d + 1) * 4 + 3, 0))
  else if n < 13 then (((n - 8) * 4 + 2, 0), ((n - 8 + 5) * 4, 0))
  else if n < 15 then ((40, n - 13), ((n - 13) * 5 * 4 + 3, 0))
  else ((41, n - 15), (((n - 15) * 5 + 4) * 4 + 1, 0))

def linkCount : Nat := 17

/-- The die at an end of a link; for an end at a hub, the die at the other end. -/
def linkDie (n : Nat) : Nat :=
  let e := linkEnds n
  if e.1.1 < 40 then e.1.1 / 4 else e.2.1 / 4

/-- Row links of a row from column a to column b, in order of travel. -/
def rowLinks (row a b : Nat) : List Nat :=
  if a ≤ b then (List.range (b - a)).map fun i => row * 4 + a + i
  else (List.range (a - b)).map fun i => row * 4 + a - 1 - i

/-- The links of the route from a node to a node (R21). -/
def routeLinks (a b : Nat) : List Nat :=
  let hubWay (h d : Nat) : List Nat :=
    (13 + 2 * h + d / 5) :: (if h = 0 then rowLinks (d / 5) 0 (d % 5) else rowLinks (d / 5) 4 (d % 5))
  if a = b then []
  else if a < 10 ∧ b < 10 then rowLinks (a / 5) (a % 5) (b % 5) ++ (if a / 5 = b / 5 then [] else [8 + b % 5])
  else if a < 10 then (hubWay (b - 10) a).reverse
  else if b < 10 then hubWay (a - 10) b
  else if a = 10 then 13 :: rowLinks 0 0 4 ++ [15]
  else 15 :: rowLinks 0 4 0 ++ [13]

/-- States of a die-to-die link (R502). -/
def D2d.down : Nat := 0
def D2d.training : Nat := 1
def D2d.up : Nat := 2
def D2d.retraining : Nat := 3
def D2d.failed : Nat := 4

def State.d2dState (s : State) (n : Nat) : Nat :=
  let e := (linkEnds n).1
  s.rd (Reg.D2D_LINK_STATE e.1 e.2)

/-- The first failed link of a route. -/
def State.failedOn (s : State) (a b : Nat) : Option Nat := (routeLinks a b).find? fun n => s.d2dState n = D2d.failed

end Sys2Proof.Machine
end

