-- ==== Sys2Proof/Machine/Operands.lean ====
section
/-! DEFINITION. Operand forms: fields of payloads, descriptors and records, the fabric address map, and the homes of bytes
(R8, R17-R40, R206-R217, R262-R272, R312). -/
namespace Sys2Proof.Machine

/-! ## Numbers of units (R17-R33) -/

/-- Die of a global cluster. -/
def dieOfGc (gc : Nat) : Nat := gc / 16

/-- Key of a physical slot. -/
def slotKey (gc slot : Nat) : Nat := gc * 18 + slot

/-- Number of beacon ids (R32). -/
def beaconCount : Nat := 20480

/-- The physical slot of a logical core, or none when it is absent (R29, R38, R512). -/
def State.slotOf (s : State) (lc : Nat) : Option Nat :=
  let d := lc / 256
  let c := lc / 16 % 16
  if s.on (Reg.NOC_MAP_ABSENT d c (lc % 16)) then none else some (s.rd (Reg.NOC_MAP_SLOT d c (lc % 16)))

/-- The logical core that a physical slot runs, or none for a spare (R29). -/
def State.lcOf (s : State) (gc slot : Nat) : Option Nat :=
  (List.range 16).find? (fun k => s.slotOf (gc * 16 + k) == some slot) |>.map (gc * 16 + ·)

/-- The cluster's page is fenced, resetting or off, so that its beacons and watches are gone (R176, R187). -/
def State.clusterGone (s : State) (gc : Nat) : Bool := s.absentPage ⟨.clu, gc⟩

/-! ## Home keys: where a byte is kept (R34, R38) -/

/-- Key of byte `off` of the data memory of a physical slot. -/
def dmemKey (slot off : Nat) : Nat := 2 ^ 48 + slot * 2 ^ 20 + off

/-- Key of byte `off` of the instruction store of a physical slot. -/
def istoreKey (slot off : Nat) : Nat := 2 ^ 49 + slot * 2 ^ 17 + off

/-- Key of word w of the accumulator tile of a physical slot: element e holds words 2e and 2e + 1 of its 16-byte rail
record. DESIGN CHOICE (log 93). -/
def tileKey (slot w : Nat) : Nat := 2 ^ 50 + slot * 2 ^ 17 + 8 * w

/-- Key of byte `off` of the always-on SRAM of hub 0. -/
def alwaysOnKey (off : Nat) : Nat := 2 ^ 51 + off

/-- Key of byte `off` of the other arrays of a hub. -/
def tablesKey (hub off : Nat) : Nat := 2 ^ 51 + (2 + hub) * 2 ^ 20 + off

/-- Stack and unit of an HBM address by the modes in force (R209). -/
def State.hbmUnit (s : State) (a : Nat) : Nat × Nat :=
  let q := a / 0x5A00000000
  let o := a % 0x5A00000000
  let stack :=
    if natBits (s.rd (Reg.HMC_MODE_GLOBAL 0)) q 1 = 1 then (o / 4096) % 20
    else 2 * (o / 0x900000000) + (o % 0x900000000) / 4096 % 2
  (stack, stack * 4 + q)

/-- Byte of a unit (R209): the offset within the unit's 18 GiB. -/
def State.hbmOffset (s : State) (a : Nat) : Nat :=
  let q := a / 0x5A00000000
  let o := a % 0x5A00000000
  let sg := if natBits (s.rd (Reg.HMC_MODE_GLOBAL 0)) q 1 = 1 then o / 4096 / 20 else (o % 0x900000000) / 4096 / 2
  sg * 4096 + a % 4096

/-- The channel of its stack that serves an HBM address: each 512-byte piece of a granule lies in one channel (R209). -/
def hbmChannel (a : Nat) : Nat := a / 0x5A00000000 * 8 + a / 512 % 8

/-- What a fabric address names (R34). -/
inductive Tgt where
  | hbm (stack unit : Nat)
  | t2 (unit : Nat)
  | pool (gc : Nat)
  | dmem (lc off : Nat)
  | sram (hub off : Nat)
  | reg (off : Nat)
  | beacon (id off : Nat)
  | host (link : Nat)
  | unmapped
  deriving DecidableEq, Repr

def hbmEnd : Nat := 0x16800000000
def t2Base : Nat := 0x20000000000
def t2Size : Nat := 0xF00000000
def poolBase : Nat := 0x100000000000
def dmemBase : Nat := 0x110000000000
def sramBase : Nat := 0x120000000000
def regBase : Nat := 0x130000000000
def beaconBase : Nat := 0x140000000000

/-- Where a tier-2 data line lies in its package (R214): the channel, the raw byte of the line and of its group's check line
within the channel, and the line's slot in the group. -/
structure PackagePlace where
  channel : Nat
  line : Nat
  check : Nat
  slot : Nat
  deriving DecidableEq, Repr

/-- The place of a tier-2 address: groups of 15 data lines, the groups in turn on the two channels (R214). -/
def packagePlace (a : Nat) : PackagePlace :=
  let n := (a - t2Base) % t2Size / 64
  let grp := n / 15
  let base := grp / 2 * 1024
  ⟨grp % 2, base + n % 15 * 64, base + 960, n % 15⟩

/-- The fabric address of the first data line of group `grp` of tier-2 unit u (R214). -/
def groupAddr (u grp : Nat) : Nat := t2Base + u * t2Size + grp * 960

/-- Where one byte lies (R34, R35). A tier-2 unit removed from the map leaves its range unmapped. -/
def State.tgt (s : State) (a : Nat) : Tgt :=
  if a < hbmEnd then (let u := s.hbmUnit a; .hbm u.1 u.2)
  else if a < t2Base then .unmapped
  else if a < t2Base + 32 * t2Size then
    let u := (a - t2Base) / t2Size
    if s.bru.mapBuilt && !s.bru.t2Mapped.getLsbD u then .unmapped else .t2 u
  else if a < poolBase then .unmapped
  else if a < poolBase + 160 * 2 ^ 24 then .pool ((a - poolBase) / 2 ^ 24)
  else if a < dmemBase then .unmapped
  else if a < dmemBase + 2560 * 2 ^ 20 then .dmem ((a - dmemBase) / 2 ^ 20) ((a - dmemBase) % 2 ^ 20)
  else if a < sramBase then .unmapped
  else if a < sramBase + 2 * 2 ^ 26 then .sram ((a - sramBase) / 2 ^ 26) ((a - sramBase) % 2 ^ 26)
  else if a < regBase then .unmapped
  else if a < regBase + 2 ^ 26 then .reg (a - regBase)
  else if a < beaconBase then .unmapped
  else if a < beaconBase + beaconCount * 64 then .beacon ((a - beaconBase) / 64) ((a - beaconBase) % 64)
  else if a < 0x800000000000 then .unmapped
  else if a < 0xC00000000000 then .host 0
  else if a < 0x1000000000000 then .host 1
  else .unmapped

/-- The listed range a byte lies in: an access may not run from one into the next (R40). -/
def rangeOf (a : Nat) : Nat × Nat :=
  if a < hbmEnd then (0, 0)
  else if a < t2Base + 32 * t2Size then (1, (a - t2Base) / t2Size)
  else if a < poolBase + 160 * 2 ^ 24 then (2, (a - poolBase) / 2 ^ 24)
  else if a < dmemBase + 2560 * 2 ^ 20 then (3, (a - dmemBase) / 2 ^ 20)
  else if a < sramBase + 2 ^ 27 then (4, (a - sramBase) / 2 ^ 26)
  else if a < regBase + 2 ^ 26 then (5, 0)
  else if a < beaconBase + beaconCount * 64 then (6, (a - beaconBase) / 64)
  else if a < 0xC00000000000 then (7, 0)
  else (8, 0)

/-- What an access of n bytes names; unmapped when it crosses the end of a listed range (R40). -/
def State.target (s : State) (a n : Nat) : Tgt :=
  if n ≤ 1 ∨ rangeOf a = rangeOf (a + n - 1) then
    (if s.tgt (a + n - 1) = .unmapped then .unmapped else s.tgt a)
  else .unmapped

/-- The home key of a fabric address; the window of a logical core reaches its physical slot (R38). -/
def State.home (s : State) (a : Nat) : Nat :=
  match s.tgt a with
  | .dmem lc off => dmemKey (slotKey (lc / 16) ((s.slotOf lc).getD 0)) off
  | _ => a

/-- The region of a home key: what is poisoned or filled as one (R270, R272). -/
def State.region (s : State) (k : Nat) : Nat :=
  if 2 ^ 49 ≤ k then 3152 + (k - 2 ^ 49) / 2 ^ 17
  else if 2 ^ 48 ≤ k then 272 + (k - 2 ^ 48) / 2 ^ 20
  else match s.tgt k with
    | .hbm _ u => u
    | .t2 u => 80 + u
    | .pool gc => 112 + gc
    | .sram h off => 6032 + 256 * h + off / 2 ^ 18
    | _ => 7000

/-- Bytes of a protected unit at a home key (R262). -/
def unitSize (k : Nat) : Nat := if k < t2Base + 32 * t2Size then 64 else 8

/-- The unit that holds a byte. -/
def unitOf (k : Nat) : Nat := k / unitSize k * unitSize k

/-! ## Bytes at their homes -/

/-- DESIGN CHOICE (log 5). -/
def State.byteAt (s : State) (k : Nat) : BitVec 8 := SMap.get (fun _ => 0#8) s.mem k

def State.setByte (s : State) (k : Nat) (b : BitVec 8) : State := { s with mem := SMap.set (fun _ => 0#8) s.mem k b }

/-- Whether a protected unit holds anything but the poison word (R265, R270): units never written since their memory
was poisoned hold it. Tiles, the always-on SRAM and the tables of the hubs hold fields of State, each written by its owner
before it is read; a poisoned tile shows in POISON (R101, R142, R270). DESIGN CHOICE (log 93). -/
def State.isClean (s : State) (u : Nat) : Bool :=
  2 ^ 50 ≤ u || (SMap.get (fun _ => false) s.clean u) != s.filledRegion (s.region u)

def State.setClean (s : State) (u : Nat) (b : Bool) : State :=
  { s with clean := SMap.set (fun _ => false) s.clean u (b != s.filledRegion (s.region u)) }

/-- Bytes k .. k + n - 1 as stored. -/
def State.bytesAt (s : State) (k n : Nat) : Bytes := (List.range n).map fun i => s.byteAt (k + i)

/-- The units that bytes k .. k + n - 1 touch. -/
def unitsOf (k n : Nat) : List Nat :=
  if n = 0 then []
  else
    let z := unitSize k
    (List.range ((k + n - 1) / z - k / z + 1)).map fun i => (k / z + i) * z

/-- A read that touches a poison word is marked (R266, R271). -/
def State.poisonAt (s : State) (k n : Nat) : Bool := (unitsOf k n).any fun u => !s.isClean u

/-- Puts bytes at k. -/
def State.putBytes (s : State) : Nat → Bytes → State
  | _, [] => s
  | k, b :: bs => (s.setByte k b).putBytes (k + 1) bs

/-- Stores the poison word over a unit: every data byte 0x00 (R265). -/
def State.poisonUnit (s : State) (u : Nat) : State :=
  (s.putBytes u (List.replicate (unitSize u) 0#8)).setClean u false

/-- The bytes of a write that fall in a unit. -/
def overlap (u z k : Nat) (bs : Bytes) : Nat × Bytes :=
  let lo := max u k
  let hi := min (u + z) (k + bs.length)
  (lo, (bs.drop (lo - k)).take (hi - lo))

/-- The array or controller that keeps a byte: the key of its filter and patrol (R274). -/
def State.arrayOf (s : State) (k : Nat) : Nat :=
  if 2 ^ 51 ≤ k then 9990 + (k - 2 ^ 51) / 2 ^ 20
  else if 2 ^ 50 ≤ k then 10000 + (k - 2 ^ 50) / 2 ^ 17
  else if 2 ^ 49 ≤ k then 5000 + (k - 2 ^ 49) / 2 ^ 17
  else if 2 ^ 48 ≤ k then 1000 + (k - 2 ^ 48) / 2 ^ 20
  else match s.tgt k with
    | .hbm stack _ => stack
    | .t2 u => 32 + u
    | .pool gc => 64 + gc
    | .sram h _ => 256 + h
    | _ => 9999

/-- A unit leaves the filter of its array when it is written whole or the patrol writes it back (R274). -/
def State.unfilter (s : State) (u : Nat) : State :=
  let a := s.arrayOf u
  if (s.filterOf a).units.contains u then s.modFilterOf a fun f => { f with units := f.units.filter (· ≠ u) } else s

/-- A unit takes computed check bytes again, and a tier-2 line its enciphered form (R281, R438). -/
def State.clearChk (s : State) (u : Nat) : State :=
  let s := s.setChkOf u 0#64
  if (s.rawLine u).isSome then s.setRawLine u none else s

/-- A unit written whole: fresh check bytes, out of the filter. -/
def State.freshUnit (s : State) (u : Nat) : State := (s.clearChk u).unfilter u

/-- A write of consecutive bytes at their home: a unit covered whole takes the new bytes, a unit covered in part keeps
its poison if it held any, and marked data stores poison over every unit it touches (R267, R268). -/
def State.writeHome (s : State) (k : Nat) (bs : Bytes) (mark : Bool) : State :=
  (unitsOf k bs.length).foldl (fun s u =>
    let z := unitSize k
    let o := overlap u z k bs
    if mark then (s.poisonUnit u).freshUnit u
    else if o.2.length = z then ((s.putBytes o.1 o.2).setClean u true).freshUnit u
    else if s.isClean u then (s.putBytes o.1 o.2).clearChk u
    else s) s

/-- The valid retired 4 KiB ranges of the controller of a region, by address / 4096 (R278). -/
def State.retiredIn (s : State) (r : Nat) : List Nat :=
  if r < 80 then ((List.range 32).filter fun i => s.on (Reg.DIE_RETIRE_VALID (r / 8) (r / 4 % 2) i)).map fun i =>
    s.rd (Reg.DIE_RETIRE_ADDR (r / 8) (r / 4 % 2) i)
  else if r < 112 then ((List.range 128).filter fun i => s.on (Reg.HUB_T2_RETIRE_VALID ((r - 80) / 16) i)).map fun i =>
    s.rd (Reg.HUB_T2_RETIRE_ADDR ((r - 80) / 16) i)
  else []

/-- The array that keeps a region (R274). -/
def regionArray (r : Nat) : Nat :=
  if r < 80 then r / 4
  else if r < 112 then r - 48
  else if r < 272 then r - 48
  else if r < 3152 then r + 728
  else if r < 6032 then r + 1848
  else 256 + (r - 6032) / 256

/-- Every unit of a region takes the poison word, or zeros, and leaves the filter of its array; a retired range is not written
(R270, R272, R274, R278). -/
def State.setRegion (s : State) (r : Nat) (filled : Bool) : State :=
  let gone := s.retiredIn r
  let stays (k : Nat) : Bool := s.region k != r || gone.contains (k / 4096)
  let units := (gone.flatMap fun g => (List.range 64).map fun i => g * 4096 + 64 * i).filter fun u => s.region u = r
  let s1 := { s with
    mem := SMap.keep stays s.mem
    clean := SMap.keep (fun k => s.region k != r) s.clean
    chk := SMap.keep stays s.chk
    raws := SMap.keep stays s.raws }
  let s2 := (s1.setFilledRegion r filled).modFilterOf (regionArray r) fun f => { f with units := f.units.filter stays }
  units.foldl (fun t u => t.setClean u (s.isClean u)) s2

/-! ## Rights (R39, R178, R180, R216, R312) -/

/-- Owner of a memory unit: 0-79 HBM, 80-111 tier 2; 15 for none. -/
def State.unitPart (s : State) (u : Nat) : Nat :=
  match (List.range 12).find? (fun p =>
      let x := s.part p
      (x.state == .active || x.state == .destroying) &&
      (if u < 80 then x.hbm.getLsbD u else x.t2.getLsbD (u - 80))) with
  | some p => p
  | none => 15

/-- Owner of a hub SRAM granule: 14 firmware, 15 free (R311, R331). -/
def State.granulePart (s : State) (hub g : Nat) : Nat :=
  if g < 32 then 14
  else match (List.range 12).find? (fun p =>
      let x := s.part p
      (x.state == .active || x.state == .destroying) && x.link = hub && x.sramBase ≤ g && g < x.sramBase + x.sramCount) with
  | some p => p
  | none => 15

/-- The partition a requester acts for; 15 for none (R312). -/
def State.reqPart (s : State) : Req → Nat
  | .core gc _ _ => s.clusterPart gc
  | .gather gc => s.clusterPart gc
  | .hub _ _ p => p
  | .fwp _ _ => 15
  | .host _ => 15
  | .slice k => match s.slice k with
    | some x => x.part
    | none => 15

def Req.isCluster : Req → Bool
  | .core _ _ _ => true
  | .gather _ => true
  | _ => false

/-- Requesters whose memory accesses no partition limits: firmware, and the host through PF0 BAR2 (R286, R312). -/
def Req.unlimited : Req → Bool
  | .fwp _ _ => true
  | .host _ => true
  | _ => false

/-- A requester may reach a target (R39, R180, R312). -/
def State.permitted (s : State) (r : Req) (t : Tgt) : Bool :=
  let p := s.reqPart r
  let own (q : Nat) : Bool := r.unlimited || (p < 12 && q = p)
  match t with
  | .hbm _ u => own (s.unitPart u)
  | .t2 u => own (s.unitPart (80 + u))
  | .pool gc => own (s.clusterPart gc) || (r.isCluster && p = 15 && (match r with
      | .core g _ _ => g.val = gc
      | .gather g => g.val = gc
      | _ => false))
  | .dmem lc _ => own (s.clusterPart (lc / 16)) || (p = 15 && (match r with
      | .core g _ _ => g.val = lc / 16
      | .gather g => g.val = lc / 16
      | _ => false))
  | .sram h off => own (s.granulePart h (off / 2 ^ 18))
  | .reg _ => !r.isCluster && (match r with
      | .slice _ => false
      | _ => true)
  | .beacon id _ => (match r with
      | .fwp _ _ => true
      | .hub _ _ q => s.clusterPart (id / 128) = q.val
      | _ => false)
  | .host l => (match r with
      | .fwp _ _ => true
      | _ => p < 12 && s.partHub p = l)
  | .unmapped => true

/-- A retired 4 KiB range covers the address (R278). -/
def State.retired (s : State) (a : Nat) : Bool :=
  let hit (ad v : Fld) : Bool := s.on v && s.rd ad = a / 4096 % 2 ^ 32
  match s.tgt a with
  | .hbm stack _ => (List.range 32).any fun i =>
      hit (Reg.DIE_RETIRE_ADDR (stack / 2) (stack % 2) i) (Reg.DIE_RETIRE_VALID (stack / 2) (stack % 2) i)
  | .t2 u => (List.range 128).any fun i => hit (Reg.HUB_T2_RETIRE_ADDR (u / 16) i) (Reg.HUB_T2_RETIRE_VALID (u / 16) i)
  | _ => false

/-- The page of a memory unit's controller. -/
def ctrlPage (u : Nat) : Page := if u < 80 then ⟨.hmc, u / 4⟩ else ⟨.lpc, (u - 80) / 4⟩

/-- A memory unit answers UNIT_ABSENT: unusable, not yet trained, before BUILD_MAP for tier 2, or its page does not
serve (R212). -/
def State.unitAbsent (s : State) (u : Nat) : Bool :=
  !s.bru.memDone.getLsbD u || s.bru.memBad.getLsbD u || (80 ≤ u && !s.bru.mapBuilt) ||
  !(s.serving (ctrlPage u))

/-- The page and offset of an implemented word. -/
def wordAt (a : Nat) : Option (Page × Nat) :=
  if a % 4 ≠ 0 then none
  else match pageAt a with
    | none => none
    | some p => match p.row (a % 0x1000) with
      | some _ => some (p, a % 0x1000)
      | none => none

/-- A block-specific access that a FENCED or RESETTING page turns away (R56, R505). DEDUCED (log 19). -/
def State.pageGone (s : State) (p : Page) (off : Nat) : Bool :=
  0x40 ≤ off && (s.st p = PS.fenced || s.st p = PS.resetting)

/-- The target answers UNIT_ABSENT (R38, R56, R212, R278, R505). -/
def State.targetAbsent (s : State) (a : Nat) (t : Tgt) : Bool :=
  match t with
  | .hbm _ u => s.unitAbsent u || s.retired a
  | .t2 u => s.unitAbsent (80 + u) || s.retired a
  | .pool gc => s.clusterGone gc
  | .dmem lc _ => s.clusterGone (lc / 16) || (match s.slotOf lc with
      | none => true
      | some k => s.absentPage ⟨.cor, slotKey (lc / 16) k⟩)
  | .sram h _ => s.absentPage ⟨.hub, h⟩
  | .beacon id _ => s.clusterGone (id / 128)
  | .host l => !(s.link l).up
  | .reg off => (match pageAt off with
    | some p => s.pageGone p (off % 0x1000)
    | none => false)
  | _ => false

/-- The controller is DRAINING and refuses new lines (R56, R230). -/
def State.targetDraining (s : State) (t : Tgt) : Bool :=
  match t with
  | .hbm _ u => s.st (ctrlPage u) = PS.draining
  | .t2 u => s.st (ctrlPage (80 + u)) = PS.draining
  | _ => false

/-- The node a requester sits at. -/
def State.nodeOf (s : State) : Req → Nat
  | .core gc _ _ => gc.val / 16
  | .gather gc => gc.val / 16
  | .hub h _ _ => hubNode h
  | .fwp h _ => hubNode h
  | .host l => hubNode l
  | .slice k => match s.slice k with
    | some x => hubNode (s.partHub x.part)
    | none => hubNode 0

/-- The hub that serves the Directory ROM and the offsets outside every region for a requester: its own, or hub 0 for a
requester on a compute die (R584). -/
def State.servingHub (s : State) (r : Req) : Nat := if 10 ≤ s.nodeOf r then s.nodeOf r - 10 else 0

/-- The hub whose region holds a BAR0 offset (R41). -/
def regionHub (off : Nat) : Option Nat :=
  if 0x100000 ≤ off ∧ off < 0x300000 then some (off / 0x100000 - 1) else none

/-- The node that a target of a request sits at (R41, R584). -/
def State.targetNode (s : State) (r : Req) : Tgt → Nat
  | .hbm stack _ => stack / 2
  | .t2 u => hubNode (u / 16)
  | .pool gc => gc / 16
  | .dmem lc _ => lc / 256
  | .sram h _ => hubNode h
  | .reg off =>
    if 0x1000000 ≤ off ∧ off < 0x3800000 then (off - 0x1000000) / 0x400000
    else hubNode ((regionHub off).getD (s.servingHub r))
  | .beacon id _ => id / 2048
  | .host l => hubNode l
  | .unmapped => hubNode 0

/-- The route of a request crosses a failed link (R514). Before START register accesses travel over the sidebands
(R487). -/
def State.routeDown (s : State) (r : Req) (t : Tgt) : Bool :=
  match t with
  | .unmapped => false
  | .reg _ => s.bru.started && (s.failedOn (s.nodeOf r) (s.targetNode r t)).isSome
  | _ => (s.failedOn (s.nodeOf r) (s.targetNode r t)).isSome

/-- The status of an access of n bytes before it is performed, in the order of R14. -/
def State.access (s : State) (r : Req) (a n : Nat) : BitVec 8 :=
  let t := s.target a n
  firstFault
    [(St.unitAbsent, s.targetAbsent a t || s.routeDown r t), (St.notPermitted, !s.permitted r t), (St.badParam, t == .unmapped),
     (St.stateError, s.targetDraining t),
     (St.masterDisabled, match t with
       | .host l => (match r with
         | .fwp _ _ => !((s.link l).getFns 0).bme
         | _ => !((s.link l).getFns 1).bme)
       | _ => false)]

end Sys2Proof.Machine
end

