-- ==== Sys2Proof/Machine/Protection.lean ====
section
/-! DEFINITION. Decoding stored units: correction, poison, counting, the checker test and the Kennel ledger
(09_stored_data_protection.md R262-R281; R517). -/
namespace Sys2Proof.Machine

/-- What the decoder says of a unit; a miscorrection is free data (R264, R266). -/
inductive Verdict where
  | clean
  | corrected (symbols : Nat)
  | uncorrectable
  | poison
  | miscorrected (poison : Bool)
  deriving DecidableEq, Repr

/-- RD_RESULT of a verdict (R282). -/
def Verdict.code : Verdict → Nat
  | .clean => 0
  | .corrected _ => 1
  | .uncorrectable => 2
  | .poison => 3
  | .miscorrected p => if p then 3 else 1

/-- Symbols, or bits of an SRAM word, a code corrects (R262). -/
def limitOf (k : Nat) : Nat := if k < hbmEnd then 4 else if k < t2Base + 32 * t2Size then 2 else 1

/-- Check bytes of a line (R262, R281); zero data has zero check bytes. PRESUMED (log 12). -/
def checkBytes (k : Nat) (line : Bytes) : BitVec 64 :=
  if line.all (· = 0#8) then 0#64
  else if k < hbmEnd then Config.rsCheck 8 line
  else (Config.rsCheck 4 line) &&& 0xFFFFFFFF#64

/-- Check bytes of the poison word (R265). -/
def poisonCheck (k : Nat) : BitVec 64 :=
  if k < hbmEnd then 0xA5A5A5A5A5A5A5A5#64 else if k < t2Base + 32 * t2Size then 0xA5A5A5A5#64 else 0xFF#64

/-- The bytes a line is stored as: a tier-2 line is enciphered under its unit's key with its address as the tweak, unless
an armed write stored it as given (R437, R438). The poison word is stored as zeros (R265). -/
def State.storedLine (s : State) (u : Nat) : Bytes :=
  if !s.isClean u then List.replicate 64 0#8
  else match s.tgt u with
  | .t2 k => match s.rawLine u with
    | some r => leBytes 64 r.toNat
    | none => Config.cipher 1 true (leBytes 32 (s.t2key k).toNat) (leBytes 16 u) [] (s.bytesAt u 64)
  | _ => s.bytesAt u 64

/-- Check symbols of a unit that differ from the computed ones. -/
def State.chkErrors (s : State) (u : Nat) : Nat :=
  ((List.range 8).filter fun i => natBits (s.chkOf u).toNat (8 * i) 8 ≠ 0).length

/-- The stored check bytes of a line. -/
def State.storedCheck (s : State) (u : Nat) : BitVec 64 :=
  if s.isClean u then checkBytes u (s.storedLine u) ^^^ s.chkOf u else poisonCheck u

/-- The check line of group `grp` of tier-2 unit u as the package holds it: the 4 check bytes of each data line in slot order,
then bytes 60 to 63, which belong to the controller: free (R214). -/
def State.packageCheckLine (s : State) (u grp : Nat) : Bytes :=
  ((List.range 15).flatMap fun slot => leBytes 4 (s.storedCheck (groupAddr u grp + 64 * slot)).toNat) ++
    leBytes 4 (s.free (60 + grp))

/-- Decodes the unit u with `upset` symbols (bits of an SRAM word) in error besides what the checker test stored
(R262-R266). Beyond the limit the outcome is free, but a 2-bit error of a Hsiao word is detected.
PRESUMED (log 12). -/
def State.verdict (s : State) (u upset : Nat) : Verdict :=
  let d := s.chkErrors u + upset
  let beyond : Verdict :=
    if unitSize u = 8 ∧ d = 2 ∧ s.isClean u then .uncorrectable
    else match s.free u % 3 with
      | 0 => .uncorrectable
      | 1 => .miscorrected true
      | _ => .miscorrected false
  if !s.isClean u then (if upset = 0 then .poison else beyond)
  else if d = 0 then .clean
  else if d ≤ limitOf u then .corrected d
  else beyond

/-! ## Counting (R274, R275, R280) -/

/-- The last-error register pair of a controller. -/
def State.lastErr (s : State) (a : Nat) (ue scrub : Bool) (symbols : Nat) : State :=
  let hi := (if ue then 2 ^ 31 else 0) + (if scrub then 2 ^ 30 else 0) + symbols % 8 * 2 ^ 24 + a / 2 ^ 32 % 65536
  let lo := a % 2 ^ 32 / 64 * 64
  match s.tgt a with
  | .hbm stack _ =>
    (s.setReg (Reg.DIE_LAST_ERR_ADDR_LO (stack / 2) (stack % 2)).addr (BitVec.ofNat 32 lo)).setReg
      (Reg.DIE_LAST_ERR_UE (stack / 2) (stack % 2)).addr (BitVec.ofNat 32 hi)
  | .t2 u =>
    (s.setReg (Reg.HUB_T2_LAST_ERR_LO (u / 16) (u % 16)).addr (BitVec.ofNat 32 lo)).setReg
      (Reg.HUB_T2_LAST_ERR_HI (u / 16) (u % 16)).addr (BitVec.ofNat 32 hi)
  | _ => s

/-- The page whose bucket counts corrections of a unit (R275). -/
def State.bucketPage (s : State) (u : Nat) : Page :=
  if 2 ^ 51 ≤ u then ⟨.hub, (u - 2 ^ 51) / 2 ^ 20 % 2⟩
  else if 2 ^ 50 ≤ u then ⟨.clu, (u - 2 ^ 50) / 2 ^ 17 / 18⟩
  else if 2 ^ 49 ≤ u then ⟨.clu, (u - 2 ^ 49) / 2 ^ 17 / 18⟩
  else if 2 ^ 48 ≤ u then ⟨.clu, (u - 2 ^ 48) / 2 ^ 20 / 18⟩
  else match s.tgt u with
    | .hbm stack _ => ⟨.hmc, stack⟩
    | .t2 k => ⟨.lpc, k / 4⟩
    | .pool gc => ⟨.clu, gc⟩
    | .sram h _ => ⟨.hub, h⟩
    | _ => ⟨.hub, 0⟩

/-- A correction: counted unless the unit is in the filter, which it enters (R274, R275). -/
def State.countCorrection (s : State) (u symbols : Nat) (scrub : Bool) : State :=
  let a := s.arrayOf u
  if (s.filterOf a).units.contains u then s
  else
    let s := s.modFilterOf a fun f => { f with units := (u :: f.units).take 64 }
    let s := match s.tgt u with
      | .hbm stack _ => s.bump (Reg.DIE_CE_COUNT (stack / 2) (stack % 2))
      | .t2 k => s.bump (Reg.HUB_T2_CE_COUNT (k / 16) (k % 16))
      | .sram h _ => s.bump (Reg.HUB_SRAM_CE h)
      | _ => if 2 ^ 51 ≤ u then s.bump (Reg.HUB_SRAM_CE (s.bucketPage u).inst) else s
    (s.lastErr u false scrub symbols).bucket (s.bucketPage u)

/-- The partition that owns a byte, 0xFF for none, as the black box records it. -/
def State.ownerOf (s : State) (k : Nat) : Nat :=
  let p := match s.tgt k with
    | .hbm _ u => s.unitPart u
    | .t2 u => s.unitPart (80 + u)
    | .pool gc => s.clusterPart gc
    | .sram h off => s.granulePart h (off / 2 ^ 18)
    | _ => if 2 ^ 48 ≤ k ∧ k < 2 ^ 51 then s.clusterPart (s.bucketPage k).inst else 15
  if p < 12 then p else 0xFF

/-- The fabric address of a home key: a byte of a data memory lies in the window of the logical core that its slot runs (R37,
R38). What has no fabric address is recorded under a free one. DESIGN CHOICE (log 93). -/
def State.fabricOf (s : State) (k : Nat) : Nat :=
  if k < 2 ^ 48 then k
  else
    let p := (k - 2 ^ 48) / 2 ^ 20
    if 2 ^ 49 ≤ k then s.free k % 2 ^ 64
    else match s.lcOf (p / 18) (p % 18) with
      | some lc => dmemBase + lc * 2 ^ 20 + k % 2 ^ 20
      | none => s.free k % 2 ^ 64

/-- A 4 KiB range becomes a candidate for retirement (R279). -/
def State.noteDue (s : State) (a : Nat) : State :=
  s.modPatrol (s.arrayOf a) fun f => if f.due.contains (a / 4096) then f else { f with due := f.due ++ [a / 4096] }

/-- An uncorrectable error: the poison word is written back, the error counted, reported and logged (R269, R280). -/
def State.countUncorrectable (s : State) (u : Nat) (scrub : Bool) : State :=
  let part := s.ownerOf u
  let s := (s.poisonUnit u).freshUnit u
  let s := s.lastErr u true scrub 0
  let s := match s.tgt u with
    | .hbm stack _ => (s.bump (Reg.DIE_UE_COUNT (stack / 2) (stack % 2))).err ⟨.hmc, stack⟩ 17 Sev.deferred part
    | .t2 k => (s.bump (Reg.HUB_T2_UE_COUNT (k / 16) (k % 16))).err ⟨.lpc, k / 4⟩ 20 Sev.deferred part
    | .sram h _ => (s.bump (Reg.HUB_SRAM_UE h)).err ⟨.hub, h⟩ 16 Sev.deferred part
    | _ => if 2 ^ 51 ≤ u then
        let h := (s.bucketPage u).inst
        (s.bump (Reg.HUB_SRAM_UE h)).err ⟨.hub, h⟩ 16 Sev.deferred part
      else s
  let s := if u < t2Base + 32 * t2Size then s.noteDue u else s
  s.bbAdd 0x0007 Sev.deferred (some (s.bucketPage u)) part (leBytes 8 (s.fabricOf u) ++ [0#8])

/-- What a decoded read finds: the state after counting, whether the unit delivers poison, and whether its data is not what
it holds: a miscorrection's, or the data of an uncorrectable error (R264, R269). -/
structure Decoded where
  state : State
  poison : Bool
  wrong : Bool

/-- Decodes one unit on a read, counting and writing poison back (R266, R269, R273). -/
def State.decodeUnit (s : State) (u upset : Nat) (scrub : Bool) : Decoded :=
  match s.verdict u upset with
  | .clean => ⟨s, false, false⟩
  | .poison => ⟨s, true, false⟩
  | .corrected n => ⟨s.countCorrection u n scrub, false, false⟩
  | .uncorrectable => ⟨(s.countUncorrectable u scrub).draw, true, true⟩
  | .miscorrected p => ⟨(s.countCorrection u (limitOf u) scrub).draw, p, !p⟩

/-! ## The checker test (R281) -/

/-- The TEST_CTL word of a controller. -/
def TestCtl.ctl : TestCtl → Nat
  | .hmc k => (Reg.DIE_TEST_CTL_WR_ARM (k / 2) (k % 2)).addr
  | .t2 h => (Reg.HUB_T2_TEST_CTL h).addr

def TestCtl.page : TestCtl → Page
  | .hmc k => ⟨.die, k / 2⟩
  | .t2 h => ⟨.hub, h⟩

/-- TEST_ADDR, TEST_CHECK and TEST_CHECK_RD (R282, R283). -/
def State.testAddr (s : State) (c : TestCtl) : Nat :=
  (s.reg (c.ctl + 4)).toNat / 64 * 64 + (s.reg (c.ctl + 8)).toNat % 65536 * 2 ^ 32

def State.testCheck (s : State) (c : TestCtl) : BitVec 64 :=
  match c with
  | .hmc _ => (s.reg (c.ctl + 16)) ++ (s.reg (c.ctl + 12))
  | .t2 _ => (s.reg (c.ctl + 12)).setWidth 64

/-- The controller that serves a line (R281). -/
def State.testCtlOf (s : State) (a : Nat) : Option TestCtl :=
  match s.tgt a with
  | .hbm stack _ => some (.hmc (Fin.ofNat 20 stack))
  | .t2 u => some (.t2 (Fin.ofNat 2 (u / 16)))
  | _ => none

/-- The test line of a controller is outside its memory or in a granule of a partition (R281). -/
def State.armRefused (s : State) (c : TestCtl) : Bool :=
  let a := s.testAddr c
  s.testCtlOf a != some c || (match s.tgt a with
    | .hbm _ u => s.unitPart u ≠ 15
    | .t2 u => s.unitPart (80 + u) ≠ 15
    | _ => true)

/-- The controller whose arm (bit 31 WR_ARM, bit 30 RD_ARM) waits for the line at a. Test mode cannot reach a partition's
data: an arm whose line a partition has come to hold, or whose TEST_ADDR has been written since, has no effect there (R281).
DEDUCED (log 18). -/
def State.armedAt (s : State) (bit a : Nat) : Option TestCtl :=
  match s.testCtlOf a with
  | some c => if (s.reg c.ctl).getLsbD bit && s.testAddr c = a / 64 * 64 && !s.armRefused c then some c else none
  | none => none

/-- A whole-line write to an armed line stores the chosen check bytes (R281). -/
def State.testWrite (s : State) (c : TestCtl) (u : Nat) : State :=
  let s := s.setReg c.ctl (s.reg c.ctl &&& ~~~ 0x80000000#32)
  let line := s.bytesAt u 64
  let want := s.testCheck c
  if line.all (· = 0#8) ∧ want = poisonCheck u then s.poisonUnit u
  else
    let s := s.setChkOf u (want ^^^ checkBytes u line)
    match s.tgt u with
    | .t2 k =>
      -- stored as given, so a normal read delivers it deciphered (R438)
      let plain := Config.cipher 1 false (leBytes 32 (s.t2key k).toNat) (leBytes 16 u) [] line
      (s.putBytes u (plain.take 64)).setRawLine u (some (BitVec.ofNat 512 (leNat line)))
    | _ => s

/-- A read of an armed line latches the check bytes and the verdict, and counts nothing (R281). Which bytes an upset met is
free. -/
def State.testRead (s : State) (c : TestCtl) (u upset : Nat) : State :=
  let chk := if upset = 0 then s.storedCheck u else BitVec.ofNat 64 (s.free u)
  let v := (s.verdict u upset).code
  let ctl := (s.reg c.ctl &&& ~~~ 0x40000003#32) ||| BitVec.ofNat 32 v
  let s := s.setReg c.ctl ctl
  match c with
  | .hmc _ => (s.setReg (c.ctl + 20) (chk.setWidth 32)).setReg (c.ctl + 24) ((chk >>> 32).setWidth 32)
  | .t2 _ => s.setReg (c.ctl + 16) (chk.setWidth 32)

/-! ## Records of Lamplighter (R517, R521) -/

/-- Number of entries of the Kennel ledger (R517). -/
def ledgerMax : Nat := 32768

/-- An entry as it stands in flash (R517). -/
def LedgerEntry.bytes (e : LedgerEntry) : Bytes :=
  let b := [e.kind] ++ List.replicate 3 0#8 ++ leBytes 4 e.boot.toNat ++ leBytes 8 e.location.toNat ++
    leBytes 4 e.detail.toNat ++ List.replicate 8 0#8
  b ++ leBytes 4 (crc32c b).toNat

/-- Appends a ledger entry whose DETAIL is the SEQ of the failure's record; a full ledger leaves a LEDGER_FULL record
(R517). -/
def State.ledgerAppend (s : State) (kind : BitVec 8) (location : Nat) (seq : Nat) (src : Option Page) : State :=
  let e : LedgerEntry := { kind := kind, boot := s.bru.bootCount, location := BitVec.ofNat 64 location, detail := BitVec.ofNat 32 seq }
  if ledgerMax ≤ s.bru.ledger.length then s.bbAdd 0x0009 Sev.contained src 0xFF e.bytes
  else
    let l := s.bru.ledger ++ [e]
    { s with bru := { s.bru with ledger := l } }.wr (Reg.BRU_LEDGER_GEN 0) l.length

end Sys2Proof.Machine
end

