-- ==== Sys2Proof/Machine/Ops.lean ====
section
/-! DEFINITION. The named operations over memory, beacons and cores that every meaning shares: line reads and writes at
their homes, beacon changes with the watches they fire, pending signals, and taking a core's trap. -/
namespace Sys2Proof.Machine

/-- The answer of a command. -/
abbrev Res := Host.Outcome State Fault Refusal

/-- A write of a register that has a command of its own reaches a page that serves its registers: in OFF it is refused and
recorded, and a FENCED or RESETTING page turns it away (R56, R59, R505). -/
def withPage (p : Page) (off : Nat) (s : State) (f : State → Res) : Res :=
  if s.st p = PS.off then .next (s.ignoreWrite p off)
  else if s.pageGone p off then .next (if p.isHub then s else s.bump (Reg.NOC_ABSENT p.dieNum))
  else f s

/-! ## Lines at their homes (R218, R219, R228, R229) -/

/-- Outcome of a read: status, data and the poison mark (R266). -/
structure RdRes where
  status : BitVec 8
  data : Bytes
  poison : Bool
  deriving DecidableEq, Repr

/-- A tier-2 access takes its check line from the check cache or from the package; which lines the cache holds is not
stated: free (R214, R229). DESIGN CHOICE (log 24). -/
def State.checkLine (s : State) (u : Nat) : State := (s.step1 (Reg.LPC_CHK_MISS (u / 4) (u % 4)) (s.free 40 % 2)).draw

/-- The controller's count of lines read. -/
def State.countRead (s : State) (t : Tgt) : State :=
  match t with
  | .hbm stack _ => s.step64 (Reg.HMC_RD_LINES_LO stack)
  | .t2 u => (s.step1 (Reg.LPC_RD_LINES (u / 4) (u % 4))).checkLine u
  | _ => s

/-- The controller's counts of a line written and of a partial write (R228). -/
def State.countWrite (s : State) (t : Tgt) (partialLine : Bool) : State :=
  match t with
  | .hbm stack _ =>
    let s := s.step64 (Reg.HMC_WR_LINES_LO stack)
    if partialLine then s.step1 (Reg.HMC_RMW stack) else s
  | .t2 u =>
    let s := (s.step1 (Reg.LPC_WR_LINES (u / 4) (u % 4))).checkLine u
    if partialLine then s.step1 (Reg.LPC_RMW (u / 4) (u % 4)) else s
  | _ => s

/-- A byte as a reader finds it: a byte of the output area of a drain that runs reads as the old or the new value
(R117). DESIGN CHOICE (log 15). -/
def State.seenByte (s : State) (k : Nat) : BitVec 8 :=
  if 2 ^ 48 ≤ k ∧ k < 2 ^ 49 then
    match ((s.core ((k - 2 ^ 48) / 2 ^ 20)).mrun.flatMap (·.out)).find? (fun c => c.1 = k) with
    | some c => if s.free k % 2 = 0 then s.byteAt k else c.2
    | none => s.byteAt k
  else s.byteAt k

/-- One access of at most a line reads its home: counted, armed reads of the checker test deliver the stored bytes, and
every protected unit is decoded (R218, R266, R269, R281). `upset` symbols of the first unit are in error besides what the
checker test stored. A unit that holds the poison word delivers its zeros, one found uncorrectable free data, both under the
mark, and the other units of the access their own bytes. -/
def State.loadAt (s : State) (a n upset : Nat) : State × RdRes :=
  let k := s.home a
  let s := s.countRead (s.tgt a)
  match s.armedAt 30 a with
  | some c =>
    let line := if upset = 0 then s.storedLine (unitOf k) else (List.range 64).map fun i => BitVec.ofNat 8 (s.free (100 + i))
    ((s.testRead c (unitOf k) upset).draw, ⟨St.ok, (line.drop (k % 64)).take n, false⟩)
  | none =>
    let us := unitsOf k n
    let d := us.foldl (fun (acc : State × List Nat × List Nat) u =>
      let x := acc.1.decodeUnit u (if us.head? = some u then upset else 0) false
      (x.state, if x.poison then u :: acc.2.1 else acc.2.1, if x.wrong then u :: acc.2.2 else acc.2.2)) (s, [], [])
    let bytes := (List.range n).map fun i =>
      let u := unitOf (k + i)
      if d.2.2.contains u then BitVec.ofNat 8 (s.free (2 ^ 52 + k + i))
      else if d.2.1.contains u then 0#8
      else s.seenByte (k + i)
    (d.1, ⟨St.ok, bytes, !d.2.1.isEmpty⟩)

/-- Pieces of a range cut at the 64-byte lines of its addresses: (address, length). -/
def linePieces : Nat → Nat → Nat → List (Nat × Nat)
  | 0, _, _ => []
  | f + 1, a, n =>
    if n = 0 then []
    else
      let m := min n (64 - a % 64)
      (a, m) :: linePieces f (a + m) (n - m)

/-- The lines of a range. -/
def linesOf (a n : Nat) : List (Nat × Nat) := linePieces (n / 64 + 2) a n

/-- A fenced or resetting unit of a die that answers UNIT_ABSENT counts the answer in its die's NOC page (R505). -/
def State.countAbsent (s : State) (a : Nat) (st : BitVec 8) : State :=
  let bump (p : Page) : State :=
    if st = St.unitAbsent ∧ (s.st p = PS.fenced ∨ s.st p = PS.resetting) then s.bump (Reg.NOC_ABSENT p.dieNum) else s
  match s.tgt a with
  | .hbm stack _ => bump ⟨.hmc, stack⟩
  | .pool gc => bump ⟨.clu, gc⟩
  | .beacon id _ => bump ⟨.clu, id / 128⟩
  | .dmem lc _ =>
    if s.clusterGone (lc / 16) then bump ⟨.clu, lc / 16⟩
    else match s.slotOf lc with
      | some k => bump ⟨.cor, slotKey (lc / 16) k⟩
      | none => s
  | .reg off => (match pageAt off with
    | some p => if p.isHub then s else bump p
    | none => s)
  | _ => s

/-- Status of an access by a unit that acts for no slice: a host-link window takes none (R39, R40). -/
def State.localStatus (s : State) (r : Req) (a n : Nat) : BitVec 8 :=
  let st := s.access r a n
  match s.tgt a with
  | .host _ => if st = St.ok then St.notPermitted else st
  | _ => st

/-- Reads a range line by line for a requester; the first line that is refused ends it (R40, R218). -/
def State.readMem (s : State) (r : Req) (a n : Nat) : State × RdRes :=
  (linesOf a n).foldl (fun (acc : State × RdRes) p =>
    if acc.2.status ≠ St.ok then acc
    else
      let st := acc.1.localStatus r p.1 p.2
      if st ≠ St.ok then (acc.1.countAbsent p.1 st, ⟨st, acc.2.data, acc.2.poison⟩)
      else
        let x := acc.1.loadAt p.1 p.2 0
        (x.1, ⟨St.ok, acc.2.data ++ x.2.data, acc.2.poison || x.2.poison⟩))
    (s, ⟨St.ok, [], false⟩)

/-! ### Holds of Lantern (R536) -/

/-- The granule of 64 KiB that holds an address. -/
def granuleOf (a : Nat) : Nat := a / 65536

/-- The partition whose running snapshot has still to copy the granule of an address. -/
def State.pendingPart (s : State) (a : Nat) : Option Nat :=
  (List.range 12).find? fun p => (s.snap p).pendingG.contains (granuleOf a)

/-- Occupancy of the urgent queue of a hub (R536, R546). -/
def State.urgentCount (s : State) (h : Nat) : Nat :=
  ((List.range 12).map fun p => if s.partHub p = h then (s.snap p).urgent.length else 0).foldl (· + ·) 0

/-- SNP_URGENT and SNP_HELD of a partition as they stand (R546). -/
def State.showHeld (s : State) (p : Nat) : State :=
  let h := s.partHub p
  (s.wr (Reg.SNP_URGENT h) (min 64 (s.urgentCount h))).wr (Reg.SNP_HELD h p) (s.snap p).held.length

/-- A write is held at its home: counted, and its granule asked for unless it has been (R536). A home that finds the urgent
queue full sets URGENT_FULL and waits for room (R546). DEDUCED (log 66). -/
def State.hold (s : State) (p : Nat) (w : HeldWrite) : State :=
  let h := s.partHub p
  let g := granuleOf w.addr
  let s := (s.modSnap p fun x => { x with held := x.held ++ [w] }).bump (Reg.SNP_HELD_TOTAL h)
  let s := if (s.snap p).urgent.contains g then s
    else
      let full := decide (64 ≤ s.urgentCount h)
      let s := s.modSnap p fun x => { x with urgent := x.urgent ++ [g] }
      if full then s.err ⟨.snp, h⟩ 17 else s
  s.showHeld p

/-- A command whose writes meet a granule still to be copied has not happened: its writes are held, unacknowledged, and the
engine's event comes again once the granule has been copied (R536). DEDUCED (log 66). -/
def orHeld (s : State) (r : Res) : Res :=
  match r with
  | .next t =>
    if t.holdHit.isEmpty then .next t
    else .next (t.holdHit.foldl (fun s a => match s.pendingPart a with
      | some p => s.hold p ⟨a, [], none, none, true⟩
      | none => s) s)
  | r => r

/-- Writes the runs of one line at its home: a partial write of HBM or tier 2 is one read-modify-write, which decodes the
line first; a whole write of an armed line stores the chosen check bytes (R219, R267, R268, R281). -/
def State.storeRuns (s : State) (a : Nat) (runs : List Run) : State :=
  let k := s.home a
  let whole := decide ((runs.map (·.2.1.length)).sum = 64)
  let marked := runs.any (·.2.2)
  let s := if (s.pendingPart a).isSome then { s with holdHit := s.holdHit ++ [a] } else s
  let s := if unitSize k = 64 ∧ !whole ∧ !marked then (s.decodeUnit (unitOf k) 0 false).state else s
  let s := runs.foldl (fun s r => s.writeHome (k + r.1) r.2.1 r.2.2) s
  let s := match s.armedAt 31 a with
    | some c => if whole && !marked then s.testWrite c (unitOf k) else s
    | none => s
  s.countWrite (s.tgt a) !whole

/-- Writes one piece of a line at its home. -/
def State.storeAt (s : State) (a : Nat) (bs : Bytes) (mark : Bool) : State := s.storeRuns (a / 64 * 64) [(a % 64, bs, mark)]

/-- Writes a range line by line for a requester; the first refused line ends it, and the lines before it stand. -/
def State.writeMem (s : State) (r : Req) (a : Nat) (bs : Bytes) (mark : Bool) : State × BitVec 8 :=
  (linesOf a bs.length).foldl (fun (acc : State × BitVec 8) p =>
    if acc.2 ≠ St.ok then acc
    else
      let st := acc.1.localStatus r p.1 p.2
      if st ≠ St.ok then (acc.1.countAbsent p.1 st, st)
      else (acc.1.storeAt p.1 ((bs.drop (p.1 - a)).take p.2) mark, St.ok))
    (s, St.ok)

/-- Who a function of a link is to the host when it acts for no slice (R324, R459). -/
def State.fnId (s : State) (l fn : Nat) : HostId := ⟨l, fn, ((s.link l).getFns fn).rid, none⟩

/-- Who a slice is to the host: its requests go out on its partition's link with its RID and PASID (R39, R324). -/
def State.sliceId (s : State) (x : Slice) : HostId := ⟨s.partHub x.part, x.func, x.rid, some x.pasid⟩

/-- Number of a PASID, 0 for none. -/
def pasidSpace (p : Option (BitVec 20)) : Nat :=
  match p with
  | some p => p.toNat + 1
  | none => 0

/-- Number of a requester on its link. -/
def HostId.key (w : HostId) : Nat := ((w.fn * 2 ^ 16 + w.rid.toNat) * 2 ^ 21 + pasidSpace w.pasid)

/-- Key of a byte of host memory as a requester addresses it: the image of what the device has written there, by link,
function, requester ID, PASID and address (R39, R298, R324). -/
def hostKey (w : HostId) (a : Nat) : Nat := (w.link * 2 ^ 40 + w.key) * 2 ^ 64 + a % 2 ^ 64

/-- Bytes that the device writes into host memory. DESIGN CHOICE (log 6). -/
def State.hostWrite (s : State) (w : HostId) : Nat → Bytes → State
  | _, [] => s
  | a, b :: bs => { s with hostMem := SMap.ins s.hostMem (hostKey w a) b }.hostWrite w (a + 1) bs

/-- A function of a link may issue requests: Bus Master Enable set, in D0, the link up (R305, R307). -/
def State.fnMaster (s : State) (link fn : Nat) : Bool :=
  let f := (s.link link).getFns fn
  f.bme && !f.d3 && (s.link link).up

/-- Status of a device request made for slice k, before it is sent (R305, R325, R326, R475). -/
def State.sliceStatus (s : State) (k : Nat) : BitVec 8 :=
  match s.slice k with
  | none => St.notPermitted
  | some x =>
    let l := s.partHub x.part
    let f := (s.link l).getFns x.func
    firstFault
      [(St.unitAbsent, !(s.link l).up), (St.notPermitted, x.suspended || x.dying.isSome),
       (St.masterDisabled, !f.bme || f.d3 || (x.func = 1 && s.rd (Reg.FWP_LINK_STATE 0 l) ≠ 0))]

/-- Pages of 4 KiB that a write touches. -/
def touched (a n : Nat) : List Nat := (List.range ((a + n - 1) / 4096 - a / 4096 + 1)).map (a / 4096 + ·)

/-- Every page that a write touches lies in the logged range. -/
def Slice.inLog (x : Slice) (a n : Nat) : Bool :=
  (touched a n).all fun p => x.logIova.toNat / 4096 ≤ p && p < x.logIova.toNat / 4096 + x.logPages.toNat

/-- The dirty-page log of a write made for a slice (R327, R328): the active bitmap takes the bit of every page touched; a
write that touches a page outside the logged range, or whose bitmap read fails, adds 1 to MISSED instead.
DEDUCED (log 60). -/
def Slice.logWrite (x : Slice) (a n : Nat) (logFail : Bool) : Slice :=
  if !x.dlog ∨ n = 0 then x
  else if logFail ∨ !x.inLog a n then { x with missed := if x.missed = 0xFFFFFFFF#32 then x.missed else x.missed + 1#32 }
  else
    let base := if x.active then 2 ^ 64 else 0
    (touched a n).foldl (fun x p => x.setBits (base + (p - x.logIova.toNat / 4096)) true) x

/-- Bytes of the active bitmap that a write touches, with the bits it sets in each (R327). -/
def Slice.logBytes (x : Slice) (a n : Nat) : List (Nat × BitVec 8) :=
  let iova := x.logIova.toNat / 4096
  let first := a / 4096 - iova
  let last := (a + n - 1) / 4096 - iova
  let room := (x.logPages.toNat + 32767) / 32768 * 4096
  let base := x.logBase.toNat + (if x.active then room else 0)
  (List.range (last / 8 - first / 8 + 1)).map fun j =>
    let b := first / 8 + j
    (base + b, (List.range 8).foldl (fun v i =>
      if first ≤ 8 * b + i ∧ 8 * b + i ≤ last then v ||| (1#8 <<< i) else v) 0#8)

/-- The logger reads each byte of the active bitmap, ORs the bits in and writes it back, ahead of the data write. What the
host's byte held is the host's: free in its other bits (R327). -/
def State.logBitmap (s : State) (x : Slice) (a n : Nat) (logFail : Bool) : State :=
  if !x.dlog ∨ n = 0 ∨ logFail ∨ !x.inLog a n then s
  else ((x.logBytes a n).foldl (fun s e => s.hostWrite (s.sliceId x) e.1 [BitVec.ofNat 8 (s.free e.1) ||| e.2]) s).draw

/-- A function asks the host for translations (R284). -/
def State.translates (s : State) (w : HostId) : Bool := ((s.link w.link).getFns w.fn).atsEn

/-- A translation that the link's cache did not hold is fetched from the host and kept, in the place of some other one
when 4,096 are held; which one leaves, and the translation, are the host's and the cache's own: free (R284).
DEDUCED (log 59). -/
def State.atsUse (s : State) (w : HostId) (a : Nat) : State :=
  if !s.translates w then s
  else
    let key := w.key * 2 ^ 52 + a / 4096 % 2 ^ 52
    let m := (s.link w.link).ats
    if m.any (fun e => e.1 = key) then s
    else
      let m := if 4096 ≤ m.length then m.eraseIdx (s.free 0 % 4096) else m
      (s.modLink w.link fun k => { k with ats := SMap.ins m key (BitVec.ofNat 64 (s.free 1)) }).draw

/-- Status of a write of the device to host memory: a translation that ATS cannot give, or gives without the right it needs,
is NOT_PERMITTED (R303). -/
def State.putStatus (s : State) (w : HostId) (how : HostWrite) : BitVec 8 :=
  if how = .noTranslation ∧ s.translates w then St.notPermitted else St.ok

/-- Who sends a request made for a slice, or by a function for none. -/
def State.sender (s : State) (link fn : Nat) (slice : Option Nat) : HostId :=
  match slice.bind s.slice with
  | some x => s.sliceId x
  | none => s.fnId link fn

/-- A write of the device to host memory: for a slice under its requester ID and PASID, and logged; else under the function's
own requester ID with no PASID. Data that carries poison goes out with EP set. One that gets no translation is not sent (R39,
R298, R303, R304, R324, R327). -/
def State.hostPut (s : State) (link : Nat) (slice : Option Nat) (a : Nat) (bs : Bytes) (mark : Bool)
    (how : HostWrite := .done) (fn : Nat := 0) : State :=
  let w := s.sender link fn slice
  let failed : Bool := how = HostWrite.logFail
  let gone : Bool := match slice with
    | some k => (s.slice k).isNone
    | none => false
  if gone ∨ s.putStatus w how ≠ St.ok then s
  else
    let s := if mark then s.out (.epWrite w.link a) else s
    let s := match slice.bind fun k => (s.slice k).map fun x => (k, x) with
      | none => s
      | some (k, x) => (s.logBitmap x a bs.length failed).setSlice k (some (x.logWrite a bs.length failed))
    (s.atsUse w a).hostWrite w a bs

/-! ## Answers of a host link to reads of the device (R301-R304) -/

def pcePage (l : Nat) : Page := ⟨.pce, l⟩

/-- A received poisoned TLP is reported, counted, and sets bit 19 (R304, R309). -/
def State.poisonRx (s : State) (l : Nat) : State :=
  ((s.out (.aer l .poisonedTlp)).err (pcePage l) 19).bucket (pcePage l)

/-- Bits of the tags that a function uses: 14 in flit mode alone (R284, R299). -/
def State.tagBits (s : State) (l fn : Nat) : Nat :=
  let f := (s.link l).getFns fn
  if f.tag14 && s.on (Reg.PCE_LINK_FLIT l) then 14 else if f.tag10 then 10 else 8

/-- A tag of the space in use: of 10-bit tags those whose bits [9:8] are 0b00 are not used (R299). -/
def tagUsable (bits tag : Nat) : Bool :=
  match bits with
  | 8 => tag < 256
  | 10 => 256 ≤ tag && tag < 1024
  | _ => tag < 16384

/-- A request of a function may take a tag (R299, R301): one of its space, neither in flight nor in quarantine, while fewer than
4,096 are in flight on the link. -/
def State.tagFree (s : State) (l fn tag : Nat) : Bool :=
  let ts := (s.link l).tags
  tagUsable (s.tagBits l fn) tag && ts.all (fun t => t.tag ≠ tag) && (ts.filter (!·.quar)).length < 4096

/-- The lowest tag that a request may take. Which one the endpoint takes is not stated. DESIGN CHOICE (log 28). -/
def State.freeTag (s : State) (l fn : Nat) : Option Nat :=
  (List.range ((s.link l).tags.length + 257)).find? fun t => s.tagFree l fn t

/-- A read of the device waits while its function has no tag left: its command has not happened (R299). -/
def waitTag (s : State) (l fn : Nat) (reads : List HostRead) (r : Res) : Res :=
  if reads.contains .timeout ∧ (s.freeTag l fn).isNone then .next s else r

/-- A read made for a slice waits for a tag in the same way. -/
def waitSliceTag (s : State) (slice : Nat) (reads : List HostRead) (r : Res) : Res :=
  match s.slice slice with
  | some x => waitTag s (s.partHub x.part) x.func reads r
  | none => r

/-- A request that times out is reported, counted and sets bit 16; its tag is in quarantine (R301, R309). -/
def State.hostTimeout (s : State) (w : HostId) (tag : Nat) : State :=
  let l := w.link
  let s := ((s.out (.aer l .completionTimeout)).bump (Reg.PCE_CTO_COUNT l)).err (pcePage l) 16
  let s := s.bucket (pcePage l)
  let t : Tag :=
    { tag := tag, fn := w.fn, rid := w.rid, pasid := w.pasid, req := .none, quar := true, flr := false,
      cto := s.rd (Reg.PCE_CTO l) }
  s.modLink l fun k => { k with tags := t :: k.tags.filter (·.tag ≠ tag) }

/-- What the requester of a host read gets: a status, the first n bytes and a poison mark (R301, R303, R304). A read that gets no
completion in time is one that has taken a tag. -/
def State.hostReadEnd (s : State) (w : HostId) (n : Nat) (h : HostRead) : State × RdRes :=
  match h with
  | .data bs poison =>
    (if poison then s.poisonRx w.link else s, ⟨St.ok, (bs ++ List.replicate n 0#8).take n, poison⟩)
  | .refused => (s, ⟨St.notPermitted, [], false⟩)
  | .noTranslation => (s, ⟨St.notPermitted, [], false⟩)
  | .timeout =>
    (match s.freeTag w.link w.fn with
     | some tag => s.hostTimeout w tag
     | none => s, ⟨St.ok, List.replicate n 0#8, true⟩)

/-- A read of host memory made for a slice: refused before it is sent, or answered by the host. One that gets no translation
is not sent and leaves none in the cache (R39, R303, R324-R326). -/
def State.sliceRead (s : State) (k a n : Nat) (h : HostRead) : State × RdRes :=
  let st := s.sliceStatus k
  if st ≠ St.ok then (s, ⟨st, [], false⟩)
  else match s.slice k with
    | none => (s, ⟨St.notPermitted, [], false⟩)
    | some x =>
      let w := s.sliceId x
      (if h = .noTranslation then s else s.atsUse w a).hostReadEnd w n h

/-! ## Lines that a host-link window may hold (R39) -/

/-- What a line reads: its bytes, a poison mark, or the status of its error. -/
structure LineSrc where
  data : Bytes
  poison : Bool
  status : BitVec 8
  deriving DecidableEq, Repr

/-- The slice on whose behalf a line of a requester reaches a host-link window is one of the requester's partition (R39). -/
def State.lineSlice (s : State) (r : Req) (k : Nat) : BitVec 8 :=
  match s.slice k with
  | some x => if s.reqPart r = x.part then s.sliceStatus k else St.notPermitted
  | none => St.notPermitted

/-- Status of an access of a requester to the range of a host-link window, for a slice. -/
def State.windowStatus (s : State) (r : Req) (a n slice : Nat) : BitVec 8 :=
  let st := s.access r a n
  if st = St.ok then s.lineSlice r slice else st

/-- Bytes read for a line: a source in a host-link window is read over that link with the PASID of a slice (R39). -/
def State.lineRead (s : State) (r : Req) (a n slice : Nat) (host : HostRead) : State × LineSrc :=
  match s.target a n with
  | .host _ =>
    let st := s.windowStatus r a n slice
    if st ≠ St.ok then (s, ⟨[], false, st⟩)
    else
      let x := s.sliceRead slice (a % 2 ^ 46) n host
      (x.1, ⟨x.2.data, x.2.poison, x.2.status⟩)
  | _ =>
    let x := s.readMem r a n
    (x.1, ⟨x.2.data, x.2.poison, x.2.status⟩)

/-- Writes a line; a destination in a host-link window leaves on that link with the PASID of a slice (R39). -/
def State.lineWrite (s : State) (r : Req) (a : Nat) (bs : Bytes) (mark : Bool) (slice : Nat) (host : HostWrite) :
    State × BitVec 8 :=
  match s.target a bs.length with
  | .host l =>
    let st := s.windowStatus r a bs.length slice
    if st ≠ St.ok then (s, st)
    else (s.hostPut l (some slice) (a % 2 ^ 46) bs mark host, s.putStatus (s.sender l 0 (some slice)) host)
  | _ => s.writeMem r a bs mark

/-! ## Beacons (R176-R187) -/

/-- A value reaches a target (R177). -/
def reaches (v t : BitVec 32) : Bool := decide ((v - t).toNat < 2 ^ 31)

/-- The watches of a beacon that its value reaches are answered FIRED and freed (R187). -/
def State.fireWatches (s : State) (id : Nat) : State :=
  let gc := id / 128
  let v := s.beacon id
  let hit (w : Watch) : Bool := w.bid = id && reaches v w.target
  let ws := (s.cluster gc).watches.filter hit
  let s := ws.foldl (fun s w => s.watchAnswer w 0 v) s
  if ws.isEmpty then s else s.modCluster gc fun c => { c with watches := c.watches.filter fun w => !hit w }

/-- Sets a beacon and tests its watches (R176, R187). -/
def State.beaconSet (s : State) (id : Nat) (v : BitVec 32) : State := (s.setBeacon id v).fireWatches id

/-- Adds to a beacon, modulo 2^32, and tests its watches (R176, R187). -/
def State.beaconAdd (s : State) (id : Nat) (n : BitVec 32) : State := s.beaconSet id (s.beacon id + n)

/-- An add enters a cluster's pending-signal table, folded into the pending sum of its id (R182). -/
def State.sigCluster (s : State) (gc id : Nat) (n : BitVec 32) : State :=
  if n = 0#32 then s else s.modCluster gc fun c => c.setTable id (c.getTable id + n)

def hubTableKey (hub : Nat) (e : Engine) (id : Nat) : Nat := (hub * 16 + e.num) * 32768 + id

/-- An add enters the pending-signal table of a kind of hub engine (R182). -/
def State.sigHub (s : State) (hub : Nat) (e : Engine) (id : Nat) (n : BitVec 32) : State :=
  if n = 0#32 then s else s.modHubSum (hubTableKey hub e id) (· + n)

/-- A beacon that a core of a cluster may name in the partition (R165): its own cluster's, or one of its partition's. -/
def State.beaconInPart (s : State) (gc id : Nat) : Bool :=
  id < beaconCount && (id / 128 = gc || (s.clusterPart gc ≠ 15 && s.clusterPart (id / 128) = s.clusterPart gc))

/-- A beacon of a partition (R178). -/
def State.beaconOfPart (s : State) (p id : Nat) : Bool := id < beaconCount && s.clusterPart (id / 128) = p

/-- Arms a watch (R187): answered at once when the target is reached, refused when all 64 entries are in use. -/
def State.armWatch (s : State) (w : Watch) : State :=
  let gc := w.bid / 128
  if s.clusterGone gc then s.watchAnswer w 3 0#32
  else if reaches (s.beacon w.bid) w.target then s.watchAnswer w 0 (s.beacon w.bid)
  else if 64 ≤ (s.cluster gc).watches.length then
    ((s.watchAnswer w 1 (s.beacon w.bid)).err ⟨.clu, gc⟩ 16).bucket ⟨.clu, gc⟩
  else
    let s := s.modCluster gc fun c => { c with watches := c.watches ++ [w] }
    let n := (s.cluster gc).watches.length
    if s.rd (Reg.CLU_WATCH_PEAK gc) < n then s.wr (Reg.CLU_WATCH_PEAK gc) n else s

/-- Disarms the watch with a tag (R187): answered DISARMED, or ignored when it has gone. -/
def State.disarmWatch (s : State) (gc : Nat) (hub : Nat) (e : Engine) (tag : BitVec 16) : State :=
  let own (w : Watch) : Bool := w.hub = hub && w.engine == e && w.tag = tag
  match (s.cluster gc).watches.find? own with
  | some w => (s.modCluster gc fun c => { c with watches := c.watches.filter fun w => !own w }).watchAnswer w 2 0#32
  | none => s

/-- What an engine knows of a beacon that it watches for a target (R187): the target was reached, with the value reported, or
not yet. -/
structure Learnt where
  state : State
  fired : Bool
  value : BitVec 32

/-- An engine learns by watch whether a beacon has reached a target (R187): it arms a watch unless one of its own stands, and
acts once on the answer. A watch answered NO_RESOURCE, DISARMED or UNIT_ABSENT is armed again when the engine next looks; while
the beacon's cluster is gone none is. DEDUCED (log 94). -/
def State.learn (s : State) (w : Watch) : Learnt :=
  let k := watchKey w.hub w.engine w.tag
  let own (x : Watch) : Bool := x.hub = w.hub && x.engine == w.engine && x.tag = w.tag
  let act (s : State) : Learnt :=
    match s.answered k with
    | some a => if a.code = 0 ∧ a.bid = w.bid ∧ a.target = w.target then ⟨s.setAnswered k none, true, a.value⟩ else ⟨s, false, 0#32⟩
    | none => ⟨s, false, 0#32⟩
  if (act s).fired then act s
  else if (s.cluster (w.bid / 128)).watches.any own ∨ s.clusterGone (w.bid / 128) then ⟨s, false, 0#32⟩
  else act (s.armWatch w)

/-! ## Data memory of a core (R37, R154) -/

/-- Data memory byte of a slot. -/
def State.dmemByte (s : State) (p off : Nat) : BitVec 8 := s.seenByte (dmemKey p off)

/-- n bytes of data memory from a byte offset, as a number. -/
def State.dmemNat (s : State) (p off n : Nat) : Nat := leNat ((List.range n).map fun i => s.dmemByte p (off + i))

/-- Data memory word (16 bytes) of a slot. -/
def State.dmemWord (s : State) (p w : Nat) : Nat := s.dmemNat p (16 * w) 16

/-- A data memory word carries poison when either of its 8-byte units does (R262). -/
def State.dmemPoison (s : State) (p w : Nat) : Bool := s.poisonAt (dmemKey p (16 * w)) 16

/-- Stores bytes into data memory. -/
def State.dmemWrite (s : State) (p off : Nat) (bs : Bytes) (mark : Bool) : State := s.writeHome (dmemKey p off) bs mark

/-! ## Cores -/

def State.modChan (s : State) (p ch : Nat) (f : Chan → Chan) : State := s.modCore p fun c => c.setChan ch (f (c.getChan ch))

/-- A WPULL leaves the cluster's waiting list (R164). -/
def State.unwait (s : State) (gc slot ch : Nat) : State :=
  s.modCluster gc fun c => { c with waiting := c.waiting.filter fun w => w != (slot, ch) }

/-- The channels of a core as a pause takes hold (R173): each holds its operation; a WPULL without a descriptor stops
waiting. -/
def State.holdChannels (s : State) (gc slot : Nat) (on : Bool) : State :=
  (List.range 4).foldl (fun s ch =>
    let s := s.modChan (slotKey gc slot) ch fun c => { c with held := on }
    match ((s.core (slotKey gc slot)).getChan ch).run with
    | some r =>
      if r.op.kind = .wpull then
        let s := s.unwait gc slot ch
        if on then s else s.modCluster gc fun k => { k with waiting := k.waiting ++ [(slot, ch)] }
      else s
    | none => s) s

/-- Trap causes (R168). -/
def Trap.none : BitVec 4 := 0x0#4
def Trap.illegalBundle : BitVec 4 := 0x1#4
def Trap.busError : BitVec 4 := 0x2#4
def Trap.overrun : BitVec 4 := 0x3#4
def Trap.beaconFault : BitVec 4 := 0x4#4
def Trap.escapeFault : BitVec 4 := 0x5#4

/-- Scalar register as read; s0 reads 0 (R142). -/
def Core.sr (c : Core) (r : BitVec 4) : BitVec 16 := if r = 0#4 then 0#16 else c.getSreg r.toNat

/-- Scalar register write; a write to s0 is discarded (R141). -/
def Core.setSr (c : Core) (r : BitVec 4) (v : BitVec 16) : Core := if r = 0#4 then c else c.setSreg r.toNat v

/-- QERR > QTHR * QCNT, the product in FP32 and the comparison exact (R93). -/
def Quant.crossed (q : Quant) : Bool :=
  let cnt := FFmt.fp32.encode (.fin false q.qcnt.toNat 0)
  match FFmt.fp32.decode q.qerr.toNat, FFmt.fp32.decode (FFmt.fp32.mul q.qthr.toNat cnt) with
  | .nan, _ => false
  | _, .nan => false
  | x, y => x.cmp y == .gt

/-- The quantiser state as the 32-bit lanes 0-7 of a register (R133). -/
def Quant.lanes (q : Quant) : BitVec 256 :=
  let l3 := (if q.qtrip then 2 ^ 17 else 0) + (if q.qen then 2 ^ 16 else 0) + q.qbeacon.toNat
  let l7 := q.qfmt.toNat * 64 + (if q.stoch then 32 else 0) + (if q.bs16 then 16 else 0) + q.qgap.toNat
  BitVec.ofNat 256 (q.qerr.toNat + q.qcnt.toNat * 2 ^ 32 + q.qthr.toNat * 2 ^ 64 + l3 * 2 ^ 96 + q.qblk.toNat * 2 ^ 128
    + q.qside.toNat * 2 ^ 160 + q.qslim.toNat * 2 ^ 192 + l7 * 2 ^ 224)

/-- The quantiser state that a VQCFG writes; it clears QTRIP (R133). -/
def Quant.ofLanes (l : BitVec 256) : Quant :=
  let b (lo len : Nat) : Nat := natBits l.toNat lo len
  { qerr := BitVec.ofNat 32 (b 0 32), qcnt := BitVec.ofNat 32 (b 32 32), qthr := BitVec.ofNat 32 (b 64 32)
    qtrip := false, qen := b (96 + 16) 1 = 1, qbeacon := BitVec.ofNat 15 (b 96 15), qblk := BitVec.ofNat 32 (b 128 32)
    qside := BitVec.ofNat 17 (b 160 17), qslim := BitVec.ofNat 17 (b 192 17), qfmt := BitVec.ofNat 2 (b (224 + 6) 2)
    stoch := b (224 + 5) 1 = 1, bs16 := b (224 + 4) 1 = 1, qgap := BitVec.ofNat 4 (b 224 4) }

/-- Adds the estimator terms of a VQNT in element order (R92). -/
def Quant.addTerms (q : Quant) (ts : List (BitVec 32)) : Quant :=
  { q with
    qerr := ts.foldl (fun a t => BitVec.ofNat 32 (FFmt.fp32.add a.toNat t.toNat)) q.qerr
    qcnt := BitVec.ofNat 32 (min (q.qcnt.toNat + ts.length) 0xFFFFFFFF) }

/-- One landing (R145, R585). A VQNT whose terms land tests the threshold and signals QBEACON once per crossing (R93). When
a VQCFG has written QEN as 0 meanwhile, the terms are added and nothing is signalled (R133). DEDUCED (log 92). -/
def State.land (s : State) (p : Nat) (l : Landing) : State :=
  match l with
  | .sreg r v => s.modCore p (·.setSr r v)
  | .vreg v data bytes mark sat inv est =>
    let c := s.core p
    let old := c.getVreg v.toNat
    let c := c.setVreg v.toNat ⟨mergeData old.data data bytes, mergeMark old.mark mark bytes⟩
    let c := { c with sat := c.sat || sat, invalid := c.invalid || inv }
    match est with
    | none => s.setCore p c
    | some ts =>
      let q := c.quant.addTerms ts
      if q.qen && !q.qtrip && q.crossed then
        (s.setCore p { c with quant := { q with qtrip := true } }).sigCluster (p / 18) q.qbeacon.toNat 1#32
      else s.setCore p { c with quant := q }
  | .qcfg lanes => s.modCore p fun c => { c with quant := Quant.ofLanes lanes }
  | .seed x => s.modCore p fun c => { c with lfsr := if x = 0#32 then 1#32 else x }
  | .clearFlags => s.modCore p fun c => { c with sat := false, invalid := false }

/-- Everything due at the end of clock t lands, in issue order within a clock (R145). -/
def State.landDue (s : State) (p t : Nat) : State :=
  let due := (s.core p).pend.filter fun x => x.land ≤ t
  let s := s.modCore p fun c => { c with pend := c.pend.filter fun x => t < x.land }
  due.foldl (fun s x => s.land p x.what) s

/-- Inserts a pending result in the order of landing clocks, after those of the same clock. -/
def insertPend (x : Pend) : List Pend → List Pend
  | [] => [x]
  | y :: l => if x.land < y.land then x :: y :: l else y :: insertPend x l

/-- All that is pending lands, as at a trap or a pause (R169, R173). -/
def State.landAll (s : State) (p : Nat) : State :=
  match (s.core p).pend.getLast? with
  | some x => s.landDue p x.land
  | none => s

/-- Taking a trap (R168, R169): issue stops, pending writes land, RUN becomes HALTED, the cause, the first syllable of
the bundle and the charged UNIT are recorded, and ERR_STAT.BLOCK bit 16 of the page is set. Operations accepted in the M
and X queues run on: a pause that was taking effect lets go of the channels. -/
def State.takeTrap (s : State) (p : Nat) (cause : BitVec 4) (pc : BitVec 16) (unit : BitVec 3) (async : Bool) : State :=
  let s := s.landAll p
  let s := if (s.core p).pausing ∨ (s.core p).run = .paused then s.holdChannels (p / 18) (p % 18) false else s
  let s := s.modCore p fun c =>
    { c with run := .halted, pausing := false, trap := cause, trapPc := pc, unit := unit, async := async, bundle := [] }
  s.err ⟨.cor, p⟩ 16 Sev.corrected (s.clusterPart (p / 18))

end Sys2Proof.Machine
end

