-- ==== Sys2Proof/Machine/Gather.lean ====
section
/-! DEFINITION. The page gather of a cluster move engine and its answers to page fences (08_kv_pages.md R231-R242). -/
namespace Sys2Proof.Machine

/-! ## Page table entries (R235, R236) -/

def Pg.free : Nat := 0
def Pg.hbm : Nat := 1
def Pg.t2 : Nat := 2
def Pg.ssd : Nat := 3
def Pg.moving : Nat := 4

/-- A page table entry as read. -/
structure PtEntry where
  addr : Nat
  state : Nat
  ro : Bool
  prev : Nat
  fmt : Nat
  refs : Nat
  user : Nat
  deriving DecidableEq, Repr

def PtEntry.ofBytes (b : Bytes) : PtEntry :=
  let x := leNat b
  { addr := natBits x 0 48, state := natBits x 48 3, ro := natBits x 51 1 = 1, prev := natBits x 52 3
    fmt := natBits x 56 8, refs := natBits x 64 16, user := natBits x 96 32 }

def PtEntry.bytes (e : PtEntry) : Bytes :=
  leBytes 16 (e.addr + e.state * 2 ^ 48 + (if e.ro then 2 ^ 51 else 0) + e.prev * 2 ^ 52 + e.fmt * 2 ^ 56 +
    e.refs * 2 ^ 64 + e.user * 2 ^ 96)

/-- The tier a gather reads a page from: the source's while it moves (R241). -/
def PtEntry.tier (e : PtEntry) : Nat := if e.state = Pg.moving then e.prev else e.state

/-! ## Commands (R240) -/

structure PgCmd where
  count : Nat
  list : Nat
  ptBase : Nat
  ptCount : Nat
  rangeOff : Nat
  rangeLines : Nat
  dest : Nat
  stride : Nat
  beacon : Nat
  sigN : Nat
  statusAddr : Nat
  deriving DecidableEq, Repr

def PgCmd.ofBytes (b : Bytes) : PgCmd :=
  { count := fieldAt b 4 2, list := fieldAt b 8 8, ptBase := fieldAt b 16 8, ptCount := fieldAt b 24 4
    rangeOff := fieldAt b 28 2, rangeLines := fieldAt b 30 2, dest := fieldAt b 32 8, stride := fieldAt b 40 4
    beacon := fieldAt b 44 4 % 2 ^ 15, sigN := fieldAt b 44 4 / 2 ^ 16 % 256, statusAddr := fieldAt b 48 8 }

/-- The fields of a command obey R240; a signalled beacon lies in the partition (R178). -/
def State.pgCmdOk (s : State) (gc : Nat) (b : Bytes) : Bool :=
  let c := PgCmd.ofBytes b
  fieldAt b 0 1 = 1 && fieldAt b 1 3 = 0 && fieldAt b 6 2 = 0 && fieldAt b 56 8 = 0 && 0 < c.count &&
    c.list % 4 = 0 && c.list < 2 ^ 48 && c.ptBase % 16 = 0 && c.ptBase < 2 ^ 48 && 0 < c.rangeLines &&
    c.rangeOff + c.rangeLines ≤ 1024 && c.dest % 64 = 0 && c.dest < 2 ^ 48 && c.stride % 64 = 0 &&
    fieldAt b 44 4 / 2 ^ 24 = 0 && fieldAt b 44 4 / 2 ^ 15 % 2 = 0 && c.statusAddr % 16 = 0 && c.statusAddr < 2 ^ 48 &&
    (c.sigN = 0 || s.beaconInPart gc c.beacon)

/-! ## Fences (R242) -/

/-- Every page below `n` of the running command has all its lines complete. -/
def Cluster.pagesDone (c : Cluster) (n : Nat) : Bool :=
  match c.pgRun with
  | none => true
  | some r => r.lines.all (fun l => n ≤ l.page) && (n ≤ r.page || r.stop.isSome)

/-- A cluster answers a page fence: the mover's command awaits one cluster less (R247). -/
def State.ackFence (s : State) (part slot gc : Nat) : State :=
  s.modMovRing part fun r =>
    { r with cmds := r.cmds.map fun m => if m.slot = slot then { m with acks := m.acks.filter (· ≠ gc) } else m }

/-- Answers every fence whose pages are complete. -/
def State.settleFences (s : State) (gc : Nat) : State :=
  let c := s.cluster gc
  let ready := c.fences.filter fun f => c.pagesDone f.page
  if ready.isEmpty then s
  else
    let s := ready.foldl (fun s f => s.ackFence f.part f.slot gc) s
    s.modCluster gc fun c => { c with fences := c.fences.filter fun f => !ready.contains f }

/-! ## Lines (R191, R223, R241) -/

/-- A pause of the partition or of the cluster keeps the gather from reading further entries (R201, R205). -/
def State.gatherHeld (s : State) (gc : Nat) : Bool := (s.cluster gc).pauseReq || s.on (Reg.CLU_PAUSE_REQ gc)

/-- No page is open: nothing read and not yet copied. -/
def PgRun.between (r : PgRun) : Bool := r.lines.isEmpty && (r.line == 0 || r.stop.isSome)

/-- The page gather has a line ready: fewer than 1,024 in flight, pages left, and an entry open or free to be read. -/
def State.gatherReady (s : State) (gc : Nat) : Bool :=
  match (s.cluster gc).pgRun with
  | some r => r.stop.isNone && r.page < (PgCmd.ofBytes r.cmd).count && r.lines.length < 1024 &&
      (r.line != 0 || !s.gatherHeld gc)
  | none => false

/-- The stop of a command at a page: the lowest page that meets an error gives the status (R241).
DEDUCED (log 85). -/
def PgRun.halt (r : PgRun) (page : Nat) (st : BitVec 8) (hd : BitVec 32) : PgRun :=
  match r.stop with
  | some x => if page < x.1 then { r with stop := some (page, st, hd) } else r
  | none => { r with stop := some (page, st, hd) }

/-- Reads the handle and the entry of page i (R241), either of them over a host link where it lies in a host-link window
(R39): the handle, and the address of the page or the status of a stop. -/
def State.pgEntry (s : State) (gc : Fin 160) (c : PgCmd) (i : Nat) (host : HostSide) : State × BitVec 32 × Except (BitVec 8) Nat :=
  let rq : Req := .gather gc
  let x := s.lineRead rq (c.list + 4 * i) 4 host.slice host.entry
  let hd := BitVec.ofNat 32 (leNat x.2.data)
  if x.2.status ≠ St.ok then (x.1, 0xFFFFFFFF#32, .error x.2.status)
  else if x.2.poison then (x.1, 0xFFFFFFFF#32, .error St.poisoned)
  else if c.ptCount ≤ hd.toNat then (x.1, hd, .error St.badParam)
  else
    let y := x.1.lineRead rq (c.ptBase + 16 * hd.toNat) 16 host.slice host.read
    let e := PtEntry.ofBytes y.2.data
    if y.2.status ≠ St.ok then (y.1, hd, .error y.2.status)
    else if y.2.poison then (y.1, hd, .error St.poisoned)
    else if e.tier = Pg.hbm ∨ e.tier = Pg.t2 then (y.1, hd, .ok e.addr)
    else (y.1, hd, .error St.stateError)

/-- The gather starts its next line, reading the page's entry first when it opens a page. -/
def State.gatherStart (s : State) (gc : Fin 160) (host : HostSide) : State :=
  match (s.cluster gc).pgRun with
  | none => s
  | some r =>
    let c := PgCmd.ofBytes r.cmd
    let opened : State × PgRun :=
      if r.line ≠ 0 then (s, r)
      else
        let e := s.pgEntry gc c r.page host
        match e.2.2 with
        | .ok a => (e.1, { r with base := a + 64 * c.rangeOff, hd := e.2.1 })
        | .error st => (e.1, r.halt r.page st e.2.1)
    let r := opened.2
    let r := if r.stop.isSome then r
      else
        let l : PgLine := ⟨r.page, r.line, r.base + 64 * r.line, r.hd⟩
        let last := r.line + 1 = c.rangeLines
        { r with lines := r.lines ++ [l], line := if last then 0 else r.line + 1, page := if last then r.page + 1 else r.page }
    (opened.1.modCluster gc fun k => { k with pgRun := some r }).settleFences gc

/-- A line of the gather completes: copied, over a host link where a side lies in a host-link window, copied as poison, or the
stop of the command (R39, R163, R241). -/
def State.gatherComplete (s : State) (gc : Fin 160) (page line : Nat) (host : HostSide) : State :=
  match (s.cluster gc).pgRun with
  | none => s
  | some r =>
    match r.lines.find? (fun l => l.page = page && l.line = line) with
    | none => s
    | some l =>
      let c := PgCmd.ofBytes r.cmd
      let rq : Req := .gather gc
      let x := s.lineRead rq l.src 64 host.slice host.read
      let w := if x.2.status ≠ St.ok then (x.1, x.2.status)
        else x.1.lineWrite rq (c.dest + page * c.stride + 64 * line) x.2.data x.2.poison host.slice host.write
      let r := { r with lines := r.lines.erase l }
      let r := if w.2 ≠ St.ok then r.halt page w.2 l.hd else { r with poison := r.poison || x.2.poison }
      (w.1.modCluster gc fun k => { k with pgRun := some r }).settleFences gc

/-! ## Rows -/

/-- PAGE_GATHER_TAKE (R239-R241): once SUBMIT reaches its slot the engine takes the next command; one that breaks R240 is
stopped with nothing done. -/
def execPageGatherTake (gc : Fin 160) (s : State) : Res :=
  let k := s.cluster gc
  let n := s.rd (Reg.CLU_PG_CFG_LOG2_SIZE gc)
  let submit := gc.val * 128 + s.rd (Reg.CLU_PG_CFG_SUBMIT gc)
  if k.pgRun.isSome ∨ !s.on (Reg.CLU_PG_CFG_EN gc) ∨ 8 < n ∨ s.st ⟨.clu, gc⟩ ≠ PS.enabled ∨ s.gatherHeld gc ∨
      !reaches (s.beacon submit) (BitVec.ofNat 32 (k.pgTaken + 1)) then .next s
  else
    let a := poolBase + gc.val * 2 ^ 24 + (s.rd (Reg.CLU_PG_BASE gc) + k.pgTaken % 2 ^ n) * 64
    let x := s.readMem (.gather gc) a 64
    let ok := x.2.status = St.ok && !x.2.poison && x.1.pgCmdOk gc x.2.data
    let st := if x.2.status ≠ St.ok then x.2.status else if x.2.poison then St.poisoned else St.badParam
    let r : PgRun := { PgRun.reset with cmd := x.2.data }
    let r := if ok then r else r.halt 0 st 0xFFFFFFFF#32
    .next (x.1.modCluster gc fun c => { c with pgTaken := c.pgTaken + 1, pgRun := some r })

/-- PAGE_GATHER_DONE (R239, R241): a command that has stopped or copied its last page finishes: status word, beacon, then
CREDIT. A command refused whole signals and writes only where its fields name a beacon or an address. For a status word in a host-link window `slice` is
the slice on whose behalf it is written, and `host` what becomes of the write (R39). -/
def execPageGatherDone (gc : Fin 160) (slice : Fin 256) (host : HostWrite) (s : State) : Res := orHeld s <|
  match (s.cluster gc).pgRun with
  | none => .next s
  | some r =>
    let c := PgCmd.ofBytes r.cmd
    if !r.lines.isEmpty ∨ (r.stop.isNone ∧ r.page < c.count) then .next s
    else
      let done := match r.stop with
        | some x => x.1
        | none => c.count
      let st := match r.stop with
        | some x => x.2.1
        | none => if r.poison then St.poisoned else St.ok
      let hd := match r.stop with
        | some x => x.2.2
        | none => 0xFFFFFFFF#32
      let word := [st, 0#8, 0#8, 0#8] ++ leBytes 4 done ++ leBytes 4 hd.toNat ++ leBytes 4 0
      let s := if c.statusAddr = 0 ∨ c.statusAddr % 16 ≠ 0 then s else (s.lineWrite (.gather gc) c.statusAddr word false slice host).1
      let s := if s.beaconInPart gc c.beacon then s.sigCluster gc c.beacon (BitVec.ofNat 32 c.sigN) else s
      let s := s.sigCluster gc (s.rd (Reg.CLU_PG_CREDIT gc)) 1#32
      .next (((s.step1 (Reg.CLU_PG_DONE gc)).modCluster gc fun k => { k with pgRun := none }).settleFences gc)

/-- PAGE_FENCE (R242): a page fence of a mover command reaches a cluster, which answers once the pages it had read before
are complete. -/
def execPageFence (gc : Fin 160) (part : Fin 12) (slot : Nat) (s : State) : Res :=
  if !((s.movRing part).cmds.any fun m => m.slot = slot && m.acks.contains gc.val) ||
      (s.cluster gc).fences.any (fun f => f.part = part.val && f.slot = slot) then .next s
  else
    let n := match (s.cluster gc).pgRun with
      | some r => if r.line = 0 then r.page else r.page + 1
      | none => 0
    .next ((s.modCluster gc fun c => { c with fences := c.fences ++ [⟨part, slot, n⟩] }).settleFences gc)

end Sys2Proof.Machine
end

