-- ==== Sys2Proof/Machine/Shares.lean ====
section
/-! DEFINITION. The shares of hub engines: the windows of strict partitions and the weighted turns of shared ones
(11_partitions_and_slices.md R320, R321, R330). -/
namespace Sys2Proof.Machine

/-- The hub fabric clock has reached a count (R58, R547). -/
def State.hubNow (s : State) (h now : Nat) : State :=
  s.setClockOf (0x0300 + h) (BitVec.ofNat 48 (max now (s.clockOf (0x0300 + h)).toNat))

/-- A strict ACTIVE partition. -/
def State.strictOn (s : State) (p : Nat) : Bool := p < 12 && (s.part p).state == .active && (s.part p).strict

/-- A unit of work of a partition that takes n clocks may start at a moment (R320): while a strict partition is ACTIVE, window p
of twelve serves a strict partition p alone, the others serve the rest, and a unit starts only if it ends within its window. -/
def State.windowOpen (s : State) (p now n : Nat) : Bool :=
  let w := now / 2500 % 12
  if !((List.range 12).any s.strictOn) then true
  else (if s.strictOn w then p = w else !s.strictOn p) && n ≤ 2500 - now % 2500

/-- Number of the cipher pipes among the engines that take turns. -/
def cipherEngine : Nat := 9

/-- The shared partition whose turn it is among those of a hub that have work waiting (R321): the one now served until it has had
as many units as its WEIGHT, then the next in ascending order. DESIGN CHOICE (log 97). -/
def State.turnPart (s : State) (hub e : Nat) (waits : Nat → Bool) : Option Nat :=
  let t := s.turnOf (hub * 16 + e)
  let ok (q : Nat) : Bool := s.partHub q = hub && !s.strictOn q && waits q
  if t.left ≠ 0 ∧ ok t.part then some t.part
  else ((List.range 12).map fun k => (t.part + 1 + k) % 12).find? ok

/-- An engine of a hub may start a unit of work of n clocks for a partition (R320, R321). -/
def State.mayServe (s : State) (hub e p now n : Nat) (waits : Nat → Bool) : Bool :=
  s.windowOpen p now n && (s.strictOn p || s.turnPart hub e (fun q => q = p || waits q) = some p)

/-- An engine of a hub has started a unit of work for a partition: a shared one has used a unit of its turn, which begins with
the WEIGHT that then stands (R321, R330). -/
def State.served (s : State) (hub e p now : Nat) : State :=
  let k := hub * 16 + e
  let t := s.turnOf k
  let s := s.hubNow hub now
  if s.strictOn p then s
  else if t.left ≠ 0 ∧ t.part = p then s.setTurnOf k ⟨p, t.left - 1⟩
  else s.setTurnOf k ⟨p, (s.part p).weight.toNat - 1⟩

end Sys2Proof.Machine
end

