-- ==== Sys2Proof/Machine/Moves.lean ====
section
/-! DEFINITION. The move channels of a core and the cluster move engine: captured operations, lines, progress, XSTOP and
work pulls (R158-R164, R191, R198-R199, R221-R225). -/
namespace Sys2Proof.Machine

/-- XSTAT as read: STATUS, OCC, STATE (R159). -/
def Chan.xstat (c : Chan) : BitVec 32 :=
  BitVec.ofNat 32 (c.status.toNat * 65536 + c.queue.length * 256 + c.state.toNat)

/-- Records the first non-OK status since the last XCLR (R159, R163). -/
def Chan.note (c : Chan) (st : BitVec 8) : Chan := if c.status = 0#8 then { c with status := st } else c

/-- Destination bytes of an operation. -/
def XOp.total (o : XOp) : Nat :=
  match o.kind with
  | .movs => o.xc.toNat
  | .fill => o.xc.toNat
  | .gather => o.xc.toNat * o.xg.toNat
  | .wpull => 64

/-- Length of the line that begins at destination offset o: cut at the 64-byte lines of the destination and at the
end of a GATHER segment (R224). -/
def XOp.lineLen (o : XOp) (off : Nat) : Nat :=
  let rest := o.total - off
  let toLine := 64 - (o.xd.toNat + off) % 64
  match o.kind with
  | .gather => min (min toLine rest) (o.xg.toNat - off % o.xg.toNat)
  | _ => min toLine rest

/-- Writes the progress of the completed prefix back into the architectural registers (R164). -/
def Chan.writeBack (c : Chan) (r : XRun) : Chan :=
  match r.op.kind with
  | .movs =>
    let n := r.done / 16 * 16
    { c with xs := r.op.xs + BitVec.ofNat 48 n, xd := r.op.xd + BitVec.ofNat 48 n, xc := r.op.xc - BitVec.ofNat 32 n }
  | .fill =>
    let n := r.done / 16 * 16
    { c with xs := r.op.xs, xd := r.op.xd + BitVec.ofNat 48 n, xc := r.op.xc - BitVec.ofNat 32 n }
  | .gather =>
    let e := r.done / r.op.xg.toNat
    { c with xs := r.op.xs + BitVec.ofNat 48 (8 * e), xd := r.op.xd + BitVec.ofNat 48 (e * r.op.xg.toNat)
             xc := r.op.xc - BitVec.ofNat 32 e }
  | .wpull => { c with xs := r.op.xs, xd := r.op.xd, xc := r.op.xc }

/-- The lines of a channel in flight (R191). -/
def State.chanLines (s : State) (gc slot ch : Nat) : List Line :=
  (s.cluster gc).lines.filter fun l => l.slot = slot && l.chan = ch

/-- STATE after an operation ends: BUSY while another is queued, else IDLE (R159). -/
def Chan.idle (c : Chan) : Chan := { c with state := if c.queue.isEmpty then 0#2 else 1#2 }

/-- Signals the beacon captured in XB, unless SIG_N is 0 (R162). -/
def State.xSignal (s : State) (gc : Nat) (o : XOp) : State :=
  s.sigCluster gc (natBits o.xb.toNat 0 15) (BitVec.ofNat 32 (natBits o.xb.toNat 16 8))

/-- XSTOP (R164): the queue is discarded; a WPULL without a descriptor stops at once; a running operation with no line
in flight pauses at once, any other when its lines have completed. An IDLE channel is unaffected.
DEDUCED (log 83). -/
def State.xstop (s : State) (gc slot ch : Nat) : State :=
  let p := slotKey gc slot
  let c := (s.core p).getChan ch
  if c.state = 0#2 then s
  else
    match c.run with
    | none => s.modChan p ch fun c => { c with queue := [], state := 2#2 }
    | some r =>
      if r.op.kind = .wpull ∨ (s.chanLines gc slot ch).isEmpty then
        (s.unwait gc slot ch).modChan p ch fun c => { c.writeBack r with queue := [], run := none, state := 2#2 }
      else s.modChan p ch fun c => { c with queue := [], run := some { r with pausing := true } }

/-- A queued X syllable enters its channel with the captured registers (R161, R164). -/
def Chan.enqueue (c : Chan) (k : XKind) : Chan :=
  { c with queue := c.queue ++ [⟨k, c.xs, c.xd, c.xc, c.xg, c.xb⟩], state := 1#2 }

/-- X_OP_START (R162): a channel takes its next queued operation. A WPULL begins to wait (R199). -/
def execXOpStart (gc : Fin 160) (slot : Fin 18) (ch : Fin 4) (s : State) : Res :=
  let p := slotKey gc slot
  let c := (s.core p).getChan ch
  match c.run, c.queue with
  | none, o :: rest =>
    if c.held ∨ !s.serving ⟨.cor, p⟩ then .next s
    else
      let s := s.modChan p ch fun c => { c with queue := rest, run := some { XRun.reset with op := o } }
      .next (if o.kind = .wpull then s.modCluster gc fun k => { k with waiting := k.waiting ++ [(slot.val, ch.val)] } else s)
  | _, _ => .next s

/-- A channel has a line ready and fewer than 48 in flight (R191, R223). -/
def State.lineReady (s : State) (gc slot ch : Nat) : Bool :=
  let c := (s.core (slotKey gc slot)).getChan ch
  match c.run with
  | some r =>
    r.op.kind != .wpull && !c.held && !r.pausing && r.stop.isNone && r.next < r.op.total &&
      (s.chanLines gc slot ch).length < 48 && s.serving ⟨.cor, slotKey gc slot⟩
  | none => false

/-- The first eligible channel after the pointer, in the order 4 * (lc mod 16) + channel (R223): the index and its
slot. DESIGN CHOICE (log 11). -/
def State.nextChannel (s : State) (gc : Nat) : Option (Nat × Nat) :=
  let at_ (i : Nat) : Option (Nat × Nat) :=
    match s.slotOf (gc * 16 + i / 4) with
    | some slot => if s.lineReady gc slot (i % 4) then some (i, slot) else none
    | none => none
  (List.range 64).findSome? fun k => at_ (((s.cluster gc).rot + 1 + k) % 64)

/-- LINE_START (R223): one start slot of the cluster move engine. The page gather takes every second slot when it has a
line ready; otherwise the next eligible channel starts a line and the pointer moves to it. `host` is for a page list or a page table in a
host-link window (R39). -/
def execLineStart (gc : Fin 160) (host : HostSide) (s : State) : Res := waitSliceTag s host.slice [host.entry, host.read] <|
  let c := s.cluster gc
  if s.gatherReady gc ∧ (c.pgTurn ∨ (s.nextChannel gc).isNone) then
    .next ((s.gatherStart gc host).modCluster gc fun c => { c with pgTurn := false })
  else match s.nextChannel gc with
    | none => .next s
    | some (i, slot) =>
      let p := slotKey gc slot
      match ((s.core p).getChan (i % 4)).run with
      | none => .next s
      | some r =>
        let n := r.op.lineLen r.next
        let s := s.modChan p (i % 4) fun c => { c with run := some { r with next := r.next + n } }
        .next (s.modCluster gc fun c =>
          { c with rot := i, pgTurn := true, lines := c.lines ++ [⟨slot, i % 4, r.next, n⟩] })

/-- Two byte ranges share a byte. -/
def overlaps (a n b m : Nat) : Bool := a < b + m && b < a + n

/-- The source of a line of an operation (R162, R163): a copy, the fill pattern, or the segment a GATHER entry names.
Where source and destination overlap the bytes are undefined: free values. -/
def State.lineSource (s : State) (r : Req) (o : XOp) (off n : Nat) (host : HostSide) : State × LineSrc :=
  let freeBytes (s : State) : Bytes := (List.range n).map fun i => BitVec.ofNat 8 (s.free (off + i))
  match o.kind with
  | .movs =>
    let x := s.lineRead r (o.xs.toNat + off) n host.slice host.read
    if overlaps o.xs.toNat o.total o.xd.toNat o.total ∧ x.2.status = St.ok then
      (x.1.draw, { x.2 with data := freeBytes x.1 })
    else x
  | .fill =>
    let b := leBytes 4 o.xg.toNat
    (s, ⟨(List.range n).map fun i => b.getD ((off + i) % 4) 0#8, false, St.ok⟩)
  | .gather =>
    let i := off / o.xg.toNat
    let e := s.lineRead r (o.xs.toNat + 8 * i) 8 host.slice host.entry
    let v := leNat e.2.data
    if e.2.status ≠ St.ok then (e.1, ⟨[], false, e.2.status⟩)
    else if e.2.poison then (e.1, ⟨List.replicate n 0#8, true, St.ok⟩)
    else if 2 ^ 48 ≤ v ∨ v % 16 ≠ 0 then (e.1, ⟨[], false, St.badParam⟩)
    else
      let x := e.1.lineRead r (v + off % o.xg.toNat) n host.slice host.read
      if overlaps v o.xg.toNat (o.xd.toNat + i * o.xg.toNat) o.xg.toNat ∧ x.2.status = St.ok then
        (x.1.draw, { x.2 with data := freeBytes x.1 })
      else x
  | .wpull => (s, ⟨[], false, St.ok⟩)

/-- Extends the completed prefix by lines that had completed beyond it. -/
def absorb : Nat → List (Nat × Nat) → Nat × List (Nat × Nat)
  | d, [] => (d, [])
  | d, (o, n) :: l => if o = d then absorb (d + n) l else (d, (o, n) :: l)

def insertLine (x : Nat × Nat) : List (Nat × Nat) → List (Nat × Nat)
  | [] => [x]
  | y :: l => if x.1 < y.1 then x :: y :: l else y :: insertLine x l

/-- A completed line joins the progress of its operation (R164). -/
def XRun.complete (r : XRun) (off n : Nat) : XRun :=
  let a := absorb r.done (insertLine (off, n) r.early)
  { r with done := a.1, early := a.2 }

/-- A line of a channel completes (R163, R224): the line's write is acknowledged, or it meets an error. A poisoned line is written as
poison and noted; any other error stops the operation at that line. -/
def State.lineComplete (s : State) (gc : Fin 160) (slot : Fin 18) (ch : Fin 4) (off : Nat) (host : HostSide) : State :=
  let p := slotKey gc slot
  match (s.chanLines gc slot ch).find? (fun l => l.off = off), ((s.core p).getChan ch).run with
  | some l, some r =>
    let s := s.modCluster gc fun c => { c with lines := c.lines.erase l }
    let rq : Req := .core gc slot ch
    let x := s.lineSource rq r.op off l.len host
    let w := if x.2.status ≠ St.ok then (x.1, x.2.status) else x.1.lineWrite rq (r.op.xd.toNat + off) x.2.data x.2.poison host.slice host.write
    if w.2 ≠ St.ok then
      (w.1.modChan p ch fun c => { c.note w.2 with run := some { r with stop := some w.2 } })
    else
      (w.1.modChan p ch fun c =>
        { (if x.2.poison then c.note St.poisoned else c) with run := some (r.complete off l.len) })
  | _, _ => s

/-- LINE_COMPLETE (R163, R224, R241): the write of a line is acknowledged, or the line meets an error. `host` is for a
line in a host-link window (R39). -/
def execLineComplete (gc : Fin 160) (line : LineId) (host : HostSide) (s : State) : Res :=
  waitSliceTag s host.slice [host.entry, host.read] <| orHeld s <|
  match line with
  | .chan slot ch off => .next (s.lineComplete gc slot ch off host)
  | .gather page n => .next (s.gatherComplete gc page n host)

/-- X_OP_COMPLETE (R162-R164): an operation with no line in flight ends. One that stopped on an error writes its progress
back and signals as if completed; one paused by XSTOP writes its progress back and signals nothing, and STATE stays BUSY when a
syllable has been queued since. -/
def execXOpComplete (gc : Fin 160) (slot : Fin 18) (ch : Fin 4) (s : State) : Res :=
  let p := slotKey gc slot
  match ((s.core p).getChan ch).run with
  | none => .next s
  | some r =>
    if !(s.chanLines gc slot ch).isEmpty ∨ r.op.kind = .wpull then .next s
    else if r.pausing then
      .next (s.modChan p ch fun c => { c.writeBack r with run := none, state := if c.queue.isEmpty then 2#2 else 1#2 })
    else if r.stop.isSome then
      .next ((s.modChan p ch fun c => Chan.idle { c.writeBack r with run := none }).xSignal gc r.op)
    else if r.done = r.op.total then
      .next ((s.modChan p ch fun c => Chan.idle { c with run := none }).xSignal gc r.op)
    else .next s

/-- WPULL_TAKE (R162, R198, R199): the WPULL that has waited longest takes the oldest descriptor, writes its 64 bytes at
XD, returns one credit and signals. A write that is refused is noted in STATUS. Under a partition pause every WPULL, a halted
core's too, has stopped, and the descriptors stay in the queue (R201, R202). -/
def execWpullTake (gc : Fin 160) (host : HostWrite) (s : State) : Res := orHeld s <|
  let c := s.cluster gc
  if c.pauseReq then .next s
  else match c.waiting, c.wq with
  | (slot, ch) :: ws, d :: ds =>
    let p := slotKey gc slot
    match ((s.core p).getChan ch).run with
    | none => .next s
    | some r =>
      let s := s.modCluster gc fun c => { c with waiting := ws, wq := ds, creditOut := c.creditOut + 1 }
      let rq : Req := .core gc (Fin.ofNat 18 slot) (Fin.ofNat 4 ch)
      let w := s.lineWrite rq r.op.xd.toNat d false (fieldAt d 12 1) host
      let s := w.1.modChan p ch fun c => Chan.idle { (if w.2 = St.ok then c else c.note w.2) with run := none }
      .next (s.xSignal gc r.op)
  | _, _ => .next s

end Sys2Proof.Machine
end

