-- ==== Sys2Proof/Machine/Beacons.lean ====
section
/-! DEFINITION. Signals, beacon slots, watches, the work distributor and the pause of cores and partitions
(06_beacons_and_credits.md R176-R205; R172, R173). -/
namespace Sys2Proof.Machine

/-- The pending sum of an id in a sender's table. -/
def State.pendingSum (s : State) (src : SigSrc) (id : Nat) : BitVec 32 :=
  match src with
  | .cluster gc => (s.cluster gc).getTable id
  | .engine h e => s.hubSum (hubTableKey h e id)

/-- SIGNAL_SEND (R182, R185): a table sends one non-zero entry on the beacon channel and clears it. Every write an entry
covers has been acknowledged when its add is made (R183). -/
def execSignalSend (src : SigSrc) (id : Fin 20480) (s : State) : Res :=
  let n := s.pendingSum src id
  if n = 0#32 then .next s
  else
    let sig : Sig := match src with
      | .cluster gc => { srcGc := some gc.val, srcHub := 0, bid := id, add := n }
      | .engine h _ => { srcGc := none, srcHub := h, bid := id, add := n }
    let s := match src with
      | .cluster gc => s.modCluster gc fun c => c.setTable id 0#32
      | .engine h e => s.setHubSum (hubTableKey h e id) 0#32
    .next { s with signals := s.signals ++ [sig] }

/-- A beacon-channel message whose route crosses a failed link is dropped and counted at the near end (R514). -/
def State.bcnDropped (s : State) (src gc : Nat) : Option State :=
  (s.failedOn src (gc / 16)).map fun n => s.bump (Reg.NOC_ABSENT (linkDie n))

/-- SIGNAL_ARRIVE (R184-R186): the n-th signal on the beacon channel reaches its cluster: signals arrive in no defined
order. At a cluster that is fenced, resetting or absent it is discarded and counted by its sender. -/
def execSignalArrive (n : Nat) (s : State) : Res :=
  match s.signals[n]? with
  | none => .next s
  | some g =>
    let s := { s with signals := s.signals.eraseIdx n }
    let src := match g.srcGc with
      | some gc => gc / 16
      | none => hubNode g.srcHub
    match s.bcnDropped src (g.bid / 128) with
    | some t => .next t
    | none =>
    if s.clusterGone (g.bid / 128) then
      match g.srcGc with
      | some gc => .next (s.bump (Reg.CLU_SIG_DROP gc))
      | none => .next ((s.bump (Reg.HUB_SIG_DROP g.srcHub)).bucket ⟨.hub, g.srcHub⟩)
    else .next (s.beaconAdd g.bid g.add)

/-- Status of a 32-bit access of a beacon slot (R180). -/
def State.slotStatus (s : State) (r : Req) (id : Nat) : BitVec 8 := s.access r (beaconBase + 64 * id) 4

/-- BCN_VALUE_WRITE (R176, R180): a slot write sets the beacon at its cluster and is acknowledged after it applies. -/
def execBcnValueWrite (r : Req) (id : Fin 20480) (v : BitVec 32) (s : State) : Res :=
  let st := s.slotStatus r id
  if st = St.ok then .next ((s.beaconSet id v).out (.reply r St.ok [] false)) else .next (s.out (.reply r st [] false))

/-- BCN_ADD_WRITE (R176, R180): a slot write adds to the beacon at its cluster. -/
def execBcnAddWrite (r : Req) (id : Fin 20480) (n : BitVec 32) (s : State) : Res :=
  let st := s.slotStatus r id
  if st = St.ok then .next ((s.beaconAdd id n).out (.reply r St.ok [] false)) else .next (s.out (.reply r st [] false))

/-- WATCH_ARM (R187): an engine of a hub arms a watch. -/
def execWatchArm (hub : Fin 2) (engine : Engine) (id : Fin 20480) (target : BitVec 32) (tag : BitVec 16) (s : State) : Res :=
  match s.bcnDropped (hubNode hub) (id / 128) with
  | some t => .next t
  | none => .next (s.armWatch { bid := id, target := target, tag := tag, hub := hub, engine := engine })

/-- DISARM (R187): a DISARM reaches a cluster. -/
def execDisarm (hub : Fin 2) (engine : Engine) (gc : Fin 160) (tag : BitVec 16) (s : State) : Res :=
  if s.clusterGone gc then .next s else .next (s.disarmWatch gc hub engine tag)

/-! ## The work distributor -/

/-- Whether slice k belongs to partition p. -/
def State.sliceIn (s : State) (k p : Nat) : Bool :=
  match s.slice k with
  | some x => x.part = p
  | none => false

/-- The checks of R195, with the fenced TARGET of R513: the status of a descriptor for partition p. -/
def State.descStatus (s : State) (p : Nat) (d : Bytes) : BitVec 8 :=
  let flags := fieldAt d 1 1
  let any := flags % 2 = 1
  let gate := flags / 2 % 2 = 1
  let target := fieldAt d 2 2
  let gid := fieldAt d 4 4
  let reserved := flags / 4 ≠ 0 || 256 ≤ target || 32768 ≤ gid || fieldAt d 14 2 ≠ 0
  let bad := fieldAt d 0 1 ≠ 1 || reserved ||
    (if any then target ≠ 0 else s.clusterPart target ≠ p || 160 ≤ target) ||
    (if gate then !s.beaconOfPart p gid else gid ≠ 0 || fieldAt d 8 4 ≠ 0) || !s.sliceIn (fieldAt d 12 1) p
  let gone := !any && target < 160 && s.clusterPart target = p && s.clusterGone target
  firstFault [(St.unitAbsent, gone), (St.badParam, bad)]

/-- A refused descriptor is counted and reported (R195). DESIGN CHOICE (log 80). -/
def State.badDesc (s : State) (hub ring slice : Nat) (status : BitVec 8) (part : Nat) : State :=
  let s := s.bump (Reg.DIS_BAD hub)
  let s := s.wr (Reg.DIS_BAD_LAST_STATUS hub) status.toNat
  let s := s.wr (Reg.DIS_BAD_LAST_RING hub) ring
  let s := s.wr (Reg.DIS_BAD_LAST_SLICE hub) slice
  s.err ⟨.dis, hub⟩ 16 Sev.corrected part

/-- Source number of job queue q of slice k; rings are 0 .. 47. -/
def jobSource (slice q : Nat) : Nat := 64 + 16 * slice + q

/-- The record the device writes itself for a job it refuses, bytes 0-24 (R296). -/
def jobRecord (d : Bytes) (status : BitVec 8) : Bytes := (d.drop 24).take 8 ++ List.replicate 16 0#8 ++ [status]

/-- A job refused: its completion record joins those to be written (R195, R296). -/
def State.refuseJob (s : State) (key : Nat) (d : Bytes) (status : BitVec 8) : State :=
  match s.jobq key with
  | some q => if q.kept then s.setJobq key (some { q with ready := q.ready ++ [(jobRecord d status, false)] }) else s
  | none => s

/-- The report of a refused descriptor by its source. -/
def State.refuseDesc (s : State) (hub src part : Nat) (d : Bytes) (status : BitVec 8) : State :=
  if src < 64 then s.badDesc hub src (fieldAt d 12 1) status part
  else (s.badDesc hub 0x3F ((src - 64) / 16) status part).refuseJob (src - 64) d status

/-- A checked descriptor joins the others its source holds (R192, R196). -/
def State.holdDesc (s : State) (hub src part : Nat) (d : Bytes) : State :=
  let gate := fieldAt d 1 1 / 2 % 2 = 1
  s.modDisOf hub fun x => x.setHeld src (x.getHeld src ++ [{ part := part, bytes := d, ready := !gate }])

/-- A ring whose configuration R204 refuses. -/
def State.ringBad (s : State) (hub r : Nat) : Bool :=
  let p := r / 4
  let n := s.rd (Reg.DIS_RING_CFG_LOG2_SIZE hub r)
  let base := s.rd (Reg.DIS_RING_BASE hub r)
  !s.beaconOfPart p (s.rd (Reg.DIS_RING_CFG_SUBMIT hub r)) || !s.beaconOfPart p (s.rd (Reg.DIS_RING_CREDIT hub r)) ||
    12 < n || 2 ^ 26 < (base + 2 ^ n) * 64

/-- The fault of a ring is found or gone (R204): it is reported in DIS_BAD_LAST, whose slice the spec does not state, when it
is found. -/
def State.checkRing (s : State) (hub r : Nat) : State :=
  let bad := s.on (Reg.DIS_RING_CFG_EN hub r) && s.ringBad hub r
  let known := (s.disOf hub).getBad r
  let s := s.modDisOf hub (·.setBad r bad)
  if !bad ∨ known then s
  else
    let s := s.wr (Reg.DIS_BAD_LAST_STATUS hub) St.badParam.toNat
    let s := s.wr (Reg.DIS_BAD_LAST_RING hub) r
    (s.wr (Reg.DIS_BAD_LAST_SLICE hub) (s.free r % 256)).draw

/-- At enable of the DIS page each enabled ring is checked (R204). -/
def State.checkRings (s : State) (hub : Nat) : State :=
  (List.range 48).foldl (fun s r => (s.modDisOf hub (·.setBad r false)).checkRing hub r) s

/-- A ring is served: its page is ENABLED, it is enabled and right, and its partition is ACTIVE on this hub (R193, R204). -/
def State.ringServed (s : State) (hub r : Nat) : Bool :=
  s.st ⟨.dis, hub⟩ = PS.enabled && s.on (Reg.DIS_RING_CFG_EN hub r) && !s.ringBad hub r &&
    (s.part (r / 4)).state == .active && s.partHub (r / 4) = hub

/-- The distributor's watch on the SUBMIT beacon of a ring, and on the gate of a source (R194, R196). -/
def ringWatch (hub ring submit taken : Nat) : Watch :=
  { bid := submit, target := BitVec.ofNat 32 (taken + 1), tag := BitVec.ofNat 16 ring, hub := hub, engine := .dis }

def gateWatch (hub src : Nat) (d : Bytes) : Watch :=
  { bid := fieldAt d 4 4, target := BitVec.ofNat 32 (fieldAt d 8 4), tag := BitVec.ofNat 16 (0x4000 + src), hub := hub, engine := .dis }

/-- DIS_RING_TAKE (R194-R196, R204): once the distributor has learnt by watch that SUBMIT has reached it, the next slot of a ring
is read and checked; the credit comes back whatever the outcome. A slot that cannot be read is refused with the status of its
read. -/
def execDisRingTake (hub : Fin 2) (ring : Fin 48) (s : State) : Res :=
  let p := ring.val / 4
  let taken := s.rd (Reg.DIS_RING_TAKEN hub ring)
  let submit := s.rd (Reg.DIS_RING_CFG_SUBMIT hub ring)
  if !s.ringServed hub ring then .next (if s.st ⟨.dis, hub⟩ = PS.enabled then s.checkRing hub ring else s)
  else
  let l := (s.checkRing hub ring).learn (ringWatch hub ring submit taken)
  let s := l.state
  if !l.fired then .next s
  else
    let k := taken % 2 ^ s.rd (Reg.DIS_RING_CFG_LOG2_SIZE hub ring)
    let a := sramBase + hub.val * 2 ^ 26 + (s.rd (Reg.DIS_RING_BASE hub ring) + k) * 64
    let x := s.readMem (.hub hub .dis (Fin.ofNat 12 p)) a 64
    let s := (x.1.sigHub hub .dis (s.rd (Reg.DIS_RING_CREDIT hub ring)) 1#32).step1 (Reg.DIS_RING_TAKEN hub ring)
    let st := if x.2.status ≠ St.ok then x.2.status else if x.2.poison then St.poisoned else s.descStatus p x.2.data
    if st = St.ok then .next (s.holdDesc hub ring p x.2.data) else .next (s.refuseDesc hub ring p x.2.data st)

/-- GATE_RELEASE (R196): the oldest held descriptor of a source is released when the distributor has learnt by watch that its
gate beacon reached GATE_VALUE. -/
def execGateRelease (hub : Fin 2) (src : Nat) (s : State) : Res :=
  match (s.disOf hub).getHeld src with
  | d :: rest =>
    if d.ready ∨ s.st ⟨.dis, hub⟩ ≠ PS.enabled then .next s
    else
      let l := s.learn (gateWatch hub src d.bytes)
      .next (if l.fired then l.state.modDisOf hub (·.setHeld src ({ d with ready := true } :: rest)) else l.state)
  | [] => .next s

/-- The cluster a released descriptor goes to, if one has a free entry (R197, R198, R513). -/
def State.placeTarget (s : State) (hub : Nat) (d : Desc) : Option Nat :=
  let x := s.disOf hub
  if fieldAt d.bytes 1 1 % 2 = 0 then
    let gc := fieldAt d.bytes 2 1
    if 0 < x.getCredit gc then some gc else none
  else
    ((List.range 160).filter fun gc =>
      s.clusterPart gc = d.part && s.on (Reg.CLU_WQ_ELIG gc) && !s.clusterGone gc && 0 < x.getCredit gc).foldl
      (fun best gc => match best with
        | none => some gc
        | some b => if x.getCredit b < x.getCredit gc then some gc else some b) none

/-- A descriptor that can leave its source now: it is refused, or it has a cluster to go to. -/
inductive Placing where
  | refuse
  | go (gc : Nat)
  deriving DecidableEq, Repr

def State.placing (s : State) (hub : Nat) (d : Desc) : Option Placing :=
  if !d.ready then none
  else if fieldAt d.bytes 1 1 % 2 = 0 ∧ s.clusterGone (fieldAt d.bytes 2 1) then some .refuse
  else (s.placeTarget hub d).map .go

/-- The next source of a partition in round robin whose oldest descriptor can leave (R193).
DESIGN CHOICE (log 11). -/
def State.nextSource (s : State) (hub p : Nat) : Option (Nat × Desc × Placing) :=
  let x := s.disOf hub
  let ready := x.held.filterMap fun e =>
    match e.2 with
    | d :: _ => if d.part = p then (s.placing hub d).map fun g => (e.1, d, g) else none
    | [] => none
  match ready.find? (fun e => x.getRr p < e.1) with
  | some e => some e
  | none => ready.head?

/-- A descriptor as it enters a cluster's queue: PARTITION and SEQ are the distributor's (R192). -/
def placedBytes (d : Bytes) (part : Nat) (seq : BitVec 64) : Bytes :=
  d.take 13 ++ [BitVec.ofNat 8 part] ++ (d.drop 14).take 2 ++ leBytes 8 seq.toNat ++ d.drop 24

/-- Clusters of a partition. -/
def State.clustersOf (s : State) (p : Nat) : List Nat := (List.range 160).filter fun gc => (s.part p).clusters.getLsbD gc

/-- A pause of the partition is in force or under way: from the change of DIS_PAUSE that began it to the one that ends it,
each taking effect once the change before it has completed (R201, R202). -/
def State.pauseInForce (s : State) (p : Nat) : Bool := (s.clustersOf p).any fun gc => (s.cluster gc).pauseReq

/-- The distributor can serve a partition now: it is not paused and a source of it has a descriptor that can leave. -/
def State.placeWaits (s : State) (hub p : Nat) : Bool := !s.pauseInForce p && (s.nextSource hub p).isSome

/-- DESCRIPTOR_PLACE (R193, R197, R198, R201, R202, R320, R321, R513): at a moment of the hub fabric clock the distributor serves
the next source of a partition that is not paused, in the partition's window or turn. -/
def execDescriptorPlace (hub : Fin 2) (part : Fin 12) (now : Nat) (s : State) : Res :=
  if s.pauseInForce part ∨ !s.serving ⟨.dis, hub⟩ ∨ !s.mayServe hub Engine.dis.num part now 1 (s.placeWaits hub) then .next s
  else
    match s.nextSource hub part with
    | none => .next s
    | some (src, d, g) =>
      let s := s.served hub Engine.dis.num part now
      let s := s.modDisOf hub fun x => (x.setHeld src ((x.getHeld src).drop 1)).setRr part src
      match g with
      | .refuse => .next (s.refuseDesc hub src part d.bytes St.unitAbsent)
      | .go gc =>
        let seq := (s.part part).seq
        let s := s.modPart part fun x => { x with seq := x.seq + 1 }
        let s := s.modDisOf hub fun x => x.setCredit gc (x.getCredit gc - 1)
        .next (s.modCluster gc fun c => { c with wq := c.wq ++ [placedBytes d.bytes part seq] })

/-- WORK_CREDIT_RETURN (R198): a credit return of a cluster reaches the distributor. -/
def execWorkCreditReturn (gc : Fin 160) (s : State) : Res :=
  let c := s.cluster gc
  if c.creditOut = 0 then .next s
  else
    let h := s.partHub (s.clusterPart gc)
    let s := s.setCluster gc { c with creditOut := c.creditOut - 1 }
    .next (s.modDisOf h fun x => x.setCredit gc (min 64 (x.getCredit gc + 1)))

/-- Every watch of an engine of a hub is disarmed, and no answer is left (R187, R203). -/
def State.disarmAll (s : State) (hub : Nat) (e : Engine) : State :=
  let ws := s.clusters.flatMap fun c => c.2.watches.filter fun w => w.hub = hub && w.engine == e
  let s := ws.foldl (fun s w => s.disarmWatch (w.bid / 128) hub e w.tag) s
  { s with answers := SMap.keep (fun k => k / 65536 != hub * 16 + e.num) s.answers }

/-- A watch of an engine of a hub is disarmed, and its answer is forgotten, before its tag is used anew (R187). -/
def State.disarmTag (s : State) (hub : Nat) (e : Engine) (tag : BitVec 16) : State :=
  let ws := s.clusters.flatMap fun c => c.2.watches.filter fun w => w.hub = hub && w.engine == e && w.tag = tag
  (ws.foldl (fun s w => s.disarmWatch (w.bid / 128) hub e tag) s).setAnswered (watchKey hub e tag) none

/-! ## Pausing (R172, R173, R201, R202) -/

/-- A pause of a cluster is asked for, or a core of it has not returned from one, so that DONE stands (R205). -/
def State.pauseHolds (s : State) (gc : Nat) : Bool :=
  s.on (Reg.CLU_PAUSE_REQ gc) || (s.cluster gc).pauseReq ||
  (List.range 18).any fun k => (s.core (slotKey gc k)).run = .paused

/-- A pause of the core is requested (R172). -/
def State.pauseRequested (s : State) (gc slot : Nat) : Bool :=
  s.on (Reg.COR_PAUSE_REQ (slotKey gc slot)) || s.on (Reg.CLU_PAUSE_REQ gc) || (s.cluster gc).pauseReq

/-- A core counts as paused (R201): it is PAUSED, or it runs nothing. -/
def State.countsPaused (s : State) (p : Nat) : Bool :=
  match (s.core p).run with
  | .running => false
  | .stub => false
  | _ => true

/-- Every logical core of a cluster is paused or absent, and its page gather has stopped. -/
def State.clusterPaused (s : State) (gc : Nat) : Bool :=
  s.clusterGone gc ||
  ((List.range 16).all fun k => match s.slotOf (gc * 16 + k) with
    | some slot => s.countsPaused (slotKey gc slot)
    | none => true) && (match (s.cluster gc).pgRun with
    | some r => r.between
    | none => true)

/-- An earlier resume of the partition is still under way: a core that no pause asks for has not returned (R202). -/
def State.resuming (s : State) (p : Nat) : Bool :=
  (s.clustersOf p).any fun gc => (List.range 18).any fun slot =>
    let c := s.core (slotKey gc slot)
    c.run = .paused && !s.pauseRequested gc slot

/-- Brings a partition's clusters to what its DIS_PAUSE bit asks, unless an earlier change is still under way
(R201, R202). -/
def State.syncPause (s : State) (hub p : Nat) : State :=
  let want := natBits (s.rd (Reg.DIS_PAUSE hub)) p 1 = 1
  let done := natBits (s.rd (Reg.DIS_PAUSED hub)) p 1 = 1
  let cs := s.clustersOf p
  let inForce := s.pauseInForce p
  if s.partHub p ≠ hub then s
  else if want ∧ !inForce ∧ !s.resuming p then
    cs.foldl (fun s gc => s.modCluster gc fun c => { c with pauseReq := true, pauseDone := false }) s
  else if !want ∧ inForce ∧ done then
    let s := cs.foldl (fun s gc => s.modCluster gc fun c => { c with pauseReq := false, pauseDone := false }) s
    let f := Reg.DIS_PAUSED hub
    -- with no core to return, the clusters have resumed
    if s.resuming p then s else s.setReg f.addr (s.reg f.addr &&& ~~~ (1#32 <<< p))
  else s

/-- PARTITION_PAUSE (R201): bit p of DIS_PAUSE is set. -/
def execPartitionPause (hub : Fin 2) (part : Fin 12) (s : State) : Res :=
  let f := Reg.DIS_PAUSE hub
  withPage ⟨.dis, hub⟩ 0x40 s fun s => .next ((s.setReg f.addr (s.reg f.addr ||| (1#32 <<< part.val))).syncPause hub part)

/-- PARTITION_RESUME (R202): bit p of DIS_PAUSE is cleared. -/
def execPartitionResume (hub : Fin 2) (part : Fin 12) (s : State) : Res :=
  let f := Reg.DIS_PAUSE hub
  withPage ⟨.dis, hub⟩ 0x40 s fun s => .next ((s.setReg f.addr (s.reg f.addr &&& ~~~ (1#32 <<< part.val))).syncPause hub part)

/-- CLUSTER_PAUSE_DONE (R201, R205): a paused cluster reports DONE; DIS_PAUSED is set when every cluster of the partition
has. -/
def execClusterPauseDone (gc : Fin 160) (s : State) : Res :=
  let c := s.cluster gc
  if !(c.pauseReq || s.on (Reg.CLU_PAUSE_REQ gc)) ∨ !s.clusterPaused gc then .next s
  else
    let s := s.setCluster gc { c with pauseDone := true }
    let p := s.clusterPart gc
    if p = 15 ∨ !c.pauseReq then .next s
    else if (s.clustersOf p).all fun g => (s.cluster g).pauseDone || s.clusterGone g then
      let h := s.partHub p
      let f := Reg.DIS_PAUSED h
      .next ((s.setReg f.addr (s.reg f.addr ||| (1#32 <<< p))).syncPause h p)
    else .next s

/-- Nothing of a core is left to run before it is PAUSED: no M operation, no line in flight (R173). -/
def State.drained (s : State) (gc slot : Nat) : Bool :=
  let c := s.core (slotKey gc slot)
  c.mqueue.isEmpty && c.mrun.isEmpty && ((s.cluster gc).lines.all fun l => l.slot ≠ slot)

/-- The channels of a core write their progress back (R164, R173). -/
def State.writeBackAll (s : State) (p : Nat) : State :=
  (List.range 4).foldl (fun s ch => s.modChan p ch fun c => match c.run with
    | some r => c.writeBack r
    | none => c) s

/-- CORE_PAUSE (R173): a requested pause takes effect at a bundle boundary with no delay bundle left: issue stops, pending
writes land and the channels hold; RUN becomes PAUSED once the M queue is empty and no line is in flight. -/
def execCorePause (gc : Fin 160) (slot : Fin 18) (s : State) : Res :=
  let p := slotKey gc slot
  let c := s.core p
  if c.run ≠ .running ∨ s.st ⟨.cor, p⟩ = PS.draining ∨ !s.pauseRequested gc slot ∨ (!c.pausing ∧ c.branch.isSome) then .next s
  else
    let s := if c.pausing then s
      else (((s.landAll p).modCore p fun c => { c with pausing := true, bundle := [] }).holdChannels gc slot true)
    if s.drained gc slot then .next ((s.writeBackAll p).modCore p fun c => { c with run := .paused, pausing := false })
    else .next s

/-- CORE_UNPAUSE (R172, R173, R202): with no pause requested a PAUSED core returns to RUNNING and its channels continue;
a pause that has not yet taken hold is dropped. DIS_PAUSED is cleared when the first cluster resumes. -/
def execCoreUnpause (gc : Fin 160) (slot : Fin 18) (s : State) : Res :=
  let p := slotKey gc slot
  let c := s.core p
  if s.pauseRequested gc slot ∨ s.st ⟨.cor, p⟩ = PS.draining ∨ !(c.run = .paused ∨ (c.run = .running ∧ c.pausing)) then .next s
  else
    let s := (s.modCore p fun c => { c with run := .running, pausing := false }).holdChannels gc slot false
    let s := s.modCluster gc fun c => { c with pauseDone := false }
    let q := s.clusterPart gc
    if q = 15 then .next s
    else
      let h := s.partHub q
      let f := Reg.DIS_PAUSED h
      .next ((s.setReg f.addr (s.reg f.addr &&& ~~~ (1#32 <<< q))).syncPause h q)

end Sys2Proof.Machine
end

