-- ==== Sys2Proof/Machine/Digest.lean ====
section
/-! DEFINITION. The SM3 digest of GB/T 32905, which the device computes for the prefix index, Lantern and image
verification (R253, R431, R442). -/
namespace Sys2Proof.Machine

def sm3Iv : List (BitVec 32) :=
  [0x7380166f#32, 0x4914b2b9#32, 0x172442d7#32, 0xda8a0600#32, 0xa96f30bc#32, 0x163138aa#32, 0xe38dee4d#32, 0xb0fb0e4e#32]

def sm3P0 (x : BitVec 32) : BitVec 32 := x ^^^ x.rotateLeft 9 ^^^ x.rotateLeft 17
def sm3P1 (x : BitVec 32) : BitVec 32 := x ^^^ x.rotateLeft 15 ^^^ x.rotateLeft 23

/-- Message words, newest first, extended n times. -/
def sm3Extend : Nat → List (BitVec 32) → List (BitVec 32)
  | 0, w => w
  | n + 1, w =>
    let g (i : Nat) : BitVec 32 := w.getD (i - 1) 0#32
    sm3Extend n ((sm3P1 (g 16 ^^^ g 9 ^^^ (g 3).rotateLeft 15) ^^^ (g 13).rotateLeft 7 ^^^ g 6) :: w)

/-- The eight working registers. -/
structure Sm3 where
  a : BitVec 32
  b : BitVec 32
  c : BitVec 32
  d : BitVec 32
  e : BitVec 32
  f : BitVec 32
  g : BitVec 32
  h : BitVec 32

/-- Rounds from j on, over the pairs (W_j, W'_j). -/
def sm3Rounds : Nat → List (BitVec 32 × BitVec 32) → Sm3 → Sm3
  | _, [], v => v
  | j, (w, w1) :: ws, v =>
    let t : BitVec 32 := if j < 16 then 0x79cc4519#32 else 0x7a879d8a#32
    let ss1 := (v.a.rotateLeft 12 + v.e + t.rotateLeft (j % 32)).rotateLeft 7
    let ss2 := ss1 ^^^ v.a.rotateLeft 12
    let ff := if j < 16 then v.a ^^^ v.b ^^^ v.c else (v.a &&& v.b) ||| (v.a &&& v.c) ||| (v.b &&& v.c)
    let gg := if j < 16 then v.e ^^^ v.f ^^^ v.g else (v.e &&& v.f) ||| (~~~ v.e &&& v.g)
    let tt1 := ff + v.d + ss2 + w1
    let tt2 := gg + v.h + ss1 + w
    sm3Rounds (j + 1) ws
      { a := tt1, b := v.a, c := v.b.rotateLeft 9, d := v.c, e := sm3P0 tt2, f := v.e, g := v.f.rotateLeft 19, h := v.g }

/-- Big-endian words of a block. -/
def sm3Words : Nat → Bytes → List (BitVec 32)
  | 0, _ => []
  | n + 1, b =>
    let x (i : Nat) : BitVec 32 := (b.getD i 0#8).setWidth 32
    ((x 0 <<< 24) ||| (x 1 <<< 16) ||| (x 2 <<< 8) ||| x 3) :: sm3Words n (b.drop 4)

/-- One compression. -/
def sm3Block (v : List (BitVec 32)) (b : Bytes) : List (BitVec 32) :=
  let w := (sm3Extend 52 (sm3Words 16 b).reverse).reverse
  let ws := (List.range 64).map fun j => (w.getD j 0#32, w.getD j 0#32 ^^^ w.getD (j + 4) 0#32)
  let g (i : Nat) : BitVec 32 := v.getD i 0#32
  let r := sm3Rounds 0 ws ⟨g 0, g 1, g 2, g 3, g 4, g 5, g 6, g 7⟩
  [r.a ^^^ g 0, r.b ^^^ g 1, r.c ^^^ g 2, r.d ^^^ g 3, r.e ^^^ g 4, r.f ^^^ g 5, r.g ^^^ g 6, r.h ^^^ g 7]

def sm3Blocks : Nat → Bytes → List (BitVec 32) → List (BitVec 32)
  | 0, _, v => v
  | n + 1, b, v => sm3Blocks n (b.drop 64) (sm3Block v (b.take 64))

/-- The 32-byte digest of a message. DESIGN CHOICE (log 13). -/
def sm3 (m : Bytes) : Bytes :=
  let l := 8 * m.length
  let zeros := (119 - m.length % 64) % 64
  let len : Bytes := (List.range 8).map fun i => BitVec.ofNat 8 (l / 256 ^ (7 - i))
  let p := m ++ [0x80#8] ++ List.replicate zeros 0#8 ++ len
  (sm3Blocks (p.length / 64) p sm3Iv).flatMap fun x =>
    [x.extractLsb' 24 8, x.extractLsb' 16 8, x.extractLsb' 8 8, x.extractLsb' 0 8]

end Sys2Proof.Machine
end

