-- ==== Sys2Proof/Machine/Blocks.lean ====
section
/-! DEFINITION. Namespaces as both their users reach them, the NVMe controllers and the page mover: placement of blocks,
encryption and range locks (15_storage_controller.md R410-R414). -/
namespace Sys2Proof.Machine

/-- Bytes of a logical block. -/
def Ns.bs (n : Ns) : Nat := if n.lbaf then 512 else 4096

/-- Where block lba of a persistent namespace lies: the member, its port and the SSD block (R410). -/
def Ns.place (n : Ns) (lba : Nat) : Nat × Member × Nat :=
  let cb := 65536 / n.bs
  let c := lba / cb
  let m := c % n.members.length
  let x := n.members.getD m Member.reset
  (m, x, x.start + c / n.members.length * cb + lba % cb)

/-- Runs of blocks cut at the chunks of a namespace: (first block, blocks) (R410). -/
def chunkRuns (cb : Nat) : Nat → Nat → Nat → List (Nat × Nat)
  | 0, _, _ => []
  | f + 1, lba, n =>
    if n = 0 then []
    else
      let k := min n (cb - lba % cb)
      (lba, k) :: chunkRuns cb f (lba + k) (n - k)

def Ns.runs (ns : Ns) (lba n : Nat) : List (Nat × Nat) :=
  let cb := 65536 / ns.bs
  chunkRuns cb (n / cb + 2) lba n

/-- Runs of n blocks that are alike: all of them among the bad ones, or none; first block and blocks. -/
def alikeRuns (bad : List Nat) : Nat → Nat → List (Nat × Nat)
  | _, 0 => []
  | i, n + 1 =>
    match alikeRuns bad (i + 1) n with
    | (j, k) :: l => if bad.contains i = bad.contains j then (i, k + 1) :: l else (i, 1) :: (j, k) :: l
    | [] => [(i, 1)]

/-- One logical block through XTS under the namespace's key slot; the tweak names the namespace block (R412).
DESIGN CHOICE (log 13). -/
def State.xtsBlock (s : State) (nsid : Nat) (ns : Ns) (enc : Bool) (lba : Nat) (data : Bytes) : Bytes :=
  match s.key ns.keyslot with
  | some k => (Config.cipher k.alg.toNat enc k.key (leBytes 16 (lba + (nsid - 1) * 2 ^ 64)) [] data).take ns.bs
  | none => data

/-- Consecutive blocks through XTS. -/
def State.xtsBlocks (s : State) (nsid : Nat) (ns : Ns) (enc : Bool) (lba : Nat) (data : Bytes) : Bytes :=
  (List.range (data.length / ns.bs)).flatMap fun i =>
    s.xtsBlock nsid ns enc (lba + i) ((data.drop (i * ns.bs)).take ns.bs)

/-! ## Key slots (R432-R434) -/

/-- The key slot of a use exists, holds an XTS (or GCM) key and lies in a partition's range (R315, R433, R434). -/
def State.keySlotIn (s : State) (p k : Nat) : Bool :=
  let x := s.part p
  32 * x.keyBase ≤ k && k < 32 * (x.keyBase + x.keyCount)

def State.keyUse (s : State) (k : Nat) (xts : Bool) : Bool :=
  match s.key k with
  | some x => (x.alg = 1#3 || x.alg = 3#3) == xts
  | none => false

/-! ## Range locks (R413, R414) -/

/-- Queue number under which the page mover's commands stand (R251, R414). -/
def moverSq : Nat := 0x10000

/-- Two lock entries conflict. -/
def lockClash (a b : Nat × Nat × Bool) : Bool := (a.2.2 || b.2.2) && overlaps a.1 a.2.1 b.1 b.2.1
where overlaps (a n b m : Nat) : Bool := a < b + m && b < a + n

/-- No earlier unfinished command of the controller holds a conflicting entry in the same namespace (R413). -/
def Nvme.free (v : Nvme) (c : NvCmd) : Bool :=
  v.cmds.all fun e => e.num ≥ c.num || e.nsid ≠ c.nsid || !(e.locks.any fun a => c.locks.any fun b => lockClash a b)

/-- Lock entries held. -/
def Nvme.locksHeld (v : Nvme) : Nat := (v.cmds.map (·.locks.length)).sum

def lockMax : Nat := 8192

/-- A command is fetched: numbered, with its lock entries (R413). The register shows the entries held (R425). -/
def State.lockTake (s : State) (link : Nat) (c : NvCmd) : State :=
  let v := s.nvme link
  let v := { v with fetched := v.fetched + 1, cmds := v.cmds ++ [{ c with num := v.fetched }] }
  (s.setNvme link v).wr (Reg.NVC_LOCKS link) v.locksHeld

/-- A command ends and its entries are free. -/
def State.lockDrop (s : State) (link num : Nat) : State :=
  let v := s.nvme link
  let v := { v with cmds := v.cmds.filter fun c => c.num ≠ num }
  (s.setNvme link v).wr (Reg.NVC_LOCKS link) v.locksHeld

end Sys2Proof.Machine
end

