-- ==== Sys2Proof/Machine/Egress.lean ====
section
/-! DEFINITION. Egress scheduling: queue and node tables, lanes, fair queueing, credit buckets, partition windows and gates
(14_egress_scheduling.md R387-R401). Moments are operands: `now` a count of the hub fabric clock, `ts` an ETH_TS. -/
namespace Sys2Proof.Machine

def tshPage (h : Nat) : Page := ⟨.tsh, h⟩

/-- ETH_TS of a port has reached a count (R336). -/
def State.portNow (s : State) (port ts : Nat) : State :=
  s.wr64 (Reg.ETH_TS_LO port) (max (ts % 2 ^ 64) (s.rd64 (Reg.ETH_TS_LO port)))

/-- A queue or node entry (R388). -/
structure Shape where
  valid : Bool
  home : Nat
  node : Nat
  owner : Nat
  weight : Nat
  buf : Nat
  cir : Nat
  pir : Nat
  cbs : Nat
  pbs : Nat
  deriving DecidableEq, Repr

/-- Bytes of a hub's SRAM at an offset. -/
def State.hubBytes (s : State) (h off n : Nat) : Bytes := s.bytesAt (sramBase + h * 2 ^ 26 + off) n

def shapeOf (b : Bytes) : Shape :=
  let w := fieldAt b 0 8
  let x := fieldAt b 8 8
  { valid := natBits w 63 1 = 1, home := natBits w 58 2, node := natBits w 52 6, owner := natBits w 56 4
    weight := natBits w 44 8, buf := natBits w 32 11, cir := natBits w 0 32, pir := natBits x 32 32
    cbs := natBits x 0 24, pbs := natBits (fieldAt b 16 8) 0 24 }

/-- Entry of subscriber queue q. -/
def State.qEntry (s : State) (h q : Nat) : Shape :=
  shapeOf (s.hubBytes h (s.rd (Reg.TSH_QTBL_BASE h) * 64 + 32 * q) 32)

/-- Entry of node n of local port k. -/
def State.nEntry (s : State) (h k n : Nat) : Shape :=
  shapeOf (s.hubBytes h (s.rd (Reg.TSH_NTBL_BASE h) * 64 + 32 * (64 * k + n)) 32)

def laneKey (q port : Nat) : Nat := q * 8 + port
def nodeKey (port n : Nat) : Nat := port * 64 + n

/-- A table of n bytes lies in the granules of a hub's SRAM set aside for block tables (R339, R388). -/
def inTables (base n : Nat) : Bool := 8 * 2 ^ 18 ≤ base && base + n ≤ 32 * 2 ^ 18

/-- Whether an enable of the TSH page is refused (R388). -/
def State.tshBad (s : State) (h : Nat) : Bool :=
  !inTables (s.rd (Reg.TSH_QTBL_BASE h) * 64) (16384 * 32) || !inTables (s.rd (Reg.TSH_NTBL_BASE h) * 64) (256 * 32)

/-- Partition that holds a subscriber queue, 15 for none (R311). -/
def State.subqPart (s : State) (q : Nat) : Nat :=
  match (List.range 12).find? (fun p =>
      let x := s.part p
      (x.state == .active || x.state == .destroying) && x.subqBase * 64 ≤ q && q < (x.subqBase + x.subqCount) * 64) with
  | some p => p
  | none => 15

/-! ## Tags and buckets (R392-R395) -/

/-- a is behind b, modulo 2^48 (R177, R392). -/
def before48 (a b : BitVec 48) : Bool := a ≠ b && (b - a).toNat < 2 ^ 47

def max48 (a b : BitVec 48) : BitVec 48 := if before48 a b then b else a

/-- Finish tag of a frame of L bytes (R392). A WEIGHT of 0, which no entry may hold, leaves the tag's step open. -/
def State.finish (s : State) (start : BitVec 48) (len weight : Nat) : BitVec 48 :=
  let x := (len + 20) * 65536
  start + BitVec.ofNat 48 (if weight = 0 then s.free 0 else (x + weight - 1) / weight)

/-- Level of a bucket after its rate has run for some clocks. -/
def fill (level : Int) (rate cap dt : Nat) : Int := min ((cap * 65536 : Nat) : Int) (level + ((rate * dt : Nat) : Int))

/-- Level of a full bucket. -/
def fullBucket (burst : Nat) : Int := ((burst * 65536 : Nat) : Int)

/-- Brings buckets up to date: they start full when the entry becomes VALID, and have filled at the rates that the last selection
saw; those that the entry now gives apply from here on (R389, R395). DEDUCED (log 76). -/
def Buckets.fresh (x : Buckets) (e : Shape) (now : Nat) : Buckets :=
  let dt := now - x.upd
  let c : Int := if x.live then fill x.cLevel x.cir x.cbs dt else fullBucket e.cbs
  let p : Int := if x.live then fill x.pLevel x.pir x.pbs dt else fullBucket e.pbs
  { cLevel := min c (fullBucket e.cbs), pLevel := min p (fullBucket e.pbs), upd := max now x.upd, live := e.valid
    cir := e.cir, cbs := e.cbs, pir := e.pir, pbs := e.pbs }

/-- A level after a debit: it falls below zero by at most the frame (R395). -/
def sink (level d : Int) : Int := min level (max (level - d) (-d))

/-- Debits a frame; a peak bucket whose PIR is 0 limits nothing and keeps its level (R393, R395). -/
def Buckets.debit (x : Buckets) (d : Int) : Buckets :=
  { x with cLevel := sink x.cLevel d, pLevel := if x.pir = 0 then x.pLevel else sink x.pLevel d }

/-- The port block of a port: a peak rate alone (R395, R401). -/
def State.portShape (s : State) (port : Nat) : Shape :=
  { shapeOf [] with
    valid := true, pir := s.rd (Reg.TSH_PORT_PIR (port / 4) (port % 4)), pbs := s.rd (Reg.TSH_PORT_PBS (port / 4) (port % 4)) }

/-- The committed bucket gives service: a CIR of 0 gives none (R388). -/
def Shape.committed (e : Shape) (level : Int) : Bool := e.cir ≠ 0 && decide (0 < level)

/-- The peak bucket lets the child send: a PIR of 0 is no limit (R395). -/
def Shape.peakOk (e : Shape) (level : Int) : Bool := e.pir = 0 || decide (0 < level)

/-! ## Lanes (R387-R391, R394) -/

/-- Lanes of a port that hold frames, ascending: queue and lane. -/
def State.lanesOf (s : State) (port : Nat) : List (Nat × Lane) :=
  s.lanes.filterMap fun e => if e.1 % 8 = port ∧ !e.2.frames.isEmpty then some (e.1 / 8, e.2) else none

/-- A node of a port holds frames. -/
def State.nodeBusy (s : State) (port n : Nat) : Bool := (s.lanesOf port).any fun e => e.2.node = n

/-- A lane joins a node as a waking lane, and the node wakes with its first (R389, R394). -/
def State.joinNode (s : State) (q port n : Nat) : State :=
  let nk := nodeKey port n
  let s := if s.nodeBusy port n then s else s.modNode nk fun x => { x with s := max48 x.s (s.port port).v }
  s.modLane (laneKey q port) fun x => { x with s := max48 x.s (s.node nk).v, node := n }

/-- Lanes whose entry now names another node move there with their frames (R389). -/
def State.moveLanes (s : State) (port : Nat) : State :=
  (s.lanesOf port).foldl (fun s e =>
    let x := s.qEntry (port / 4) e.1
    if x.valid ∧ x.node ≠ e.2.node then s.joinNode e.1 port x.node else s) s

/-- Bytes in a port's egress frame buffer (R391). -/
def State.bufferUsed (s : State) (port : Nat) : Nat :=
  (s.lanesOf port).foldl (fun n e => e.2.frames.foldl (fun n f => n + f.bytes.length) n) 0

/-- Answer to a frame offered to a lane. -/
inductive Offer where
  | accepted | refused | waits
  deriving DecidableEq, Repr

/-- The conditions under which a frame is refused (R390), and a queue that another hub's scheduler serves (R387). A sender that
acts for no partition is not limited by one (R312). DEDUCED (log 76). -/
def State.refuses (s : State) (h q k part : Nat) : Bool :=
  let e := s.qEntry h q
  let n := s.nEntry h k e.node
  16384 ≤ q || !e.valid || !n.valid || (s.subqPart q < 12 && s.partHub (s.subqPart q) ≠ h) ||
    (part < 12 && (s.subqPart q ≠ part || (n.owner ≠ 0xF && n.owner ≠ part) || ((s.part part).strict && n.owner ≠ part)))

/-- A lane has no room for a frame of n bytes (R391). -/
def State.laneFull (s : State) (h q k n : Nat) : Bool :=
  (s.qEntry h q).buf * 4096 ≤ ((s.lane (laneKey q (4 * h + k))).frames.foldl (fun n f => n + f.bytes.length) 0) ||
    4 * 2 ^ 20 < s.bufferUsed (4 * h + k) + n

/-- A sender of partition `part` with a frame of n bytes for lane (q, k) must wait (R391). -/
def State.laneWaits (s : State) (h q k part n : Nat) : Bool :=
  s.st (tshPage h) ≠ PS.enabled || (!s.refuses h q k part && s.laneFull h q k n)

/-- A frame is offered to lane (q, k) of a hub (R387, R390, R391, R394). -/
def State.offer (s : State) (h q k : Nat) (f : Frame) : State × Offer :=
  let port := 4 * h + k
  if s.laneWaits h q k f.part f.bytes.length then (s, .waits)
  else if s.refuses h q k f.part then
    (((s.bump (Reg.TSH_REFUSED h)).err (tshPage h) 18 Sev.corrected f.part).bucket (tshPage h), .refused)
  else
    let s := if (s.lane (laneKey q port)).frames.isEmpty then s.joinNode q port (s.qEntry h q).node else s
    (s.modLane (laneKey q port) fun x => { x with frames := x.frames ++ [f] }, .accepted)

/-- The telemetry frames of a hub that wait are offered again, oldest first (R391, R567). -/
def State.offerHeld (s : State) (h : Nat) : State :=
  let r := (s.tel h).held.foldl (fun (acc : State × List (Nat × Frame)) f =>
    let o := acc.1.offer h f.1 (acc.1.qEntry h f.1).home f.2
    (o.1, if o.2 = .waits then acc.2 ++ [f] else acc.2)) (s, [])
  r.1.modTel h fun x => { x with held := r.2 }

/-- EGRESS_ENQUEUE (R387, R390, R391): a sender offers a frame, from DMAC to FCS, to the lane of a queue and port; without a
port it goes to the queue's HOME_PORT. A frame the lane does not accept stays with its sender; a refused one is dropped. -/
def execEgressEnqueue (hub : Fin 2) (queue : Nat) (port : Option (Fin 4)) (part : Option (Fin 12)) (frame : List (BitVec 8))
    (s : State) : Res :=
  let k := match port with
    | some k => k.val
    | none => (s.qEntry hub queue).home
  let p := match part with
    | some p => p.val
    | none => 15
  .next (s.offer hub queue k { bytes := frame, owner := .other, part := p }).1

/-! ## Windows and gates (R396-R398) -/

/-- The partition a port's committed map names for window w. -/
def Port.window (x : Port) (w : Nat) : Nat :=
  match x.wmap with
  | some m => (SMap.get (fun _ => 0xF#4) m w).toNat
  | none => 0xF

/-- A strict partition, ACTIVE or not. -/
def State.strictPart (s : State) (p : Nat) : Bool := p < 12 && (s.part p).state != .free && (s.part p).strict

/-- The current window serves the nodes of an owner (R397): a strict partition's never in a pooled window. -/
def State.windowServes (s : State) (port ts owner : Nat) : Bool :=
  let name := (s.port port).window (ts / 2000 % 64)
  if s.strictOn name then owner = name else !s.strictPart owner

/-- Port clocks left of node n's opening at list position pos: none when it is closed, a large count when it never closes (R398). -/
def Port.openFrom (x : Port) (n pos : Nat) : Nat :=
  let dur (e : Nat) : Nat := x.getGclDur e
  let bit (e : Nat) : Bool := (x.getGclOpen e).getLsbD n
  -- start of each entry
  let starts := (List.range x.gclLen).map fun e => (e, (List.range e).foldl (fun t i => t + dur i) 0)
  match starts.find? (fun e => e.2 ≤ pos && pos < e.2 + dur e.1) with
  | none => 0
  | some (e0, st) =>
    if !bit e0 then 0
    else
      let later := (List.range (x.gclLen - 1)).map fun i => (e0 + 1 + i) % x.gclLen
      let run := later.takeWhile bit
      if run.length = later.length then 2 ^ 63
      else (st + dur e0 - pos) + run.foldl (fun t e => t + dur e) 0

/-- Port clocks left of node n's opening at a moment (R398). Before GCL_BASE every node is open; that opening goes on through the
entries which the list then begins with. -/
def Port.openLeft (x : Port) (n ts : Nat) : Nat :=
  let cycle := (List.range x.gclLen).foldl (fun t e => t + x.getGclDur e) 0
  if x.gclLen = 0 ∨ cycle = 0 then 2 ^ 63
  else if ts < x.gclBase then x.gclBase - ts + x.openFrom n 0
  else x.openFrom n ((ts - x.gclBase) % cycle)

/-- Wire time of a frame at the port's rate (R396). -/
def State.wireClocks (s : State) (port len : Nat) : Nat :=
  let b := if s.rd (Reg.ETH_LINK_RATE port) = 2 then 80 else 40
  (len + 20 + b - 1) / b

/-! ## Selection (R393, R396) -/

/-- An eligible child: its index, finish tag, head frame's length, and whether its committed bucket is above zero. -/
structure Child where
  idx : Nat
  fin : BitVec 48
  len : Nat
  committed : Bool
  deriving DecidableEq, Repr

/-- The child a parent picks (R393); the list is in ascending index. -/
def pickChild (cs : List Child) : Option Child :=
  let pool := if cs.any (·.committed) then cs.filter (·.committed) else cs
  pool.foldl (fun best c => match best with
    | none => some c
    | some b => if before48 c.fin b.fin then some c else some b) none

/-- Brings every bucket of a port up to date. -/
def State.freshPort (s : State) (port now : Nat) : State :=
  let h := port / 4
  let k := port % 4
  let qs := s.lanes.filterMap fun e => if e.1 % 8 = port then some (e.1 / 8) else none
  let s := qs.foldl (fun s q => s.modLane (laneKey q port) fun x => { x with bk := x.bk.fresh (s.qEntry h q) now }) s
  let kept := s.nodes.filterMap fun e => if e.1 / 64 = port then some (e.1 % 64) else none
  let ns := ((s.lanesOf port).map (fun e => e.2.node) ++ kept).eraseDups
  let s := ns.foldl (fun s n => s.modNode (nodeKey port n) fun x => { x with bk := x.bk.fresh (s.nEntry h k n) now }) s
  s.modPort port fun x => { x with bk := x.bk.fresh (s.portShape port) now }

/-- Eligible lanes of a node, with `room` port clocks left. -/
def State.laneChildren (s : State) (port n room : Nat) : List Child :=
  let h := port / 4
  (s.lanesOf port).filterMap fun e =>
    let q := s.qEntry h e.1
    let len := (e.2.frames.headD Frame.reset).bytes.length
    if e.2.node = n ∧ q.valid ∧ q.peakOk e.2.bk.pLevel ∧ s.wireClocks port len ≤ room then
      some { idx := e.1, fin := s.finish e.2.s len q.weight, len := len, committed := q.committed e.2.bk.cLevel }
    else none

/-- The lane a node would send from now. -/
def State.nodeLane (s : State) (port ts n : Nat) : Option Child :=
  let e := s.nEntry (port / 4) (port % 4) n
  let x := s.node (nodeKey port n)
  if !e.valid ∨ !e.peakOk x.bk.pLevel ∨ !s.windowServes port ts e.owner then none
  else pickChild (s.laneChildren port n (min (2000 - ts % 2000) ((s.port port).openLeft n ts)))

/-- Eligible nodes of a port. -/
def State.nodeChildren (s : State) (port ts : Nat) : List Child :=
  (List.range 64).filterMap fun n =>
    match s.nodeLane port ts n with
    | none => none
    | some c =>
      let e := s.nEntry (port / 4) (port % 4) n
      let x := s.node (nodeKey port n)
      some { idx := n, fin := s.finish x.s c.len e.weight, len := c.len, committed := e.committed x.bk.cLevel }

/-- The sender of a frame that has left is told (R353). -/
def State.frameLeft (s : State) (f : Frame) : State :=
  match f.owner with
  | .nic qp slot => s.modNicqp qp fun x => x.map fun q =>
      { q with sends := q.sends.map fun e => if e.slot = slot ∧ e.status.isNone then { e with status := some St.ok } else e }
  | _ => s

/-- EGRESS_SELECT (R393-R397): at a moment at which the port can start a frame, the eligible child is picked at each level
and the buckets of its lane, its node and the port are debited. -/
def execEgressSelect (port : Fin 8) (now ts : Nat) (s : State) : Res :=
  let h := port.val / 4
  let k := port.val % 4
  if s.rd (Reg.ETH_LINK_STATE port) ≠ 3 ∨ !s.serving (tshPage h) ∨ ts < (s.port port).busy then .next s
  else
    let s := (((s.hubNow h now).portNow port ts).moveLanes port).freshPort port now
    let portOk := s.rd (Reg.TSH_PORT_PIR h k) = 0 || decide (0 < (s.port port).bk.pLevel)
    match if portOk then pickChild (s.nodeChildren port ts) else none with
    | none => .next s
    | some nc =>
      match s.nodeLane port ts nc.idx with
      | none => .next s
      | some lc =>
        let lk := laneKey lc.idx port
        let nk := nodeKey port nc.idx
        let f := (s.lane lk).frames.headD Frame.reset
        let d : Int := (((lc.len + 20) * 65536 : Nat) : Int)
        let sl := (s.lane lk).s
        let sn := (s.node nk).s
        let weightless := (s.qEntry h lc.idx).weight = 0 || (s.nEntry h k nc.idx).weight = 0
        let s := s.modLane lk fun x =>
          { x with frames := x.frames.drop 1, s := lc.fin, bk := x.bk.debit d }
        let s := s.modNode nk fun x => { x with v := sl, s := nc.fin, bk := x.bk.debit d }
        let s := s.modPort port fun x => { x with v := sn, bk := x.bk.debit d, busy := ts + s.wireClocks port lc.len }
        let s := (s.step64 (Reg.ETH_TX_FRAMES_LO port)).step64 (Reg.ETH_TX_BYTES_LO port) lc.len
        let s := if weightless then s.draw else s
        .next (((s.out (.frame port f.bytes)).frameLeft f).offerHeld h)

/-! ## Shadows (R399) -/

/-- A node's openings in a list of durations and masks, from entry 0 around to entry 0 again: the spans of consecutive open
entries; a node that never closes has no span that ends (R399). -/
def openSpans (es : List (Nat × Bool)) : List Nat :=
  let all := es.all (·.2)
  if all then []
  else
    -- turn the list so that it begins with a closed entry
    let i := (es.takeWhile (·.2)).length
    let turned := es.drop i ++ es.take i
    let r := turned.foldl (fun (acc : List Nat × Nat) e =>
      if e.2 then (acc.1, acc.2 + e.1) else (if acc.2 = 0 then acc.1 else acc.2 :: acc.1, 0)) ([], 0)
    if r.2 = 0 then r.1 else r.2 :: r.1

/-- Entries of a port's shadow gate list: duration and mask. -/
def State.shadowGcl (s : State) (h k n : Nat) : List (Nat × BitVec 64) :=
  (List.range n).map fun e =>
    (s.rd (Reg.TSH_GCL_DURATION h k e),
     BitVec.ofNat 64 (s.rd (Reg.TSH_GCL_OPEN_LO h k e) + s.rd (Reg.TSH_GCL_OPEN_HI h k e) * 2 ^ 32))

/-- A shadow gate list is refused (R399). -/
def gclBad (len : Nat) (es : List (Nat × BitVec 64)) : Bool :=
  16 < len || es.any (·.1 = 0) ||
    (List.range 64).any fun n => (openSpans (es.map fun e => (e.1, e.2.getLsbD n))).any (· < 231)

/-- The shadow gate list of a port is applied, or refused, and its bit clears (R399). -/
def State.applyGcl (s : State) (port : Nat) : State :=
  let h := port / 4
  let k := port % 4
  let len := s.rd (Reg.TSH_GCL_LEN h k)
  let es := s.shadowGcl h k len
  let s := s.wr (Reg.TSH_COMMIT_GCL h k) 0
  if gclBad len es then s.blockErr (tshPage h) 1
  else
    let base := s.rd64 (Reg.TSH_GCL_BASE_LO h k)
    s.modPort port fun x =>
      es.zipIdx.foldl (fun x e => (x.setGclDur e.2 e.1.1).setGclOpen e.2 e.1.2) { x with gclLen := len, gclBase := base }

/-- The shadow window map of a port is applied, and its bit clears (R399). -/
def State.applyWmap (s : State) (port : Nat) : State :=
  let h := port / 4
  let k := port % 4
  let m := (List.range 64).foldl (fun m w =>
    SMap.set (fun _ => 0xF#4) m w (BitVec.ofNat 4 (natBits (s.reg (Reg.TSH_WMAP h k (w / 8)).addr).toNat (4 * (w % 8)) 4)))
    ([] : List (Nat × BitVec 4))
  (s.wr (Reg.TSH_COMMIT_WMAP h k) 0).modPort port fun x => { x with wmap := some m }

/-- TSH_COMMIT_GCL (R399): COMMIT.GCL is written 1; with no list in force the shadow is applied at once. -/
def execTshCommitGcl (port : Fin 8) (s : State) : Res :=
  let h := port.val / 4
  withPage (tshPage h) (0x10C + 0x80 * (port.val % 4)) s fun s =>
    let s := s.wr (Reg.TSH_COMMIT_GCL h (port.val % 4)) 1
    .next (if (s.port port).gclLen = 0 then s.applyGcl port else s)

/-- TSH_COMMIT_WMAP (R399): COMMIT.WMAP is written 1; with no windowing in force the shadow is applied at once. -/
def execTshCommitWmap (port : Fin 8) (s : State) : Res :=
  let h := port.val / 4
  withPage (tshPage h) (0x10C + 0x80 * (port.val % 4)) s fun s =>
    let s := s.wr (Reg.TSH_COMMIT_WMAP h (port.val % 4)) 1
    .next (if (s.port port).wmap.isNone then s.applyWmap port else s)

/-- SHADOW_APPLY (R399): at the boundary of the cycle in force, a committed shadow is applied or refused, and its bit clears. -/
def execShadowApply (port : Fin 8) (gcl : Bool) (ts : Nat) (s : State) : Res :=
  let h := port.val / 4
  let k := port.val % 4
  let x := s.port port
  let s := s.portNow port ts
  if gcl then
    let cycle := (List.range x.gclLen).foldl (fun t e => t + x.getGclDur e) 0
    let boundary := x.gclLen = 0 || (x.gclBase ≤ ts && (ts - x.gclBase) % cycle = 0)
    .next (if s.on (Reg.TSH_COMMIT_GCL h k) ∧ boundary then s.applyGcl port else s)
  else
    let boundary := x.wmap.isNone || ts % 128000 = 0
    .next (if s.on (Reg.TSH_COMMIT_WMAP h k) ∧ boundary then s.applyWmap port else s)

end Sys2Proof.Machine
end

