-- ==== Sys2Proof/Machine/Cipher.lean ====
section
/-! DEFINITION. The cipher pipes (16_cipher_and_trust.md R427-R436, R453). A command that seals or opens data takes the
result, and the parity finding of its pipe, in its own step; the operation then stands among those of its hub until a pipe
has taken it. -/
namespace Sys2Proof.Machine

def cphPage (h : Nat) : Page := ⟨.cph, h⟩

/-- Classes of pipe operations (R428). -/
def Cls.sdtTx : Nat := 0
def Cls.sdtRx : Nat := 1
def Cls.storage : Nat := 2
def Cls.network : Nat := 3

/-- The hub's pipes can serve (R435, R505). -/
def State.cipherUp (s : State) (h : Nat) : Bool := s.serving (cphPage h) && s.rd (Reg.CPH_PIPE_OK h) ≠ 0

/-- An operation on n bytes under a key slot joins those that wait for a pipe (R428). -/
def State.pipeOp (s : State) (h cls part keyslot n : Nat) : State :=
  match s.key keyslot with
  | some k =>
    let op : PipeOp := { cls := cls, part := part, alg := k.alg, hardened := k.hardened, len := n }
    s.modCphOf h fun c => { c with ops := c.ops ++ [op] }
  | none => s

/-- Blocks of a namespace that are sealed or opened, one operation each (R428). -/
def State.pipeBlocks (s : State) (ns : Ns) (count : Nat) : State :=
  (List.range count).foldl (fun s _ => s.pipeOp (s.partHub ns.part) Cls.storage ns.part ns.keyslot ns.bs) s

/-- One second of the hub fabric clock (R428, R547). -/
def pipeSecond : Nat := 1250000000

/-- A pipe reports a parity error (R435), at the hub fabric clock as the model knows it. DESIGN CHOICE (log 103). -/
def State.pipeParity (s : State) (h pipe : Nat) : State :=
  let s := ((s.bump (Reg.CPH_PARITY h)).err (cphPage h) 16).bucket (cphPage h)
  let now := (s.clockOf (0x0300 + h)).toNat
  s.modCphOf h fun c => c.setParity pipe (now :: (c.getParity pipe).take 1)

/-- A tag fails (R436). -/
def State.tagFail (s : State) (h : Nat) : State := ((s.bump (Reg.CPH_TAG_FAIL h)).err (cphPage h) 17).bucket (cphPage h)

/-- Clocks for which an operation occupies its pipe (R429). -/
def PipeOp.clocks (o : PipeOp) : Nat :=
  let sm4 := o.alg = 2#3 || o.alg = 3#3
  let c := if !o.hardened then 1 else if sm4 then 4 else 3
  24 + c * ((o.len + 63) / 64)

/-- An operation that waits for a pipe may start at a moment, as far as its partition goes (R320, R321): the other partitions with
a waiting operation that their window admits are those it shares the pipes with. -/
def State.pipeOpen (s : State) (hub now : Nat) (o : PipeOp) : Bool :=
  s.mayServe hub cipherEngine o.part now o.clocks fun q =>
    (s.cphOf hub).ops.any fun x => x.part = q && s.windowOpen q now x.clocks

/-- The idle pipe in service with the lowest number (R428). -/
def State.idlePipe (s : State) (h now : Nat) : Option Nat :=
  (List.range 16).find? fun i => natBits (s.rd (Reg.CPH_PIPE_OK h)) i 1 = 1 && decide ((s.cphOf h).getBusy i ≤ now)

/-- CIPHER_PIPE_OP (R428, R429, R320, R321): at a moment of the hub fabric clock the idle pipe with the lowest number takes the
next waiting operation of the partition whose turn it is, round robin across the four classes and in arrival order within one. -/
def execCipherPipeOp (hub : Fin 2) (now : Nat) (s : State) : Res :=
  let c := s.cphOf hub
  if !s.serving (cphPage hub) then .next s
  else
    let next (cls : Nat) : Option PipeOp := c.ops.find? fun o => o.cls = cls && s.pipeOpen hub now o
    let turn := ((List.range 4).map fun i => (c.turn + 1 + i) % 4).find? fun i => (next i).isSome
    match s.idlePipe hub now, turn with
    | some i, some t => match next t with
      | some o =>
        .next ((s.served hub cipherEngine o.part now).modCphOf hub fun c => { c with ops := c.ops.erase o, turn := t }.setBusy i (now + o.clocks))
      | none => .next s
    | _, _ => .next s

/-- The last two parity errors of a pipe lie within 1 s (R435). -/
def Cph.parityTwice (c : Cph) (pipe : Nat) : Bool :=
  match c.getParity pipe with
  | now :: before :: _ => decide (now ≤ before + pipeSecond)
  | _ => false

/-- PIPE_LOST (R435): a pipe that has reported parity errors in two operations within 1 s is taken out of service. -/
def execPipeLost (hub : Fin 2) (pipe : Fin 16) (s : State) : Res :=
  let f := Reg.CPH_PIPE_OK hub
  if !(s.cphOf hub).parityTwice pipe ∨ natBits (s.rd f) pipe 1 = 0 then .next s
  else
    let s := s.wr f (s.rd f - 2 ^ pipe.val)
    let s := s.bbAdd 0x0005 Sev.contained (some (cphPage hub)) 0xFF [2#8, BitVec.ofNat 8 (16 * hub.val + pipe.val)]
    .next (s.err (cphPage hub) 18 Sev.contained)

/-- CPH_SLOTS counts the loaded slots that a hub holds (R432, R453). -/
def State.countKeys (s : State) (h : Nat) : State :=
  let held (k : Nat) : Bool := (List.range 12).any fun p => s.partHub p = h && s.keySlotIn p k
  s.wr (Reg.CPH_SLOTS h) (s.keys.filter fun e => e.2.isSome && held e.1).length

end Sys2Proof.Machine
end

