-- ==== Sys2Proof/Machine/Frames.lean ====
section
/-! DEFINITION. Frames: the FCS, the header parser and its 64-byte key, and the checksums of IP, UDP and TCP
(12_ethernet_ingress.md R332-R338, R350). A frame here is given without its FCS unless said otherwise. -/
namespace Sys2Proof.Machine

/-- One byte of CRC-32 of IEEE 802.3, reflected. -/
def crc32Byte (c : BitVec 32) (b : BitVec 8) : BitVec 32 :=
  (List.range 8).foldl (fun c _ => if c.getLsbD 0 then (c >>> 1) ^^^ 0xEDB88320#32 else c >>> 1) (c ^^^ b.setWidth 32)

/-- The FCS of a frame, in the order it is sent. -/
def fcs (f : Bytes) : Bytes := leBytes 4 (f.foldl crc32Byte 0xFFFFFFFF#32 ^^^ 0xFFFFFFFF#32).toNat

/-- Sum of the 16-bit words of bytes, folded to 16 bits (RFC 1071). -/
def onesSum (bs : Bytes) : Nat :=
  let rec words : Bytes → Nat
    | [] => 0
    | [a] => a.toNat * 256
    | a :: b :: l => a.toNat * 256 + b.toNat + words l
  let t := words bs
  let fold (x : Nat) : Nat := x % 65536 + x / 65536
  fold (fold (fold (fold t)))

/-- The checksum over bytes whose checksum field is zero. -/
def inetSum (bs : Bytes) : Nat := 0xFFFF - onesSum bs

/-- n bytes at an offset, zeros beyond the end. -/
def take0 (f : Bytes) (o n : Nat) : Bytes := (List.range n).map fun i => f.getD (o + i) 0#8

def be16 (f : Bytes) (o : Nat) : Nat := beNat (take0 f o 2)

def byteOf (f : Bytes) (o : Nat) : Nat := (f.getD o 0#8).toNat

/-- What reading n bytes at an offset meets: they are there, they run past byte 256, or past the frame (R337). -/
inductive Reach where
  | ok | trunc | short
  deriving DecidableEq, Repr

def reach (f : Bytes) (o n : Nat) : Reach :=
  if f.length < o + n then .short else if 256 < o + n then .trunc else .ok

/-- A parsed packet from its network header on. -/
structure Pkt where
  level : Nat
  ipv6 : Bool
  proto : Nat
  tc : Nat
  sip : Bytes
  dip : Bytes
  l3 : Nat
  l4 : Nat
  stop : Nat
  frag : Bool
  first : Bool
  csumBad : Bool
  malformed : Bool
  trunc : Bool
  sport : Nat
  dport : Nat
  tcpf : Nat
  deriving DecidableEq, Repr

def Pkt.empty : Pkt :=
  { level := 0, ipv6 := false, proto := 0, tc := 0, sip := List.replicate 16 0#8, dip := List.replicate 16 0#8, l3 := 0
    l4 := 0, stop := 0, frag := false, first := true, csumBad := false, malformed := false, trunc := false, sport := 0
    dport := 0, tcpf := 0 }

def Pkt.bad (p : Pkt) (r : Reach) : Pkt :=
  match r with
  | .ok => p
  | .trunc => { p with trunc := true }
  | .short => { p with malformed := true }

/-- The IPv6 extension headers, up to `n` more of them (R337): next header, offset, fragment state. -/
def ext6 (f : Bytes) : Nat → Pkt → Nat → Nat → Pkt
  | 0, p, nh, o => { p with proto := nh, l4 := o }
  | n + 1, p, nh, o =>
    if nh ≠ 0 ∧ nh ≠ 60 ∧ nh ≠ 44 then { p with proto := nh, l4 := o }
    else
      let size := if nh = 44 then 8 else (byteOf f (o + 1) + 1) * 8
      match reach f o size with
      | .ok =>
        let p := if nh = 44 then
          let off := be16 f (o + 2)
          { p with frag := off / 8 ≠ 0 || off % 2 = 1, first := off / 8 = 0 }
          else p
        ext6 f n p (byteOf f o) (o + size)
      | r => { p with proto := nh, l4 := o, first := false }.bad r

/-- UDP and TCP, on a first fragment or an unfragmented packet (R337). -/
def parseL4 (f : Bytes) (p : Pkt) : Pkt :=
  if p.level ≠ 1 ∨ !p.first ∨ p.malformed ∨ p.trunc then p
  else if p.proto = 17 then
    match reach f p.l4 8 with
    | .ok => { p with level := 2, sport := be16 f p.l4, dport := be16 f (p.l4 + 2) }
    | r => p.bad r
  else if p.proto = 6 then
    match reach f p.l4 20 with
    | .ok => { p with level := 2, sport := be16 f p.l4, dport := be16 f (p.l4 + 2), tcpf := byteOf f (p.l4 + 13) }
    | r => p.bad r
  else p

/-- IPv4 or IPv6 at an offset (R337). -/
def parseL3 (f : Bytes) (etype o : Nat) : Pkt :=
  let p := { Pkt.empty with l3 := o, l4 := o }
  if etype = 0x0800 then
    match reach f o 20 with
    | .ok =>
      let ihl := byteOf f o % 16
      let total := be16 f (o + 2)
      if byteOf f o / 16 ≠ 4 ∨ ihl < 5 ∨ f.length < o + total then { p with malformed := true }
      else match reach f o (ihl * 4) with
        | .ok =>
          let fl := be16 f (o + 6)
          parseL4 f
            { p with
              level := 1, proto := byteOf f (o + 9), tc := byteOf f (o + 1)
              sip := take0 f (o + 12) 4 ++ List.replicate 12 0#8, dip := take0 f (o + 16) 4 ++ List.replicate 12 0#8
              l4 := o + ihl * 4, stop := o + total, frag := fl % 0x2000 ≠ 0 || fl / 0x2000 % 2 = 1
              first := fl % 0x2000 = 0, csumBad := onesSum (take0 f o (ihl * 4)) ≠ 0xFFFF }
        | r => p.bad r
    | r => p.bad r
  else if etype = 0x86DD then
    match reach f o 40 with
    | .ok =>
      let plen := be16 f (o + 4)
      if byteOf f o / 16 ≠ 6 ∨ f.length < o + 40 + plen then { p with malformed := true }
      else
        parseL4 f (ext6 f 2
          { p with
            level := 1, ipv6 := true, tc := be16 f o / 16 % 256, sip := take0 f (o + 8) 16, dip := take0 f (o + 24) 16
            stop := o + 40 + plen } (byteOf f (o + 6)) (o + 40))
    | r => p.bad r
  else p

/-- The L2 header: the type after the tags, where what follows begins, the tags, and whether the parse goes on. -/
structure L2 where
  etype : Nat
  next : Nat
  otci : Nat
  itci : Nat
  goes : Bool
  deriving DecidableEq, Repr

def isTag (t : Nat) : Bool := t = 0x8100 || t = 0x88A8

/-- Ethernet II at an offset with at most two 802.1Q tags, or one inside a tunnel (R337). -/
def parseL2 (f : Bytes) (o : Nat) (inner : Bool) : L2 :=
  let t0 := be16 f (o + 12)
  let t1 := be16 f (o + 16)
  let t2 := be16 f (o + 20)
  let fin (t nx a b : Nat) : L2 := { etype := t, next := nx, otci := a, itci := b, goes := 0x0600 ≤ t && !isTag t }
  if !inner ∧ isTag t0 ∧ t1 = 0x8100 then fin t2 (o + 22) (be16 f (o + 14)) (be16 f (o + 18))
  else if t0 = 0x8100 then fin t1 (o + 18) (be16 f (o + 14)) 0
  else fin t0 (o + 14) 0 0

/-- What the parser finds (R337, R338). `pkt` is the inner packet when TUNNEL is set. -/
structure Parsed where
  l2 : L2
  pkt : Pkt
  tunnel : Bool
  sdt : Bool
  tag : Bytes
  /-- Offset of the UDP payload of the outer packet. -/
  udp : Nat
  trunc : Bool
  /-- The frame carries a fragment, be it of the outer packet (R338). -/
  frag : Bool
  deriving DecidableEq, Repr

def parse (f : Bytes) (sdtPort vxlanPort : Nat) : Parsed :=
  let l2 := parseL2 f 0 false
  let base : Parsed := { l2 := l2, pkt := Pkt.empty, tunnel := false, sdt := false, tag := [0#8, 0#8, 0#8], udp := 0, trunc := false, frag := false }
  if !l2.goes then base
  else
    let p := parseL3 f l2.etype l2.next
    let base := { base with pkt := p, trunc := p.trunc, udp := p.l4 + 8, frag := p.frag }
    if p.level ≠ 2 ∨ p.proto ≠ 17 then base
    else if vxlanPort ≠ 0 ∧ p.dport = vxlanPort then
      -- an inner tag is four bytes more
      let tag := if be16 f (p.l4 + 28) = 0x8100 then 4 else 0
      match reach f (p.l4 + 8) (8 + 14 + (if reach f (p.l4 + 8) (8 + 14) = .ok then tag else 0)) with
      | .ok =>
        let i := parseL2 f (p.l4 + 16) true
        let q := if i.goes then parseL3 f i.etype i.next else Pkt.empty
        { base with
          pkt := { q with csumBad := q.csumBad || p.csumBad }, tunnel := true, tag := take0 f (p.l4 + 12) 3, trunc := q.trunc
          frag := p.frag || q.frag }
      | r => { base with pkt := p.bad r, trunc := r = .trunc }
    else if sdtPort ≠ 0 ∧ p.dport = sdtPort then
      match reach f (p.l4 + 8) 40 with
      | .ok => { base with sdt := true, tag := 0#8 :: take0 f (p.l4 + 10) 2 }
      | r => { base with pkt := p.bad r, trunc := r = .trunc }
    else base

/-- The key (R338). -/
def Parsed.key (x : Parsed) (f : Bytes) (port : Nat) : Bytes :=
  let p := x.pkt
  let b (v : Bool) (i : Nat) : Nat := if v then 2 ^ i else 0
  let flags := p.level + b p.ipv6 2 + b x.tunnel 3 + b x.sdt 4 + b x.frag 5 + b p.csumBad 6 + b p.malformed 7 + b x.trunc 8
  take0 f 0 12 ++ beBytes 2 x.l2.otci ++ beBytes 2 x.l2.itci ++ beBytes 2 x.l2.etype ++
    [BitVec.ofNat 8 p.proto, BitVec.ofNat 8 p.tc] ++ p.sip ++ p.dip ++ beBytes 2 p.sport ++ beBytes 2 p.dport ++ x.tag ++
    [BitVec.ofNat 8 p.tcpf, 0#8, BitVec.ofNat 8 (port % 8)] ++ beBytes 2 flags

/-- Pseudo-header and segment of a UDP or TCP packet, for its checksum. -/
def Pkt.segment (p : Pkt) (f : Bytes) : Bytes :=
  let seg := take0 f p.l4 (p.stop - p.l4)
  let n := seg.length
  (if p.ipv6 then p.sip ++ p.dip ++ beBytes 4 n ++ [0#8, 0#8, 0#8, BitVec.ofNat 8 p.proto]
   else p.sip.take 4 ++ p.dip.take 4 ++ [0#8, BitVec.ofNat 8 p.proto] ++ beBytes 2 n) ++ seg

/-- Offset of the checksum field of UDP or TCP. -/
def Pkt.csumAt (p : Pkt) : Nat := if p.proto = 17 then p.l4 + 6 else p.l4 + 16

/-- The L4 checksum of a received packet: none when there is none to check, else whether it is right (R351). -/
def Pkt.l4Check (p : Pkt) (f : Bytes) : Option Bool :=
  if p.level ≠ 2 ∨ p.frag then none
  else if p.proto = 17 ∧ !p.ipv6 ∧ be16 f p.csumAt = 0 then none
  else some (onesSum (p.segment f) = 0xFFFF)

/-- Puts bytes into a frame. -/
def setAt (f : Bytes) (o : Nat) (bs : Bytes) : Bytes := f.take o ++ bs ++ f.drop (o + bs.length)

/-- Fills the IPv4 header checksum (R350). -/
def fillIp (f : Bytes) (p : Pkt) : Bytes :=
  if p.level = 0 ∨ p.ipv6 then f
  else
    let g := setAt f (p.l3 + 10) [0#8, 0#8]
    setAt g (p.l3 + 10) (beBytes 2 (inetSum (take0 g p.l3 (byteOf f p.l3 % 16 * 4))))

/-- Fills the UDP or TCP checksum (R350); a UDP sum of zero is sent as all ones. -/
def fillL4 (f : Bytes) (p : Pkt) : Bytes :=
  if p.level ≠ 2 ∨ p.frag then f
  else
    let g := setAt f p.csumAt [0#8, 0#8]
    let c := inetSum (p.segment g)
    setAt g p.csumAt (beBytes 2 (if p.proto = 17 ∧ c = 0 then 0xFFFF else c))

end Sys2Proof.Machine
end

