-- ==== Sys2Proof/Machine/Ethernet.lean ====
section
/-! DEFINITION. Ethernet ports, the classifier and the policers (12_ethernet_ingress.md R332-R348, R355). -/
namespace Sys2Proof.Machine

def ethPage (p : Nat) : Page := ⟨.eth, p⟩

/-! ## Ports (R332-R334) -/

def EthSt.down : Nat := 0
def EthSt.train800 : Nat := 1
def EthSt.train400 : Nat := 2
def EthSt.up : Nat := 3

/-- A port leaves UP (R333, R334): it is DOWN with no rate, and LINK_DOWN, which may fence its page, is set and counted. -/
def State.leaveUp (s : State) (port : Nat) : State :=
  if s.rd (Reg.ETH_LINK_STATE port) ≠ EthSt.up then s
  else ((s.wr (Reg.ETH_LINK_STATE port) EthSt.down).wr (Reg.ETH_LINK_RATE port) 0).blockErr (ethPage port) 0

def State.ethDown (s : State) (port : Nat) : State := (s.leaveUp port).wr (Reg.ETH_LINK_STATE port) EthSt.down

/-- The receivers of a port can lock: its hub's reference clock runs and its supply is good (R572, R579). DEDUCED (log 77). -/
def State.ethMayTrain (s : State) (port : Nat) : Bool :=
  s.pins.refclk.getLsbD (3 + port / 4) && !s.pins.lostGroups.getLsbD 15

/-- A port enters TRAIN_800, unless its page has left ENABLED meanwhile (R333). -/
def State.train800 (s : State) (port : Nat) : State :=
  let s := s.leaveUp port
  if s.st (ethPage port) ≠ PS.enabled then s.ethDown port
  else
    let s := (s.wr (Reg.ETH_LINK_STATE port) EthSt.train800).wr (Reg.ETH_CTL_RETRAIN port) 0
    (s.wr (Reg.ETH_LINK_PAIR port) 0).modPort port fun x => { x with tried := 0#2 }

/-- Both lanes of a pair are locked. -/
def State.pairLocked (s : State) (port pair : Nat) : Bool := natBits (s.rd (Reg.ETH_LINK_LANES_OK port)) (2 * pair) 2 = 3

/-- A port enters TRAIN_400 on a pair, unless its page has left ENABLED meanwhile. -/
def State.train400 (s : State) (port pair : Nat) : State :=
  if s.st (ethPage port) ≠ PS.enabled then s.ethDown port
  else ((s.wr (Reg.ETH_LINK_STATE port) EthSt.train400).wr (Reg.ETH_LINK_PAIR port) pair).modPort port fun x =>
    { x with tried := x.tried ||| (1#2 <<< pair) }

/-- What TRAIN_800 does after 1 s: the lower pair with both lanes locked, or DOWN (R333). DEDUCED (log 77). -/
def State.after800 (s : State) (port : Nat) : State :=
  if s.on (Reg.ETH_CFG_DEGRADE_EN port) ∧ s.pairLocked port 0 then s.train400 port 0
  else if s.on (Reg.ETH_CFG_DEGRADE_EN port) ∧ s.pairLocked port 1 then s.train400 port 1
  else s.ethDown port

/-- ETH_RETRAIN (R333): RETRAIN is written, or the page has reached ENABLED. -/
def execEthRetrain (port : Fin 8) (s : State) : Res :=
  let st := s.rd (Reg.ETH_LINK_STATE port)
  let p := ethPage port
  withPage p 0x44 s fun s =>
    let s := s.wr (Reg.ETH_CTL_RETRAIN port) 1
    if s.st p = PS.enabled ∧ (st = EthSt.down ∨ st = EthSt.up) then .next (s.train800 port) else .next s

/-- LANE_LOCK (R333): a lane's receiver locks. -/
def execLaneLock (port : Fin 8) (lane : Fin 4) (s : State) : Res :=
  let f := Reg.ETH_LINK_LANES_OK port
  .next (if s.ethMayTrain port then s.wr f (s.rd f ||| 2 ^ lane.val) else s)

/-- LINK_ALIGN (R333, R334): the lanes in training align. -/
def execLinkAlign (port : Fin 8) (s : State) : Res :=
  let st := s.rd (Reg.ETH_LINK_STATE port)
  if !s.ethMayTrain port then .next s
  else if st = EthSt.train800 ∧ s.rd (Reg.ETH_LINK_LANES_OK port) = 15 then
    .next ((s.wr (Reg.ETH_LINK_STATE port) EthSt.up).wr (Reg.ETH_LINK_RATE port) 2)
  else if st = EthSt.train400 ∧ s.pairLocked port (s.rd (Reg.ETH_LINK_PAIR port)) then
    .next (((s.wr (Reg.ETH_LINK_STATE port) EthSt.up).wr (Reg.ETH_LINK_RATE port) 1).err (ethPage port) 17)
  else .next s

/-- TRAIN_TIMEOUT (R333): 1 s of TRAIN_800 or 500 ms of TRAIN_400 have passed. -/
def execTrainTimeout (port : Fin 8) (s : State) : Res :=
  let st := s.rd (Reg.ETH_LINK_STATE port)
  if st = EthSt.train800 then .next (s.after800 port)
  else if st = EthSt.train400 then
    let other := 1 - s.rd (Reg.ETH_LINK_PAIR port)
    if !(s.port port).tried.getLsbD other ∧ s.pairLocked port other then .next (s.train400 port other)
    else .next (s.ethDown port)
  else .next s

/-- LANE_FAIL (R333, R334): a lane has lost lock for 10 ms. -/
def execLaneFail (port : Fin 8) (lane : Fin 4) (s : State) : Res :=
  let f := Reg.ETH_LINK_LANES_OK port
  let s := s.wr f (s.rd f &&& (15 - 2 ^ lane.val))
  if s.rd (Reg.ETH_LINK_STATE port) ≠ EthSt.up then .next s
  else if s.rd (Reg.ETH_LINK_RATE port) = 2 then
    .next (((s.leaveUp port).modPort port fun x => { x with tried := 0#2 }).after800 port)
  else if lane.val / 2 = s.rd (Reg.ETH_LINK_PAIR port) then .next (s.ethDown port)
  else .next s

/-- Whether an enable of an ETH page is refused (R355). -/
def State.ethBad (s : State) (port : Nat) : Bool :=
  s.rd (Reg.ETH_CFG_MAX_FRAME port) < 1518 || 9216 < s.rd (Reg.ETH_CFG_MAX_FRAME port)

/-! ## Policers (R347, R348) -/

def polPage (h : Nat) : Page := ⟨.pol, h⟩

def State.polBad (s : State) (h : Nat) : Bool := !inTables (s.rd (Reg.POL_TBL_BASE h) * 64) (2048 * 32)

/-- Writes a hub's SRAM as the hub's own hardware does. -/
def State.hubPut (s : State) (h off : Nat) (bs : Bytes) : State := s.writeHome (sramBase + h * 2 ^ 26 + off) bs false

/-- Decides a frame of L bytes at a moment of the hub fabric clock (R348): true passes. -/
def State.police (s : State) (h i len now : Nat) : State × Bool :=
  let off := s.rd (Reg.POL_TBL_BASE h) * 64 + 32 * i
  let e := s.hubBytes h off 32
  let w := fieldAt e 0 8
  if s.st (polPage h) ≠ PS.enabled ∨ 2048 ≤ i ∨ natBits w 63 1 = 0 then
    (((s.bump (Reg.POL_BAD h)).err (polPage h) 17).bucket (polPage h), false)
  else
    let burst := natBits w 32 24 * 65536
    let lvl := min burst (fieldAt e 8 6 + natBits w 0 32 * (now - fieldAt e 16 8))
    let pass := decide (len * 65536 ≤ lvl)
    let drops := fieldAt e 24 4
    let s := s.hubPut h (off + 8) (leBytes 8 (if pass then lvl - len * 65536 else lvl) ++ leBytes 8 now)
    (if pass then s else s.hubPut h (off + 24) (leBytes 8 (min (drops + 1) 0xFFFFFFFF)), pass)

/-! ## The classifier (R339-R346) -/

def clsPage (h : Nat) : Page := ⟨.cls, h⟩

/-- Whether an enable of the CLS page is refused (R339). -/
def State.clsBad (s : State) (h : Nat) : Bool :=
  131072 < s.rd (Reg.CLS_TBL_COUNT h) || !inTables (s.rd (Reg.CLS_TBL_BASE h) * 64) (s.rd (Reg.CLS_TBL_COUNT h) * 16) ||
    !inTables (s.rd (Reg.CLS_CNT_BASE h) * 64) (65536 * 8)

/-- A leaf (R341). -/
structure Leaf where
  policer : Option Nat
  mark : Option Nat
  action : Nat
  queue : Nat
  rule : Nat
  deriving DecidableEq, Repr

/-- What one node of the walk gives: a leaf, the next node, or a bad node (R340-R342). -/
inductive NodeRes where
  | leaf (l : Leaf)
  | goto (n : Nat)
  | bad
  deriving DecidableEq, Repr

def readNode (node key : Bytes) : NodeRes :=
  let link := fieldAt node 0 8
  let body := fieldAt node 8 8
  let kind := natBits link 61 2
  if natBits link 63 1 = 0 then .bad
  else if kind = 1 then
    let action := natBits link 48 8
    let queue := natBits link 32 16
    if body / 2 ^ 11 ≠ 0 ∨ natBits link 56 3 ≠ 0 ∨ action = 0 ∨ 4 < action ∨ (action = 1 ∧ 4096 ≤ queue) ∨
        (action ≠ 1 ∧ queue ≠ 0) then .bad
    else
      .leaf { policer := if natBits link 60 1 = 1 then some (natBits body 0 11) else none
              mark := if natBits link 59 1 = 1 then some (natBits link 0 16) else none
              action := action, queue := queue, rule := natBits link 16 16 }
  else if kind = 0 then
    let cmp := natBits link 58 3
    let off := natBits link 52 6
    if 5 ≤ cmp ∨ 60 < off ∨ natBits link 0 16 ≠ 0 then .bad
    else
      let w := beNat ((key.drop off).take 4) &&& natBits body 0 32
      let v := natBits body 32 32
      let pass := match cmp with
        | 0 => decide (w = v)
        | 1 => decide (w ≠ v)
        | 2 => decide (w < v)
        | 3 => decide (v ≤ w)
        | _ => true
      .goto (if pass then natBits link 34 18 else natBits link 16 18)
  else .bad

/-- The walk (R342): at most `fuel` nodes are read. -/
def State.walk (s : State) (h : Nat) (key : Bytes) : Nat → Nat → Option Leaf
  | 0, _ => none
  | fuel + 1, n =>
    if s.rd (Reg.CLS_TBL_COUNT h) ≤ n then none
    else match readNode (s.hubBytes h (s.rd (Reg.CLS_TBL_BASE h) * 64 + 16 * n) 16) key with
      | .leaf l => some l
      | .goto m => s.walk h key fuel m
      | .bad => none

/-- What becomes of a classified frame (R342). -/
inductive Fate where
  | drop
  | nic (queue : Nat) (mark : Nat)
  | sdt (mark : Option Nat)
  | fw (mark : Option Nat)
  deriving DecidableEq, Repr

/-- Classifies a frame's key and polices it (R342, R348). -/
def State.classify (s : State) (h k : Nat) (key : Bytes) (len now : Nat) : State × Fate :=
  match s.walk h key 64 k with
  | none =>
    let s := ((s.bump (Reg.CLS_BAD_NODE h)).err (clsPage h) 17).bucket (clsPage h)
    (s, if s.rd (Reg.CLS_DEFAULT h) = 1 then .fw none else .drop)
  | some l =>
    let off := s.rd (Reg.CLS_CNT_BASE h) * 64 + 8 * l.rule
    let s := s.hubPut h off (leBytes 8 (leNat (s.hubBytes h off 8) + 1))
    let x := match l.policer with
      | some i => s.police h i len now
      | none => (s, true)
    let fate := match l.action with
      | 1 => Fate.nic l.queue (l.mark.getD 0)
      | 2 => Fate.sdt l.mark
      | 3 => Fate.fw l.mark
      | _ => Fate.drop
    (x.1, if x.2 then fate else .drop)

/-- A write to hub SRAM that a requester has sent, the host through PF0 BAR2, is held and not acknowledged (R345, R536). -/
def State.sramWriteHeld (s : State) (who : Req) : Bool :=
  (List.range 12).any fun p => (s.snap p).held.any fun w => w.who = some who && (match s.tgt w.addr with
    | .sram _ _ => true
    | _ => false)

/-- CLS_SYNC (R345): a read of CLS_SYNC. It completes, as 0, once every earlier write of the requester to hub SRAM has been
acknowledged: all but a held one are by the end of the command that made them. -/
def execClsSync (hub : Fin 2) (who : Req) (s : State) : Res :=
  if s.st (clsPage hub) = PS.fenced ∨ s.st (clsPage hub) = PS.resetting then .next (s.out (.reply who St.unitAbsent [] false))
  else if s.sramWriteHeld who then .next s
  else .next (s.out (.reply who St.ok (leBytes 4 0) false))

/-- CLS_FENCE (R346): CLS_FENCE is written 1; the walks in progress are snapshotted. A walk lasts no longer than the command
that brings its frame, so none is in progress here. -/
def execClsFence (hub : Fin 2) (s : State) : Res :=
  withPage (clsPage hub) 0x58 s fun s => .next (s.wr (Reg.CLS_FENCE hub) 1)

/-- CLS_FENCE_CLEAR (R346): every snapshotted walk has ended. -/
def execClsFenceClear (hub : Fin 2) (s : State) : Res := .next (s.wr (Reg.CLS_FENCE hub) 0)

end Sys2Proof.Machine
end

