-- ==== Sys2Proof/Machine/Mailbox.lean ====
section
/-! DEFINITION. Mailbox pages, the messages they carry, and the log rings of the firmware processors
(17_firmware_processors.md R455-R468, R519). -/
namespace Sys2Proof.Machine

/-! ## Processors -/

/-- FWP_RUN.STATE codes (R477). -/
def Fw.held : Nat := 0
def Fw.booting : Nat := 1
def Fw.running : Nat := 2
def Fw.restarting : Nat := 3
def Fw.failed : Nat := 4

/-- Key of a processor. -/
def fwpKey (hub index : Nat) : Nat := hub * 16 + index

/-- State of a processor; a processor whose page a fatal event has fenced serves nothing (R504). -/
def State.fwState (s : State) (k : Nat) : Nat := if s.st ⟨.fwp, k⟩ = PS.fenced then Fw.held else s.rd (Reg.FWP_RUN_STATE k)

/-- The Lamplighter that serves: hub 0's unless it has failed (R455, R515). -/
def State.lamplighter (s : State) : Nat := if s.fwState 0 = Fw.failed then 16 else 0

/-- Whether a trace point's entries are written (R468). -/
def State.traced (s : State) (k level point : Nat) : Bool := level ≤ 1 || (s.fwp k).getTrace point

/-- The entries of a mirror that wait are copied to their slots of the host ring, while PF0 may master the link; one that would
overwrite an entry not yet consumed is lost (R305, R467). -/
def State.mirrorFlush (s : State) (k : Nat) : State :=
  let m := (s.fwp k).mirror
  if m.size = 0 ∨ !s.fnMaster m.link 0 then s
  else
    m.due.foldl (fun s e =>
      let x := (s.fwp k).mirror
      if x.size ≤ x.copied - s.rd (Reg.FWP_MIRROR_TAIL k) then s.bump (Reg.FWP_LOG_LOST k)
      else
        (s.hostWrite (s.fnId x.link 0) (x.base.toNat + 32 * (leNat (e.take 4) % x.size)) e).modFwp k fun f =>
          { f with mirror := { f.mirror with copied := f.mirror.copied + 1 } })
      (s.modFwp k fun f => { f with mirror := { f.mirror with due := [] } })

/-- The mirrors of a link go on as PF0 may master it again (R305). -/
def State.flushMirrors (s : State) (l : Nat) : State :=
  (List.range 32).foldl (fun s k => if (s.fwp k).mirror.link = l then s.mirrorFlush k else s) s

/-- One entry joins a processor's log ring and its mirror (R466, R467). An entry that leaves the ring before it could be copied is
lost. The trace point, count and arguments of an entry
are the firmware's own: free values. DESIGN CHOICE (log 31). -/
def State.fwLog (s : State) (k level : Nat) : State :=
  let head := s.rd (Reg.FWP_LOG_HEAD k)
  let point := s.free 0 % 4096
  let e : Bytes := leBytes 4 head ++ leBytes 2 point ++ [BitVec.ofNat 8 (k % 16), BitVec.ofNat 8 level] ++
    leBytes 2 (0x0400 + k) ++ leBytes 6 (s.free 1) ++ leBytes 16 (s.free 2)
  if !s.traced k level point then s.draw
  else
    let s := (s.draw.wr (Reg.FWP_LOG_HEAD k) ((head + 1) % 2 ^ 32)).modFwp k fun f => { f with log := (e :: f.log).take 2048 }
    let m := (s.fwp k).mirror
    if m.size = 0 then s
    else
      let full : Bool := 2048 ≤ m.due.length
      let due := (if full then m.due.drop 1 else m.due) ++ [e]
      let s := s.modFwp k fun f => { f with mirror := { f.mirror with due := due } }
      (if full then s.bump (Reg.FWP_LOG_LOST k) else s).mirrorFlush k

/-! ## Messages (R460, R461, R464) -/

/-- A message with the page it came through. -/
structure Msg where
  src : Src
  bytes : Bytes
  deriving DecidableEq, Repr

def Msg.opcode (m : Msg) : Nat := fieldAt m.bytes 0 2
def Msg.major (m : Msg) : Nat := fieldAt m.bytes 3 1
def Msg.minor (m : Msg) : Nat := fieldAt m.bytes 2 1
def Msg.length (m : Msg) : Nat := fieldAt m.bytes 4 2
def Msg.seq (m : Msg) : Nat := fieldAt m.bytes 6 2
def Msg.payload (m : Msg) : Bytes := (m.bytes.drop 16).take m.length

/-- A payload field. -/
def Msg.f (m : Msg) (o n : Nat) : Nat := fieldAt m.payload o n

/-- Bytes of the payload from offset o. -/
def Msg.bytesAt (m : Msg) (o n : Nat) : Bytes := (m.payload.drop o).take n

/-- A reserved part of the payload is set, and the message's version lets the firmware check it (R461). -/
def Msg.resv (m : Msg) (set : Bool) : Bool := m.minor = 0 && set

/-- The payload is shorter than the command needs, or longer with bytes that must be zero (R461). -/
def Msg.badLength (m : Msg) (n : Nat) : Bool := m.length < n || m.resv ((m.payload.drop n).any (· ≠ 0#8))

/-- The message came on PF0 of a link; over MCTP none did (R314, R463). -/
def Msg.onLink (m : Msg) (l : Nat) : Bool := !m.src.mctp && m.src.link = l

/-- The commands that are defined (R464). -/
def knownOpcodes : List Nat :=
  [0x0002, 0x0003, 0x0010, 0x0011, 0x0012, 0x0013, 0x0020, 0x0021, 0x0030, 0x0040, 0x0041, 0x0050, 0x0051, 0x0052, 0x0053,
   0x0120, 0x0121, 0x0210, 0x0211, 0x0212, 0x0220, 0x0221, 0x0222, 0x0310, 0x0311, 0x0318, 0x0319, 0x0410, 0x0411, 0x0418,
   0x0419, 0x0510, 0x0511, 0x0610, 0x0611, 0x0618, 0x0620, 0x0621, 0x0622]

/-- The processor that owns an opcode, for a message of link l (R455, R464). -/
def State.ownerFwp (s : State) (op l : Nat) : Nat :=
  if op < 0x300 then s.lamplighter
  else if op < 0x500 then fwpKey l 2
  else if op < 0x600 then fwpKey l 1
  else 3

/-! ## Pages (R458, R459, R462) -/

/-- Page of mailbox v of a hub. -/
def mbxPage (k : Nat) : Page := ⟨.mbx, k⟩

/-- A violation by the sender of a page's message is recorded (R518). -/
def State.mbxPartner (s : State) (k : Nat) : State := s.partner (mbxPage k) 4 (s.rd (Reg.MBX_STAT_LINK k)) 0x4C (s.mbx k).held

/-- A command is answered: its outcome waits for MBX_REPLY, unless its page has been cleared since (R459). A refusal for
the state is logged at level 1 (R519); a bad parameter, and a command that may not come over MCTP, is a violation by the sender
(R308, R461, R463, R518). DESIGN CHOICE (log 104). -/
def State.answer (s : State) (src : Src) (status : BitVec 8) (payload : Bytes) : State :=
  let k := src.hub.val * 64 + src.page.val
  let b := s.mbx k
  let s := if status = St.stateError then s.fwLog (s.ownerFwp (fieldAt b.held 0 2) src.link) 1 else s
  let s := if status = St.badParam ∨ (status = St.notPermitted ∧ src.mctp) then s.mbxPartner k else s
  if b.order = src.order ∧ s.on (Reg.MBX_STAT_BUSY k) then s.modMbx k fun b => { b with reply := some (status, payload) } else s

/-- Source of the message in a page. -/
def State.srcOf (s : State) (hub : Fin 2) (page : Fin 64) : Src :=
  let k := hub.val * 64 + page.val
  let b := s.mbx k
  ⟨hub, page, Fin.ofNat 2 (s.rd (Reg.MBX_STAT_LINK k)), b.mctp, b.order⟩

/-- The page holds a message not yet answered. DEDUCED (log 53). -/
def State.mbxWaits (s : State) (k : Nat) : Bool :=
  s.on (Reg.MBX_STAT_BUSY k) && (s.mbx k).reply.isNone && !(s.mbx k).unread

/-- A link's mailboxes are not served while it is LOST (R475). -/
def State.linkLost (s : State) (l : Nat) : Bool := s.rd (Reg.FWP_LINK_STATE 0 l) = 1

/-- The owner of the message in page k. -/
def State.mbxOwner (s : State) (k : Nat) : Nat := s.ownerFwp (fieldAt (s.mbx k).held 0 2) (s.rd (Reg.MBX_STAT_LINK k))

/-- No earlier message of the same owner is still being served (R462). -/
def State.mbxFirst (s : State) (k : Nat) : Bool :=
  (List.range 128).all fun j => j = k || !s.mbxWaits j || s.mbxOwner j ≠ s.mbxOwner k || (s.mbx k).order < (s.mbx j).order

/-- With no image that verifies, the ROM itself serves FW_UPDATE, FW_COMMIT and FW_ACTIVATE, on page 0 of hub 0 and over
MCTP (R481). -/
def State.romServes (s : State) (op k : Nat) : Bool :=
  s.bru.noImage && (op = 0x10 || op = 0x11 || op = 0x12) && (k = 0 || (s.mbx k).mctp)

/-- Commands that write flash: they wait while other flash operations are suspended (R526). -/
def flashOpcodes : List Nat := [0x0010, 0x0011, 0x0012, 0x0013, 0x0618]

/-- Serves the command with opcode `op` in a page: its owner is RUNNING, it is first in order, it has not begun
(R462). Before START the commands of R486 are answered STATE_ERROR. -/
def withMsg (op : Nat) (hub : Fin 2) (page : Fin 64) (s : State) (f : State → Msg → State) : Res :=
  let k := hub.val * 64 + page.val
  let b := s.mbx k
  let m : Msg := ⟨s.srcOf hub page, b.held⟩
  if !s.mbxWaits k ∨ b.started ∨ m.opcode ≠ op ∨ !(s.fwState (s.mbxOwner k) = Fw.running || s.romServes op k) ∨
      !s.mbxFirst k ∨ (!b.mctp ∧ s.linkLost m.src.link) ∨ (s.bbx.suspended ∧ flashOpcodes.contains op) then .next s
  else
    -- Lamplighter's journal holds each of its commands from before its first effect (R515)
    let s := if m.opcode < 0x300 then s.setJournalAt k (BitVec.ofNat 16 m.opcode) else s
    let s := s.modMbx k fun b => { b with started := true }
    let t := if 0x200 ≤ op ∧ op < 0x600 ∧ !s.bru.started then s.answer m.src St.stateError [] else f s m
    .next (if (t.mbx k).reply.isSome then t.setJournalAt k 0#16 else t)

/-- The reply of a page is over when the page's next message begins: the device sees that the host has read it by nothing
else, since it lies in host memory and a register read has no effect (R11, R291, R459). The vector it raised waits no more,
unless the other hub's page of the same number holds a reply for that link too. DESIGN CHOICE (log 91). -/
def State.replyHandled (s : State) (k : Nat) : State :=
  let l := s.rd (Reg.MBX_STAT_LINK k)
  let other := (k + 64) % 128
  if (s.mbx k).mctp ∨ (s.on (Reg.MBX_STAT_VALID other) ∧ !(s.mbx other).mctp ∧ s.rd (Reg.MBX_STAT_LINK other) = l) then s
  else (s.modLink l fun x => { x with intxMbx := x.intxMbx &&& ~~~(1#64 <<< (k % 64)) }).updateInta l

/-- GO has begun a page's next message (R459): the reply before it is over, and the page is busy with a message to be read. -/
def State.mbxBegin (s : State) (k link : Nat) (mctp : Bool) : State :=
  let s := s.replyHandled k
  let s := s.setMbx k
    { held := [], reply := none, order := s.mbxOrder + 1, started := false, mctp := mctp, unread := true }
  let s := { s with mbxOrder := s.mbxOrder + 1 }
  (((s.wr (Reg.MBX_CTL_GO k) 1).wr (Reg.MBX_STAT_VALID k) 0).wr (Reg.MBX_STAT_LINK k) link).wr (Reg.MBX_STAT_BUSY k) 1

/-- The message of a page has been read (R459, R461), or reading it has ended with a status: then nothing is performed, no reply
is written, and the page, which holds none, raises no vector (R290). -/
def State.mbxRead (s : State) (k : Nat) (st : BitVec 8) (held : Bytes) : State :=
  let s := s.modMbx k fun b => { b with held := held, unread := false }
  let m : Msg := ⟨⟨0, 0, 0, (s.mbx k).mctp, 0⟩, held⟩
  if st ≠ St.ok then
    let s := ((s.wr (Reg.MBX_STAT_STATUS k) st.toNat).wr (Reg.MBX_STAT_VALID k) 1).wr (Reg.MBX_CTL_GO k) 0
    s.wr (Reg.MBX_STAT_BUSY k) 0
  else
    let s := s.wr (Reg.MBX_STAT_SEQ k) m.seq
    let reject (s : State) (st : BitVec 8) : State := s.modMbx k fun b => { b with reply := some (st, []) }
    -- the debug mailbox, while it is closed (R451)
    if k = 63 ∧ natBits (s.rd (Reg.SEC_STATE_DEBUG_SCOPE 0)) 1 1 = 0 then reject s St.notPermitted
    else if m.major ≠ 1 then reject (s.mbxPartner k) St.versionMismatch
    else if 4080 < m.length ∨ !knownOpcodes.contains m.opcode then reject (s.mbxPartner k) St.badParam
    else s

/-- A message is read from a buffer in host memory with PF0's requester ID: poison or a timeout makes it POISONED, a refusal
NOT_PERMITTED (R301, R303, R459). DEDUCED (log 53). -/
def State.mbxFetch (s : State) (k : Nat) (msg : HostRead) : State :=
  match msg with
  | .data bs false => s.mbxRead k St.ok bs
  | _ =>
    let x := s.hostReadEnd (s.fnId (s.rd (Reg.MBX_STAT_LINK k)) 0) 0 msg
    x.1.mbxRead k (if x.2.poison then St.poisoned else x.2.status) []

/-- MBX_GO (R305, R459): a write of GO on a link, and the read of the message from the buffer in host memory; `msg` is what the
host returns. While PF0 may not master the link the read waits, and the command that finds the page waiting with PF0 a master
again is that read. -/
def execMbxGo (hub : Fin 2) (page : Fin 64) (link : Fin 2) (msg : HostRead) (s : State) : Res :=
  let k := hub.val * 64 + page.val
  let p := mbxPage k
  let waits : Bool := s.on (Reg.MBX_STAT_BUSY k) && (s.mbx k).unread && s.fnMaster (s.rd (Reg.MBX_STAT_LINK k)) 0
  if s.absentPage p ∧ s.st p ≠ PS.off then .next (s.out (.reply (.host link) St.unitAbsent [] false))
  else waitTag s link 0 [msg] <|
    if s.st p = PS.enabled ∧ waits then .next (s.mbxFetch k msg)
    else if s.st p ≠ PS.enabled then .next (s.ignoreWrite p 0x48)
    else if s.on (Reg.MBX_STAT_BUSY k) then .next ((s.ignoreWrite p 0x48).partner p 4 link 0x20 [])
    else
      let t := s.mbxBegin k link false
      .next (if s.fnMaster link 0 then t.mbxFetch k msg else t)

/-- MCTP_MESSAGE (R463): a message of the board management controller is served as through hub 0 page 62. -/
def execMctpMessage (msg : List (BitVec 8)) (s : State) : Res :=
  let p := mbxPage 62
  if s.st p ≠ PS.enabled then .next s
  else if s.on (Reg.MBX_STAT_BUSY 62) then .next ((s.ignoreWrite p 0x48).partner p 4 0 0x20 (msg.take 16))
  else .next ((s.mbxBegin 62 0 true).mbxRead 62 St.ok msg)

/-- Words 0-3 and the payload of a reply (R460): words 0-2 echoed with LENGTH the reply's, word 3 the status and the
firmware's MINOR. -/
def replyBytes (held : Bytes) (status : BitVec 8) (payload : Bytes) : Bytes :=
  held.take 4 ++ leBytes 2 payload.length ++ (held.drop 6).take 6 ++ [status, 0#8, 0#8, 0#8] ++ payload

/-- An answered command writes its reply into the buffer, once PF0 may master the link (R305), sets VALID, clears BUSY, and raises the page's vector; a message
of the board management controller is answered over MCTP (R459, R463). -/
def State.mbxReply (s : State) (k : Nat) : State :=
  let b := s.mbx k
  match b.reply with
  | none => s
  | some (status, payload) =>
    if !s.on (Reg.MBX_STAT_BUSY k) ∨ (!b.mctp ∧ !s.fnMaster (s.rd (Reg.MBX_STAT_LINK k)) 0) then s
    else
      let bytes := replyBytes (b.held ++ List.replicate (16 - b.held.length) 0#8) status payload
      let link := s.rd (Reg.MBX_STAT_LINK k)
      let buf := s.rd (Reg.MBX_BUF_LO k) * 4096 + s.rd (Reg.MBX_BUF_HI k) * 2 ^ 32
      let s := if b.mctp then s.out (.mctp bytes) else s.hostWrite (s.fnId link 0) buf bytes
      let s := (s.wr (Reg.MBX_STAT_STATUS k) status.toNat).wr (Reg.MBX_STAT_VALID k) 1
      let s := ((s.wr (Reg.MBX_STAT_BUSY k) 0).wr (Reg.MBX_CTL_GO k) 0).modMbx k fun b => { b with reply := none, started := false }
      let s := s.setJournalAt k 0#16
      if b.mctp then s else s.vector link 0 (k % 64)

/-- MBX_REPLY (R459, R463): the reply of an answered command goes out. -/
def execMbxReply (hub : Fin 2) (page : Fin 64) (s : State) : Res := .next (s.mbxReply (hub.val * 64 + page.val))

/-! ## Logs and trace points (R466-R468) -/

/-- A processor that a payload names by index and hub: it exists (R455). -/
def fwpExists (hub index : Nat) : Bool := hub < 2 && (index < 3 || (index < 5 && hub = 0))

/-- LOG_MIRROR (R467): starts or stops copying a processor's log ring to a host ring. -/
def execLogMirror (hub : Fin 2) (page : Fin 64) (s : State) : Res :=
  withMsg 0x0020 hub page s fun s m =>
    let k := fwpKey (m.f 1 1) (m.f 0 1)
    let a := m.f 8 8
    let n := m.f 16 4
    let sizeBad := a ≠ 0 && !([128, 256, 512, 1024, 2048, 4096, 8192, 16384, 32768, 65536].contains n)
    let bad := m.badLength 20 || !fwpExists (m.f 1 1) (m.f 0 1) || m.resv (m.f 2 6 ≠ 0) || a % 4096 ≠ 0 || sizeBad
    let st := firstFault [(St.notPermitted, m.src.mctp), (St.badParam, bad)]
    if st ≠ St.ok then s.answer m.src st []
    else
      let mir : Mirror := { base := BitVec.ofNat 64 a, size := if a = 0 then 0 else n, link := m.src.link
                            copied := s.rd (Reg.FWP_MIRROR_TAIL k), due := [] }
      (s.modFwp k fun f => { f with mirror := mir }).answer m.src St.ok []

/-- TRACE_SET (R468): enables 256 trace points of a processor by a bitmap. -/
def execTraceSet (hub : Fin 2) (page : Fin 64) (s : State) : Res :=
  withMsg 0x0021 hub page s fun s m =>
    let k := fwpKey (m.f 1 1) (m.f 0 1)
    let first := m.f 2 2
    let map := m.f 8 32
    if m.badLength 40 ∨ !fwpExists (m.f 1 1) (m.f 0 1) ∨ m.resv (m.f 4 4 ≠ 0) ∨ first % 256 ≠ 0 ∨ 4096 ≤ first then
      s.answer m.src St.badParam []
    else
      (s.modFwp k fun f => (List.range 256).foldl (fun f i => f.setTrace (first + i) (natBits map i 1 = 1)) f).answer
        m.src St.ok []

end Sys2Proof.Machine
end

