-- ==== Sys2Proof/Machine/HostLink.lean ====
section
/-! DEFINITION. The host links: windows onto device memory, violations, job queues and their doorbells, interrupt tables,
tags, and driver loss (10_host_link.md R284-R310; 17_firmware_processors.md R465, R474-R476). -/
namespace Sys2Proof.Machine

/-! ## Errors of accesses -/

/-- A bus error is recorded (R44): ERR_STAT.BUS_ERROR of the page that logs it, and a black-box record. `who` is the link
or requester, `width` the bytes of the access. -/
def State.busErr (s : State) (p : Page) (off who width : Nat) : State :=
  (s.bbAdd 0x0002 Sev.corrected (some p) 0xFF (leBytes 8 off ++ leBytes 2 who ++ [BitVec.ofNat 8 width])).err p 2

/-- A request is answered or dropped as unsupported (R287, R292, R308). -/
def State.unsupported (s : State) (l : Nat) : State := s.bump (Reg.PCE_UR l)

/-- The endpoint of a link takes memory requests to a function. -/
def State.fnServes (s : State) (l fn : Nat) : Bool :=
  (s.link l).up && !((s.link l).getFns fn).d3 && s.st (pcePage l) ≠ PS.fenced && s.st (pcePage l) ≠ PS.resetting

/-- An Unsupported Request of the host is logged, counted in PCE_UR, and answered where it is not posted (R308). -/
def State.urLogged (s : State) (l : Nat) (posted : Bool) (header : Bytes) : State :=
  let t := (s.unsupported l).partner (pcePage l) 0 l 0x5C header
  if posted then t else t.out (.ur l)

/-- A memory request to a function that does not serve: to a function in D3hot it is unsupported; on a link that is down
or whose endpoint is fenced nothing arrives (R307, R308, R505). -/
def State.notServed (s : State) (l fn : Nat) (posted : Bool) : State :=
  if (s.link l).up ∧ ((s.link l).getFns fn).d3 then s.urLogged l posted [] else s

/-- A malformed TLP is dropped: reported, logged, counted in the bucket, and bit 18 is set (R308, R309). -/
def State.malformedRx (s : State) (l : Nat) (header : Bytes) : State :=
  let p := pcePage l
  (((s.out (.aer l .malformedTlp)).partner p 0 l 0x18 header).err p 18).bucket p

/-- The Max Payload Size in force at a function, in bytes (R284). -/
def State.maxPayload (s : State) (l fn : Nat) : Nat := 128 * 2 ^ ((s.link l).getFns fn).mps.toNat

/-! ## Windows (R286-R288) -/

/-- Runs of enabled bytes of a write: offset and bytes. -/
def enabledRuns : Nat → Bytes → List Bool → List (Nat × Bytes)
  | _, [], _ => []
  | o, b :: bs, es =>
    let rest := enabledRuns (o + 1) bs (es.drop 1)
    if es.headD false then
      match rest with
      | (o', r) :: l => if o' = o + 1 then (o, b :: r) :: l else (o, [b]) :: rest
      | [] => [(o, [b])]
    else rest

def BarAccess.size : BarAccess → Nat
  | .read n => n
  | .write d _ _ => d.length

def BarAccess.posted : BarAccess → Bool
  | .read _ => false
  | .write _ _ _ => true

/-- The access is a write with EP set (R304). -/
def BarAccess.poison : BarAccess → Bool
  | .read _ => false
  | .write _ _ p => p

/-- The runs of a write at a, cut at lines: each line's address with its own runs (R219). -/
def lineRuns (a : Nat) (runs : List Run) : List (Nat × List Run) :=
  let ps := runs.flatMap fun r => (linesOf (a + r.1) r.2.1.length).map fun p =>
    (p.1, (r.2.1.drop (p.1 - (a + r.1))).take p.2, r.2.2)
  (ps.map fun p => p.1 / 64 * 64).eraseDups.map fun l =>
    (l, (ps.filter fun p => p.1 / 64 * 64 = l).map fun p => (p.1 % 64, p.2))

/-- The bytes of a line that its runs span: first byte, and number of bytes to the last. -/
def runSpan (l : List Run) : Nat × Nat :=
  let lo := l.foldl (fun m r => min m r.1) 64
  (lo, l.foldl (fun m r => max m (r.1 + r.2.1.length)) 0 - lo)

/-- What became of a write: the first refusal of a line, and whether a line is held at its home (R536). -/
structure Written where
  state : State
  status : BitVec 8
  held : Bool

/-- One line of a write for a requester: refused, held at its home while Lantern has still to copy its granule, or written in
one access (R40, R219, R536). `owed` is the epoch of the acknowledgement that a held line still owes. -/
def State.writeLine (s : State) (r : Req) (owed : Option (BitVec 8)) (a : Nat) (runs : List Run) : Written :=
  let x := runSpan runs
  let st := s.access r (a + x.1) x.2
  if st ≠ St.ok then ⟨s.countAbsent a st, st, false⟩
  else match s.pendingPart a with
    | some q => ⟨s.hold q ⟨a, runs, some r, owed, false⟩, St.ok, true⟩
    | none => ⟨s.storeRuns a runs, St.ok, false⟩

/-- Writes runs line by line; the status of the first refused line stands. -/
def State.writeRuns (s : State) (r : Req) (owed : Option (BitVec 8)) (a : Nat) (runs : List Run) : Written :=
  (lineRuns a runs).foldl (fun (acc : Written) l =>
    let w := acc.state.writeLine r owed l.1 l.2
    ⟨w.state, if acc.status = St.ok then w.status else acc.status, acc.held || w.held⟩) ⟨s, St.ok, false⟩

/-- A host access reaches fabric memory: a read is answered, a write is performed where the device does not refuse it. -/
def State.barMemory (s : State) (r : Req) (a : Nat) (acc : BarAccess) : State :=
  match acc with
  | .read n =>
    let x := s.readMem r a n
    x.1.out (.reply r x.2.status x.2.data x.2.poison)
  | .write d es poison =>
    (s.writeRuns r none a ((enabledRuns 0 d es).map fun e => (e.1, e.2, poison))).state

/-- The ranges a BAR2 window may reach (R286). -/
def Tgt.windowed : Tgt → Bool
  | .hbm _ _ => true
  | .t2 _ => true
  | .pool _ => true
  | .dmem _ _ => true
  | .sram _ _ => true
  | _ => false

/-- The answer to an unsupported request: UR to a read, nothing to a write. -/
def State.urAnswer (s : State) (l : Nat) (acc : BarAccess) : State :=
  if acc.posted then s.unsupported l else (s.unsupported l).out (.ur l)

/-- An access to a BAR2 reaches its function (R288, R304, R307, R308): poison is reported whatever becomes of the access; then it is
turned away by a function that does not serve, when it crosses the end of the BAR, or when it is larger than Max Payload Size,
a write as a malformed TLP. Else `f` serves it. DEDUCED (log 98). -/
def State.bar2Arrives (s : State) (l fn off : Nat) (acc : BarAccess) (f : State → Res) : Res :=
  let s := if acc.poison ∧ (s.link l).up then s.poisonRx l else s
  if !s.fnServes l fn then .next (s.notServed l fn acc.posted)
  else if 2 ^ (s.link l).getBar2Log2 fn < off + acc.size then .next (s.urLogged l acc.posted [])
  else if s.maxPayload l fn < acc.size then .next (if acc.posted then s.malformedRx l [] else s.urLogged l false [])
  else f s

/-- HOST_BAR2_ACCESS (R286, R288, R308): offset `off` of PF0 BAR2 reaches PCE_WIN0_BASE + off. -/
def execHostBar2Access (link : Fin 2) (off : Nat) (acc : BarAccess) (s : State) : Res :=
  let r : Req := .host link
  s.bar2Arrives link 0 off acc fun s =>
    let a := s.rd (Reg.PCE_WIN0_BASE_LO link) * 2 ^ 30 + s.rd (Reg.PCE_WIN0_BASE_HI link) * 2 ^ 32 + off
    if (s.target a acc.size).windowed then .next (s.barMemory r a acc)
    else
      let t := s.busErr ⟨.hub, link⟩ a link acc.size
      match acc with
      | .read _ => .next (t.out (.ca link))
      | .write _ _ _ => .next t

/-- A slice whose doorbell page and aperture PF1 of a link serves. -/
def State.pf1Slice (s : State) (l k : Nat) : Option Slice :=
  match s.slice k with
  | some x => if x.func = 1 ∧ s.partHub x.part = l ∧ x.dying.isNone then some x else none
  | none => none

/-- Bytes of an aperture of PF1 BAR2: 256 equal ones (R287). -/
def State.apertureSize (s : State) (l : Nat) : Nat := 2 ^ (s.link l).getBar2Log2 1 / 256

/-- APERTURE_ACCESS (R287, R216): offset `off` of PF1 BAR2 lies in the aperture of one slice, which begins at slice * (BAR2 size /
256) and reaches the slice's window with the rights of its partition. Past the window nothing is mapped. -/
def execApertureAccess (link : Fin 2) (off : Nat) (acc : BarAccess) (s : State) : Res :=
  s.bar2Arrives link 1 off acc fun s =>
    let size := s.apertureSize link
    let slice := off / size
    let o := off % size
    match s.pf1Slice link slice with
    | none => .next (s.urAnswer link acc)
    | some x =>
      if x.winSize.toNat < o + acc.size then .next (s.urAnswer link acc)
      else .next (s.barMemory (.slice (Fin.ofNat 256 slice)) (x.winBase.toNat + o) acc)

/-- HOST_REQUEST_RX (R304, R308, R309): a TLP of the host that violates the protocol, or a poisoned one. -/
def execHostRequestRx (link : Fin 2) (v : Violation) (s : State) : Res :=
  if !(s.link link).up then .next s
  else match v with
    | .malformed h => .next (s.malformedRx link h)
    | .outsideBars posted h => .next (s.urLogged link posted h)
    | .toD3 fn posted h => if ((s.link link).getFns fn).d3 then .next (s.urLogged link posted h) else .next s
    | .atomicOp h => .next (s.urLogged link false h)
    | .crossing posted h => .next (s.urLogged link posted h)
    | .poisoned => .next (s.poisonRx link)

/-! ## Job queues (R292-R297) -/

def jqKey (slice q : Nat) : Nat := slice * 16 + q

/-- A queue that exists: not one that an FLR destroyed (R306, R476). -/
def State.liveJobq (s : State) (k : Nat) : Option JobQ :=
  match s.jobq k with
  | some q => if q.kept then some q else none
  | none => none

/-- A doorbell write stops a queue: an index out of range, which is logged (R295, R308). -/
def State.stopJobq (s : State) (l k : Nat) (q : JobQ) : State :=
  ((s.setJobq k (some { q with error := true, status := St.badParam })).partner (pcePage l) 0 l 0x18 []).err (pcePage l) 21

/-- A doorbell page takes a write: its slice exists here and is not suspended (R292, R325). Else the write is dropped and
counted. -/
def State.doorbell (s : State) (l k : Nat) (f : State → Slice → State) : Res :=
  if !s.fnServes l 1 then .next (s.notServed l 1 true)
  else match s.pf1Slice l k with
    | some x => if x.suspended then .next (s.unsupported l) else .next (f s x)
    | none => .next (s.unsupported l)

/-- JQ_SQ_TAIL (R292, R294, R295). A queue that does not exist has no ring to index: its word keeps what is written until the queue
is created. -/
def execJqSqTail (link : Fin 2) (slice : Fin 256) (queue : Fin 16) (v : BitVec 16) (s : State) : Res :=
  s.doorbell link slice fun s _ =>
    let k := jqKey slice queue
    match s.liveJobq k with
    | none => s.setDoorbellOf (2 * k) v
    | some q => if 2 ^ q.log2Sq ≤ v.toNat then s.stopJobq link k q else s.setJobq k (some { q with sqTail := v })

/-- JQ_CQ_HEAD (R292, R295, R297): releases the completion slots up to the index; slots not yet written are not released. -/
def execJqCqHead (link : Fin 2) (slice : Fin 256) (queue : Fin 16) (v : BitVec 16) (s : State) : Res :=
  s.doorbell link slice fun s _ =>
    let k := jqKey slice queue
    match s.liveJobq k with
    | none => s.setDoorbellOf (2 * k + 1) v
    | some q =>
      let size := 2 ^ q.log2Cq
      if size ≤ v.toNat then s.stopJobq link k q
      else
        let n := (v.toNat + size - q.cqHead.toNat) % size
        s.setJobq k (some { q with cqHead := v, released := min q.written (q.released + n) })

/-- BDB (R178, R292): adds n to the slice's doorbell beacon; 0 has no effect. -/
def execBdb (link : Fin 2) (slice : Fin 256) (n : BitVec 32) (s : State) : Res :=
  s.doorbell link slice fun s x => s.sigHub link .job x.beacon.toNat n

/-- The job and record engines of a queue run: its link is ATTACHED, PF1 masters it, its slice is not refused, and it has
not stopped (R295, R305, R325, R475). -/
def State.jqRuns (s : State) (slice : Nat) (q : JobQ) : Bool := q.kept && !q.error && s.sliceStatus slice = St.ok

/-- JQ_FETCH (R294, R195): the next submission slot is fetched and its descriptor handed to the distributor or refused.
`desc` is what the host's memory returns. -/
def execJqFetch (slice : Fin 256) (queue : Fin 16) (desc : HostRead) (s : State) : Res := waitSliceTag s slice [desc] <|
  let k := jqKey slice queue
  match s.liveJobq k, s.slice slice with
  | some q, some x =>
    let l := s.partHub x.part
    if !s.jqRuns slice q ∨ q.sqHead = q.sqTail ∨ s.st ⟨.dis, l⟩ ≠ PS.enabled then .next s
    else
      let n := 2 ^ q.log2Sq
      let r := s.sliceRead slice (q.sqBase.toNat + 64 * q.sqHead.toNat) 64 desc
      let s := r.1.setJobq k (some { q with sqHead := BitVec.ofNat 16 ((q.sqHead.toNat + 1) % n) })
      let d := if r.2.data.length = 64 then r.2.data else List.replicate 64 0#8
      let st := if r.2.status ≠ St.ok then r.2.status
        else if r.2.poison then St.poisoned
        else firstFault [(St.badParam, fieldAt d 12 1 ≠ slice.val), (s.descStatus x.part d, true)]
      if st = St.ok then .next (s.holdDesc l (jobSource slice queue) x.part d)
      else .next (s.refuseDesc l (jobSource slice queue) x.part d st)
  | _, _ => .next s

/-- Records that programs have posted and the engine has not taken (R296, R476). DEDUCED (log 62). -/
def State.posted (s : State) (q : JobQ) : Nat :=
  let d := (s.beacon q.post.toNat - BitVec.ofNat 32 q.postTaken).toNat
  if d < 2 ^ 31 then d else 0

/-- The watch by which the job engine of a hub learns that POST of a queue has reached its next staging slot (R187, R296). -/
def postWatch (hub k : Nat) (q : JobQ) : Watch :=
  { bid := q.post.toNat, target := BitVec.ofNat 32 (q.postTaken + 1), tag := BitVec.ofNat 16 k, hub := hub, engine := .job }

/-- JQ_POST_TAKE (R296): once the engine has learnt by watch that POST has reached k + 1, staging slot k is taken and STAGE_CREDIT
signalled. -/
def execJqPostTake (slice : Fin 256) (queue : Fin 16) (s : State) : Res :=
  let k := jqKey slice queue
  match s.liveJobq k, s.slice slice with
  | some q, some x =>
    let l := s.partHub x.part
    if !s.jqRuns slice q then .next s
    else
      let w := s.learn (postWatch l k q)
      if !w.fired then .next w.state
      else
      let s := w.state
      let a := sramBase + l * 2 ^ 26 + q.stageBase.toNat * 64 + q.postTaken % 2 ^ q.log2Stage * 32
      let r := s.readMem (.hub (Fin.ofNat 2 l) .job (Fin.ofNat 12 x.part)) a 25
      let bad := r.2.poison || r.2.status ≠ St.ok
      let rec_ := if bad then List.replicate 25 0#8 else r.2.data
      let s := r.1.setJobq k (some { q with postTaken := q.postTaken + 1, ready := q.ready ++ [(rec_, bad)] })
      .next (s.sigHub l .job q.stageCredit.toNat 1#32)
  | _, _ => .next s

/-- A completion record as written (R296, R297): PHASE is 1 in the first pass and inverts on each later one. -/
def JobQ.record (q : JobQ) (queue : Nat) (body : Bytes) : Bytes :=
  (body ++ List.replicate 25 0#8).take 25 ++ [BitVec.ofNat 8 queue] ++ leBytes 2 q.sqHead.toNat ++ List.replicate 3 0#8 ++
    [if q.written / 2 ^ q.log2Cq % 2 = 0 then 1#8 else 0#8]

/-- JQ_RECORD_WRITE (R296-R298, R327): the oldest record goes to the next completion slot, and VECTOR is sent once no
further record is ready. `host` is what becomes of the write: a record that gets no translation is not sent (R303). -/
def execJqRecordWrite (slice : Fin 256) (queue : Fin 16) (host : HostWrite) (s : State) : Res :=
  let k := jqKey slice queue
  match s.liveJobq k, s.slice slice with
  | some q, some x =>
    match q.ready with
    | [] => .next s
    | (body, mark) :: rest =>
      if !s.jqRuns slice q ∨ 2 ^ q.log2Cq ≤ q.written - q.released then .next s
      else
        let l := s.partHub x.part
        let a := q.cqBase.toNat + 32 * (q.written % 2 ^ q.log2Cq)
        let s := s.hostPut l (some slice) a (q.record queue body) mark host
        let s := s.setJobq k (some { q with written := q.written + 1, ready := rest })
        .next (if rest.isEmpty ∧ q.vector.toNat < 2048 then s.vector l 1 q.vector.toNat else s)
  | _, _ => .next s

/-- JQ_CREATE (R293, R308, R465): writes a queue's context; one out of range is logged. -/
def execJqCreate (hub : Fin 2) (page : Fin 64) (s : State) : Res :=
  withMsg 0x0120 hub page s fun s m =>
    let k := m.f 0 1
    let q := m.f 1 1
    let part := match s.slice k with
      | some x => x.part
      | none => 15
    let slot : Bool := match s.slice k with
      | some x => x.func = 1 && x.dying.isNone
      | none => false
    let sq := m.f 8 8
    let cq := m.f 16 8
    let vec := m.f 26 2
    let post := m.f 32 2
    let credit := m.f 34 2
    let bad := m.badLength 36 || !slot || 16 ≤ q || m.resv (m.f 2 6 ≠ 0) || sq % 4096 ≠ 0 || cq % 4096 ≠ 0 ||
      12 < m.f 25 1 || (2048 ≤ vec && vec ≠ 0xFFFF) || m.resv (2 ^ 20 ≤ m.f 28 4) || !s.beaconOfPart part post ||
      !s.beaconOfPart part credit
    let st := firstFault
      [(St.notPermitted, m.src.mctp || (slot && !m.onLink (s.partHub part))), (St.badParam, bad),
       (St.stateError, (s.liveJobq (jqKey k q)).isSome)]
    if st ≠ St.ok then
      s.answer m.src st []
    else
      let s := s.disarmTag (s.partHub part) .job (BitVec.ofNat 16 (jqKey k q))
      let s := (s.setDoorbellOf (2 * jqKey k q) 0#16).setDoorbellOf (2 * jqKey k q + 1) 0#16
      let x : JobQ :=
        { JobQ.reset with
          sqBase := BitVec.ofNat 64 sq, cqBase := BitVec.ofNat 64 cq, log2Sq := m.f 24 1 % 16 + 1, log2Cq := m.f 24 1 / 16 + 1
          vector := BitVec.ofNat 16 vec, stageBase := BitVec.ofNat 20 (m.f 28 4), log2Stage := m.f 25 1
          post := BitVec.ofNat 15 post, stageCredit := BitVec.ofNat 15 credit }
      (s.setJobq (jqKey k q) (some x)).answer m.src St.ok []

/-- JQ_DESTROY (R465): stops a queue and discards the records staged for it. No request of it is in flight between
commands. -/
def execJqDestroy (hub : Fin 2) (page : Fin 64) (s : State) : Res :=
  withMsg 0x0121 hub page s fun s m =>
    let k := m.f 0 1
    let q := m.f 1 1
    let part := match s.slice k with
      | some x => x.part
      | none => 15
    let st := firstFault
      [(St.notPermitted, m.src.mctp || (part < 12 && !m.onLink (s.partHub part))),
       (St.badParam, m.badLength 2 || 16 ≤ q || part = 15), (St.stateError, (s.liveJobq (jqKey k q)).isNone)]
    if st ≠ St.ok then s.answer m.src st []
    else (s.setJobq (jqKey k q) none).answer m.src St.ok []

/-! ## Interrupt tables (R289-R291) -/

/-- Sends every pending message of a function that may now be sent (R289). -/
def State.flushPba (s : State) (l fn : Nat) : State :=
  let f := (s.link l).getFns fn
  if !f.msixEn ∨ !f.bme ∨ !(s.link l).up then s
  else
    let vs := if fn = 0 then List.range 64 else f.pba.map (·.1)
    vs.foldl (fun s v =>
      if s.pba l fn v && !s.vectorMasked l fn v then (s.setPba l fn v false).out (.msix l fn v) else s) s

/-- PCE_MSIX_WRITE (R289): a word of a function's MSI-X table is written; unmasking a vector sends its pending message.
Vector control bit 0 is the mask. -/
def execPceMsixWrite (link : Fin 2) (fn : Fin 4) (v : Fin 2048) (word : Fin 4) (x : BitVec 32) (s : State) : Res :=
  if !s.fnServes link fn then .next (s.notServed link fn true)
  else if fn = 0 then
    if 64 ≤ v.val then .next (s.busErr (pcePage link) ((pcePage link).base + 0x800 + 16 * v.val + 4 * word.val) link 4)
    else withPage (pcePage link) (0x800 + 16 * v.val + 4 * word.val) s fun s =>
      let a := (Reg.PCE_MSIX_ADDR_LO link v).addr + 4 * word.val
      let m := match word with
        | 0 => 0xFFFFFFFC#32
        | 3 => 1#32
        | _ => 0xFFFFFFFF#32
      .next ((s.setReg a (x &&& m)).flushPba link 0)
  else
    .next ((s.modLink link fun k =>
      let f := k.getFns fn
      k.setFns fn (if word = 3 then f.setMask v (x.getLsbD 0) else f.setTable (4 * v.val + word.val) x)).flushPba link fn)

/-- PCE_INTX_PEND (R291): writing 1 to bit 0 handles the vector-0 source. -/
def execPceIntxPend (link : Fin 2) (w : BitVec 32) (s : State) : Res :=
  withPage (pcePage link) 0x70 s fun s =>
  if w.getLsbD 0 then .next ((s.wr (Reg.PCE_INTX_PEND link) 0).updateInta link) else .next s

/-! ## Requests of the device in flight (R299-R303) -/

/-- COMPLETION_TIMEOUT (R301): a read in flight has no completion in time: its requester gets poison and its tag is
quarantined for four times the value in force when it timed out. -/
def execCompletionTimeout (link : Fin 2) (tag : Fin 16384) (s : State) : Res :=
  match (s.link link).tags.find? (fun t => t.tag = tag.val && !t.quar) with
  | none => .next s
  | some t =>
    let s := s.hostTimeout ⟨link, t.fn, t.rid, t.pasid⟩ tag
    match t.req with
    | .read r _ n => .next (s.out (.reply r St.ok (List.replicate n 0#8) true))
    | .none => .next s

/-- Slices whose teardown waited for their PASID to leave the link (R326). -/
def State.pasidGone (s : State) (l : Nat) (pasid : BitVec 20) : Bool := (s.link l).tags.all fun t => t.pasid ≠ some pasid

/-- The slices of a link that SLICE_DESTROY has torn down answer once no request of their PASID is in flight or in
quarantine (R326). -/
def State.settleSlices (s : State) (l : Nat) : State :=
  (List.range 256).foldl (fun s k =>
    match s.slice k with
    | some x => match x.dying with
      | some src => if s.partHub x.part = l ∧ s.pasidGone l x.pasid then (s.setSlice k none).answer src St.ok [] else s
      | none => s
    | none => s) s

/-- TAG_QUARANTINE_END (R301): a quarantined tag is free again. -/
def execTagQuarantineEnd (link : Fin 2) (tag : Fin 16384) (s : State) : Res :=
  .next ((s.modLink link fun k => { k with tags := k.tags.filter fun t => !(t.tag = tag.val && t.quar) }).settleSlices link)

/-- HOST_COMPLETION_RX (R302, R303, R306, R308): a completion answers its request, or is discarded: unexpected, dropped
after an FLR, or malformed. -/
def execHostCompletionRx (link : Fin 2) (tag : Fin 16384) (c : Completion) (s : State) : Res :=
  let p := pcePage link
  match c with
  | .badFields h =>
    -- discarded as malformed; the request it would have matched times out
    .next (s.malformedRx link h)
  | _ =>
    match (s.link link).tags.find? (fun t => t.tag = tag.val) with
    | some t =>
      if t.quar then
        if t.flr then .next (s.bump (Reg.PCE_FLR_DROP link))
        else .next (((s.out (.aer link .unexpectedCompletion)).bump (Reg.PCE_LATE_CPL link)).err p 17)
      else
        let s := s.modLink link fun k => { k with tags := k.tags.filter (·.tag ≠ tag.val) }
        let s := match t.req, c with
          | .read r _ n, .data bs poison =>
            (if poison then s.poisonRx link else s).out (.reply r St.ok ((bs ++ List.replicate n 0#8).take n) poison)
          | .read r _ _, _ => s.out (.reply r St.notPermitted [] false)
          | .none, _ => s
        .next (s.settleSlices link)
    | none => .next (((s.out (.aer link .unexpectedCompletion)).bump (Reg.PCE_LATE_CPL link)).err p 17)

/-- ATS_INVALIDATE (R284): the host invalidates n pages of a function from a page on, of one PASID or of every one; the answer
follows. -/
def execAtsInvalidate (link : Fin 2) (fn : Fin 4) (itag : Fin 32) (pasid : Option (BitVec 20)) (page n : Nat) (s : State) : Res :=
  let hit (k : Nat) : Bool :=
    page ≤ k % 2 ^ 52 && k % 2 ^ 52 < page + n && k / 2 ^ 52 / 2 ^ 37 = fn.val && (match pasid with
      | some p => k / 2 ^ 52 % 2 ^ 21 = pasidSpace (some p)
      | none => true)
  if !(s.link link).up then .next s
  else .next ((s.modLink link fun k => { k with ats := SMap.keep (fun x => !hit x) k.ats }).out (.atsDone link itag))

/-! ## Driver loss (R474-R476) -/

/-- Loss causes (R476). -/
def Loss.heartbeat : Nat := 0
def Loss.bme : Nat := 1
def Loss.flr : Nat := 2
def Loss.perst : Nat := 3

def LinkSt.attached : Nat := 0
def LinkSt.lost : Nat := 1
def LinkSt.reattach : Nat := 2

/-- An ATTACHED link loses its driver (R474, R475). DEDUCED (log 87). -/
def State.driverLoss (s : State) (l cause : Nat) : State :=
  if s.rd (Reg.FWP_LINK_STATE 0 l) ≠ LinkSt.attached then s
  else
    let s := (s.wr (Reg.FWP_LINK_STATE 0 l) LinkSt.lost).setLossOf l { armed := false, cause := BitVec.ofNat 8 cause }
    let s := s.bbAdd 0x000C Sev.contained (some ⟨.fwp, 0⟩) 0xFF [BitVec.ofNat 8 l, BitVec.ofNat 8 cause]
    s.err ⟨.fwp, 0⟩ (18 + l) Sev.contained

/-- DRIVER_LOSS (R474): 4 s have passed with no write of a link's FWP_HB. -/
def execDriverLoss (link : Fin 2) (s : State) : Res :=
  if (s.lossOf link).armed then .next (s.driverLoss link Loss.heartbeat) else .next s

/-- FWP_HB (R474): a heartbeat arms and restarts the timer; it ends LOST while Bus Master Enable of PF0 is set. -/
def execFwpHb (link : Fin 2) (v : BitVec 32) (s : State) : Res :=
  withPage ⟨.fwp, 0⟩ (0x60 + 8 * link.val) s fun s =>
  let s := s.setReg (Reg.FWP_HB 0 link).addr v
  let st := s.rd (Reg.FWP_LINK_STATE 0 link)
  if st = LinkSt.attached then .next (s.modLossOf link fun x => { x with armed := true })
  else if st = LinkSt.lost ∧ ((s.link link).getFns 0).bme then .next (s.wr (Reg.FWP_LINK_STATE 0 link) LinkSt.reattach)
  else .next s

/-- Job queues of a link, ascending: key and queue. -/
def State.jobqsOf (s : State) (l : Nat) : List (Nat × JobQ) :=
  s.jobqs.filterMap fun e => match e.2, s.slice (e.1 / 16) with
    | some q, some x => if s.partHub x.part = l then some (e.1, q) else none
    | _, _ => none

/-- Records held for a queue (R476). -/
def State.heldRecords (s : State) (q : JobQ) : Nat := s.posted q + q.ready.length

/-- REATTACH (R476): reports the held records of the link's job queues from entry START. -/
def execReattach (hub : Fin 2) (page : Fin 64) (s : State) : Res :=
  withMsg 0x0002 hub page s fun s m =>
    let st := firstFault [(St.notPermitted, m.src.mctp), (St.badParam, m.badLength 4)]
    if st ≠ St.ok then s.answer m.src st []
    else
      let l := m.src.link.val
      let all := (s.jobqsOf l).filter fun e => s.heldRecords e.2 ≠ 0
      let rest := all.drop (m.f 0 4)
      let now := rest.take 509
      let entry (e : Nat × JobQ) : Bytes :=
        [BitVec.ofNat 8 (e.1 / 16), BitVec.ofNat 8 (e.1 % 16), if e.2.kept then 1#8 else 0#8, 0#8] ++
          leBytes 4 (s.heldRecords e.2)
      s.answer m.src St.ok
        (leBytes 2 now.length ++ [if now.length < rest.length then 1#8 else 0#8, (s.lossOf l).cause] ++
          List.replicate 4 0#8 ++ now.flatMap entry)

/-- RESUME (R476): with DISCARD, or for a queue that did not survive, the held records are dropped and their STAGE_CREDIT
returned. -/
def execResume (hub : Fin 2) (page : Fin 64) (s : State) : Res :=
  withMsg 0x0003 hub page s fun s m =>
    let l := m.src.link.val
    let st := firstFault
      [(St.notPermitted, m.src.mctp), (St.badParam, m.badLength 1 || m.resv (2 ≤ m.f 0 1)),
       (St.stateError, s.rd (Reg.FWP_LINK_STATE 0 l) ≠ LinkSt.reattach)]
    if st ≠ St.ok then s.answer m.src st []
    else
      let s := (s.jobqsOf l).foldl (fun s e =>
        let q := e.2
        if m.f 0 1 % 2 = 1 ∨ !q.kept then
          let n := s.posted q
          let s := s.setJobq e.1 (if q.kept then some { q with postTaken := q.postTaken + n, ready := [] } else none)
          s.sigHub l .job q.stageCredit.toNat (BitVec.ofNat 32 n)
        else s) s
      ((s.wr (Reg.FWP_LINK_STATE 0 l) LinkSt.attached).setLossOf l { s.lossOf l with armed := false }).answer m.src St.ok []

end Sys2Proof.Machine
end

