-- ==== Sys2Proof/Machine/Network.lean ====
section
/-! DEFINITION. The network function: queue pairs, ESP offload, reception and sending (12_ethernet_ingress.md R335,
R349-R355; 16_cipher_and_trust.md R439-R441). -/
namespace Sys2Proof.Machine

def nicPage (h : Nat) : Page := ⟨.nic, h⟩

def qpKey (link q : Nat) : Nat := link * 4096 + q

/-- Slice k is a slice of PF3 of a link that still stands. -/
def State.pf3Slice (s : State) (l k : Nat) : Option Slice :=
  match s.slice k with
  | some x => if x.func = 3 ∧ s.partHub x.part = l ∧ x.dying.isNone then some x else none
  | none => none

/-- NIC_QP_ACTIVE follows the queue pairs in existence. -/
def State.countQps (s : State) (l : Nat) : State :=
  s.wr (Reg.NIC_QP_ACTIVE l) ((s.nicqps.filter fun e => e.2.isSome && e.1 / 4096 = l).length)

/-- NIC_QP_CREATE (R349). -/
def execNicQpCreate (hub : Fin 2) (page : Fin 64) (s : State) : Res :=
  withMsg 0x0310 hub page s fun s m =>
    let l := m.src.link.val
    let q := m.f 0 2
    let sl := s.pf3Slice l (m.f 2 1)
    let part := match sl with
      | some x => x.part
      | none => 15
    let vec := m.f 34 2
    let rx := m.f 32 1 % 16
    let tx := m.f 32 1 / 16
    let cq := m.f 33 1
    let bad := m.badLength 64 || 4096 ≤ q || m.resv (m.f 3 5 ≠ 0 || (m.bytesAt 38 26).any (· ≠ 0#8)) || m.f 8 8 % 4096 ≠ 0 ||
      m.f 16 8 % 4096 ≠ 0 || m.f 24 8 % 4096 ≠ 0 || rx = 0 || tx = 0 || cq = 0 || 16 < cq || (2048 ≤ vec && vec ≠ 0xFFFF) ||
      16384 ≤ m.f 36 2
    let st := firstFault
      [(St.notPermitted, m.src.mctp || sl.isNone || s.subqPart (m.f 36 2) ≠ part), (St.badParam, bad),
       (St.stateError, (s.nicqp (qpKey l q)).isSome)]
    if st ≠ St.ok then s.answer m.src st []
    else
      let x : NicQp :=
        { NicQp.reset with
          slice := m.f 2 1, rxBase := BitVec.ofNat 64 (m.f 8 8), txBase := BitVec.ofNat 64 (m.f 16 8)
          cqBase := BitVec.ofNat 64 (m.f 24 8), log2Rx := rx, log2Tx := tx, log2Cq := cq, vector := BitVec.ofNat 16 vec
          subq := m.f 36 2 }
      ((s.setNicqp (qpKey l q) (some x)).countQps l).answer m.src St.ok []

/-- The queue pairs that pass the test are gone: the frames that they had enqueued leave for nobody, and NIC_QP_ACTIVE follows
(R349, R353). -/
def State.endQps (s : State) (l : Nat) (gone : Nat × Option NicQp → Bool) : State :=
  let ks := (s.nicqps.filter gone).map (·.1)
  let orphan (f : Frame) : Frame := match f.owner with
    | .nic qp _ => if ks.contains qp then { f with owner := .other } else f
    | _ => f
  let lanes := SMap.mapVals (fun _ => Lane.reset) (fun _ (x : Lane) => { x with frames := x.frames.map orphan }) s.lanes
  { s with nicqps := s.nicqps.filter fun e => !gone e, lanes := lanes }.countQps l

/-- NIC_QP_DESTROY (R349): fetches and writes stop. No request of a queue pair is in flight between commands. -/
def execNicQpDestroy (hub : Fin 2) (page : Fin 64) (s : State) : Res :=
  withMsg 0x0311 hub page s fun s m =>
    let l := m.src.link.val
    let q := m.f 0 2
    let st := firstFault
      [(St.notPermitted, m.src.mctp), (St.badParam, m.badLength 2 || 4096 ≤ q), (St.stateError, (s.nicqp (qpKey l q)).isNone)]
    if st ≠ St.ok then s.answer m.src st []
    else (s.endQps l fun e => e.1 = qpKey l q).answer m.src St.ok []

/-- The queue pairs of a slice, or of every slice of a link, are destroyed (R306, R326, R349). -/
def State.dropQps (s : State) (l : Nat) (slice : Option Nat) : State :=
  s.endQps l fun e =>
    e.1 / 4096 = l && (match e.2, slice with
      | some q, some k => q.slice = k
      | some _, none => true
      | none, _ => false)

/-! ## Doorbells (R351, R353, R354) -/

/-- A doorbell block takes a write: its queue pair exists and its slice is not suspended; else the write is dropped and
counted. An index at or above the ring size stops the queue pair. -/
def State.nqDoorbell (s : State) (l q : Nat) (v : BitVec 16) (log2 : NicQp → Nat) (f : NicQp → NicQp) : Res :=
  let k := qpKey l q
  if !s.fnServes l 3 then .next (s.notServed l 3 true)
  else match s.nicqp k with
    | none => .next (s.unsupported l)
    | some x =>
      let suspended : Bool := match s.slice x.slice with
        | some y => y.suspended
        | none => true
      if suspended then .next (s.unsupported l)
      else if 2 ^ log2 x ≤ v.toNat then
        .next ((s.setNicqp k (some { x with error := true, status := St.badParam })).err (nicPage l) 16)
      else .next (s.setNicqp k (some (f x)))

/-- NQ_RX_TAIL (R354). -/
def execNqRxTail (link : Fin 2) (qp : Fin 4096) (v : BitVec 16) (s : State) : Res :=
  s.nqDoorbell link qp v (·.log2Rx) fun x => { x with rxTail := v }

/-- NQ_TX_TAIL (R353, R354). -/
def execNqTxTail (link : Fin 2) (qp : Fin 4096) (v : BitVec 16) (s : State) : Res :=
  s.nqDoorbell link qp v (·.log2Tx) fun x => { x with txTail := v }

/-- NQ_CQ_HEAD (R351, R354): releases completion slots; slots not yet written are not released. -/
def execNqCqHead (link : Fin 2) (qp : Fin 4096) (v : BitVec 16) (s : State) : Res :=
  s.nqDoorbell link qp v (·.log2Cq) fun x =>
    let n := (v.toNat + 2 ^ x.log2Cq - x.cqHead.toNat) % 2 ^ x.log2Cq
    { x with cqHead := v, released := min x.written (x.released + n) }

/-! ## Completion records (R351) -/

/-- The completion ring has a free slot. -/
def NicQp.room (x : NicQp) : Bool := x.written - x.released < 2 ^ x.log2Cq

/-- The engine of a queue pair runs (R305, R325, R354). -/
def State.qpRuns (s : State) (l : Nat) (x : NicQp) : Bool :=
  !x.error && s.serving (nicPage l) && s.sliceStatus x.slice = St.ok

/-- Writes a record, bytes 0-30, with its PHASE, and sends VECTOR when no further record is ready (R297, R351). -/
def State.nicRecord (s : State) (l q : Nat) (body : Bytes) (host : HostWrite) : State :=
  match s.nicqp (qpKey l q) with
  | none => s
  | some x =>
    let phase : Nat := if x.written / 2 ^ x.log2Cq % 2 = 0 then 1 else 0
    let a := x.cqBase.toNat + 32 * (x.written % 2 ^ x.log2Cq)
    let s := s.hostPut l (some x.slice) a ((body ++ List.replicate 31 0#8).take 31 ++ [BitVec.ofNat 8 phase]) false host
    let y := { x with written := x.written + 1 }
    let more := y.room && (match y.sends with
      | e :: _ => e.status.isSome
      | [] => false)
    let s := s.setNicqp (qpKey l q) (some y)
    if !more ∧ x.vector.toNat < 2048 then s.vector l 3 x.vector.toNat else s

/-! ## ESP (R439-R441) -/

/-- Outbound SA of a queue pair: its number and itself. -/
def State.saOut (s : State) (l q : Nat) : Option (Nat × Sa) :=
  (s.sas.findSome? fun e => match e.2 with
    | some a => if e.1 / 4096 = l ∧ !a.inbound ∧ a.qp = q then some (e.1, a) else none
    | none => none)

/-- Inbound SA of a slice for an SPI and destination. -/
def State.saIn (s : State) (l slice : Nat) (spi dip : Bytes) : Option Sa :=
  (s.sas.findSome? fun e => match e.2 with
    | some a => if e.1 / 4096 = l ∧ a.inbound ∧ a.slice = slice ∧ a.spi = spi ∧ a.dip = dip then some a else none
    | none => none)

def State.countSas (s : State) (l : Nat) : State :=
  s.wr (Reg.CPH_SA l) ((s.sas.filter fun e => e.2.isSome && e.1 / 4096 = l).length)

/-- NIC_SA_ADD (R434, R439). -/
def execNicSaAdd (hub : Fin 2) (page : Fin 64) (s : State) : Res :=
  withMsg 0x0318 hub page s fun s m =>
    let l := m.src.link.val
    let n := m.f 0 2
    let inb := m.f 2 1 = 1
    let sl := s.pf3Slice l (m.f 3 1)
    let ks := m.f 6 2
    let slotOk := match sl with
      | some x => s.keySlotIn x.part ks
      | none => false
    let bad := m.badLength 32 || 4096 ≤ n || 1 < m.f 2 1 || 4096 ≤ m.f 4 2 || (inb && m.f 4 2 ≠ 0) ||
      (!inb && (m.bytesAt 16 16).any (· ≠ 0#8)) || !s.keyUse ks false
    let inUse := match s.sa (qpKey l n) with
      | some a => inb || a.inbound || a.qp ≠ m.f 4 2
      | none => false
    let st := firstFault
      [(St.notPermitted, m.src.mctp || sl.isNone || !slotOk), (St.badParam, bad), (St.stateError, inUse)]
    if st ≠ St.ok then s.answer m.src st []
    else
      let a : Sa :=
        { inbound := inb, slice := m.f 3 1, qp := m.f 4 2, keyslot := ks, spi := m.bytesAt 8 4, salt := m.bytesAt 12 4
          dip := m.bytesAt 16 16, iv := 0#64 }
      let s := if inb then s else match s.saOut l (m.f 4 2) with
        | some (k, _) => s.setSa k none
        | none => s
      ((s.setSa (qpKey l n) (some a)).countSas l).answer m.src St.ok []

/-- NIC_SA_DEL (R439, R441). No frame is in a pipe between commands. -/
def execNicSaDel (hub : Fin 2) (page : Fin 64) (s : State) : Res :=
  withMsg 0x0319 hub page s fun s m =>
    let l := m.src.link.val
    let n := m.f 0 2
    let busy := match s.sa (qpKey l n) with
      | some a => !a.inbound && (s.nicqp (qpKey l a.qp)).isSome
      | none => true
    let st := firstFault [(St.notPermitted, m.src.mctp), (St.badParam, m.badLength 2 || 4096 ≤ n), (St.stateError, busy)]
    if st ≠ St.ok then s.answer m.src st []
    else ((s.setSa (qpKey l n) none).countSas l).answer m.src St.ok []

/-- A received ESP frame in its buffer: the frame, its STATUS and whether the buffer is written with EP (R436, R441). -/
def State.espOpen (s : State) (l : Nat) (slice part : Nat) (f : Bytes) (p : Parsed) (parity : Option (Fin 16)) :
    State × Bytes × BitVec 8 × Bool :=
  if p.pkt.proto ≠ 50 ∨ p.pkt.level = 0 ∨ p.frag ∨ p.tunnel then (s, f, St.ok, false)
  else
    let o := p.pkt.l4
    match s.saIn l slice (take0 f o 4) p.pkt.dip with
    | none => (s.bump (Reg.CPH_ESP_NOSA l), f, St.notPermitted, false)
    | some a =>
      match s.key a.keyslot with
      | none => (s, f, St.doNotTrust, false)
      | some k =>
        let n := p.pkt.stop - (o + 32)
        let s := s.pipeOp l Cls.network part a.keyslot n
        let nonce := a.salt ++ take0 f (o + 8) 8
        let aad := take0 f o 8
        let ct := take0 f (o + 16) n
        match parity with
        | some pipe => (s.pipeParity l pipe, f, St.poisoned, true)
        | none =>
          let g := setAt f (o + 16) ((Config.cipher k.alg.toNat false k.key nonce aad ct).take n)
          let good := decide (o + 32 ≤ p.pkt.stop) && Config.cipherTag k.alg.toNat k.key nonce aad ct == take0 f (o + 16 + n) 16
          if good then (s, g, St.ok, false) else (s.tagFail l, g, St.doNotTrust, false)

/-- A frame to send under an outbound SA (R436, R440): sealed, or the status with which it is not sent. -/
def State.espSeal (s : State) (l q part : Nat) (f : Bytes) (p : Parsed) (l4Csum : Bool) (parity : Option (Fin 16)) :
    State × Bytes × BitVec 8 :=
  match s.saOut l q with
  | none => (s, f, St.ok)
  | some (n, a) =>
    if p.pkt.proto ≠ 50 ∨ p.pkt.level = 0 ∨ p.frag then (s, f, St.ok)
    else
      let o := p.pkt.l4
      if take0 f o 4 ≠ a.spi ∨ l4Csum then (s, f, St.badParam)
      else if a.iv = 0xFFFFFFFFFFFFFFFF#64 then (s, f, St.noResource)
      else match s.key a.keyslot with
        | none => (s, f, St.stateError)
        | some k =>
          let len := f.length - (o + 32)
          let iv := beBytes 8 a.iv.toNat
          let s := (s.setSa n (some { a with iv := a.iv + 1 })).pipeOp l Cls.network part a.keyslot len
          match parity with
          | some pipe => (s.pipeParity l pipe, f, St.poisoned)
          | none =>
            let aad := take0 f o 8
            let ct := (Config.cipher k.alg.toNat true k.key (a.salt ++ iv) aad (take0 f (o + 16) len)).take len
            let g := setAt (setAt f (o + 8) iv) (o + 16) ct
            (s, setAt g (f.length - 16) ((Config.cipherTag k.alg.toNat k.key (a.salt ++ iv) aad ct).take 16), St.ok)

/-! ## Reception (R335, R342, R352) -/

/-- A frame for firmware enters the network processor's queue of 1,024 frames, or is dropped and counted (R342). How many frames
a running processor has taken since the last one came is its firmware's: free. DESIGN CHOICE (log 100). -/
def State.toFirmware (s : State) (h : Nat) (f : ClsFrame) : State :=
  let s := if s.fwState (fwpKey h 2) = Fw.running then
      (s.modClsOf h fun c => { c with fwq := c.fwq.drop (s.free 0 % (c.fwq.length + 1)) }).draw
    else s
  if 1024 ≤ (s.clsOf h).fwq.length then s.bump (Reg.CLS_FW_DROP h)
  else s.modClsOf h fun c => { c with fwq := c.fwq ++ [f] }

/-- A frame is delivered to a queue pair (R352): it takes the next posted buffer and a completion record, or is dropped. `desc` is what
the host returns for the receive descriptor. -/
def State.nicDeliver (s : State) (l q mark port ts : Nat) (f : Bytes) (p : Parsed) (desc : HostRead)
    (parity : Option (Fin 16)) (host record : HostWrite) : State :=
  match s.nicqp (qpKey l q) with
  | none => s.bump (Reg.NIC_RX_NOQP l)
  | some x =>
    if !s.qpRuns l x ∨ x.rxHead = x.rxTail ∨ !x.room then s.bump (Reg.NIC_RX_NOBUF l)
    else
      let part := match s.slice x.slice with
        | some y => y.part
        | none => 15
      let r := s.sliceRead x.slice (x.rxBase.toNat + 32 * x.rxHead.toNat) 32 desc
      let s := r.1.setNicqp (qpKey l q) (some { x with rxHead := BitVec.ofNat 16 ((x.rxHead.toNat + 1) % 2 ^ x.log2Rx) })
      let d := r.2.data
      let size := fieldAt d 8 4
      let o := s.espOpen l x.slice part f p parity
      let w : State × BitVec 8 :=
        if r.2.status ≠ St.ok then (s, r.2.status)
        else if r.2.poison then (s, St.poisoned)
        else if size < 64 ∨ 16384 < size ∨ (d.drop 12).take 4 ≠ List.replicate 4 0#8 ∨ fieldAt d 24 8 ≠ 0 then (s, St.badParam)
        else if size < f.length then
          -- the buffer's contents are undefined
          let junk := (List.range size).map fun i => BitVec.ofNat 8 (s.free i)
          (s.draw.hostPut l (some x.slice) (fieldAt d 0 8) junk false host, St.noResource)
        else
          let st := s.putStatus (s.sender l 3 (some x.slice)) host
          (o.1.hostPut l (some x.slice) (fieldAt d 0 8) o.2.1 o.2.2.2 host, if st = St.ok then o.2.2.1 else st)
      let csum := match p.pkt.l4Check f with
        | some true => 1
        | some false => 2
        | none => 0
      let bits := csum + (if p.tunnel then 4 else 0) + (if p.frag then 8 else 0) + (if p.pkt.csumBad then 16 else 0) +
        32 * (port % 8)
      let rec_ := (if r.2.poison then List.replicate 8 0#8 else take0 d 16 8) ++ leBytes 2 f.length ++ [0#8, w.2] ++ leBytes 2 mark ++
        [BitVec.ofNat 8 bits, 0#8] ++ leBytes 8 ts
      w.1.nicRecord l q rec_ record

/-- A frame that breaks its protocol is recorded (R335, R337, R342, R518). DESIGN CHOICE (log 104). -/
def State.badFrame (s : State) (p : Page) (port off : Nat) (f : Bytes) : State := s.partner p 3 port off f

/-- FRAME_RX (R335-R342, R348, R352, R441): a frame, with its FCS, has been received at a moment of its port's clock and of
the hub fabric clock. `overflow`: the port's ingress buffer had no room. `desc`: what the host returns for the receive
descriptor; `parity`: the pipe that reports a parity error; `data` and `record`: what becomes of
the writes of the frame and of its record. A frame that needs a descriptor while no tag is left waits (R299). -/
def execFrameRx (port : Fin 8) (frame : List (BitVec 8)) (now ts : Nat) (overflow : Bool) (desc : HostRead)
    (parity : Option (Fin 16)) (data record : HostWrite) (s : State) : Res := waitTag s (port.val / 4) 3 [desc] <|
  let h := port.val / 4
  if s.rd (Reg.ETH_LINK_STATE port) ≠ EthSt.up then .next s
  else
    let s := (s.hubNow h now).portNow port ts
    let n := frame.length
    let f := frame.take (n - 4)
    if n < 4 ∨ frame.drop (n - 4) ≠ fcs f then .next ((s.bump (Reg.ETH_RX_FCS_ERR port)).badFrame (ethPage port) port 0x78 f)
    else if n < 64 ∨ s.rd (Reg.ETH_CFG_MAX_FRAME port) < n then .next ((s.bump (Reg.ETH_RX_LEN_ERR port)).badFrame (ethPage port) port 0x7C f)
    else if be16 f 12 = 0x8808 then .next (s.bump (Reg.ETH_RX_PAUSE port))
    else if overflow then .next (s.bump (Reg.ETH_RX_OVF port))
    else
      let s := (s.step64 (Reg.ETH_RX_FRAMES_LO port)).step64 (Reg.ETH_RX_BYTES_LO port) n
      if s.st (clsPage h) ≠ PS.enabled then .next s
      else
        let p := parse f (s.rd (Reg.CLS_PARSE_SDT_PORT h)) (s.rd (Reg.CLS_PARSE_VXLAN_PORT h))
        let s := if p.pkt.malformed then s.badFrame (clsPage h) port 0x18 f else s
        let x := s.classify h (port.val % 4) (p.key f port) n now
        match x.2 with
        | .drop => .next x.1
        | .fw mark => .next (x.1.toFirmware h ⟨port, mark, f⟩)
        | .sdt mark =>
          if !p.sdt then .next ((x.1.bump (Reg.CLS_SDT_MISS h)).badFrame (clsPage h) port 0x60 f)
          else if !x.1.serving ⟨.sdt, h⟩ then .next x.1
          else .next (x.1.modClsOf h fun c => { c with sdtq := c.sdtq ++ [⟨port, mark, f⟩] })
        | .nic q mark => .next (x.1.nicDeliver h q mark port ts f p desc parity data record)

/-! ## Sending (R353) -/

/-- A fetched frame is offered to its lane: accepted, refused with NOT_PERMITTED, or held by the queue pair (R390, R391). -/
def State.nicOffer (s : State) (l q num : Nat) (f : Bytes) : State :=
  match s.nicqp (qpKey l q) with
  | none => s
  | some x =>
    let part := match s.slice x.slice with
      | some y => y.part
      | none => 15
    let r := s.offer l x.subq (s.qEntry l x.subq).home { bytes := f, owner := .nic (qpKey l q) num, part := part }
    let t := r.1
    match r.2 with
    | .accepted => t.setNicqp (qpKey l q) (some { x with wait := none })
    | .waits => t.setNicqp (qpKey l q) (some { x with wait := some (f, num) })
    | .refused =>
      t.setNicqp (qpKey l q) (some { x with
        wait := none
        sends := x.sends.map fun e => if e.slot = num then { e with status := some St.notPermitted } else e })

/-- NIC_TX_FETCH (R350, R353, R391, R440): the next send descriptor is fetched and its frame enqueued; a frame that its lane
has not accepted is offered again first. `desc` and `data` are what the host returns for the descriptor and the frame. -/
def execNicTxFetch (link : Fin 2) (qp : Fin 4096) (desc data : HostRead) (parity : Option (Fin 16)) (s : State) : Res :=
  waitTag s link 3 [desc, data] <|
  match s.nicqp (qpKey link qp) with
  | none => .next s
  | some x =>
    match x.wait with
    | some (f, num) => .next (s.nicOffer link qp num f)
    | none =>
      if !s.qpRuns link x ∨ x.txHead = x.txTail ∨ !x.room then .next s
      else
        let num := x.fetched
        let part := match s.slice x.slice with
          | some y => y.part
          | none => 15
        let r := s.sliceRead x.slice (x.txBase.toNat + 32 * x.txHead.toNat) 32 desc
        let d := r.2.data
        let len := fieldAt d 8 4
        let base := { x with fetched := num + 1, txHead := BitVec.ofNat 16 ((x.txHead.toNat + 1) % 2 ^ x.log2Tx) }
        let withSend (s : State) (cookie : Bytes) (n : Nat) (st : Option (BitVec 8)) : State :=
          s.setNicqp (qpKey link qp) (some { base with
            sends := x.sends ++ [{ slot := num, cookie := cookie, len := n, status := st }] })
        if r.2.status ≠ St.ok then .next (withSend r.1 (List.replicate 8 0#8) 0 (some r.2.status))
        else if r.2.poison then .next (withSend r.1 (List.replicate 8 0#8) 0 (some St.poisoned))
        else
          let s := r.1
          let cookie := take0 d 16 8
          let maxf := s.rd (Reg.ETH_CFG_MAX_FRAME (4 * link.val + (s.qEntry link x.subq).home))
          let flags := fieldAt d 12 1
          if len < 60 ∨ maxf - 4 < len ∨ 4 ≤ flags ∨ fieldAt d 13 3 ≠ 0 ∨ fieldAt d 24 8 ≠ 0 then
            .next (withSend (s.bump (Reg.NIC_TX_BAD link)) cookie len (some St.badParam))
          else
            let y := s.sliceRead x.slice (fieldAt d 0 8) len data
            if y.2.status ≠ St.ok then .next (withSend y.1 cookie len (some y.2.status))
            else if y.2.poison then .next (withSend y.1 cookie len (some St.poisoned))
            else
              let s := y.1
              let f := y.2.data
              let p := parse f (s.rd (Reg.CLS_PARSE_SDT_PORT link)) (s.rd (Reg.CLS_PARSE_VXLAN_PORT link))
              let z := s.espSeal link qp part f p (flags / 2 % 2 = 1) parity
              if z.2.2 ≠ St.ok then .next (withSend z.1 cookie len (some z.2.2))
              else
                let g := if flags % 2 = 1 then fillIp z.2.1 p.pkt else z.2.1
                let g := if flags / 2 % 2 = 1 then fillL4 g p.pkt else g
                .next ((withSend z.1 cookie len none).nicOffer link qp num (g ++ fcs g))

/-- NIC_TX_DONE (R351, R353): the record of the oldest send is written once its frame has left the port or is not sent. `host`: what
becomes of the write; a record that gets no translation is not written (R303). -/
def execNicTxDone (link : Fin 2) (qp : Fin 4096) (host : HostWrite) (s : State) : Res :=
  match s.nicqp (qpKey link qp) with
  | none => .next s
  | some x =>
    match x.sends with
    | [] => .next s
    | e :: rest =>
      match e.status with
      | none => .next s
      | some st =>
        if !s.qpRuns link x ∨ !x.room then .next s
        else
          let s := s.setNicqp (qpKey link qp) (some { x with sends := rest })
          .next (s.nicRecord link qp (e.cookie ++ leBytes 2 e.len ++ [1#8, st]) host)

end Sys2Proof.Machine
end

