-- ==== Sys2Proof/Machine/Nvme.lean ====
section
/-! DEFINITION. The NVMe controllers toward the hosts: queues, doorbells, admin commands, resets
(15_storage_controller.md R402-R407, R415, R418). -/
namespace Sys2Proof.Machine

/-! ## Status codes: SCT * 256 + SC, with DNR at bit 14, of the NVMe specifications R402 names -/

def Nv.ok : Nat := 0
def Nv.invalidOpcode : Nat := 0x001
def Nv.invalidField : Nat := 0x002
def Nv.transfer : Nat := 0x004
def Nv.internal : Nat := 0x006
def Nv.sqDeleted : Nat := 0x008
def Nv.invalidNs : Nat := 0x00B
def Nv.sequence : Nat := 0x00C
def Nv.prpOffset : Nat := 0x013
def Nv.lbaRange : Nat := 0x080
def Nv.nsNotReady : Nat := 0x082
def Nv.cqInvalid : Nat := 0x100
def Nv.qid : Nat := 0x101
def Nv.qsize : Nat := 0x102
def Nv.aerLimit : Nat := 0x105
def Nv.vector : Nat := 0x108
def Nv.logPage : Nat := 0x109
def Nv.qDeletion : Nat := 0x10C
def Nv.notChangeable : Nat := 0x10E
def Nv.writeFault : Nat := 0x280
def Nv.unrecovered : Nat := 0x281
def Nv.compare : Nat := 0x285
def Nv.dnr : Nat := 0x4000

/-- PF2 of a link. -/
def nvFn : Nat := 2

/-- The PASID of a queue number's binding (R406). -/
def State.nvSlice (s : State) (link qid : Nat) : Option Nat :=
  match (s.nvme link).getBind qid with
  | 0 => none
  | k + 1 => some k

/-- The queue's requests may be sent: PF2 masters its link, and the slice of a bound queue is not refused (R305, R325). -/
def State.nvSends (s : State) (link qid : Nat) : Bool :=
  s.fnMaster link nvFn && (match s.nvSlice link qid with
  | none => true
  | some k => s.sliceStatus k = St.ok)

def NvQ.exists_ (q : NvQ) : Bool := q.size != 0

/-- A completion queue has room for one entry more. -/
def NvQ.room (q : NvQ) : Bool := q.exists_ && (q.tail + 1) % q.size != q.head

/-- Posts a completion entry to the completion queue of a submission queue, and raises its vector; an error enters log 0x01
(R402, R405). `how` is what becomes of the write. PRESUMED (log 73). -/
def State.postCqe (s : State) (link sq : Nat) (cid : BitVec 16) (status dw0 : Nat) (how : HostWrite) : State :=
  let v := s.nvme link
  let q := v.getSqs sq
  let c := v.getCqs q.cq
  let e := leBytes 4 dw0 ++ leBytes 4 0 ++ leBytes 2 q.head ++ leBytes 2 sq ++ leBytes 2 cid.toNat ++
    leBytes 2 (status * 2 + (if c.phase then 1 else 0))
  let s := s.hostPut link (s.nvSlice link q.cq) (c.base.toNat + 16 * c.tail) e false how nvFn
  let wrap := c.tail + 1 = c.size
  let c' := { c with tail := if wrap then 0 else c.tail + 1, phase := if wrap then !c.phase else c.phase }
  let v := v.setCqs q.cq c'
  let v := if status = 0 then v
    else { v with errs := v.errs + 1, errlog := (⟨v.errs + 1, sq, cid, status⟩ :: v.errlog).take 64 }
  let s := s.setNvme link v
  if c.ien then s.vector link nvFn c.vector.toNat else s

/-- A command of a submission queue can be answered: the queue stands and its completion queue has room. -/
def State.canPost (s : State) (link sq : Nat) : Bool :=
  let v := s.nvme link
  (v.getSqs sq).exists_ && (v.getCqs (v.getSqs sq).cq).room && s.nvSends link (v.getSqs sq).cq

/-- Event of the asynchronous kind: type, information and log page (R404, R409). An event already waiting is not raised
twice. -/
def State.nvEvent (s : State) (link typ info lid : Nat) : State :=
  let ev := BitVec.ofNat 32 (typ + info * 256 + lid * 65536)
  let v := s.nvme link
  match v.aers with
  | (cid, how) :: rest =>
    if s.canPost link 0 then (s.setNvme link { v with aers := rest }).postCqe link 0 cid Nv.ok ev.toNat how
    else s.setNvme link { v with events := v.events ++ [ev] }
  | [] => if v.events.contains ev then s else s.setNvme link { v with events := v.events ++ [ev] }

/-- The host has not turned the notice of changed namespaces off: bit 8 of FID 0x0B (R405). -/
def Nvme.nsNotice (v : Nvme) : Bool := (v.getFeats 0x0B).getLsbD 8

/-- Namespace Attribute Changed, with the NSID in log 0x04 (R409, R424). -/
def State.nsChanged (s : State) (link nsid : Nat) : State :=
  let s := s.modNvme link fun v => if v.changed.contains nsid then v else { v with changed := v.changed ++ [nsid] }
  if (s.nvme link).nsNotice then s.nvEvent link 2 0 4 else s

/-- Controller serving commands: enabled, ready, its page serving, PF2 master enabled and not stalled (R305, R418). -/
def State.nvServes (s : State) (link : Nat) : Bool :=
  let v := s.nvme link
  let f := (s.link link).getFns nvFn
  v.en && v.rdy && f.bme && !f.d3 && s.st ⟨.nvc, link⟩ = PS.enabled && !v.shn && v.shst = 0#2

/-- An entry of a submission queue waits. -/
def State.sqWaits (s : State) (link sq : Nat) : Bool :=
  let q := (s.nvme link).getSqs sq
  q.exists_ && q.head != q.tail

/-- Takes the entry at the head of a submission queue. -/
def State.sqAdvance (s : State) (link sq : Nat) : State :=
  s.modNvme link fun v =>
    let q := v.getSqs sq
    v.setSqs sq { q with head := (q.head + 1) % q.size }

/-- NVC_SQS shows the I/O submission queues in existence (R425). -/
def State.showSqs (s : State) (link : Nat) : State :=
  s.wr (Reg.NVC_SQS link) ((s.nvme link).sqs.filter fun q => q.1 ≠ 0).length

/-- The storage processor of a link's hub runs: it serves admin commands (R455). -/
def State.adminRuns (s : State) (link : Nat) : Bool := s.fwState (fwpKey link 1) = Fw.running

/-! ## Doorbells (R403, R404) -/

/-- A doorbell that names no queue or a value outside its ring (R404, R425, R518). -/
def State.badDoorbell (s : State) (link info : Nat) : State :=
  (((s.bump (Reg.NVC_DB_ERR link)).err ⟨.nvc, link⟩ 16).partner ⟨.nvc, link⟩ 0 link 0x54 []).nvEvent link 0 info 1

/-- A doorbell write of a queue (R404): dropped and counted for a queue bound to a suspended slice (R325).
DEDUCED (log 109). -/
def State.nvDoorbell (s : State) (link : Nat) (cq : Bool) (qid value : Nat) : State :=
  let v := s.nvme link
  let suspended : Bool := match (s.nvSlice link qid).bind s.slice with
    | some x => x.suspended
    | none => false
  if !s.fnServes link nvFn then s.notServed link nvFn true
  else if suspended then s.unsupported link
  else if !v.rdy then s
  else
    let q := if cq then v.getCqs qid else v.getSqs qid
    if !q.exists_ then s.badDoorbell link 0
    else if q.size ≤ value then s.badDoorbell link 1
    else if cq then s.setNvme link (v.setCqs qid { q with head := value })
    else s.setNvme link (v.setSqs qid { q with tail := value })

/-- NVME_DOORBELL (R403, R404): a standard doorbell of queues 0-3,071. -/
def execNvmeDoorbell (link : Fin 2) (cq : Bool) (qid : Fin 3072) (value : BitVec 16) (s : State) : Res :=
  .next (s.nvDoorbell link cq qid value.toNat)

/-- NVC_IDB (R404): the indexed doorbell. -/
def execNvcIdb (link : Fin 2) (word : BitVec 32) (s : State) : Res :=
  .next (s.nvDoorbell link (word.getLsbD 31) (natBits word.toNat 16 15) (natBits word.toNat 0 16))

/-! ## Enable, disable, shutdown (R402, R418) -/

/-- NVME_CC_EN_SET (R402): the host enables the controller with its admin queues of at most 4,096 entries. -/
def execNvmeCcEnSet (link : Fin 2) (cc aqa : BitVec 32) (asq acq : BitVec 64) (s : State) : Res :=
  let v := s.nvme link
  if !s.fnServes link nvFn then .next (s.notServed link nvFn true)
  else if v.en ∨ s.st ⟨.nvc, link⟩ ≠ PS.enabled then .next s
  else
    let sq : NvQ := { NvQ.reset with base := asq, size := natBits aqa.toNat 0 12 + 1, cq := 0 }
    let cq : NvQ := { NvQ.reset with base := acq, size := natBits aqa.toNat 16 12 + 1, vector := 0#16, ien := true }
    let v := { v with en := true, rdy := true, shst := 0#2, shn := false, cc := cc ||| 1#32, aqa := aqa, asq := asq, acq := acq }
    .next (s.setNvme link ((v.setSqs 0 sq).setCqs 0 cq))

/-- Stops a controller and deletes its I/O queues (R418): commands not sent are gone, those with members outstanding keep
their lock entries and reach the host no more. Bindings stand. -/
def State.nvStop (s : State) (link : Nat) : State :=
  let v := s.nvme link
  let keep := v.cmds.filter fun c => !c.members.isEmpty || c.sq = moverSq
  let v := { v with
    en := false, rdy := false, shst := 0#2, shn := false, sqs := [], cqs := [], aers := [], events := [], stalled := false, feats := []
    cmds := keep.map fun c => if c.sq = moverSq then c else { c with dead := true } }
  ((s.setNvme link v).showSqs link).wr (Reg.NVC_LOCKS link) v.locksHeld

/-- NVME_CC_EN_CLEAR (R418). -/
def execNvmeCcEnClear (link : Fin 2) (s : State) : Res :=
  .next (if s.fnServes link nvFn then s.nvStop link else s.notServed link nvFn true)

/-! ## Admin commands (R405-R407, R415) -/

/-- Runs an admin command at the head of the admin queue: `f` gives the state, the status and Dword 0. One that is fused or names
SGLs is refused (R402). -/
def admin (link : Fin 2) (c : AdminCmd) (s : State) (f : State → State × Nat × Nat) : Res :=
  if !s.nvServes link ∨ !s.adminRuns link ∨ !s.sqWaits link 0 ∨ !s.canPost link 0 then .next s
  else
    let s := s.sqAdvance link 0
    let x := if c.flags = 0#8 then f s else (s, Nv.invalidField, 0)
    .next (x.1.postCqe link 0 c.cid x.2.1 x.2.2 c.writes.entry)

/-- A queue number the device has (R402). -/
def ioQid (q : Nat) : Bool := 1 ≤ q && q ≤ 16384

def AdminCmd.d10 (c : AdminCmd) (lo len : Nat) : Nat := natBits c.cdw10.toNat lo len
def AdminCmd.d11 (c : AdminCmd) (lo len : Nat) : Nat := natBits c.cdw11.toNat lo len
def AdminCmd.prp1 (c : AdminCmd) : BitVec 64 := c.prps.headD 0#64

/-- Checks of a queue's number, size, contiguity and base (R402). -/
def createStatus (c : AdminCmd) (there : Bool) : Nat :=
  if !ioQid (c.d10 0 16) ∨ there then Nv.qid
  else if c.d10 16 16 = 0 then Nv.qsize
  else if c.d11 0 1 = 0 then Nv.invalidField
  else if c.prp1.toNat % 4096 ≠ 0 then Nv.prpOffset
  else Nv.ok

/-- CREATE_IO_SQ (R405, R406). -/
def execCreateIoSq (link : Fin 2) (c : AdminCmd) (s : State) : Res :=
  admin link c s fun s =>
    let v := s.nvme link
    let qid := c.d10 0 16
    let cq := c.d11 16 16
    if cq = 0 ∨ !(v.getCqs cq).exists_ then (s, Nv.cqInvalid, 0)
    else
      let st := createStatus c (v.getSqs qid).exists_
      if st ≠ Nv.ok then (s, st, 0)
      else
        let q : NvQ := { NvQ.reset with base := c.prp1, size := c.d10 16 16 + 1, cq := cq }
        ((s.setNvme link (v.setSqs qid q)).showSqs link, Nv.ok, 0)

/-- CREATE_IO_CQ (R405, R406). -/
def execCreateIoCq (link : Fin 2) (c : AdminCmd) (s : State) : Res :=
  admin link c s fun s =>
    let v := s.nvme link
    let qid := c.d10 0 16
    let st := createStatus c (v.getCqs qid).exists_
    if st ≠ Nv.ok then (s, st, 0)
    else if c.d11 1 1 = 1 ∧ 2048 ≤ c.d11 16 16 then (s, Nv.vector, 0)
    else
      let q : NvQ := { NvQ.reset with
        base := c.prp1, size := c.d10 16 16 + 1, vector := BitVec.ofNat 16 (c.d11 16 16), ien := c.d11 1 1 = 1 }
      (s.setNvme link (v.setCqs qid q), Nv.ok, 0)

/-- Commands of a deleted submission queue: those not sent are aborted, the others run on unseen (R415, R418). -/
def State.dropSqCmds (s : State) (link qid : Nat) : State :=
  let v := s.nvme link
  let gone := v.cmds.filter fun c => c.sq = qid && c.members.isEmpty
  let s := gone.foldl (fun s c =>
    let s := if s.canPost link qid then s.postCqe link qid c.cid Nv.sqDeleted 0 c.writes.entry else s
    s.lockDrop link c.num) s
  s.modNvme link fun v => { v with cmds := v.cmds.map fun c => if c.sq = qid then { c with dead := true } else c }

/-- DELETE_IO_SQ (R405). -/
def execDeleteIoSq (link : Fin 2) (c : AdminCmd) (s : State) : Res :=
  admin link c s fun s =>
    let qid := c.d10 0 16
    if qid = 0 ∨ !((s.nvme link).getSqs qid).exists_ then (s, Nv.qid, 0)
    else ((((s.dropSqCmds link qid).modNvme link fun v => v.setSqs qid NvQ.reset)).showSqs link, Nv.ok, 0)

/-- DELETE_IO_CQ (R405): refused while a submission queue completes to it. -/
def execDeleteIoCq (link : Fin 2) (c : AdminCmd) (s : State) : Res :=
  admin link c s fun s =>
    let v := s.nvme link
    let qid := c.d10 0 16
    if qid = 0 ∨ !(v.getCqs qid).exists_ then (s, Nv.qid, 0)
    else if v.sqs.any (fun q => q.2.exists_ && q.2.cq = qid) then (s, Nv.qDeletion, 0)
    else (s.setNvme link (v.setCqs qid NvQ.reset), Nv.ok, 0)

/-- Writes data to the pages a data pointer names, from byte i behind its first page's offset on; poisoned data goes out with EP set
(R406, R417). -/
def State.toPrps (s : State) (link : Nat) (slice : Option Nat) (prps : List (BitVec 64)) (i : Nat) (bs : Bytes) (mark : Bool)
    (how : HostWrite) : State :=
  let start := (prps.headD 0#64).toNat % 4096 + i
  prps.zipIdx.foldl (fun s e =>
    let lo := max start (4096 * e.2)
    let hi := min (start + bs.length) (4096 * (e.2 + 1))
    if lo < hi then
      s.hostPut link slice (e.1.toNat / 4096 * 4096 + lo % 4096) ((bs.drop (lo - start)).take (hi - lo)) mark
        how nvFn
    else s) s

/-- Status of a command whose data went to the host: one that gets no translation has not been transferred (R303).
PRESUMED (log 73). -/
def State.putEnds (s : State) (link : Nat) (slice : Option Nat) (how : HostWrite) : Nat :=
  if s.putStatus (s.sender link nvFn slice) how = St.ok then Nv.ok else Nv.transfer

/-- Reads n bytes from the pages that a data pointer names (R303, R406). -/
def State.fromPrps (s : State) (link : Nat) (slice : Option Nat) (prps : List (BitVec 64)) (n : Nat) (h : HostRead) : State × RdRes :=
  let w := s.sender link nvFn slice
  (if h = .noTranslation then s else prps.foldl (fun s p => s.atsUse w p.toNat) s).hostReadEnd w n h

/-- Answers an admin command with data of n bytes. -/
def State.adminData (s : State) (link : Nat) (c : AdminCmd) (n : Nat) (d : Bytes) : State × Nat × Nat :=
  (s.toPrps link none c.prps 0 ((d ++ List.replicate (n - d.length) 0#8).take n) false c.writes.data,
   s.putEnds link none c.writes.data, 0)

/-- Puts bytes into a data structure at an offset. -/
def putAt (d : Bytes) (o : Nat) (bs : Bytes) : Bytes := d.take o ++ bs ++ d.drop (o + bs.length)

/-- n bytes the spec does not give. -/
def State.freeBytes (s : State) (n : Nat) : Bytes := (List.range n).map fun i => BitVec.ofNat 8 (s.free i)

/-- Namespaces a controller reports: those of partitions bound to its link (R402). -/
def State.nsOfLink (s : State) (link : Nat) : List (Nat × Ns) :=
  s.nss.filterMap fun e => match e.2 with
    | some n => if s.partHub n.part = link then some (e.1, n) else none
    | none => none

/-- GET_LOG_PAGE (R405): logs 0x01, 0x02 and 0x04. What a log holds beyond what the spec gives is free; reading log 0x04
empties it. -/
def execGetLogPage (link : Fin 2) (c : AdminCmd) (s : State) : Res :=
  admin link c s fun s =>
    let n := (c.d10 16 16 + c.d11 0 16 * 65536 + 1) * 4
    let v := s.nvme link
    let out (s : State) (d : Bytes) : State × Nat × Nat := s.adminData link c n d
    match c.d10 0 8 with
    | 1 =>
      -- error entries, newest first: error count, queue, command and status
      let d := (v.errlog.take 64).flatMap fun e =>
        putAt (s.freeBytes 64) 0 (leBytes 8 e.num ++ leBytes 2 e.sq ++ leBytes 2 e.cid.toNat ++ leBytes 2 (e.status * 2))
      out s.draw d
    | 2 => if c.nsid ≠ 0#32 ∧ c.nsid ≠ 0xFFFFFFFF#32 then (s, Nv.invalidField, 0) else out s.draw (s.freeBytes 512)
    | 4 => out (s.setNvme link { v with changed := [] }) (v.changed.flatMap fun x => leBytes 4 x)
    | _ => (s, Nv.logPage, 0)

/-- Identify Namespace (R411, R416). Bytes the spec does not give are free. -/
def State.identifyNs (s : State) (n : Ns) : Bytes :=
  let d := s.freeBytes 4096
  let d := putAt d 0 (leBytes 8 n.size ++ leBytes 8 n.size)
  let atoms := n.atom - 1
  -- NSFEAT bit 1, NLBAF 1, FLBAS the format
  let d := putAt d 24 [if n.volatile then 0#8 else 2#8, 1#8, if n.lbaf then 1#8 else 0#8]
  -- DLFEAT
  let d := putAt d 33 [if n.volatile then 1#8 else 0#8]
  let d := if n.volatile then d
    else putAt (putAt d 34 (leBytes 2 (2 ^ 21 / n.bs - 1) ++ leBytes 2 atoms)) 42 (leBytes 2 0 ++ leBytes 2 atoms)
  -- LBA formats 0 and 1: no metadata, 4,096 and 512 bytes
  let d := putAt (putAt d 130 [12#8]) 134 [9#8]
  putAt d 3072 [if n.volatile then 1#8 else 0#8]

/-- Identify Controller (R402): MDTS, CNTLID, VER and CNTRLTYPE; no OACS command, 8 AERs, 64 error entries, no Keep Alive and no
Sanitize; NN; Compare, Dataset Management and Write Zeroes alone of the optional commands, nothing fused, VWC, no SGLs. Bytes the
spec does not give are free. DEDUCED (log 72). -/
def State.identifyCtrl (s : State) (link : Nat) : Bytes :=
  let fields : List (Nat × Bytes) :=
    [(77, [9#8]), (78, leBytes 2 (link + 1) ++ leBytes 4 0x00020000), (111, [1#8]), (256, leBytes 2 0), (259, [7#8]), (262, [63#8]),
     (320, leBytes 2 0), (328, leBytes 4 0), (516, leBytes 4 1024), (520, leBytes 2 0x000D), (522, leBytes 2 0), (525, [1#8]),
     (536, leBytes 4 0)]
  fields.foldl (fun d f => putAt d f.1 f.2) (s.freeBytes 4096)

/-- IDENTIFY (R405): CNS 0x00 to 0x03. -/
def execIdentify (link : Fin 2) (c : AdminCmd) (s : State) : Res :=
  admin link c s fun s =>
    let ns := s.nsOfLink link
    let id := c.nsid.toNat
    let out (s : State) (d : Bytes) : State × Nat × Nat := s.adminData link c 4096 d
    match c.d10 0 8 with
    | 0 =>
      if id = 0 ∨ 1024 < id then (s, Nv.invalidNs, 0)
      else match ns.find? (fun e => e.1 = id) with
        | some e => out s.draw (s.identifyNs e.2)
        | none => out s []
    | 1 => out s.draw (s.identifyCtrl link)
    | 2 =>
      if 0xFFFFFFFE ≤ id then (s, Nv.invalidNs, 0)
      else out s ((ns.filter fun e => id < e.1).flatMap fun e => leBytes 4 e.1)
    | 3 =>
      if ns.any fun e => e.1 = id then out s.draw (s.freeBytes 4096) else (s, Nv.invalidNs, 0)
    | _ => (s, Nv.invalidField, 0)

/-- NVME_ABORT (R415): not aborted. -/
def execNvmeAbort (link : Fin 2) (c : AdminCmd) (s : State) : Res := admin link c s fun s => (s, Nv.ok, 1)

/-- Key under which the value of a feature stands: Interrupt Vector Configuration has one for each vector (R405). -/
def featKey (fid : Nat) (cdw11 : BitVec 32) : Nat := if fid = 0x09 then 0x100 + natBits cdw11.toNat 0 16 else fid

/-- SET_FEATURES (R405). -/
def execSetFeatures (link : Fin 2) (c : AdminCmd) (s : State) : Res :=
  admin link c s fun s =>
    let fid := c.d10 0 8
    match fid with
    | 0x01 => (s, Nv.notChangeable, 0)
    | 0x06 => (s, Nv.notChangeable, 0)
    | 0x07 => (s, Nv.ok, 16383 + 16383 * 65536)
    | _ =>
      if fid = 0x08 ∨ fid = 0x09 ∨ fid = 0x0B then (s.modNvme link fun v => v.setFeats (featKey fid c.cdw11) c.cdw11, Nv.ok, 0)
      else (s, Nv.invalidField, 0)

/-- GET_FEATURES (R402, R405): round robin without weights, write cache enabled, 16,384 queues of each kind. -/
def execGetFeatures (link : Fin 2) (c : AdminCmd) (s : State) : Res :=
  admin link c s fun s =>
    let fid := c.d10 0 8
    match fid with
    | 0x01 => (s.draw, Nv.ok, s.free 0 % 8)
    | 0x06 => (s, Nv.ok, 1)
    | 0x07 => (s, Nv.ok, 16383 + 16383 * 65536)
    | _ =>
      if fid = 0x08 ∨ fid = 0x09 ∨ fid = 0x0B then (s, Nv.ok, ((s.nvme link).getFeats (featKey fid c.cdw11)).toNat)
      else (s, Nv.invalidField, 0)

/-- ASYNCHRONOUS_EVENT_REQUEST (R405): up to 8 wait; an event that waits completes one at once. -/
def execAsynchronousEventRequest (link : Fin 2) (c : AdminCmd) (s : State) : Res :=
  if !s.nvServes link ∨ !s.adminRuns link ∨ !s.sqWaits link 0 ∨ !s.canPost link 0 then .next s
  else
    let s := s.sqAdvance link 0
    let v := s.nvme link
    let how := c.writes.entry
    if c.flags ≠ 0#8 then .next (s.postCqe link 0 c.cid Nv.invalidField 0 how)
    else if 8 ≤ v.aers.length then .next (s.postCqe link 0 c.cid Nv.aerLimit 0 how)
    else match v.events with
      | e :: rest => .next ((s.setNvme link { v with events := rest }).postCqe link 0 c.cid Nv.ok e.toNat how)
      | [] => .next (s.setNvme link { v with aers := v.aers ++ [(c.cid, how)] })

/-- Bitmap of the namespaces of a partition (R407). -/
def State.partNs (s : State) (p : Nat) : BitVec 1024 :=
  s.nss.foldl (fun m e => match e.2 with
    | some n => if n.part = p ∧ 0 < e.1 then m ||| (1#1024 <<< (e.1 - 1)) else m
    | none => m) 0#1024

/-- QP_BIND (R406): binds or unbinds a queue number. -/
def execQpBind (link : Fin 2) (c : AdminCmd) (s : State) : Res :=
  admin link c s fun s =>
    let v := s.nvme link
    let qid := c.d10 0 16
    let k := c.d11 0 8
    if (v.getSqs qid).exists_ ∨ (v.getCqs qid).exists_ then (s, Nv.sequence, 0)
    else if !ioQid qid then (s, Nv.invalidField, 0)
    else if c.d11 31 1 = 1 then
      (s.setNvme link ((v.setBind qid 0).setMasks qid (BitVec.allOnes 1024)), Nv.ok, 0)
    else match s.slice k with
      | some x =>
        if x.func = 2 ∧ s.partHub x.part = link ∧ x.dying.isNone then
          (s.setNvme link ((v.setBind qid (k + 1)).setMasks qid (s.partNs x.part)), Nv.ok, 0)
        else (s, Nv.invalidField, 0)
      | none => (s, Nv.invalidField, 0)

/-- NS_MASK (R407): `read` is what the host's memory returns for the bitmap that the command's PRP names. -/
def execNsMask (link : Fin 2) (c : AdminCmd) (read : HostRead) (s : State) : Res :=
  waitTag s link nvFn [read] <| admin link c s fun s =>
    let r := s.fromPrps link none c.prps 128 read
    let s := r.1
    let map := BitVec.ofNat 1024 (leNat r.2.data)
    let v := s.nvme link
    let qid := c.d10 0 16
    let outside : Bool := match v.getBind qid with
      | 0 => false
      | k + 1 => match s.slice k with
        | some x => (map &&& ~~~ s.partNs x.part) != 0#1024
        | none => true
    if r.2.status ≠ St.ok ∨ r.2.poison then (s, Nv.transfer, 0)
    else if !ioQid qid ∨ outside then (s, Nv.invalidField, 0)
    else (s.setNvme link (v.setMasks qid map), Nv.ok, 0)

end Sys2Proof.Machine
end

