-- ==== Sys2Proof/Machine/Endpoints.lean ====
section
/-! DEFINITION. The functions of a host link: bus mastering, function level reset, power states, configuration writes, and
the link's own coming and going (10_host_link.md R284-R310; 17_firmware_processors.md R474-R476). -/
namespace Sys2Proof.Machine

/-! ## Completion timeout (R300) -/

/-- The value, in microseconds, that a Device Control 2 range selects. -/
def ctoOf (range : BitVec 4) : Nat :=
  match range with
  | 0b0001#4 => 80
  | 0b0010#4 => 8000
  | 0b0101#4 => 50000
  | 0b0110#4 => 200000
  | 0b1001#4 => 800000
  | 0b1010#4 => 3000000
  | 0b1101#4 => 12000000
  | 0b1110#4 => 60000000
  | _ => 40000

/-- PCE_CTO shows the value in force: 8 ms before START and under FORCE_A (R300, R486). -/
def State.updateCto (s : State) (l : Nat) : State :=
  let forced := !s.bru.started || s.on (Reg.PCE_CTL_FORCE_A l)
  s.wr (Reg.PCE_CTO l) (if forced then 8000 else ctoOf (s.link l).ctoRange)

/-! ## Engines of a function -/

/-- The queues of a function show MASTER_DISABLED while it may not master its link, and their status clears as they
resume; a stopped queue keeps its own status (R305). -/
def State.showStall (s : State) (l fn : Nat) : State :=
  let f := (s.link l).getFns fn
  let st := if f.bme && !f.d3 then St.ok else St.masterDisabled
  match fn with
  | 1 => { s with jobqs := SMap.mapVals (fun _ => none) (fun k q => match q, s.slice (k / 16) with
      | some q, some x => some (if s.partHub x.part = l ∧ !q.error then { q with status := st } else q)
      | q, _ => q) s.jobqs }
  | 3 => { s with nicqps := SMap.mapVals (fun _ => none) (fun k q => match q with
      | some q => some (if k / 4096 = l ∧ !q.error then { q with status := st } else q)
      | none => none) s.nicqps }
  | 2 => s.modNvme l fun v => { v with status := st }
  | _ => s

/-- What waits for a function to master its link goes out: MSI-X messages, and the mirrored log of PF0 (R289, R305, R467). -/
def State.flushFn (s : State) (l fn : Nat) : State :=
  let s := s.flushPba l fn
  if fn = 0 then s.flushMirrors l else s

/-- BME_CLEAR (R305): a function issues no new request and its engines stall; on PF0 and PF1 it is also a driver loss
(R474). -/
def execBmeClear (link : Fin 2) (fn : Fin 4) (s : State) : Res :=
  let s := (s.modLink link fun k => k.setFns fn { k.getFns fn with bme := false }).showStall link fn
  .next (if fn.val < 2 then s.driverLoss link Loss.bme else s)

/-- BME_SET (R305): the stalled engines resume where they stopped, and waiting MSI-X messages go out (R289). -/
def execBmeSet (link : Fin 2) (fn : Fin 4) (s : State) : Res :=
  .next (((s.modLink link fun k => k.setFns fn { k.getFns fn with bme := true }).showStall link fn).flushFn link fn)

/-- The tags of a function are abandoned and quarantined; a requester that waited for one is answered with poison, as it
gets no completion (R301, R306). DEDUCED (log 56). -/
def State.abandonTags (s : State) (l fn : Nat) : State :=
  let ts := (s.link l).tags.filter fun t => t.fn = fn && !t.quar
  let s := ts.foldl (fun s t => match t.req with
    | .read r _ n => s.out (.reply r St.ok (List.replicate n 0#8) true)
    | .none => s) s
  let cto := s.rd (Reg.PCE_CTO l)
  s.modLink l fun k => { k with tags := k.tags.map fun t =>
    if t.fn = fn && !t.quar then { t with quar := true, flr := true, req := .none, cto := cto } else t }

/-- PF0 loses its mailboxes, its MSI-X table and its pending sources; a command under way completes without a reply (R306, R459).
DEDUCED (log 57). -/
def State.resetPf0 (s : State) (l : Nat) : State :=
  let p := pcePage l
  let regs := (List.range 64).foldl (fun m v => (List.range 4).foldl (fun m w => SMap.del m (p.base + 0x800 + 16 * v + 4 * w)) m)
    (SMap.del (SMap.del s.regs (p.base + 0xC00)) (p.base + 0xC04))
  let s := { s with regs := regs }
  let s := (List.range 128).foldl (fun s k =>
    if s.rd (Reg.MBX_STAT_LINK k) = l ∧ !(s.mbx k).mctp then
      let b := (mbxPage k).base
      { s with regs := SMap.del (SMap.del (SMap.del (SMap.del s.regs (b + 0x40)) (b + 0x44)) (b + 0x48)) (b + 0x4C) }.setMbx k
        Mbx.reset
    else s) s
  let s := s.wr (Reg.PCE_INTX_PEND l) 0
  let clear (k : Link) : Link :=
    { k with intDis := false, intxMbx := 0#64, ctoRange := 0#4, ideEn := 0#2, bar2Log2 := SMap.del k.bar2Log2 0 }
  (s.modLink l clear).updateInta l

/-- PF1's job queues are destroyed and its doorbell pages cleared; the records staged for them stay held for the returning driver (R306, R476). -/
def State.resetPf1 (s : State) (l : Nat) : State :=
  let gone (q : JobQ) : JobQ :=
    { q with kept := false, sqTail := 0#16, cqHead := 0#16, sqHead := 0#16, error := false, status := 0#8 }
  let f (k : Nat) (q : Option JobQ) : Option JobQ := match q, s.slice (k / 16) with
    | some q, some x => some (if s.partHub x.part = l then gone q else q)
    | q, _ => q
  let here (k : Nat) : Bool := match s.slice (k / 32) with
    | some x => s.partHub x.part = l
    | none => false
  let s := { s with jobqs := SMap.mapVals (fun _ => none) f s.jobqs, doorbells := SMap.keep (fun k => !here k) s.doorbells }
  s.modLink l fun k => { k with bar2Log2 := SMap.del k.bar2Log2 1 }

/-- What a function loses by an FLR or by PERST: its configuration, its tags, and its queues (R306, R418, R349). -/
def State.resetFn (s : State) (l fn : Nat) : State :=
  let s := s.abandonTags l fn
  let rid := ((s.link l).getFns fn).rid
  let s := s.modLink l fun k => k.setFns fn { Fn.reset with rid := rid }
  match fn with
  | 0 => (s.resetPf0 l).updateCto l
  | 1 => s.resetPf1 l
  | 2 => (s.nvStop l).modNvme l fun v => { v with cc := 0#32, aqa := 0#32, asq := 0#64, acq := 0#64 }
  | _ => s.dropQps l none

/-- FLR (R306): the function stops, loses its queues and answers configuration requests again; on PF0 and PF1 it is also a
driver loss. PME_En and PME_Status of PF0 are cleared with the rest of its configuration space; PERST leaves them, since the
device wakes the host from D3cold by them (R307). DEDUCED (log 57). -/
def execFlr (link : Fin 2) (fn : Fin 4) (s : State) : Res :=
  let s := s.resetFn link fn
  let s := if fn.val = 0 then s.modLink link fun k => { k with pmeEn := false, pmeStatus := false } else s
  .next (if fn.val < 2 then s.driverLoss link Loss.flr else s)

/-! ## Power states (R307) -/

/-- D3HOT_ENTRY (R307): only configuration requests are served, and the engines behave as with Bus Master Enable clear. -/
def execD3hotEntry (link : Fin 2) (fn : Fin 4) (s : State) : Res :=
  .next ((s.modLink link fun k => k.setFns fn { k.getFns fn with d3 := true }).showStall link fn)

/-- D3HOT_EXIT (R307): memory requests are served again and the engines resume. -/
def execD3hotExit (link : Fin 2) (fn : Fin 4) (s : State) : Res :=
  .next (((s.modLink link fun k => k.setFns fn { k.getFns fn with d3 := false }).showStall link fn).flushFn link fn)

/-! ## The link (R307, R310) -/

/-- PCE_LINK shows no link. -/
def State.linkGone (s : State) (l : Nat) : State :=
  ((((s.modLink l fun k => { k with up := false }).wr (Reg.PCE_LINK_UP l) 0).wr (Reg.PCE_LINK_FLIT l) 0).wr
    (Reg.PCE_LINK_WIDTH l) 0).wr (Reg.PCE_LINK_SPEED l) 0

/-- PERST_ASSERT (R307): all four functions reset as by FLR, and the link goes down. -/
def execPerstAssert (link : Fin 2) (s : State) : Res :=
  let s := { s with pins := { s.pins with perst := s.pins.perst ||| (1#2 <<< link.val) } }.linkGone link
  let s := s.modLink link fun k => { k with training := false, ats := [] }
  let s := s.driverLoss link Loss.perst
  let s := (List.range 4).foldl (fun s f => s.resetFn link f) s
  .next ((s.modLink link fun k => { k with inta := false }).wr (Reg.PCE_INTX_LEVEL link) 0)

/-- A link may train: its PERST is released, its reference clock runs and its supply is good (R307, R572, R579). -/
def State.linkMayTrain (s : State) (l : Nat) : Bool :=
  !s.pins.perst.getLsbD l && s.pins.refclk.getLsbD (1 + l) && !s.pins.lostGroups.getLsbD 15

/-- PERST_RELEASE (R307): the link trains again. -/
def execPerstRelease (link : Fin 2) (s : State) : Res :=
  let s := { s with pins := { s.pins with perst := s.pins.perst &&& ~~~(1#2 <<< link.val) } }
  .next (s.modLink link fun k => { k with training := s.linkMayTrain link })

/-- PCIE_LINK_UP (R307, R310): the link reaches L0 with a width, a speed and a mode; WAKE_N is released. -/
def execPcieLinkUp (link : Fin 2) (width : Fin 5) (speed : Fin 6) (flit : Bool) (s : State) : Res :=
  if !(s.link link).training ∨ !s.linkMayTrain link then .next s
  else
    let s := s.modLink link fun k => { k with up := true, training := false }
    let s := (((s.wr (Reg.PCE_LINK_UP link) 1).wr (Reg.PCE_LINK_FLIT link) (if flit then 1 else 0)).wr
      (Reg.PCE_LINK_WIDTH link) (2 ^ width.val)).wr (Reg.PCE_LINK_SPEED link) (speed.val + 1)
    let s := if s.pins.wake then { s with pins := { s.pins with wake := false } }.out (.wake false) else s
    .next ((List.range 4).foldl (fun s f => s.flushFn link f) (s.updateInta link))

/-- The link leaves L0 or L1 of itself: LINK_DOWN, and it trains again (R310). -/
def State.linkDown (s : State) (l : Nat) : State :=
  if !(s.link l).up then s
  else
    let s := s.linkGone l
    (s.modLink l fun k => { k with training := s.linkMayTrain l }).err (pcePage l) 20

/-- PCIE_LINK_DOWN (R310). -/
def execPcieLinkDown (link : Fin 2) (s : State) : Res := .next (s.linkDown link)

/-! ## Configuration writes -/

/-- CONFIGURATION_WRITE (R284, R285, R289, R291, R300, R307, R489): a write of the host to configuration space. Before
ROM_CHECK has finished it is answered with Configuration Request Retry Status (R480). -/
def execConfigurationWrite (link : Fin 2) (w : CfgWrite) (s : State) : Res :=
  if !(s.link link).up ∨ !(s.link link).configReady then .next s
  else
    let modFn (fn : Nat) (f : Fn → Fn) : State := s.modLink link fun k => k.setFns fn (f (k.getFns fn))
    match w with
    | .ctoRange v => .next ((s.modLink link fun k => { k with ctoRange := v }).updateCto link)
    | .msixEnable fn on =>
      let t := (modFn fn fun f => { f with msixEn := on }).flushPba link fn
      .next (if fn = 0 then t.updateInta link else t)
    | .interruptDisable on => .next ((s.modLink link fun k => { k with intDis := on }).updateInta link)
    | .pmeEnable on => .next (s.modLink link fun k => { k with pmeEn := on })
    | .pmeStatusClear => .next (s.modLink link fun k => { k with pmeStatus := false })
    | .retrainLink => .next (s.linkDown link)
    | .bar2Size fn n =>
      let lo := if fn = 0 then 30 else 36
      let hi := if fn = 0 then 40 else 41
      if lo ≤ n ∧ n ≤ hi then .next (s.modLink link fun k => k.setBar2Log2 fn n) else .next s
    | .atsEnable fn on => if fn = 0 then .next s else .next (modFn fn fun f => { f with atsEn := on })
    | .maxPayload fn v => if v.toNat ≤ 2 then .next (modFn fn fun f => { f with mps := v }) else .next s
    | .maxReadRequest fn v => if v.toNat ≤ 5 then .next (modFn fn fun f => { f with mrrs := v }) else .next s
    | .tag10 fn on => .next (modFn fn fun f => { f with tag10 := on })
    | .tag14 fn on => .next (modFn fn fun f => { f with tag14 := on })
    | .ecrc fn generate check => .next (modFn fn fun f => { f with ecrcGen := generate, ecrcChk := check })
    | .aspm fn l1 => .next (modFn fn fun f => { f with aspmL1 := l1 })
    | .ideStream stream on =>
      let m := 1#2 <<< stream.val
      .next (s.modLink link fun k => { k with ideEn := if on then k.ideEn ||| m else k.ideEn &&& ~~~m })

/-- RID_CHANGE (R325): a function captures another bus and device number; slices whose RID no longer matches are
suspended. -/
def execRidChange (link : Fin 2) (fn : Fin 4) (rid : BitVec 16) (s : State) : Res :=
  let r := (rid &&& 0xFFF8#16) ||| BitVec.ofNat 16 fn
  let s := s.modLink link fun k => k.setFns fn { k.getFns fn with rid := r }
  .next { s with slices := SMap.mapVals (fun _ => none) (fun _ x => match x with
    | some x => some (if s.partHub x.part = link ∧ x.func = fn ∧ x.rid ≠ r then { x with suspended := true } else x)
    | none => none) s.slices }

end Sys2Proof.Machine
end

