-- ==== Sys2Proof/Machine/Stub.lean ====
section
/-! DEFINITION. The boot stub of a core (R172-R175, R497). -/
namespace Sys2Proof.Machine

/-- The partition that holds the memory a byte lies in, from 12 on for none (R175, R312). -/
def State.holderOf (s : State) (a : Nat) : Nat :=
  match s.tgt a with
  | .hbm _ u => s.unitPart u
  | .t2 u => s.unitPart (80 + u)
  | .pool gc => s.clusterPart gc
  | .dmem lc _ => s.clusterPart (lc / 16)
  | .sram h off => s.granulePart h (off / 2 ^ 18)
  | _ => 15

/-- A byte lies in the memory that a partition holds. A cluster of no partition passes every byte that no partition holds
(R175, R497). -/
def State.heldBy (s : State) (part a : Nat) : Bool :=
  if part < 12 then s.holderOf a = part else 12 ≤ s.holderOf a

/-- The first byte of a range in each page of 4 KiB it touches. What holds a byte, and what kind of memory it is, changes only
at multiples of 4 KiB. -/
def pageStarts (a n : Nat) : List Nat :=
  if n = 0 then [] else (List.range ((a + n - 1) / 4096 - a / 4096 + 1)).map fun i => max a ((a / 4096 + i) * 4096)

/-- Every byte of a range lies in the memory a partition holds. -/
def State.rangeHeld (s : State) (part a n : Nat) : Bool := (pageStarts a n).all fun b => s.heldBy part b

/-- Some byte of a range lies in memory that answers UNIT_ABSENT. -/
def State.rangeAbsent (s : State) (a n : Nat) : Bool := (pageStarts a n).any fun b => s.targetAbsent b (s.tgt b)

/-- Every byte of a range lies in tier 1, tier 2 or hub SRAM (R175). -/
def State.inTiers (s : State) (a n : Nat) : Bool :=
  (pageStarts a n).all fun b => match s.tgt b with
    | .hbm _ _ => true
    | .t2 _ => true
    | .sram _ _ => true
    | _ => false

/-- An entry of the image table (R174). -/
structure ImageEntry where
  codeAddr : Nat
  codeBytes : Nat
  codeCrc : Nat
  dataAddr : Nat
  dataBytes : Nat
  dataCrc : Nat
  deriving DecidableEq, Repr

def ImageEntry.ofBytes (e : Bytes) : ImageEntry :=
  ⟨fieldAt e 0 8, fieldAt e 8 4, fieldAt e 12 4, fieldAt e 16 8, fieldAt e 24 4, fieldAt e 28 4⟩

/-- A size, alignment or zero field breaks R174. -/
def ImageEntry.bad (e : ImageEntry) : Bool :=
  e.codeBytes < 4 || 131072 < e.codeBytes || e.codeBytes % 4 ≠ 0 || 2 ^ 48 ≤ e.codeAddr || 1048576 < e.dataBytes ||
    e.dataBytes % 16 ≠ 0 || (e.dataBytes ≠ 0 && 2 ^ 48 ≤ e.dataAddr)

/-- The program state of R142 as the stub hands over; move channels and queues are those of a core that has run
nothing. -/
def Core.handOver (c : Core) (status : BitVec 8) : Core := { Core.reset with bootStatus := status, run := c.run }

/-- A failure of the stub (R172, R175). -/
def State.bootFail (s : State) (p : Nat) (status : BitVec 8) : State :=
  (s.modCore p fun c => { c with bootStatus := status, run := .bootFailed }).err ⟨.cor, p⟩ 17 Sev.corrected
    (s.clusterPart (p / 18))

/-- The syllables of a code image in the instruction store, and 0xFFFF_FFFF in every other one (R175). -/
def State.loadStore (s : State) (p : Nat) (code : Bytes) : State :=
  s.writeHome (istoreKey p 0) (code ++ List.replicate (131072 - code.length) 0xFF#8) false

/-- The status of a read that must deliver clean data. -/
def RdRes.whole (r : RdRes) : BitVec 8 := if r.status ≠ St.ok then r.status else if r.poison then St.poisoned else St.ok

/-- The stub of a core in RUN = STUB fetches and checks its images and hands over, PAUSED at PC 0 when a pause is
requested, or fails boot (R172, R175). The stub reads as firmware does; the spec checks its rights as listed. -/
def State.stubRun (s : State) (gc slot : Nat) : State :=
  let p := slotKey gc slot
  if (s.core p).run ≠ .stub then s
  else
    let base := s.rd (Reg.CLU_FW_BASE_LO gc) + s.rd (Reg.CLU_FW_BASE_HI gc) * 2 ^ 32
    if base = 0 ∨ base % 32 ≠ 0 then (s.bootFail p St.badParam)
    else
      let k := match s.lcOf gc slot with
        | some lc => lc % 16
        | none => s.free 0 % 16
      let r : Req := .fwp 0 0
      let x := s.readMem r (base + 32 * k) 32
      if x.2.whole ≠ St.ok then (x.1.bootFail p x.2.whole)
      else
        let s := x.1
        let e := ImageEntry.ofBytes x.2.data
        let part := s.clusterPart gc
        if !(s.rangeHeld part e.codeAddr e.codeBytes && s.rangeHeld part e.dataAddr e.dataBytes) then
          (s.bootFail p St.notPermitted)
        else if e.bad ∨ !s.inTiers e.codeAddr e.codeBytes ∨ (e.dataBytes ≠ 0 ∧ !s.inTiers e.dataAddr e.dataBytes) then
          (s.bootFail p St.badParam)
        else
          let c := s.readMem r e.codeAddr e.codeBytes
          if c.2.whole ≠ St.ok then (c.1.bootFail p c.2.whole)
          else
            let s := c.1.loadStore p c.2.data
            if crc32c c.2.data ≠ BitVec.ofNat 32 e.codeCrc then (s.bootFail p St.authFail)
            else
              let d := if e.dataBytes = 0 then (s, (⟨St.ok, [], false⟩ : RdRes)) else s.readMem r e.dataAddr e.dataBytes
              if d.2.whole ≠ St.ok then (d.1.bootFail p d.2.whole)
              else
                let s := d.1.dmemWrite p 0 d.2.data false
                if e.dataBytes ≠ 0 ∧ crc32c d.2.data ≠ BitVec.ofNat 32 e.dataCrc then (s.bootFail p St.authFail)
                else
                  let run : RunState := if s.pauseRequested gc slot then .paused else .running
                  (s.modCore p fun c => { c.handOver St.ok with run := run, pausing := decide (s.st ⟨.cor, p⟩ = PS.draining) })

/-- STUB_RUN (R172, R175): the boot stub of a core runs. -/
def execStubRun (gc : Fin 160) (slot : Fin 18) (s : State) : Res := .next (s.stubRun gc slot)

end Sys2Proof.Machine
end

