-- ==== Sys2Proof/Machine/Lantern.lean ====
section
/-! DEFINITION. Lantern: set-up, cut, granule copies with their holds, manifests and restore
(20_lantern_snapshots.md R530-R546). -/
namespace Sys2Proof.Machine

def snpPage (h : Nat) : Page := ⟨.snp, h⟩

/-- SNP_STATE.STATE (R546). -/
def SnapSt.none : Nat := 0
def SnapSt.idle : Nat := 1
def SnapSt.waitCut : Nat := 2
def SnapSt.copying : Nat := 3
def SnapSt.restoring : Nat := 4

def State.snapSt (s : State) (p : Nat) : Nat := s.rd (Reg.SNP_STATE_STATE (s.partHub p) p)
def State.setSnapSt (s : State) (p st : Nat) : State := s.wr (Reg.SNP_STATE_STATE (s.partHub p) p) st

/-- A snapshot of the partition runs. -/
def State.snapRuns (s : State) (p : Nat) : Bool := s.snapSt p = SnapSt.waitCut || s.snapSt p = SnapSt.copying

/-! ## Fields of the set-up and of the running snapshot (R532, R534, R544) -/

def Snap.c (x : Snap) (o n : Nat) : Nat := fieldAt x.cfg o n
def Snap.t (x : Snap) (o n : Nat) : Nat := fieldAt x.take o n

def Snap.dedup (x : Snap) : Bool := x.c 1 1 % 2 = 1
def Snap.autoOn (x : Snap) : Bool := x.c 1 1 / 2 % 2 = 1
def Snap.steps (x : Snap) : Bool := x.c 1 1 / 4 % 2 = 1
def Snap.member (x : Snap) : Nat := x.c 2 1 % 16
def Snap.step (x : Snap) : Nat := x.c 4 2 % 2 ^ 15
def Snap.release (x : Snap) : Nat := x.c 6 2 % 2 ^ 15
def Snap.done (x : Snap) : Nat := x.c 8 2 % 2 ^ 15

/-- A background cut at the next advance of STEP (R534, R544). -/
def Snap.next (x : Snap) : Bool := x.auto || x.t 3 1 % 2 = 1

/-- Manifest address, its bytes, and the first of its store slots with their number. Automatic snapshots use two areas in
turn (R532, R544). DEDUCED (log 70). -/
def Snap.area (x : Snap) : Nat × Nat × Nat × Nat :=
  if x.auto then
    let half := if x.autoHalf then 1 else 0
    (x.c 40 8 + half * x.c 48 4, x.c 48 4, x.c 52 4 + half * x.c 56 4, x.c 56 4)
  else (x.t 24 8, x.t 32 4, x.t 36 4, x.t 40 4)

/-- SHARD, SHARDS and SET of the last SNAP_TAKE, or 0, 1 and 0 (R544). -/
def Snap.shard (x : Snap) : Nat × Nat × Nat := if x.take.isEmpty then (0, 1, 0) else (x.t 8 4, x.t 12 4, x.t 16 8)

/-- A scope bit of the running snapshot (R530). -/
def Snap.has (x : Snap) (b : Nat) : Bool := x.scope.getLsbD b

/-! ## Granules (R530, R531) -/

/-- SOURCE of core-state part k of a logical core, and of a cluster's beacons (R541). -/
def coreSource (lc part : Nat) : Nat := 2 ^ 48 + part * 2 ^ 16 + lc
def beaconSource (gc : Nat) : Nat := 2 ^ 49 + gc

/-- A piece of 4 KiB of a granule lies in units of the partition. -/
def State.granuleIn (s : State) (p g : Nat) : Bool := (List.range 16).any fun j => s.heldBy p (g * 65536 + 4096 * j)

/-- The granules of memory in scope that the homes arm, in ascending fabric address (R530, R535). -/
def State.armGranules (s : State) (p : Nat) (scope : BitVec 8) : List Nat :=
  let on (b : Nat) (l : List Nat) : List Nat := if scope.getLsbD b then l else []
  let span (base n : Nat) : List Nat := (List.range n).map fun i => base / 65536 + i
  let x := s.part p
  on 0 ((List.range (hbmEnd / 65536)).filter (s.granuleIn p)) ++
  on 1 (((List.range 32).filter fun u => x.t2.getLsbD u).flatMap fun u => span (t2Base + u * t2Size) (t2Size / 65536)) ++
  on 2 ((s.clustersOf p).flatMap fun gc => span (poolBase + gc * 2 ^ 24) 256) ++
  on 4 (span (sramBase + x.link * 2 ^ 26 + x.sramBase * 2 ^ 18) (4 * x.sramCount))

/-- The logical cores of a partition that are present: mapped, in a cluster and a slot in service. -/
def State.presentCores (s : State) (p : Nat) : List (Nat × Nat) :=
  (s.clustersOf p).flatMap fun gc => (List.range 16).filterMap fun k =>
    match s.slotOf (gc * 16 + k) with
    | some slot =>
      if s.clusterGone gc || s.absentPage ⟨.cor, slotKey gc slot⟩ then none else some (gc * 16 + k, slotKey gc slot)
    | none => none

/-- What step 3 copies: core state, data memories and beacons (R535). A halted core has no core-state granules. -/
def State.snapItems (s : State) (p : Nat) (scope : BitVec 8) : List Nat :=
  let cores := if scope.getLsbD 3 then s.presentCores p else []
  (cores.flatMap fun c =>
    (if (s.core c.2).run = .halted then [] else (List.range 3).map (coreSource c.1)) ++
      (List.range 16).map fun i => dmemBase + c.1 * 2 ^ 20 + i * 65536) ++
  (if scope.getLsbD 5 then (s.clustersOf p).map beaconSource else [])

/-- Logical cores without core-state granules (R535). -/
def State.omittedCores (s : State) (p : Nat) (scope : BitVec 8) : Nat :=
  if !scope.getLsbD 3 then 0
  else 16 * (s.clustersOf p).length - ((s.presentCores p).filter fun c => (s.core c.2).run ≠ .halted).length

/-- An operation in a channel slot of part 0 (R531). -/
def XOp.slot (o : XOp) : Bytes :=
  let op : BitVec 8 := match o.kind with
    | .movs => 2#8
    | .fill => 3#8
    | .gather => 4#8
    | .wpull => 7#8
  [1#8, op] ++ leBytes 6 o.xs.toNat ++ leBytes 6 o.xd.toNat ++ leBytes 4 o.xc.toNat ++ leBytes 4 o.xg.toNat ++
    leBytes 4 o.xb.toNat ++ List.replicate 6 0#8

def XOp.ofSlot (b : Bytes) : Option XOp :=
  let mk (k : XKind) : Option XOp := some
    { kind := k, xs := BitVec.ofNat 48 (fieldAt b 2 6), xd := BitVec.ofNat 48 (fieldAt b 8 6)
      xc := BitVec.ofNat 32 (fieldAt b 14 4), xg := BitVec.ofNat 32 (fieldAt b 18 4), xb := BitVec.ofNat 32 (fieldAt b 22 4) }
  if fieldAt b 0 1 % 2 = 0 then none
  else match fieldAt b 1 1 with
    | 2 => mk .movs
    | 3 => mk .fill
    | 4 => mk .gather
    | 7 => mk .wpull
    | _ => none

/-- The paused operation of a channel with its progress written back (R164, R531). -/
def Chan.paused (c : Chan) : Option XOp := c.run.map fun r =>
  let w := c.writeBack r
  { r.op with xs := w.xs, xd := w.xd, xc := w.xc }

/-- The nine slots of a channel and its architectural registers (R531). -/
def Chan.slots (c : Chan) : Bytes :=
  let none_ := List.replicate 32 0#8
  (match c.paused with
    | some o => o.slot
    | none => none_) ++ (List.range 8).flatMap fun i => match c.queue[i]? with
      | some o => o.slot
      | none => none_

def Chan.regs (c : Chan) : Bytes :=
  leBytes 8 c.xs.toNat ++ leBytes 8 c.xd.toNat ++ leBytes 4 c.xc.toNat ++ leBytes 4 c.xg.toNat ++ leBytes 4 c.xb.toNat ++
    leBytes 4 c.xstat.toNat

def Chan.ofBytes (slots regs : Bytes) : Chan :=
  let at_ (i : Nat) : Option XOp := XOp.ofSlot ((slots.drop (32 * i)).take 32)
  { xs := BitVec.ofNat 48 (fieldAt regs 0 6), xd := BitVec.ofNat 48 (fieldAt regs 8 6)
    xc := BitVec.ofNat 32 (fieldAt regs 16 4), xg := BitVec.ofNat 32 (fieldAt regs 20 4), xb := BitVec.ofNat 32 (fieldAt regs 24 4)
    status := BitVec.ofNat 8 (fieldAt regs 30 1), state := BitVec.ofNat 2 (fieldAt regs 28 1 % 4)
    queue := (List.range 8).filterMap fun i => at_ (i + 1)
    run := (at_ 0).map fun o => { XRun.reset with op := o }
    held := true }

/-- Loop registers, 2 bytes each. -/
def Loop.bytes (l : Loop) : Bytes := leBytes 2 l.lc.toNat ++ leBytes 2 l.ls.toNat ++ leBytes 2 l.le.toNat

def bit (b : Bool) (n : Nat) : Nat := if b then 2 ^ n else 0

/-- Part 0 of the core state (R531). -/
def Core.part0 (c : Core) : Bytes :=
  let body := (List.range 32).flatMap (fun v => leBytes 128 (c.getVreg v).data.toNat) ++
    (List.range 16).flatMap (fun r => leBytes 2 (c.getSreg r).toNat) ++ c.loop0.bytes ++ c.loop1.bytes ++
    leBytes 2 c.pc.toNat ++ [0#8, 0#8] ++ leBytes 32 c.quant.lanes.toNat ++ leBytes 4 c.lfsr.toNat ++
    [BitVec.ofNat 8 (bit c.sat 0 + bit c.invalid 1), BitVec.ofNat 8 c.tile.tileExp.toNat,
     BitVec.ofNat 8 (bit c.tile.fresh 0 + bit c.tile.ovfP 1 + bit c.tile.ovfQ 2 + bit c.tile.ovfC 3 + bit c.tile.poison 4)] ++
    List.replicate 9 0#8 ++ (List.range 4).flatMap (fun ch => (c.getChan ch).slots) ++
    (List.range 4).flatMap (fun ch => (c.getChan ch).regs)
  body ++ List.replicate (65536 - body.length) 0#8

/-- Parts 1 and 2: rail records of 4,096 elements (R131, R531). -/
def Core.railPart (c : Core) (part : Nat) : Bytes :=
  (List.range 4096).flatMap fun i =>
    let k := (part - 1) * 4096 + i
    leBytes 16 (railRecord ⟨c.tile.getP k, c.tile.getQ k, c.tile.getC k, false, false, false⟩)

/-- A core whose state takes part 0 of a granule (R531, R545). DESIGN CHOICE (log 67). -/
def Core.putPart0 (c : Core) (b : Bytes) : Core :=
  let f (o n : Nat) : Nat := fieldAt b o n
  let loop (o : Nat) : Loop := ⟨BitVec.ofNat 16 (f o 2), BitVec.ofNat 16 (f (o + 2) 2), BitVec.ofNat 16 (f (o + 4) 2)⟩
  let lanes := BitVec.ofNat 256 (f 4144 32)
  let flag (o n : Nat) : Bool := f o 1 / 2 ^ n % 2 = 1
  let tile := { c.tile with
    tileExp := BitVec.ofNat 7 (f 4181 1), fresh := flag 4182 0, ovfP := flag 4182 1, ovfQ := flag 4182 2
    ovfC := flag 4182 3, poison := flag 4182 4 }
  let chan (ch : Nat) : Chan := Chan.ofBytes ((b.drop (4192 + 288 * ch)).take 288) ((b.drop (5344 + 32 * ch)).take 32)
  { c with
    vreg := SMap.ofFn (fun _ => VReg.reset) 32 fun v => ⟨BitVec.ofNat 1024 (f (128 * v) 128), 0#8⟩
    sreg := SMap.ofFn (fun _ => 0#16) 16 fun r => if r = 0 then 0#16 else BitVec.ofNat 16 (f (4096 + 2 * r) 2)
    loop0 := loop 4128, loop1 := loop 4134, pc := BitVec.ofNat 16 (f 4140 2)
    quant := { Quant.ofLanes lanes with qtrip := lanes.getLsbD 113 }
    lfsr := BitVec.ofNat 32 (f 4176 4), sat := flag 4180 0, invalid := flag 4180 1, tile := tile
    chan := SMap.ofFn (fun _ => Chan.reset) 4 chan, pend := [], branch := none, bundle := [] }

/-- A core whose tile takes the records of part 1 or 2. -/
def Core.putRails (c : Core) (part : Nat) (b : Bytes) : Core :=
  let mine (k : Nat) : Bool := k / 4096 = part - 1
  let f (k o n : Nat) : Nat := fieldAt b (16 * (k % 4096) + o) n
  let tile := { c.tile with
    p := SMap.ofFn (fun _ => 0#48) 8192 fun k => if mine k then BitVec.ofNat 48 (f k 0 6) else c.tile.getP k
    q := SMap.ofFn (fun _ => 0#48) 8192 fun k => if mine k then BitVec.ofNat 48 (f k 6 6) else c.tile.getQ k
    c := SMap.ofFn (fun _ => 0#32) 8192 fun k => if mine k then BitVec.ofNat 32 (f k 12 4) else c.tile.getC k }
  { c with tile := tile }

/-- What a copy finds: 65,536 bytes, whether any is poison, the retired pieces, and whether a unit is fenced or lost. -/
structure Gran where
  bytes : Bytes
  poison : Bool
  retired : Nat
  lost : Bool

/-- A granule of memory read piece by piece; a retired piece, and one in no unit of the partition, reads as zero
(R541). -/
def State.readGranule (s : State) (p a : Nat) : State × Gran :=
  let rq : Req := .hub (Fin.ofNat 2 (s.partHub p)) .lantern (Fin.ofNat 12 p)
  (List.range 16).foldl (fun (acc : State × Gran) j =>
    let s := acc.1
    let g := acc.2
    let b := a + 4096 * j
    if !s.heldBy p b then (s, { g with bytes := g.bytes ++ List.replicate 4096 0#8 })
    else if s.retired b then (s, { g with bytes := g.bytes ++ List.replicate 4096 0#8, retired := g.retired + 2 ^ j })
    else
      let x := s.readMem rq b 4096
      if x.2.status ≠ St.ok then (x.1, { g with lost := true })
      else (x.1, { g with bytes := g.bytes ++ x.2.data, poison := g.poison || x.2.poison }))
    (s, ⟨[], false, 0, false⟩)

/-- The granule a SOURCE names (R541). -/
def State.granule (s : State) (p src : Nat) : State × Gran :=
  if src < 2 ^ 48 then s.readGranule p src
  else if src < 2 ^ 49 then
    let lc := src % 2 ^ 12
    let part := src / 2 ^ 16 % 4
    match s.slotOf lc with
    | none => (s, ⟨[], false, 0, true⟩)
    | some slot =>
      let k := slotKey (lc / 16) slot
      let c := s.core k
      (s, ⟨if part = 0 then c.part0 else c.railPart part, false, 0, s.clusterGone (lc / 16) || s.absentPage ⟨.cor, k⟩⟩)
  else
    let gc := src % 256
    let b := (List.range 128).flatMap fun n => leBytes 4 (s.beacon (gc * 128 + n)).toNat
    (s, ⟨b ++ List.replicate (65536 - b.length) 0#8, false, 0, s.clusterGone gc⟩)

/-! ## The end of a snapshot (R535, R542, R543) -/

/-- Lantern may write and read host memory under PF0 (R459, R475, R532). -/
def State.lanternHost (s : State) (h : Nat) : Bool := s.fnMaster h 0 && s.rd (Reg.FWP_LINK_STATE 0 h) = 0

/-- A held write that has been performed is acknowledged where its requester waits for that (R218, R536). -/
def State.ackHeld (s : State) (w : HeldWrite) : State :=
  match w.who, w.owed with
  | some r, some e => { s with replies := s.replies ++ [⟨r, e, w.addr, St.ok, [], false⟩] }
  | _, _ => s

/-- The held writes whose granule passes the test are performed in arrival order (R536). -/
def State.release (s : State) (p : Nat) (hit : Nat → Bool) : State :=
  let l := (s.snap p).held.filter fun w => hit (granuleOf w.addr)
  let s := s.modSnap p fun x =>
    { x with held := x.held.filter fun w => !hit (granuleOf w.addr), urgent := x.urgent.filter fun g => !hit g }
  let s := l.foldl (fun s w => if w.engine then s else (s.storeRuns w.addr w.runs).ackHeld w) s
  s.showHeld p

/-- Every hold of a partition ends (R543). -/
def State.releaseAll (s : State) (p : Nat) : State :=
  (s.modSnap p fun x => { x with pendingG := [], items := [] }).release p fun _ => true

/-- Lantern clears the bit of DIS_PAUSE that it set itself (R535, R543). -/
def State.unpauseOwn (s : State) (p : Nat) : State :=
  if !(s.snap p).pausedBy then s
  else
    let h := s.partHub p
    let f := Reg.DIS_PAUSE h
    let s := s.modSnap p fun x => { x with pausedBy := false }
    (s.setReg f.addr (s.reg f.addr &&& ~~~ (1#32 <<< p))).syncPause h p

/-- The manifest header (R542). -/
def State.snapHeader (s : State) (p : Nat) (status : BitVec 8) : Bytes :=
  let x := s.snap p
  let h := s.partHub p
  let sh := x.shard
  [0x50#8, 0x58#8, 0x53#8, 0x4E#8, 1#8, x.mode, x.scope, status] ++ leBytes 4 (s.rd (Reg.SNP_STEP h p)) ++
    [BitVec.ofNat 8 p, BitVec.ofNat 8 x.member] ++ leBytes 2 x.omitted ++
    (Config.serial ++ List.replicate 16 0#8).take 16 ++ leBytes 4 sh.1 ++ leBytes 4 sh.2.1 ++ leBytes 8 sh.2.2 ++
    leBytes 4 x.entries.length ++ leBytes 4 x.stored ++ leBytes 4 (s.rd (Reg.SNP_REFS h p)) ++ leBytes 4 0 ++
    sm3 (x.entries.flatMap id) ++ List.replicate 32 0#8

/-- A snapshot or restore ends with a STATUS; any but OK sets SNAP_FAIL and counts in the bucket (R546). -/
def State.snapStatus (s : State) (p : Nat) (st : BitVec 8) : State :=
  let h := s.partHub p
  let s := (s.wr (Reg.SNP_STATE_STATUS h p) st.toNat).setSnapSt p SnapSt.idle
  if st = St.ok then s else (s.err (snpPage h) 16 Sev.corrected p).bucket (snpPage h)

/-- The header is written where the host link takes it, and DONE grows by 1 (R535, R543). -/
def State.snapEnd (s : State) (p : Nat) (st : BitVec 8) : State :=
  let h := s.partHub p
  let s := if s.lanternHost h then s.hostPut h none (s.snap p).area.1 (s.snapHeader p st) false else s
  (s.snapStatus p st).sigHub h .lantern (s.snap p).done 1#32

/-- A snapshot that cannot finish: every hold ends, and the pause Lantern set is lifted (R543). -/
def State.snapFail (s : State) (p : Nat) (st : BitVec 8) : State := ((s.releaseAll p).unpauseOwn p).snapEnd p st

/-! ## Commands of the mailbox (R532-R534, R543) -/

/-- Lantern's watch on the next advance of STEP (R187, R533). -/
def State.stepWatch (s : State) (p : Nat) : Watch :=
  let x := s.snap p
  ⟨x.step, x.stepSeen + 1, BitVec.ofNat 16 p, s.partHub p, .lantern⟩

/-- Its watch for a background cut (R534, R535): the next advance of STEP, or AT. -/
def State.cutWatch (s : State) (p : Nat) : Watch :=
  let x := s.snap p
  ⟨x.step, if x.next then x.stepSeen + 1 else BitVec.ofNat 32 (x.t 4 4), BitVec.ofNat 16 (16 + p), s.partHub p, .lantern⟩

def State.armStep (s : State) (p : Nat) : State :=
  let x := s.snap p
  if !(x.setup && x.steps) then s else (s.disarmTag (s.partHub p) .lantern (s.stepWatch p).tag).armWatch (s.stepWatch p)

/-- The watches of a partition's set-up and snapshot end. -/
def State.disarmCut (s : State) (p : Nat) : State := s.disarmTag (s.partHub p) .lantern (BitVec.ofNat 16 (16 + p))
def State.disarmStep (s : State) (p : Nat) : State := (s.disarmTag (s.partHub p) .lantern (BitVec.ofNat 16 p)).disarmCut p

/-- SNAP_SETUP (R532): configures Lantern for a partition, or removes its set-up. -/
def execSnapSetup (hub : Fin 2) (page : Fin 64) (s : State) : Res :=
  withMsg 0x0050 hub page s fun s m =>
    let p := m.f 0 1
    let l := s.partHub p
    let x : Snap := { Snap.reset with cfg := m.bytesAt 0 60 }
    let off := (m.payload.drop 1).all (· = 0#8)
    let own (b : Nat) : Bool := beaconCount ≤ b || s.beaconOfPart p b
    let far (b : Nat) : Bool := beaconCount ≤ b
    let resv := m.resv (x.c 1 1 / 8 ≠ 0 || 0x40 ≤ x.c 3 1 || 2 ^ 15 ≤ x.c 4 2 || 2 ^ 15 ≤ x.c 6 2 || 2 ^ 15 ≤ x.c 8 2 ||
      x.c 12 4 ≠ 0 || x.c 33 7 ≠ 0)
    let fields := resv || 15 < x.c 2 1 || x.c 3 1 &&& 0x28 ≠ 0 || x.c 10 2 = 0 || x.c 16 8 % 65536 ≠ 0 || x.c 24 8 % 4096 ≠ 0 ||
      (!x.dedup && x.c 24 8 ≠ 0) || 24 < x.c 32 1 || far x.done || (x.steps && (far x.step || far x.release))
    let st := firstFault
      [(St.unitAbsent, !s.serving (snpPage l)),
       (St.notPermitted, !m.onLink l || (p < 12 && !off && (!own x.done || (x.steps && (!own x.step || !own x.release))))),
       (St.badParam, m.badLength 60 || 12 ≤ p || (!off && fields)),
       (St.stateError, p < 12 && ((s.part p).state != .active || s.snapRuns p))]
    if st ≠ St.ok then s.answer m.src st []
    else
      let s := s.disarmStep p
      let old := s.snap p
      if off then ((s.setSnap p Snap.reset).setSnapSt p SnapSt.none).answer m.src St.ok []
      else
        let y := { x with setup := true, take := old.take, warned := old.warned, stepSeen := if x.steps then s.beacon x.step else 0#32 }
        (((s.setSnap p y).setSnapSt p SnapSt.idle).armStep p).answer m.src St.ok []

/-- A snapshot is accepted and waits for its cut (R534, R544). -/
def State.snapBegin (s : State) (p : Nat) (mode scope : BitVec 8) (auto : Bool) : State :=
  let h := s.partHub p
  let s := s.modSnap p fun x =>
    let x := { x with auto := auto }
    let lo := x.member * 2 ^ 28
    let a := x.area
    { x with
      mode := mode, scope := scope, pausedBy := false, pendingG := [], items := [], urgent := [], entries := []
      slot := max lo a.2.2.1, slotEnd := min (lo + 2 ^ 28) (a.2.2.1 + a.2.2.2), stored := 0, omitted := 0 }
  let s := ((s.wr (Reg.SNP_STATE_SCOPE h p) scope.toNat).wr (Reg.SNP_DONE_GRAN h p) 0).wr (Reg.SNP_TOTAL_GRAN h p) 0
  let s := (s.wr (Reg.SNP_REFS h p) 0).setSnapSt p SnapSt.waitCut
  if mode = 1#8 then (s.disarmCut p).armWatch (s.cutWatch p) else s

/-- SNAP_TAKE (R534): the reply comes on acceptance. -/
def execSnapTake (hub : Fin 2) (page : Fin 64) (s : State) : Res :=
  withMsg 0x0051 hub page s fun s m =>
    let p := m.f 0 1
    let l := s.partHub p
    let x := s.snap p
    let mode := m.f 1 1
    let scope := m.f 2 1
    let resv := m.resv (64 ≤ scope || 2 ≤ m.f 3 1)
    let bad := m.badLength 44 || 12 ≤ p || resv || 1 < mode || scope % 64 = 0 || (mode = 1 && scope &&& 0x28 ≠ 0) ||
      (mode = 1 && !x.steps) || m.f 12 4 ≤ m.f 8 4 || m.f 24 8 % 4096 ≠ 0
    let st := firstFault
      [(St.unitAbsent, !s.serving (snpPage l)), (St.notPermitted, !m.onLink l), (St.badParam, bad),
       (St.stateError, p < 12 && (!x.setup || s.snapRuns p || (s.part p).state != .active))]
    if st ≠ St.ok then s.answer m.src st []
    else
      let s := s.modSnap p fun x => { x with take := m.bytesAt 0 44 }
      (s.snapBegin p (BitVec.ofNat 8 mode) (BitVec.ofNat 8 (scope % 64)) false).answer m.src St.ok []

/-- SNAP_ABORT (R532, R543): a running snapshot stops with STATE_ERROR. -/
def execSnapAbort (hub : Fin 2) (page : Fin 64) (s : State) : Res :=
  withMsg 0x0052 hub page s fun s m =>
    let p := m.f 0 1
    let l := s.partHub p
    let st := firstFault
      [(St.unitAbsent, !s.serving (snpPage l)), (St.notPermitted, !m.onLink l), (St.badParam, m.badLength 1 || 12 ≤ p),
       (St.stateError, p < 12 && !s.snapRuns p)]
    if st ≠ St.ok then s.answer m.src st [] else (s.snapFail p St.stateError).answer m.src St.ok []

/-! ## The cut and the copies (R533, R535-R540) -/

/-- A background snapshot waits for its cut, and its watch has fired (R534, R535). -/
def State.cutReached (s : State) (p : Nat) : Bool :=
  s.snapSt p = SnapSt.waitCut && (s.snap p).mode = 1#8 && (s.learn (s.cutWatch p)).fired

/-- RELEASE follows STEP to a value by an add of the same amount, and the watch is armed anew (R533). -/
def State.followStep (s : State) (p : Nat) (v : BitVec 32) : State :=
  let x := s.snap p
  if v = x.stepSeen then s
  else
    let s := s.sigHub (s.partHub p) .lantern x.release (v - x.stepSeen)
    (s.modSnap p fun x => { x with stepSeen := v }).armStep p

/-- SNAP_STEP_ADVANCE (R187, R533): Lantern's watch on STEP has fired. Across a background cut the add waits for the cut. -/
def execSnapStepAdvance (part : Fin 12) (s : State) : Res :=
  let p := part.val
  let x := s.snap p
  if !(x.setup && x.steps) ∨ s.cutReached p ∨ !s.serving (snpPage (s.partHub p)) then .next s
  else
    let l := s.learn (s.stepWatch p)
    .next (if l.fired then l.state.followStep p l.value else l.state)

/-- The homes arm, and step 3's granules are listed (R535). -/
def State.cut (s : State) (p : Nat) (step : BitVec 32) : State :=
  let h := s.partHub p
  let x := s.snap p
  let gs := s.armGranules p x.scope
  let items := s.snapItems p x.scope
  let omitted := s.omittedCores p x.scope
  let s := s.modSnap p fun x => { x with pendingG := gs, items := items, omitted := omitted }
  ((s.wr (Reg.SNP_STEP h p) step.toNat).wr (Reg.SNP_TOTAL_GRAN h p) (gs.length + items.length)).setSnapSt p SnapSt.copying

/-- SNAP_CUT (R535): a quiescent snapshot sets its bit of DIS_PAUSE and cuts once DIS_PAUSED is set; a background one cuts
when its watch reports, and the add to RELEASE follows once every home has armed. -/
def execSnapCut (part : Fin 12) (s : State) : Res :=
  let p := part.val
  let h := s.partHub p
  let x := s.snap p
  if s.snapSt p ≠ SnapSt.waitCut ∨ !s.serving (snpPage h) then .next s
  else if x.mode = 1#8 then
    let l := s.learn (s.cutWatch p)
    .next (if l.fired then (l.state.cut p l.value).followStep p l.value else l.state)
  else
    let f := Reg.DIS_PAUSE h
    if (s.reg f.addr).getLsbD p then
      if (s.reg (Reg.DIS_PAUSED h).addr).getLsbD p then
        let t := s.cut p (if x.steps then s.beacon x.step else BitVec.ofNat 32 (s.free 0))
        let t := if x.steps then t else t.draw
        .next (if (t.snap p).items.isEmpty then t.unpauseOwn p else t)
      else .next s
    else
      .next (((s.setReg f.addr (s.reg f.addr ||| (1#32 <<< p))).modSnap p fun x => { x with pausedBy := true }).syncPause h p)

/-- A way of the dedupe index (R539): its digest and slot, unless it is empty. -/
def dedupeWay (b : Bytes) (m : Nat) : Option (Bytes × Nat) :=
  let w := (b.drop (48 * m)).take 48
  if w.all (· = 0#8) ∨ crc32c (w.take 36) ≠ BitVec.ofNat 32 (fieldAt w 36 4) then none
  else some (w.take 32, fieldAt w 32 4)

/-- The manifest entry of a granule (R541). -/
def snapEntry (src flags slot retired : Nat) (digest : Bytes) : Bytes :=
  leBytes 8 (src + flags * 2 ^ 56) ++ leBytes 4 slot ++ leBytes 4 retired ++ digest

/-- One copied granule is stored, referenced or marked (R539, R540); an answer other than OK stops the snapshot (R543).
DEDUCED (log 69). -/
def State.storeGranule (s : State) (p src : Nat) (g : Gran) (bucket : HostRead) : State × BitVec 8 :=
  let h := s.partHub p
  let x := s.snap p
  let digest := sm3 g.bytes
  let put (s : State) (flags slot : Nat) : State :=
    (s.modSnap p fun x => { x with entries := x.entries ++ [snapEntry src flags slot g.retired digest] }).bump (Reg.SNP_DONE_GRAN h p)
  if x.area.2.1 < 128 + 48 * (x.entries.length + 1) then (s, St.noResource)
  else if g.poison then (put s 2 0xFFFFFFFF, St.ok)
  else if g.bytes.all (· = 0#8) then (put s 1 0xFFFFFFFF, St.ok)
  else if !s.lanternHost h then (s, St.masterDisabled)
  else
    -- the bucket of the digest
    let b := fieldAt digest 0 8 % 2 ^ x.c 32 1
    let r := if x.dedup then s.hostReadEnd (s.fnId h 0) 768 bucket else (s, ⟨St.ok, [], false⟩)
    let s := r.1
    let whole := x.dedup && r.2.status = St.ok && !r.2.poison
    let ways := if whole then (List.range 16).map (dedupeWay r.2.data) else []
    match ways.find? (fun w => match w with
        | some d => d.1 = digest
        | none => false) with
    | some (some d) => ((put s 4 d.2).bump (Reg.SNP_REFS h p), St.ok)
    | _ =>
      if x.slotEnd ≤ x.slot then (s, St.noResource)
      else
        let s := s.hostPut h none (x.c 16 8 + 65536 * x.slot) g.bytes false
        let way := digest ++ leBytes 4 x.slot
        let own := whole && (ways.getD x.member none).isNone
        let s := if own then
            s.hostPut h none (x.c 24 8 + 768 * b + 48 * x.member) (way ++ leBytes 4 (crc32c way).toNat ++ leBytes 8 0) false
          else s
        ((put s 0 x.slot).modSnap p fun x => { x with slot := x.slot + 1, stored := x.stored + 1 }, St.ok)

/-- A snapshot of a partition has a granule to copy (R538). -/
def State.snapCopies (s : State) (p : Nat) : Bool :=
  s.snapSt p = SnapSt.copying && !((s.snap p).items.isEmpty && (s.snap p).pendingG.isEmpty)

/-- SNAP_GRANULE_COPY (R320, R321, R535-R540): at a moment of the hub fabric clock the next granule is copied, urgent ones first, then the cores, data memories and
beacons, then memory in ascending address; its pending bits clear and its held writes are performed. `bucket` is what the
read of the dedupe index returns, `hold` the longest of the holds that end, in hub fabric clocks. -/
def execSnapGranuleCopy (part : Fin 12) (now : Nat) (bucket : HostRead) (hold : Nat) (s : State) : Res :=
  let p := part.val
  let h := s.partHub p
  waitTag s h 0 [bucket] <|
  let x := s.snap p
  let left := !(x.urgent.isEmpty && x.items.isEmpty && x.pendingG.isEmpty)
  if s.snapSt p ≠ SnapSt.copying ∨ !s.serving (snpPage h) ∨ !left ∨ !s.mayServe h Engine.lantern.num p now 1 s.snapCopies then .next s
  else
    let s := s.served h Engine.lantern.num p now
    let item : Option Nat := if x.urgent.isEmpty then x.items.head? else none
    let src : Option Nat := match x.urgent.head?, item, x.pendingG.head? with
      | some g, _, _ => some (g * 65536)
      | none, some i, _ => some i
      | none, none, some g => some (g * 65536)
      | none, none, none => none
    match src with
    | none => .next s
    | some a =>
      let g := s.granule p a
      if g.2.lost then .next (g.1.snapFail p St.unitAbsent)
      else
        let w := g.1.storeGranule p a g.2 bucket
        if w.2 ≠ St.ok then .next (w.1.snapFail p w.2)
        else
          let s := w.1
          if item.isSome then
            let s := s.modSnap p fun x => { x with items := x.items.drop 1 }
            .next (if (s.snap p).items.isEmpty then s.unpauseOwn p else s)
          else
            let s := s.wr (Reg.SNP_HOLD_MAX h) (min (max (s.rd (Reg.SNP_HOLD_MAX h)) hold) 0xFFFFFFFF)
            .next ((s.modSnap p fun x => { x with pendingG := x.pendingG.erase (a / 65536) }).release p fun n => n = a / 65536)

/-- SNAP_COMPLETE (R535, R542): with nothing left to copy the manifest entries are written, then the header, and DONE
grows by 1. -/
def execSnapComplete (part : Fin 12) (s : State) : Res :=
  let p := part.val
  let h := s.partHub p
  let x := s.snap p
  if s.snapSt p ≠ SnapSt.copying ∨ !x.items.isEmpty ∨ !x.pendingG.isEmpty ∨ !s.serving (snpPage h) then .next s
  else if !s.lanternHost h then .next (s.snapFail p St.masterDisabled)
  else if x.area.2.1 < 128 then .next (s.snapFail p St.noResource)
  else .next ((s.hostPut h none (x.area.1 + 128) (x.entries.flatMap id) false).snapEnd p St.ok)

/-- SNAP_PREWARNING (R544): Lantern takes up a bucket HALF or a trend alert, which counts in SNP_WARN and may start an automatic snapshot. `now` is
the time in seconds. -/
def execSnapPrewarning (part : Fin 12) (now : Nat) (s : State) : Res :=
  let p := part.val
  let h := s.partHub p
  if !s.serving (snpPage h) ∨ (s.snap p).warned = 0 then .next s
  else
    let s := (s.modSnap p fun x => { x with warned := x.warned - 1 }).bump (Reg.SNP_WARN h p)
    let x := s.snap p
    let soon : Bool := match x.lastAuto with
      | some t => now < t + x.c 10 2
      | none => false
    if !(x.setup && x.autoOn && x.steps) ∨ s.snapSt p ≠ SnapSt.idle ∨ soon ∨ x.c 3 1 % 64 = 0 then .next s
    else
      let half := if x.lastAuto.isNone then false else !x.autoHalf
      let s := s.modSnap p fun x => { x with autoHalf := half, lastAuto := some now }
      .next (s.snapBegin p 1#8 (BitVec.ofNat 8 (x.c 3 1 % 64)) true)

/-! ## Restoring (R545) -/

/-- A manifest as its header and entries say. -/
def Man.ok (b : Bytes) : Bool :=
  fieldAt b 0 4 = 0x4E535850 && fieldAt b 4 1 = 1 && fieldAt b 7 1 = 0 &&
    128 + 48 * fieldAt b 48 4 ≤ b.length && sm3 ((b.drop 128).take (48 * fieldAt b 48 4)) = (b.drop 64).take 32

def Man.step (b : Bytes) : BitVec 32 := BitVec.ofNat 32 (fieldAt b 8 4)
def Man.entries (b : Bytes) : List Bytes := (List.range (fieldAt b 48 4)).map fun i => (b.drop (128 + 48 * i)).take 48

def Ent.src (e : Bytes) : Nat := fieldAt e 0 7
def Ent.flags (e : Bytes) : Nat := fieldAt e 7 1
def Ent.slot (e : Bytes) : Nat := fieldAt e 8 4
def Ent.retired (e : Bytes) : Nat := fieldAt e 12 4
def Ent.digest (e : Bytes) : Bytes := (e.drop 16).take 32

/-- The entry's bytes lie in a store slot. -/
def Ent.stored (e : Bytes) : Bool := Ent.flags e % 4 = 0

/-- Puts a step before those it reaches (R177). -/
def insertStep (x : BitVec 32) : List (BitVec 32) → List (BitVec 32)
  | [] => [x]
  | y :: l => if x = y then y :: l else if reaches x y then x :: y :: l else y :: insertStep x l

/-- The steps of the kept headers, each once, latest first (R177, R545). -/
def latestFirst (l : List (BitVec 32)) : List (BitVec 32) := l.foldr insertStep []

/-- The unit, cluster or core an entry names: held by the partition, and absent or fenced. -/
def State.entryHeld (s : State) (p : Nat) (e : Bytes) : Bool :=
  let src := Ent.src e
  if src < 2 ^ 48 then s.granuleIn p (granuleOf src)
  else if src < 2 ^ 49 then s.clusterPart (src % 2 ^ 12 / 16) = p
  else s.clusterPart (src % 256) = p

def State.entryGone (s : State) (p : Nat) (e : Bytes) : Bool :=
  let src := Ent.src e
  let core (lc : Nat) : Bool := s.clusterGone (lc / 16) || (match s.slotOf lc with
    | some k => s.absentPage ⟨.cor, slotKey (lc / 16) k⟩
    | none => true)
  if src < 2 ^ 48 then
    (List.range 16).any fun j =>
      let a := src + 4096 * j
      s.heldBy p a && !s.retired a && s.targetAbsent a (s.tgt a)
  else if src < 2 ^ 49 then core (src % 2 ^ 12)
  else s.clusterGone (src % 256)

/-- Writes one entry back: zeros, the poison word or the stored bytes, without its retired pieces (R545). -/
def State.restoreEntry (s : State) (p : Nat) (e : Bytes) (data : Bytes) : State :=
  let src := Ent.src e
  let poison := Ent.flags e / 2 % 2 = 1
  let b := if Ent.stored e then data else List.replicate 65536 0#8
  if src < 2 ^ 48 then
    let rq : Req := .hub (Fin.ofNat 2 (s.partHub p)) .lantern (Fin.ofNat 12 p)
    (List.range 16).foldl (fun s j =>
      let a := src + 4096 * j
      if Ent.retired e / 2 ^ j % 2 = 1 ∨ !s.heldBy p a then s
      else (s.writeMem rq a ((b.drop (4096 * j)).take 4096) poison).1) s
  else if src < 2 ^ 49 then
    let lc := src % 2 ^ 12
    let part := src / 2 ^ 16 % 4
    match s.slotOf lc with
    | none => s
    | some k => s.modCore (slotKey (lc / 16) k) fun c => if part = 0 then c.putPart0 b else c.putRails part b
  else
    (List.range 128).foldl (fun s n => s.beaconSet (src % 256 * 128 + n) (BitVec.ofNat 32 (fieldAt b (4 * n) 4))) s

/-- What the search for a step ends in (R545). -/
inductive Found where
  | fail (st : BitVec 8)
  | step (m : Bytes) (passed : Nat)

/-- The latest step with every shard whose stored granules all match their digests (R545). -/
def State.findStep (s : State) (p shard : Nat) (kept : List Bytes) (data : Nat → Bytes) :
    List (BitVec 32) → Nat → Bool → Found
  | [], _, whole => .fail (if whole then St.authFail else St.badParam)
  | t :: ts, passed, whole =>
    let here := kept.filter fun b => Man.step b = t
    let shards := fieldAt (here.headD []) 36 4
    if !((List.range shards).all fun k => here.any fun b => fieldAt b 32 4 = k) then s.findStep p shard kept data ts (passed + 1) whole
    else match here.find? (fun b => fieldAt b 32 4 = shard) with
      | none => s.findStep p shard kept data ts (passed + 1) whole
      | some m =>
        if !((Man.entries m).all (s.entryHeld p)) then .fail St.notPermitted
        else if (Man.entries m).any (s.entryGone p) then .fail St.unitAbsent
        else if (Man.entries m).all fun e => !Ent.stored e || sm3 (data (Ent.slot e)) = Ent.digest e then .step m passed
        else s.findStep p shard kept data ts (passed + 1) true

/-- Reads of host memory by Lantern, under PF0: the bytes of each, none where the read failed (R301, R303, R304, R532). -/
def State.lanternReads (s : State) (h : Nat) (l : List HostRead) : State × List Bytes :=
  l.foldl (fun (acc : State × List Bytes) x => match x with
    | .data b false => (acc.1, acc.2 ++ [b])
    | _ => ((acc.1.hostReadEnd (acc.1.fnId h 0) 0 x).1, acc.2 ++ [[]])) (s, [])

/-- SNAP_RESTORE (R545): verifies and writes back the latest whole step. `manifests` are what the host returns at the addresses
the payload names, and `granules` at store slots. -/
def execSnapRestore (hub : Fin 2) (page : Fin 64) (manifests : List HostRead) (granules : List (Nat × HostRead)) (s : State) : Res :=
  waitTag s (s.partHub (fieldAt (s.mbx (hub.val * 64 + page.val)).held 16 1)) 0 (manifests ++ granules.map (·.2)) <|
  withMsg 0x0053 hub page s fun s m =>
    let p := m.f 0 1
    let n := m.f 1 1
    let l := s.partHub p
    let paused := (s.reg (Reg.DIS_PAUSED l).addr).getLsbD p
    let st := firstFault
      [(St.unitAbsent, !s.serving (snpPage l)), (St.notPermitted, !m.onLink l),
       (St.badParam, n = 0 || m.badLength (8 + 8 * n) || 12 ≤ p || m.resv (m.f 2 2 ≠ 0)),
       (St.stateError, p < 12 && ((s.part p).state != .active || !paused || s.snapRuns p || !(s.snap p).setup)),
       (St.masterDisabled, !s.lanternHost l)]
    if st ≠ St.ok then s.answer m.src st []
    else
      let a := s.lanternReads l (manifests.take n)
      let b := a.1.lanternReads l (granules.map (·.2))
      let s := b.1
      let data (slot : Nat) : Bytes := match ((granules.map (·.1)).zip b.2).find? (fun g => g.1 = slot) with
        | some g => (g.2 ++ List.replicate 65536 0#8).take 65536
        | none => []
      let kept := a.2.filter Man.ok
      let id_ (b : Bytes) : Nat × Nat := (fieldAt b 36 4, fieldAt b 40 8)
      let steps := latestFirst (kept.map Man.step)
      let span := !(kept.any fun a => kept.all fun b => reaches (Man.step b) (Man.step a)) && !kept.isEmpty
      let differ := span || kept.any fun a => kept.any fun b => id_ a ≠ id_ b
      let found := if differ then Found.fail St.badParam else s.findStep p (m.f 4 4) kept data steps 0 false
      match found with
      | .fail st => (s.snapStatus p st).answer m.src st []
      | .step man passed =>
        let es := Man.entries man
        let s := es.foldl (fun s e => s.restoreEntry p e (data (Ent.slot e))) s
        let s := ((s.wr (Reg.SNP_STEP l p) (Man.step man).toNat).wr (Reg.SNP_DONE_GRAN l p) es.length).wr
          (Reg.SNP_TOTAL_GRAN l p) es.length
        (s.snapStatus p St.ok).answer m.src St.ok
          (leBytes 4 (Man.step man).toNat ++ leBytes 4 passed ++ leBytes 4 es.length)

/-- The Lantern engine of a hub is reset: holds end, and its set-ups go. DEDUCED (log 68). -/
def State.resetLantern (s : State) (h : Nat) : State :=
  (List.range 12).foldl (fun s p =>
    if s.partHub p = h then (((s.releaseAll p).unpauseOwn p).disarmStep p).setSnap p Snap.reset else s) s

end Sys2Proof.Machine
end

