-- ==== Sys2Proof/Machine/Sdt.lean ====
section
/-! DEFINITION. The SDT remote-memory transport: connections, packets, sending, reception, space keys
(13_sdt_transport.md R356-R386). -/
namespace Sys2Proof.Machine

def sdtPage (h : Nat) : Page := ⟨.sdt, h⟩

/-- Requester of an SDT engine for a connection. -/
def Conn.req (c : Conn) : Req := .hub (Fin.ofNat 2 c.hub) .sdt (Fin.ofNat 12 c.part)

/-- Partition whose range holds a connection, 15 for none (R311, R356). -/
def State.connPart (s : State) (n : Nat) : Nat :=
  match (List.range 12).find? (fun p =>
      let x := s.part p
      (x.state == .active || x.state == .destroying) && x.sdtBase * 256 ≤ n && n < (x.sdtBase + x.sdtCount) * 256) with
  | some p => p
  | none => 15

/-- Message contexts in use on a hub: outgoing messages with an MSN and no record, and incoming ones (R356, R386). -/
def State.sdtContexts (s : State) (h : Nat) : Nat :=
  s.conns.foldl (fun n e =>
    if e.2.hub = h then n + (e.2.msgs.filter (·.msn.isSome)).length + e.2.rmsgs.length else n) 0

/-- SDT_OPEN and SDT_CTX follow the connections (R386). -/
def State.sdtCount (s : State) (h : Nat) : State :=
  (s.wr (Reg.SDT_OPEN h) ((s.conns.filter fun e => e.2.hub = h && e.2.state != ConnState.closed).length)).wr (Reg.SDT_CTX h) (s.sdtContexts h)

/-! ## Packets (R361-R364) -/

/-- Fields of an SDT header (R362). -/
structure SHdr where
  typ : Nat
  flags : Nat
  conn : Nat
  gen : Nat
  status : BitVec 8
  epath : Nat
  msn : Nat
  offset : Nat
  mlen : Nat
  key : Nat
  raddr : Nat
  ackseq : Nat
  ts : Nat
  deriving DecidableEq, Repr

def SHdr.zero : SHdr :=
  { typ := 0, flags := 0, conn := 0, gen := 0, status := 0#8, epath := 0, msn := 0, offset := 0, mlen := 0, key := 0, raddr := 0
    ackseq := 0, ts := 0 }

def SHdr.bytes (x : SHdr) : Bytes :=
  [BitVec.ofNat 8 (16 + x.typ), BitVec.ofNat 8 x.flags] ++ leBytes 2 x.conn ++ leBytes 2 x.gen ++
    [x.status, BitVec.ofNat 8 x.epath] ++ leBytes 4 x.msn ++ leBytes 4 x.offset ++ leBytes 4 x.mlen ++ leBytes 4 x.key ++
    leBytes 6 x.raddr ++ leBytes 6 x.ackseq ++ leBytes 4 x.ts

def SHdr.read (b : Bytes) : SHdr :=
  { typ := fieldAt b 0 1 % 16, flags := fieldAt b 1 1, conn := fieldAt b 2 2, gen := fieldAt b 4 2
    status := b.getD 6 0#8, epath := fieldAt b 7 1, msn := fieldAt b 8 4, offset := fieldAt b 12 4, mlen := fieldAt b 16 4
    key := fieldAt b 20 4, raddr := fieldAt b 24 6, ackseq := fieldAt b 30 6, ts := fieldAt b 36 4 }

/-- Packet types (R363). -/
def PT.data : Nat := 1
def PT.flush : Nat := 2
def PT.ack : Nat := 3
def PT.nack : Nat := 4
def PT.close : Nat := 5

/-- The 12-byte nonce of a packet sent under a role (R364). -/
def SHdr.nonce (x : SHdr) (role : Bool) : Bytes :=
  let r := if role then 128 else 0
  if x.typ ≤ 2 then
    [BitVec.ofNat 8 r] ++ leBytes 4 x.msn ++ leBytes 2 (x.offset / 4096) ++ leBytes 2 x.gen ++ leBytes 2 x.conn ++ [0#8]
  else
    [BitVec.ofNat 8 (r + 64)] ++ leBytes 4 (x.ackseq % 2 ^ 32) ++ leBytes 2 (x.ackseq / 2 ^ 32) ++ leBytes 2 x.gen ++
      leBytes 2 x.conn ++ [0#8]

def Conn.role (c : Conn) : Bool := c.flags.getLsbD 0

/-- Seals a payload: ciphertext and tag (R364). -/
def State.sdtSeal (s : State) (c : Conn) (x : SHdr) (payload : Bytes) : Bytes :=
  match s.key c.keyslot with
  | some k =>
    let aad := x.bytes.take 36
    let ct := (Config.cipher k.alg.toNat true k.key (x.nonce c.role) aad payload).take payload.length
    ct ++ (Config.cipherTag k.alg.toNat k.key (x.nonce c.role) aad ct).take 16
  | none => []

/-- The frame that carries a packet on a path, with its FCS (R361). -/
def State.sdtFrame (s : State) (c : Conn) (path : Nat) (x : SHdr) (payload : Bytes) : Bytes :=
  let h := c.hub
  let k := path % 4
  let word (f : Fld) : Bytes := leBytes 4 (s.reg f.addr).toNat
  let ipv6 := c.flags.getLsbD 1
  let smac := word (Reg.SDT_SRC_MAC_LO h k) ++ (word (Reg.SDT_SRC_MAC_HI h k)).take 2
  let sip := if ipv6 then
      word (Reg.SDT_SRC_IP6_W0 h k) ++ word (Reg.SDT_SRC_IP6_W1 h k) ++ word (Reg.SDT_SRC_IP6_W2 h k) ++ word (Reg.SDT_SRC_IP6_W3 h k)
    else word (Reg.SDT_SRC_IP4 h k)
  let dip := if ipv6 then c.peerIp else c.peerIp.take 4
  let body := x.bytes ++ s.sdtSeal c x payload
  let sport := 0xC000 + 64 * path + x.conn % 64
  let ulen := 8 + body.length
  let udp := beBytes 2 sport ++ beBytes 2 (s.rd (Reg.CLS_PARSE_SDT_PORT h)) ++ beBytes 2 ulen ++ [0#8, 0#8] ++ body
  let l2 := c.peerMac ++ smac ++ (if c.flags.getLsbD 2 then [0x81#8, 0x00#8] ++ beBytes 2 c.tci.toNat else []) ++
    (if ipv6 then [0x86#8, 0xDD#8] else [0x08#8, 0x00#8])
  let l3 := if ipv6 then
      beBytes 4 (6 * 2 ^ 28 + 2 * 2 ^ 20 + sport) ++ beBytes 2 ulen ++ [17#8, 64#8] ++ sip ++ dip
    else
      [0x45#8, 0x02#8] ++ beBytes 2 (20 + ulen) ++ [0#8, 0#8, 0x40#8, 0#8, 64#8, 17#8, 0#8, 0#8] ++ sip ++ dip
  let f := l2 ++ l3 ++ udp
  let p := (parse f 0 0).pkt
  let f := if ipv6 then fillL4 f p else fillIp f p
  f ++ fcs f

/-- A control packet is sent, on the path it answers (R361, R363, R364): its count of control packets rises; a lane that does
not accept the frame leaves it with the connection. -/
def State.sdtControl (s : State) (n : Nat) (path : Nat) (x : SHdr) : State :=
  let c := s.conn n
  let x := { x with conn := c.peerConn.toNat, gen := c.peerGen.toNat, ackseq := c.ackseq }
  let f := s.sdtFrame c path x []
  let s := (s.setConn n { c with ackseq := c.ackseq + 1 }).pipeOp c.hub Cls.sdtTx c.part c.keyslot 0
  let r := s.offer c.hub c.subq (path % 4) { bytes := f, owner := .sdt n, part := c.part }
  match r.2 with
  | .waits => r.1.modConn n fun c => { c with ctl := c.ctl ++ [(path % 4, f)] }
  | _ => r.1

/-! ## Opening, failing and closing (R358-R360, R383, R384) -/

/-- A connection fails (R383): one CLOSE goes to the peer unless the peer sent one, CONN_FAIL is set, and everything
unfinished takes the status. -/
def State.connFail (s : State) (n : Nat) (st : BitVec 8) (tell : Bool) : State :=
  let c := s.conn n
  if c.state ≠ .opened then s
  else
    let s := if tell then s.sdtControl n 0 { SHdr.zero with typ := PT.close, status := st } else s
    ((s.disarmTag c.hub .sdt (BitVec.ofNat 16 n)).modConn n (·.failWith st)).err (sdtPage c.hub) 17 Sev.contained c.part

/-- A control packet whose ACKSEQ would reach 2^48 fails its connection instead (R364). -/
def State.sdtAnswer (s : State) (n path : Nat) (x : SHdr) : State :=
  if 2 ^ 48 ≤ (s.conn n).ackseq + 1 then s.connFail n St.noResource true else s.sdtControl n path x

/-- A ring of bytes at a hub SRAM offset lies within granules of a partition (R359). -/
def State.sramHeld (s : State) (h p off n : Nat) : Bool :=
  off + n ≤ 2 ^ 26 && (n = 0 || (List.range ((off + n - 1) / 2 ^ 18 - off / 2 ^ 18 + 1)).all fun i => s.granulePart h (off / 2 ^ 18 + i) = p)

/-- SDT_CONN_OPEN (R357-R360). -/
def execSdtConnOpen (hub : Fin 2) (page : Fin 64) (s : State) : Res :=
  withMsg 0x0410 hub page s fun s m =>
    let n := m.f 0 2
    let p := s.connPart n
    let h := s.partHub p
    let ks := m.f 10 2
    let flags := m.f 8 1
    let ids := (List.range 5).map fun i => m.f (48 + 2 * i) 2
    let sq := m.f 40 4
    let rq := m.f 44 4
    let lsq := natBits sq 20 4
    let lrq := natBits rq 20 4
    let bad := m.badLength 64 || m.resv (8 ≤ flags || (m.bytesAt 58 6).any (· ≠ 0#8)) || (flags / 4 % 2 = 0 && m.f 12 2 ≠ 0) ||
      (flags / 2 % 2 = 0 && (m.bytesAt 20 12).any (· ≠ 0#8)) || m.f 38 2 = 0 || 2 ^ 24 ≤ sq || 2 ^ 24 ≤ rq || 12 < lsq ||
      12 < lrq || ids.any (beaconCount ≤ ·) || !s.sramHeld h p (sq % 2 ^ 20 * 64) (2 ^ lsq * 96) ||
      !s.sramHeld h p (rq % 2 ^ 20 * 64) (2 ^ lrq * 32) ||
      (List.range 4).any (fun k => s.rd (Reg.ETH_CFG_MAX_FRAME (4 * h + k)) < 4222) || !s.keyUse ks false
    let used := s.conns.any fun e => e.2.state == .opened && e.2.keyslot = ks
    let st := firstFault
      [(St.unitAbsent, s.absentPage (sdtPage h)),
       (St.notPermitted, p = 15 || !m.onLink h || !s.keySlotIn p ks || s.subqPart (m.f 14 2) ≠ p ||
         ids.any fun b => b < beaconCount && !s.beaconOfPart p b),
       (St.badParam, bad), (St.stateError, (s.conn n).state ≠ .closed || used || (s.part p).state ≠ .active)]
    if st ≠ St.ok then s.answer m.src st []
    else
      let b (i : Nat) : BitVec 15 := BitVec.ofNat 15 (ids.getD i 0)
      let init := max 1 (s.rd (Reg.SDT_CC_INIT h)) * 4096
      let np := m.f 9 1 + 1
      let c : Conn :=
        { Conn.reset with
          state := .opened, hub := h, part := p, gen := BitVec.ofNat 16 (m.f 2 2), peerConn := BitVec.ofNat 16 (m.f 4 2)
          peerGen := BitVec.ofNat 16 (m.f 6 2), flags := BitVec.ofNat 8 flags, npath := np, keyslot := ks
          tci := BitVec.ofNat 16 (m.f 12 2), subq := m.f 14 2, peerIp := m.bytesAt 16 16, peerMac := m.bytesAt 32 6
          tdelay := m.f 38 2, sqBase := sq % 2 ^ 20, log2Sq := lsq, rqBase := rq % 2 ^ 20, log2Rq := lrq, bSubmit := b 0
          bCredit := b 1, bDone := b 2, bRdone := b 3, bRcredit := b 4 }
      let c := (List.range np).foldl (fun c i => c.setPaths i { SPath.reset with cwnd := init }) c
      ((s.setConn n c).sdtCount h).answer m.src St.ok []

/-- SDT_CONN_CLOSE (R360, R384): an open connection fails with STATE_ERROR, and closing begins. -/
def execSdtConnClose (hub : Fin 2) (page : Fin 64) (s : State) : Res :=
  withMsg 0x0411 hub page s fun s m =>
    let n := m.f 0 2
    let p := s.connPart n
    let c := s.conn n
    let st := firstFault
      [(St.notPermitted, p = 15 || !m.onLink (s.partHub p)), (St.badParam, m.badLength 2),
       (St.stateError, c.state == .closed || c.state == .closing)]
    if st ≠ St.ok then s.answer m.src st []
    else (s.connFail n St.stateError true).modConn n fun c => { c with state := .closing, src := some m.src }

/-- The send ring holds entries that SUBMIT covers and the engine has not taken (R365). -/
def State.sdtPosted (s : State) (c : Conn) : Bool :=
  let b := c.bSubmit.toNat
  !s.clusterGone (b / 128) && reaches (s.beacon b) (BitVec.ofNat 32 (c.taken + 1))

/-- RCREDIT shows a free slot of the receive record ring (R376). -/
def State.sdtCredit (s : State) (c : Conn) : Bool :=
  !s.clusterGone (c.bRcredit.toNat / 128) && reaches (s.beacon c.bRcredit.toNat) (BitVec.ofNat 32 (c.delivered + 1))

/-- A connection goes back to CLOSED: its contexts are freed, and a close that waits is answered (R360, R384). -/
def State.connFree (s : State) (n : Nat) : State :=
  let c := s.conn n
  let t := ((s.disarmTag c.hub .sdt (BitVec.ofNat 16 n)).setConn n Conn.reset).sdtCount c.hub
  match c.src with
  | some src => t.answer src St.ok []
  | none => t

/-- SDT_CLOSE_DONE (R360, R384): the CLOSE has left, every entry of the ring and every incoming message that RCREDIT admits has
its record, and no write is outstanding: the contexts are freed and the close is answered. An engine out of service has nothing
more to send or write. -/
def execSdtCloseDone (conn : Fin 65536) (s : State) : Res :=
  let c := s.conn conn
  let busy : Bool := !c.ctl.isEmpty || !c.msgs.isEmpty || s.sdtPosted c || (!c.rmsgs.isEmpty && s.sdtCredit c)
  if c.state ≠ .closing ∨ (busy ∧ s.serving (sdtPage c.hub)) then .next s else .next (s.connFree conn)

/-! ## Sending (R365-R373, R380, R382) -/

/-- An entry breaks the table of R366. -/
def entryBad (e : Bytes) : Bool :=
  let z (o n : Nat) : Bool := ((e.drop o).take n).all (· = 0#8)
  let op := fieldAt e 0 1
  let len := fieldAt e 4 4
  !z 2 2 || !z 20 4 || !z 40 24 ||
    (match op with
     | 1 => 2 ≤ fieldAt e 1 1 || len = 0 || 2 ^ 24 < len || 2 ^ 48 ≤ fieldAt e 24 8
     | 2 => !z 1 1 || len ≠ 0 || !z 8 8 || !z 16 4 || !z 24 8
     | 3 => !z 1 1 || !z 10 6 || beaconCount ≤ fieldAt e 8 2 || !z 16 4 || !z 24 8
     | _ => true)

/-- Messages with an MSN and no record (R368). -/
def Conn.unfinished (c : Conn) : Nat := (c.msgs.filter (·.msn.isSome)).length

/-- The watch by which the engine learns that SUBMIT has reached the next entry of a connection (R187, R365). -/
def Conn.submitWatch (c : Conn) (n : Nat) : Watch :=
  { bid := c.bSubmit.toNat, target := BitVec.ofNat 32 (c.taken + 1), tag := BitVec.ofNat 16 n, hub := c.hub, engine := .sdt }

/-- SDT_ENTRY_TAKE (R318, R365, R366, R383): once SUBMIT reaches it, which the engine learns by watch, the next entry is taken.
The entries of a failed connection take its status, and those of a partition that is torn down STATE_ERROR. -/
def execSdtEntryTake (conn : Fin 65536) (s : State) : Res :=
  let c := s.conn conn
  let failed := c.state == .failed || c.state == .closing
  if !(c.state == .opened || failed) ∨ !s.serving (sdtPage c.hub) ∨ (c.halted ∧ !failed) ∨ c.waiting.isSome ∨
      c.msgs.any (fun m => !m.begun) then .next s
  else
    let l : Learnt := if failed then ⟨s, s.sdtPosted c, 0#32⟩ else s.learn (c.submitWatch conn)
    if !l.fired then .next l.state
    else
    let s := l.state
    let a := sramBase + c.hub * 2 ^ 26 + c.sqBase * 64 + 64 * (c.taken % 2 ^ c.log2Sq)
    let r := s.readMem c.req a 64
    let e := if r.2.data.length = 64 then r.2.data else List.replicate 64 0#8
    let op := fieldAt e 0 1
    let st : Option (BitVec 8) :=
      if failed then some c.failStatus
      else if (s.part c.part).state ≠ .active then some St.stateError
      else if r.2.status ≠ St.ok then some r.2.status
      else if r.2.poison then some St.poisoned
      else if entryBad e then some St.badParam
      else none
    let m : SMsg :=
      { SMsg.reset with
        slot := c.taken, op := BitVec.ofNat 8 op, sent := fieldAt e 1 1 % 2 = 1, len := fieldAt e 4 4
        laddr := BitVec.ofNat 64 (fieldAt e 8 8), key := BitVec.ofNat 32 (fieldAt e 16 4)
        raddr := BitVec.ofNat 64 (fieldAt e 24 8), tag := (e.drop 32).take 8, begun := st.isSome, status := st }
    .next (r.1.setConn conn { c with taken := c.taken + 1, msgs := c.msgs ++ [m] })

/-- Updates the messages of a connection. -/
def State.modMsg (s : State) (n : Nat) (hit : SMsg → Bool) (f : SMsg → SMsg) : State :=
  s.modConn n fun c => { c with msgs := c.msgs.map fun m => if hit m then f m else m }

/-- The entry taken last, when its operation has not begun. -/
def Conn.fresh (c : Conn) (op : BitVec 8) : Option SMsg := c.msgs.find? fun m => !m.begun && m.op = op

/-- Pieces of a range cut at 4 KiB. -/
def pagePieces : Nat → Nat → Nat → List (Nat × Nat)
  | 0, _, _ => []
  | f + 1, a, n =>
    if n = 0 then []
    else
      let m := min n (4096 - a % 4096)
      (a, m) :: pagePieces f (a + m) (n - m)

/-- Status of a source range: NOT_PERMITTED outside the partition's rights, BAD_PARAM where nothing is mapped (R366, R40). -/
def State.sourceStatus (s : State) (r : Req) (a n : Nat) : BitVec 8 :=
  let ps := pagePieces (n / 4096 + 2) a n
  firstFault
    [(St.notPermitted, ps.any fun p => !s.permitted r (s.target p.1 p.2)),
     (St.badParam, 2 ^ 48 < a + n || ps.any fun p =>
       let t := s.target p.1 p.2
       t == .unmapped || (match t with
         | .reg _ => true
         | .beacon _ _ => true
         | _ => false))]

/-- An entry takes the next MSN, or fails for want of one; it waits while 2,048 messages of its connection are unfinished or the
contexts of its hub are all in use (R356, R368). -/
def State.takeMsn (s : State) (n : Nat) (m : SMsg) : State :=
  let c := s.conn n
  if 2048 ≤ c.unfinished ∨ 131072 ≤ s.sdtContexts c.hub then s
  else if 2 ^ 32 ≤ c.msn then s.modMsg n (·.slot = m.slot) fun m => { m with begun := true, status := some St.noResource }
  else
    let s := s.modMsg n (·.slot = m.slot) fun m => { m with begun := true, msn := some (BitVec.ofNat 32 c.msn) }
    (s.modConn n fun c => { c with msn := c.msn + 1 }).sdtCount c.hub

/-- SDT_WRITE (R366, R368): a WRITE entry whose source the partition may read takes an MSN, and its message starts. -/
def execSdtWrite (conn : Fin 65536) (s : State) : Res :=
  let c := s.conn conn
  match c.fresh 1#8 with
  | none => .next s
  | some m =>
    let st := s.sourceStatus c.req m.laddr.toNat m.len
    if st ≠ St.ok then .next (s.modMsg conn (·.slot = m.slot) fun m => { m with begun := true, status := some st })
    else .next (s.takeMsn conn m)

/-- SDT_FLUSH (R368, R380): a FLUSH entry takes an MSN; its packet is sent as a message's. -/
def execSdtFlush (conn : Fin 65536) (s : State) : Res :=
  match (s.conn conn).fresh 2#8 with
  | none => .next s
  | some m => .next (s.takeMsn conn m)

/-- The answer FIRED or UNIT_ABSENT that a WAIT at the head has had to its watch (R187, R382). -/
def State.waitAnswer (s : State) (c : Conn) (n bid : Nat) (v : BitVec 32) : Option Nat :=
  match s.answered (watchKey c.hub .sdt (BitVec.ofNat 16 n)) with
  | some a => if a.bid = bid ∧ a.target = v ∧ (a.code = 0 ∨ a.code = 3) then some a.code else none
  | none => none

/-- SDT_WAIT (R382, R187): a WAIT entry arms a watch and holds its ring; a watch that found no room is armed again. -/
def execSdtWait (conn : Fin 65536) (s : State) : Res :=
  let c := s.conn conn
  let tag := BitVec.ofNat 16 conn.val
  let arm (s : State) (bid : Nat) (v : BitVec 32) : State :=
    let own := (s.cluster (bid / 128)).watches.any fun w => w.hub = c.hub && w.engine == .sdt && w.tag = tag
    if own then s else s.armWatch { bid := bid, target := v, tag := tag, hub := c.hub, engine := .sdt }
  match c.waiting with
  | some (bid, v) => if (s.waitAnswer c conn bid v).isSome then .next s else .next (arm s bid v)
  | none =>
    match c.fresh 3#8 with
    | none => .next s
    | some m =>
      let bid := m.laddr.toNat
      if !s.beaconOfPart c.part bid then
        .next (s.modMsg conn (·.slot = m.slot) fun m => { m with begun := true, status := some St.notPermitted })
      else
        let v := BitVec.ofNat 32 m.len
        let s := s.modMsg conn (·.slot = m.slot) fun m => { m with begun := true }
        let s := s.setAnswered (watchKey c.hub .sdt tag) none
        .next (arm (s.modConn conn fun c => { c with waiting := some (bid, v) }) bid v)

/-- SDT_WAIT_FIRED (R187, R382): the WAIT at the head completes by the answer of its watch: FIRED with OK, UNIT_ABSENT with that
status, which halts the ring. -/
def execSdtWaitFired (conn : Fin 65536) (s : State) : Res :=
  let c := s.conn conn
  match c.waiting with
  | none => .next s
  | some (bid, v) =>
    match s.waitAnswer c conn bid v with
    | none => .next s
    | some code =>
      let absent : Bool := code = 3
      let s := s.setAnswered (watchKey c.hub .sdt (BitVec.ofNat 16 conn.val)) none
      let s := s.modMsg conn (fun m => m.op = 3#8 && m.begun && m.status.isNone) fun m =>
        { m with status := some (if absent then St.unitAbsent else St.ok) }
      .next (s.modConn conn fun c => { c with waiting := none, halted := c.halted || absent })

/-- Packets of a message (R364). -/
def SMsg.packets (m : SMsg) : Nat := if m.op = 2#8 then 1 else (m.len + 4095) / 4096

/-- Bytes of packet i. -/
def SMsg.size (m : SMsg) (i : Nat) : Nat := if m.op = 2#8 then 0 else min 4096 (m.len - 4096 * i)

/-- Messages with an MSN and no outcome. -/
def Conn.openMsgs (c : Conn) : List SMsg := c.msgs.filter fun m => m.msn.isSome && m.status.isNone

/-- The packet that a path holds for a lane that did not accept it (R391). -/
def Conn.heldPacket (c : Conn) (path : Nat) : Option (SMsg × Nat) :=
  c.openMsgs.findSome? fun m => (m.pkts.find? fun p => p.held && p.path = path).map fun p => (m, p.index)

/-- The packet a connection gives a path next: one to be sent again, among them one held by a path that is down, else the next
one of its oldest unfinished message. -/
def Conn.nextPacket (c : Conn) (up : Nat → Bool) : Option (SMsg × Nat) :=
  match c.openMsgs.findSome? fun m => (m.pkts.find? fun p => p.lost || (p.held && !up p.path)).map fun p => (m, p.index) with
  | some x => some x
  | none => (c.openMsgs.find? fun m => m.nextPkt < m.packets).map fun m => (m, m.nextPkt)

/-- Bytes in flight on a path (R370). -/
def Conn.inFlight (c : Conn) (path : Nat) : Nat :=
  c.msgs.foldl (fun n m => m.pkts.foldl (fun n p =>
    if p.path = path ∧ !p.acked ∧ !p.lost ∧ !p.held ∧ m.status.isNone then n + p.bytes else n) n) 0

/-- A path is eligible while its port is UP (R370). -/
def State.pathUp (s : State) (c : Conn) (path : Nat) : Bool :=
  path < c.npath && s.rd (Reg.ETH_LINK_STATE (4 * c.hub + path % 4)) = EthSt.up

/-- Weight of a path: 2 at 800 Gb/s, 1 at 400 Gb/s (R370). -/
def State.pathWeight (s : State) (c : Conn) (path : Nat) : Nat := if s.rd (Reg.ETH_LINK_RATE (4 * c.hub + path % 4)) = 2 then 2 else 1

/-- Bytes of the frame that carries a packet of n payload bytes (R361, R364). -/
def Conn.frameLen (c : Conn) (n : Nat) : Nat :=
  14 + (if c.flags.getLsbD 2 then 4 else 0) + (if c.flags.getLsbD 1 then 40 else 20) + 8 + 40 + n + 16 + 4

/-- The lane of a path does not accept a packet of n bytes (R391). -/
def State.pathFull (s : State) (c : Conn) (p n : Nat) : Bool := s.laneWaits c.hub c.subq (p % 4) c.part (c.frameLen n)

/-- What a path would send now: the packet it holds, else the connection's next one if that fits its window (R370, R391). -/
def State.pathPacket (s : State) (c : Conn) (p : Nat) : Option (SMsg × Nat) :=
  if !s.pathUp c p then none
  else match c.heldPacket p with
    | some x => if s.pathFull c p (x.1.size x.2) then none else some x
    | none => (c.nextPacket (s.pathUp c)).filter fun x => c.inFlight p + x.1.size x.2 ≤ (c.getPaths p).cwnd

/-- The path served next in weighted round robin among those with a packet to send, and what it may still send in its turn
(R370). -/
def State.nextPath (s : State) (c : Conn) : Option (Nat × Nat) :=
  let ready (p : Nat) : Bool := (s.pathPacket c p).isSome
  if c.rrLeft ≠ 0 ∧ ready c.rrPath then some (c.rrPath, c.rrLeft - 1)
  else
    (((List.range c.npath).map fun i => (c.rrPath + 1 + i) % c.npath).find? ready).map fun p => (p, s.pathWeight c p - 1)

/-- A partition has a connection on a hub with a packet to send. -/
def State.sdtWaits (s : State) (h q : Nat) : Bool :=
  s.conns.any fun e => e.2.hub = h && e.2.part = q && e.2.state == .opened && (s.nextPath e.2).isSome

/-- The record of a packet in its message, or a new one. -/
def SMsg.packet (m : SMsg) (i bytes : Nat) : SPkt :=
  (m.pkts.find? (·.index = i)).getD { SPkt.reset with msn := m.msn.getD 0#32, index := i, bytes := bytes }

/-- Puts the record of a packet into its message. -/
def SMsg.putPacket (m : SMsg) (q : SPkt) : SMsg :=
  if m.pkts.any (·.index = q.index) then { m with pkts := m.pkts.map fun x => if x.index = q.index then q else x }
  else { m with pkts := m.pkts ++ [q], nextPkt := max m.nextPkt (q.index + 1) }

/-- Marks a packet as sent: its record of transmissions (R372). -/
def SMsg.sentPkt (m : SMsg) (i path : Nat) (ts : BitVec 32) (order bytes : Nat) (lost : Bool) : SMsg :=
  let p := m.packet i bytes
  m.putPacket
    { p with
      path := path, ts := ts, sends := p.sends + 1, order := order, later := 0, lost := lost, held := false, sent := true
      acked := false }

/-- A packet lost after RETRY_MAX + 1 transmissions without an answer fails its connection (R372). -/
def State.sdtGiveUp (s : State) (n : Nat) : State :=
  let c := s.conn n
  let most := max 1 (s.rd (Reg.SDT_TUNE_RETRY_MAX c.hub)) + 1
  if c.openMsgs.any fun m => m.pkts.any fun p => p.lost && most ≤ p.sends then s.connFail n St.timeout true else s

/-- SDT_PACKET_TX (R320, R321, R364, R369, R370, R372, R391, R436): a path sends the packet it holds or the connection's next one
once it fits the window, and holds one that its lane does not accept; control packets that wait go first. `slice` and `host` serve a
source in a host-link window; `parity` is the pipe that reports a parity error. -/
def execSdtPacketTx (conn : Fin 65536) (now : Nat) (slice : Fin 256) (host : HostRead) (parity : Option (Fin 16)) (s : State) : Res :=
  let c := s.conn conn
  let h := c.hub
  if !s.serving (sdtPage h) ∨ c.state == .closed then .next s
  else match c.ctl with
  | (k, f) :: rest =>
    let r := s.offer h c.subq k { bytes := f, owner := .sdt conn, part := c.part }
    match r.2 with
    | .waits => .next s
    | _ => .next (r.1.setConn conn { r.1.conn conn with ctl := rest })
  | [] =>
    if c.state ≠ .opened ∨ !s.cipherUp h ∨ !s.mayServe h Engine.sdt.num c.part now 1 (s.sdtWaits h) then .next s
    else match s.nextPath c with
    | none => .next s
    | some (path, left) =>
      match s.pathPacket c path with
      | none => .next s
      | some (m, i) => waitSliceTag s slice [host] <|
        let n := m.size i
        if s.pathFull c path n then
          .next ((s.modMsg conn (·.slot = m.slot) fun m =>
              m.putPacket { m.packet i n with path := path, lost := false, held := true }).modConn conn fun c =>
            { c with rrPath := path, rrLeft := left })
        else
        let s := s.served h Engine.sdt.num c.part now
        let src : State × LineSrc :=
          if n = 0 then (s, ⟨[], false, St.ok⟩) else s.lineRead c.req (m.laddr.toNat + 4096 * i) n slice host
        if src.2.status ≠ St.ok then
          .next (src.1.modMsg conn (·.slot = m.slot) fun m => { m with status := some src.2.status })
        else
          let s := src.1
          let again := (m.packet i n).sent
          let x : SHdr :=
            { SHdr.zero with
              typ := if m.op = 2#8 then PT.flush else PT.data
              flags := (if m.sent then 1 else 0) + (if src.2.poison then 8 else 0), conn := c.peerConn.toNat
              gen := c.peerGen.toNat, msn := (m.msn.getD 0#32).toNat, offset := 4096 * i
              mlen := if m.op = 2#8 then 0 else m.len, key := m.key.toNat, raddr := m.raddr.toNat, ts := now % 2 ^ 32 }
          let s := s.pipeOp h Cls.sdtTx c.part c.keyslot n
          let mark (s : State) (lost : Bool) : State :=
            let s := s.modMsg conn (·.slot = m.slot) fun m =>
              m.sentPkt i path (BitVec.ofNat 32 now) c.orderCtr n lost
            let s := s.modConn conn fun c => { c with orderCtr := c.orderCtr + 1, rrPath := path, rrLeft := left }
            if again then s.bump (Reg.SDT_RETX h) else s
          match parity with
          | some pipe => .next ((mark (s.pipeParity h pipe) true).sdtGiveUp conn)
          | none =>
            let f := s.sdtFrame c path x src.2.data
            let r := s.offer h c.subq (path % 4) { bytes := f, owner := .sdt conn, part := c.part }
            -- a refused frame counts as a lost packet (R390)
            .next (if r.2 = .refused then (mark r.1 true).sdtGiveUp conn else mark r.1 false)

/-! ## Answers of the peer (R371-R373, R383) -/

/-- A packet handed to the engine: its port, frame, and where its UDP payload lies. -/
structure Rx where
  port : Nat
  hdr : SHdr
  ver : Nat
  body : Bytes
  ce : Bool
  path : Nat
  deriving DecidableEq, Repr

/-- Reads the oldest frame of a hub's engine (R342, R361). -/
def State.sdtFront (s : State) (h : Nat) : Option Rx :=
  match (s.clsOf h).sdtq with
  | [] => none
  | q :: _ =>
    let f := q.bytes
    let x := parse f (s.rd (Reg.CLS_PARSE_SDT_PORT h)) (s.rd (Reg.CLS_PARSE_VXLAN_PORT h))
    let ulen := be16 f (x.pkt.l4 + 4)
    let u := (f.drop x.udp).take (ulen - 8)
    some { port := q.port, hdr := SHdr.read u, ver := fieldAt u 0 1 / 16, body := u.drop 40, ce := x.pkt.tc % 4 = 3
           path := (x.pkt.sport - 0xC000) / 64 % 256 }

/-- Takes the oldest frame. -/
def State.sdtPop (s : State) (h : Nat) : State := s.modClsOf h fun c => { c with sdtq := c.sdtq.drop 1 }

/-- A violation by an SDT peer is recorded (R385, R518): `off` is the word of the page that counts it, or ERR_STAT where none
does. DESIGN CHOICE (log 104). -/
def State.sdtPeer (s : State) (h : Nat) (r : Rx) (off : Nat) : State := s.partner (sdtPage h) 2 (r.port % 4) off r.hdr.bytes

/-- A packet is counted as a violation by its sender. -/
def State.sdtNoConn (s : State) (h : Nat) (r : Rx) : State := (s.bump (Reg.SDT_NOCONN h)).sdtPeer h r 0x64
def State.sdtStale (s : State) (h : Nat) (r : Rx) : State := (s.bump (Reg.SDT_STALE h)).sdtPeer h r 0x50
def State.sdtNotFlying (s : State) (h : Nat) (r : Rx) : State := (s.bump (Reg.SDT_DUP h)).sdtPeer h r 0x54

/-- A packet with a bad header is dropped (R374, R385). -/
def State.sdtBadHdr (s : State) (h : Nat) (r : Rx) : State :=
  let s := s.sdtPeer h r 0x60
  ((s.bump (Reg.SDT_BAD_HDR h)).err (sdtPage h) 18).bucket (sdtPage h)

/-- The tag of a packet received on a connection verifies (R364). -/
def State.sdtTagOk (s : State) (c : Conn) (r : Rx) : Bool :=
  match s.key c.keyslot with
  | some k =>
    let n := r.body.length - 16
    Config.cipherTag k.alg.toNat k.key (r.hdr.nonce (!c.role)) (r.hdr.bytes.take 36) (r.body.take n) == r.body.drop n
  | none => false

/-- A control packet that the engine may act on (R374, R383, R385): else what is left of it. -/
def State.sdtCtl (s : State) (h : Nat) (r : Rx) (f : State → Nat → Conn → Res) : Res :=
  let n := r.hdr.conn
  let c := s.conn n
  if r.ver ≠ 1 ∨ 16 ≤ r.hdr.flags ∨ r.body.length ≠ 16 then .next (s.sdtBadHdr h r)
  else if c.state ≠ .opened ∨ c.hub ≠ h then .next (s.sdtNoConn h r)
  else if r.hdr.gen ≠ c.gen.toNat then .next (s.sdtStale h r)
  else
    let s := s.pipeOp h Cls.sdtRx c.part c.keyslot 0
    if !s.sdtTagOk c r then .next (((s.tagFail h).bump (Reg.SDT_AUTH_DROP h)).sdtPeer h r 0x58) else f s n c

/-- A packet has been answered: later packets of its path count for the loss of earlier ones (R372). -/
def Conn.answered (c : Conn) (msn : BitVec 32) (i : Nat) : Conn :=
  let hit (m : SMsg) (p : SPkt) : Bool := m.msn = some msn && p.index = i
  match c.msgs.findSome? fun m => m.pkts.find? (hit m) with
  | none => c
  | some q =>
    let mark (m : SMsg) (p : SPkt) : SPkt :=
      if hit m p then { p with acked := true, lost := false, held := false, sends := 0 }
      else if p.path = q.path ∧ !p.acked ∧ !p.lost ∧ !p.held ∧ p.order < q.order then
        { p with later := p.later + 1, lost := 3 ≤ p.later + 1 }
      else p
    { c with msgs := c.msgs.map fun m => { m with pkts := m.pkts.map (mark m) } }

/-- The window of a path after an ACK (R371). Divisions round down; the cut is exact before it is rounded.
DEDUCED (log 78). -/
def SPath.ack (p : SPath) (rtt now tdelay beta : Nat) (ce : Bool) : SPath :=
  let base := match p.base with
    | some b => min b rtt
    | none => rtt
  let srtt := if p.measured then ((p.srtt : Int) + ((rtt : Int) - (p.srtt : Int)) / 8).toNat else rtt
  let p := { p with base := some base, srtt := srtt, measured := true }
  let target := base + 16 * tdelay
  if ce ∨ target < rtt then
    if p.lastCut + srtt ≤ now then
      let d := 256 * rtt
      let num := if ce then rtt else min rtt (rtt - target)
      let cut := if rtt = 0 then p.cwnd * (256 - beta) / 256 else p.cwnd * (d - num * beta) / d
      { p with cwnd := max 4096 cut, lastCut := now }
    else p
  else { p with cwnd := min 16777216 (p.cwnd + 4096 * 4096 / p.cwnd) }

/-- A packet of an unfinished message that has been sent (R373). -/
def Conn.wasSent (c : Conn) (msn : BitVec 32) (i : Nat) : Bool :=
  c.msgs.any fun m => m.msn = some msn && m.status.isNone && m.pkts.any fun p => p.index = i && p.sent

/-- A packet of a message that is in flight (R371, R385). -/
def Conn.flying (c : Conn) (msn : BitVec 32) (i : Nat) : Bool :=
  c.msgs.any fun m => m.msn = some msn && m.status.isNone && m.pkts.any fun p => p.index = i && p.sent && !p.acked

/-- SDT_ACK_RX (R371, R380, R385): the oldest frame of a hub's engine is an ACK: of a packet, or of a whole message. -/
def execSdtAckRx (hub : Fin 2) (now : Nat) (s : State) : Res :=
  match s.sdtFront hub with
  | none => .next s
  | some r =>
    if r.hdr.typ ≠ PT.ack ∨ !s.serving (sdtPage hub) ∨ !s.cipherUp hub then .next s
    else
      ((s.sdtPop hub).hubNow hub now).sdtCtl hub r fun s n c =>
        let msn := BitVec.ofNat 32 r.hdr.msn
        let ce := r.hdr.flags / 4 % 2 = 1
        if r.hdr.flags / 2 % 2 = 1 then
          if c.msgs.any (fun m => m.msn = some msn && m.status.isNone) then
            .next (s.modMsg n (fun m => m.msn = some msn) fun m => { m with status := some St.ok })
          else .next (s.sdtNotFlying hub r)
        else
          let i := r.hdr.offset / 4096
          if !c.flying msn i then .next (s.sdtNotFlying hub r)
          else
            let rtt := (now + 2 ^ 32 - r.hdr.ts) % 2 ^ 32
            let beta := s.rd (Reg.SDT_CC_BETA hub)
            let s := s.modConn n fun c =>
              (c.answered msn i).setPaths r.hdr.epath ((c.getPaths r.hdr.epath).ack rtt now c.tdelay beta ce)
            -- a SENT message is finished when every packet has its ACK
            .next ((s.modMsg n
              (fun m => m.msn = some msn && m.sent && m.op = 1#8 && m.nextPkt = m.packets && m.pkts.all (·.acked))
              fun m => { m with status := some St.ok }).sdtGiveUp n)

/-- SDT_NACK_RX (R373, R380, R385): a NACK of a sent packet of an unfinished message ends the message, or with STALE fails the
connection. DEDUCED (log 78). -/
def execSdtNackRx (hub : Fin 2) (now : Nat) (s : State) : Res :=
  match s.sdtFront hub with
  | none => .next s
  | some r =>
    if r.hdr.typ ≠ PT.nack ∨ !s.serving (sdtPage hub) ∨ !s.cipherUp hub then .next s
    else
      ((s.sdtPop hub).hubNow hub now).sdtCtl hub r fun s n c =>
        let msn := BitVec.ofNat 32 r.hdr.msn
        let i := r.hdr.offset / 4096
        if !c.wasSent msn i then .next (s.sdtNotFlying hub r)
        else if r.hdr.status = St.stale then .next ((s.connFail n St.stale true).sdtCount hub)
        else
          let s := s.modConn n (·.answered msn i)
          .next ((s.modMsg n (fun m => m.msn = some msn && m.status.isNone) fun m => { m with status := some r.hdr.status }).sdtGiveUp n)

/-- SDT_CLOSE_RX (R383): a CLOSE whose tag verifies fails the connection. -/
def execSdtCloseRx (hub : Fin 2) (s : State) : Res :=
  match s.sdtFront hub with
  | none => .next s
  | some r =>
    if r.hdr.typ ≠ PT.close ∨ !s.serving (sdtPage hub) ∨ !s.cipherUp hub then .next s
    else
      (s.sdtPop hub).sdtCtl hub r fun s n _ =>
        .next (s.connFail n (if r.hdr.status = St.ok then St.unitAbsent else r.hdr.status) false)

/-- SDT_LOSS_TIMEOUT (R372): a packet has had no answer for max(RTO_MIN, 2 srtt); it is sent again, or the connection fails
once it has been sent RETRY_MAX + 1 times. The last packet of a message that lacks only its COMPLETE is a probe. -/
def execSdtLossTimeout (conn : Fin 65536) (msn : BitVec 32) (index now : Nat) (s : State) : Res :=
  let c := s.conn conn
  let h := c.hub
  if c.state ≠ .opened then .next s
  else match c.msgs.find? (fun m => m.msn = some msn && m.status.isNone) with
    | none => .next s
    | some m =>
      match m.pkts.find? (·.index = index) with
      | none => .next s
      | some p =>
        let probe := m.nextPkt = m.packets && m.pkts.all (·.acked) && index + 1 = m.packets
        let rto := max (max 1 (s.rd (Reg.SDT_TUNE_RTO_MIN h)) * 1250) (2 * (c.getPaths p.path).srtt)
        let age := (now + 2 ^ 32 - p.ts.toNat) % 2 ^ 32
        if p.lost ∨ p.held ∨ (p.acked ∧ !probe) ∨ age < rto then .next s
        else
          let s := (s.hubNow h now).modMsg conn (fun m => m.msn = some msn) fun m =>
            { m with pkts := m.pkts.map fun q => if q.index = index then { q with lost := true, acked := false } else q }
          .next (s.sdtGiveUp conn)

/-- SDT_BASE_RESET (R371): 2^28 clocks have passed: a path forgets its base. -/
def execSdtBaseReset (conn : Fin 65536) (path : Fin 256) (s : State) : Res :=
  .next (s.modConn conn fun c => c.setPaths path { c.getPaths path with base := none })

/-- SDT_SEND_RECORD (R365, R367, R380): the oldest entry with an outcome gets its record, DONE and CREDIT. -/
def execSdtSendRecord (conn : Fin 65536) (s : State) : Res := orHeld s <|
  let c := s.conn conn
  match c.msgs with
  | [] => .next s
  | m :: rest =>
    match m.status with
    | none => .next s
    | some st =>
      if !s.serving (sdtPage c.hub) then .next s
      else
        let n := 2 ^ c.log2Sq
        let a := sramBase + c.hub * 2 ^ 26 + c.sqBase * 64 + 64 * n + 32 * (m.slot % n)
        let rec_ := m.tag ++ [st, m.op, 0#8, 0#8] ++ leBytes 4 (match m.msn with
          | some x => x.toNat
          | none => 0xFFFFFFFF) ++ List.replicate 16 0#8
        let s := (s.writeMem c.req a rec_ false).1
        let s := s.modConn conn fun c => { c with msgs := rest, recorded := c.recorded + 1 }
        let s := (s.sigHub c.hub .sdt c.bDone.toNat 1#32).sigHub c.hub .sdt c.bCredit.toNat 1#32
        .next (s.sdtCount c.hub)

/-! ## Receiving (R374-R380, R383) -/

/-- The space key granted under an index (R381). -/
def State.grantedKey (s : State) (i : Nat) : Option SpaceKey := (s.skey i).filter (·.granted)

/-- Bits a complete message has set. -/
def RMsg.packets (m : RMsg) : Nat := if m.flush then 1 else (m.mlen + 4095) / 4096

def RMsg.complete (m : RMsg) : Bool := (List.range m.packets).all fun i => m.getBits i

/-- Updates or adds the incoming message with an MSN. -/
def State.putRmsg (s : State) (n : Nat) (m : RMsg) : State :=
  s.modConn n fun c =>
    if c.rmsgs.any (fun x => x.msn = m.msn) then { c with rmsgs := c.rmsgs.map fun x => if x.msn = m.msn then m else x }
    else { c with rmsgs := c.rmsgs ++ [m] }

/-- The space key that admits a DATA packet of a connection (R375). -/
def State.admits (s : State) (c : Conn) (x : SHdr) : Option SpaceKey :=
  (s.grantedKey (x.key / 65536)).filter fun k => x.key / 65536 < 4096 && k.tag.toNat = x.key % 65536 && k.part = c.part

/-- Where a DATA packet's payload goes, or the status that refuses it (R303, R375, R380). -/
def State.place (s : State) (c : Conn) (x : SHdr) (data : Bytes) (mark : Bool) (host : HostWrite) : State × BitVec 8 :=
  match s.admits c x with
  | none => (s, St.notPermitted)
  | some k =>
    let a := x.raddr + x.offset
    if k.host then
      if x.flags % 2 = 0 then (s, St.badParam)
      else if 2 ^ 46 < a + data.length then (s, St.notPermitted)
      else
        let st := s.sliceStatus k.slice
        if st ≠ St.ok then (s, st)
        else (s.hostPut c.hub (some k.slice) a data mark host, s.putStatus (s.sender c.hub 1 (some k.slice)) host)
    else if !(s.target a data.length).windowed then (s, St.notPermitted)
    else s.writeMem c.req a data mark

/-- The slice to which a placed packet went, for a HOST key (R380). -/
def State.hostSliceOf (s : State) (c : Conn) (x : SHdr) : Option Nat :=
  ((s.admits c x).filter (·.host)).map (·.slice)

/-- SDT_DATA_RX (R374, R375, R377, R383, R436): the oldest frame of a hub's engine is a DATA or FLUSH packet, or has a header
that no type has. `parity` is the pipe that reports a parity error; `host` what becomes of a write to host memory. -/
def execSdtDataRx (hub : Fin 2) (now : Nat) (parity : Option (Fin 16)) (host : HostWrite) (s : State) : Res := orHeld s <|
  match s.sdtFront hub with
  | none => .next s
  | some r =>
    let x := r.hdr
    if x.typ = PT.ack ∨ x.typ = PT.nack ∨ x.typ = PT.close ∨ !s.serving (sdtPage hub) ∨ !s.cipherUp hub then .next s
    else
      let s := (s.sdtPop hub).hubNow hub now
      let n := x.conn
      let c := s.conn n
      let plen := r.body.length - 16
      let flush := x.typ = PT.flush
      let fits := x.offset % 4096 = 0 ∧ x.offset < x.mlen ∧ x.mlen ≤ 2 ^ 24
      let lenOk := 16 ≤ r.body.length && (if flush then plen = 0 else if fits then plen = min 4096 (x.mlen - x.offset) else plen ≤ 4096)
      let ackHdr : SHdr :=
        { SHdr.zero with
          typ := PT.ack, epath := r.path, msn := x.msn, offset := x.offset, mlen := x.mlen, key := x.key, raddr := x.raddr
          ts := x.ts, flags := if r.ce then 4 else 0 }
      let nack (s : State) (st : BitVec 8) : State := s.sdtAnswer n r.path { ackHdr with typ := PT.nack, status := st, ts := 0, flags := 0 }
      let whole (s : State) : State := s.sdtAnswer n r.path { ackHdr with flags := ackHdr.flags + 2, offset := 0xFFFFFFFF }
      if r.ver ≠ 1 ∨ (x.typ ≠ PT.data ∧ !flush) ∨ 16 ≤ x.flags ∨ !lenOk then .next (s.sdtBadHdr hub r)
      else if c.state ≠ .opened ∨ c.hub ≠ hub.val then .next (s.sdtNoConn hub r)
      else if x.gen ≠ c.gen.toNat then .next (nack (s.sdtStale hub r) St.stale)
      else
        let msn := BitVec.ofNat 32 x.msn
        let delta := (msn - c.d).toNat
        if 2 ^ 32 - 2048 ≤ delta then .next (whole (s.bump (Reg.SDT_DUP hub)))
        else if 2048 ≤ delta then .next (nack (s.sdtStale hub r) St.stale)
        else
          let known := c.rmsgs.find? (·.msn = msn)
          if known.isNone ∧ 131072 ≤ s.sdtContexts hub then .next (s.bump (Reg.SDT_NOCTX hub))
          else
            let m := known.getD
              { RMsg.reset with
                msn := msn, mlen := x.mlen, flush := flush, sent := x.flags % 2 = 1, key := BitVec.ofNat 32 x.key
                raddr := BitVec.ofNat 64 x.raddr }
            let i := x.offset / 4096
            let fail (s : State) (st : BitVec 8) : State := nack ((s.putRmsg n { m with status := st }).sdtCount hub) st
            if m.mlen ≠ x.mlen ∨ m.flush ≠ flush ∨ (if flush then x.offset ≠ 0 ∨ x.mlen ≠ 0 else ¬ fits) then
              .next (fail (s.sdtPeer hub r 0x18) St.badParam)
            else if m.status ≠ St.ok then .next (nack s m.status)
            else if m.getBits i then .next (s.bump (Reg.SDT_DUP hub) |>.sdtAnswer n r.path ackHdr)
            else
              let s := s.pipeOp hub Cls.sdtRx c.part c.keyslot plen
              let plain := match s.key c.keyslot with
                | some k =>
                  (Config.cipher k.alg.toNat false k.key (x.nonce (!c.role)) (x.bytes.take 36) (r.body.take plen)).take plen
                | none => []
              let good := s.sdtTagOk c r
              let w := if flush then (s, St.ok) else s.place c x plain (8 ≤ x.flags % 16 || parity.isSome) host
              let m := if flush then m else { m with hostSlice := s.hostSliceOf c x }
              match parity with
              | some pipe => .next (fail (w.1.pipeParity hub pipe) (if w.2 ≠ St.ok then w.2 else St.poisoned))
              | none =>
                let s := if w.2 ≠ St.ok then fail (if w.2 = St.notPermitted then w.1.sdtPeer hub r 0x18 else w.1) w.2
                  else ((w.1.putRmsg n (m.setBits i true)).sdtCount hub).sdtAnswer n r.path ackHdr
                if good then .next s
                else
                  let s := (((s.tagFail hub).err (sdtPage hub) 16 Sev.contained c.part).bucket (sdtPage hub)).sdtPeer hub r 0x18
                  .next (s.connFail n St.doNotTrust true)

/-- SDT_MSG_DELIVER (R376-R380, R383): the next message in MSN order is delivered once RCREDIT shows a free slot: record,
RDONE, and the ACK with COMPLETE of one that did not fail. `host` is what the read of a FLUSH returns. -/
def execSdtMsgDeliver (conn : Fin 65536) (host : HostRead) (s : State) : Res := orHeld s <|
  let c := s.conn conn
  let h := c.hub
  let failed := c.state == .failed || c.state == .closing
  let ordered (m : RMsg) : Nat := (m.msn - c.d).toNat
  let next := if failed then
      c.rmsgs.foldl (fun b m => match b with
        | none => some m
        | some x => if ordered m < ordered x then some m else some x) none
    else c.rmsgs.find? fun m => m.msn = c.d && (m.complete || m.status ≠ St.ok)
  match next with
  | none => .next s
  | some m =>
    if !s.serving (sdtPage h) ∨ !s.sdtCredit c then .next s
    else waitSliceTag s ((c.hostSent.map (·.2)).getD 256) [host] <|
      -- the read that orders the host writes before a FLUSH
      let f : State × BitVec 8 := match m.flush && m.status = St.ok, c.hostSent with
        | true, some (a, k) =>
          let r := s.sliceRead k a 4 host
          (r.1, if r.2.status ≠ St.ok then r.2.status else if r.2.poison then St.poisoned else St.ok)
        | _, _ => (s, m.status)
      let st := f.2
      let toHost : Option (Nat × Nat) :=
        if m.sent ∧ st = St.ok ∧ 0 < m.mlen then m.hostSlice.map fun k => (m.raddr.toNat + m.mlen - 1, k) else none
      let rec_ := leBytes 4 m.msn.toNat ++ leBytes 4 m.mlen ++ [st, BitVec.ofNat 8 ((if m.sent then 1 else 0) + (if m.flush then 2 else 0)),
        0#8, 0#8] ++ leBytes 4 m.key.toNat ++ leBytes 6 m.raddr.toNat ++ List.replicate 10 0#8
      let a := sramBase + h * 2 ^ 26 + c.rqBase * 64 + 32 * (c.delivered % 2 ^ c.log2Rq)
      let s := (f.1.writeMem c.req a rec_ false).1
      let s := s.modConn conn fun c =>
        { c with
          rmsgs := c.rmsgs.filter fun x => x.msn ≠ m.msn, d := m.msn + 1, delivered := c.delivered + 1
          hostSent := if m.flush then none else if toHost.isSome then toHost else c.hostSent }
      let s := (s.sigHub h .sdt c.bRdone.toNat 1#32).sdtCount h
      if failed then .next s
      else
        let base : SHdr :=
          { SHdr.zero with typ := PT.ack, msn := m.msn.toNat, mlen := m.mlen, key := m.key.toNat, raddr := m.raddr.toNat }
        if st = St.ok then .next (s.sdtAnswer conn 0 { base with flags := 2, offset := 0xFFFFFFFF })
        else if m.flush then .next (s.sdtAnswer conn 0 { base with typ := PT.nack, status := st })
        else .next s

/-! ## Space keys (R381) -/

/-- A random non-zero tag, other than an old one. DEDUCED (log 79). -/
def State.drawTag (s : State) (old : BitVec 16) : BitVec 16 :=
  let t := s.free 0 % 65535 + 1
  if t = old.toNat then BitVec.ofNat 16 (t % 65535 + 1) else BitVec.ofNat 16 t

/-- SDT_KEY_GRANT (R357, R381). -/
def execSdtKeyGrant (hub : Fin 2) (page : Fin 64) (s : State) : Res :=
  withMsg 0x0418 hub page s fun s m =>
    let i := m.f 0 2
    let p := m.f 2 1
    let kind := m.f 3 1
    let k := m.f 4 1
    let active := p < 12 && (s.part p).state == .active
    let sl : Bool := match s.slice k with
      | some x => x.part = p && x.dying.isNone
      | none => false
    let fn1 : Bool := match s.slice k with
      | some x => x.func = 1
      | none => false
    let bad := m.badLength 16 || m.resv ((m.bytesAt 5 11).any (· ≠ 0#8)) || 4096 ≤ i || !active || 1 < kind ||
      (kind = 1 && !fn1) || (kind = 0 && k ≠ 0)
    let st := firstFault
      [(St.notPermitted, m.src.mctp || (active && (!m.onLink (s.partHub p) || (kind = 1 && !sl)))), (St.badParam, bad),
       (St.stateError, (s.grantedKey i).isSome)]
    if st ≠ St.ok then s.answer m.src st []
    else
      let t := s.drawTag 0#16
      let x : SpaceKey := { granted := true, tag := t, part := p, host := kind = 1, slice := k }
      (s.draw.setSkey i (some x)).answer m.src St.ok (leBytes 4 (i * 65536 + t.toNat))

/-- The grant of a space key goes, and its tag becomes a random one that differs from the old (R381). -/
def State.revokeKey (s : State) (i : Nat) : State :=
  match s.grantedKey i with
  | some k => s.draw.setSkey i (some { k with granted := false, tag := s.drawTag k.tag })
  | none => s

/-- SDT_KEY_REVOKE (R357, R381): the tag changes and the grant goes. Every placed packet's writes have been acknowledged by
the end of its command. -/
def execSdtKeyRevoke (hub : Fin 2) (page : Fin 64) (s : State) : Res :=
  withMsg 0x0419 hub page s fun s m =>
    let i := m.f 0 2
    let other : Bool := match s.grantedKey i with
      | some k => i < 4096 && !m.onLink (s.partHub k.part)
      | none => false
    let st := firstFault
      [(St.notPermitted, m.src.mctp || other), (St.badParam, m.badLength 2 || 4096 ≤ i),
       (St.stateError, (s.grantedKey i).isNone)]
    if st ≠ St.ok then s.answer m.src st [] else (s.revokeKey i).answer m.src St.ok []

/-- The space keys of a partition, or of one of its slices, are revoked with it (R381). -/
def State.dropSkeys (s : State) (p : Nat) (slice : Option Nat) : State :=
  let mine (i : Nat) : Bool := match s.grantedKey i with
    | some k => k.part = p && (slice.isNone || (k.host && slice = some k.slice))
    | none => false
  ((s.skeys.map (·.1)).filter mine).foldl State.revokeKey s

/-- The connections of a partition that is destroyed are closed as by SDT_CONN_CLOSE, with no CLOSE to the peer; a close that
waits is answered (R318, R360). The records of their entries lie in memory that the teardown poisons. -/
def State.dropConns (s : State) (p : Nat) : State :=
  let mine := (s.conns.filter fun e => e.2.part = p && e.2.state != ConnState.closed).map (·.1)
  mine.foldl (fun s n => (s.connFail n St.stateError false).connFree n) s

end Sys2Proof.Machine
end

