-- ==== Sys2Proof/Machine/Storage.lean ====
section
/-! DEFINITION. I/O commands of the storage controller, its SSDs and their slots, and namespaces
(15_storage_controller.md R408-R424). -/
namespace Sys2Proof.Machine

/-! ## Fetch and start (R407, R408, R413, R414) -/

def Io.flush : BitVec 8 := 0x00#8
def Io.write : BitVec 8 := 0x01#8
def Io.read : BitVec 8 := 0x02#8
def Io.uncorrectable : BitVec 8 := 0x04#8
def Io.compare : BitVec 8 := 0x05#8
def Io.zeroes : BitVec 8 := 0x08#8
def Io.dsm : BitVec 8 := 0x09#8

/-- A command as its lock entries and blocks describe it (R408, R413). -/
def ioEntry (sq : Nat) (ns : Ns) (c : IoCmd) : NvCmd :=
  let nlb := natBits c.cdw12.toNat 0 16 + 1
  let ad := c.cdw11.getLsbD 2
  let ranges := if ad then c.ranges.map fun r => (r.1.toNat, r.2.toNat) else []
  let base : NvCmd := { NvCmd.reset with
    sq := sq, cid := c.cid, opc := c.opc, nsid := c.nsid.toNat, slba := c.slba.toNat, nlb := nlb
    fua := c.cdw12.getLsbD 30, prp := c.prps, writes := c.writes }
  if c.opc = Io.flush then { base with slba := 0, nlb := 0, locks := [(0, ns.size, false)] }
  else if c.opc = Io.dsm then
    { base with slba := 0, nlb := 0, ranges := ranges, locks := ranges.map fun r => (r.1, r.2, true) }
  else { base with locks := [(base.slba, nlb, c.opc = Io.write || c.opc = Io.zeroes)] }

/-- NVMe status that stands for STATE_ERROR, which the spec does not give: some error (R318). DESIGN CHOICE (log 101). -/
def State.stateError (s : State) : Nat := 1 + s.free 0 % 0x3FFF

/-- The status with which a fetched command completes at once, or none (R318, R402, R407, R408, R424). -/
def State.ioRefusal (s : State) (link sq : Nat) (c : IoCmd) : Option Nat :=
  let known := [Io.flush, Io.write, Io.read, Io.compare, Io.zeroes, Io.dsm].contains c.opc
  let id := c.nsid.toNat
  if sq = 0 ∨ !known then some Nv.invalidOpcode
  else if c.flags ≠ 0#8 then some Nv.invalidField
  else match (s.nsOfLink link).find? (fun e => e.1 = id) with
    | none => some Nv.invalidNs
    | some (_, n) =>
      if !((s.nvme link).getMasks sq).getLsbD (id - 1) then some Nv.invalidNs
      else if (s.part n.part).state = .destroying then some s.stateError
      else if n.offline then some (Nv.nsNotReady + Nv.dnr)
      else
        let e := ioEntry sq n c
        let moves := c.opc = Io.write || c.opc = Io.read || c.opc = Io.compare
        if e.locks.any (fun l => n.size < l.1 + l.2.1) then some Nv.lbaRange
        else if moves ∧ 2 ^ 21 < e.nlb * n.bs then some Nv.invalidField
        else none

/-- NVME_CMD_FETCH (R407, R408, R413, R414): the controller fetches the entry at the head of a submission queue. An entry
it cannot accept completes at once; one that finds too few lock entries stops the fetching. -/
def execNvmeCmdFetch (link : Fin 2) (sq : Fin 16385) (c : IoCmd) (s : State) : Res :=
  if !s.nvServes link ∨ !s.sqWaits link sq ∨ !s.canPost link sq then .next s
  else match s.ioRefusal link sq c with
    | some st =>
      let admins := [0x00#8, 0x01#8, 0x02#8, 0x04#8, 0x05#8, 0x06#8, 0x08#8, 0x09#8, 0x0A#8, 0x0C#8, 0xC0#8, 0xC1#8]
      -- an admin command the device has is fetched by its own row
      if sq.val = 0 ∧ admins.contains c.opc then .next s
      else
        let s := if st = Nv.nsNotReady + Nv.dnr then s.bump (Reg.NVC_NOT_READY link) else s
        .next ((s.draw.sqAdvance link sq).postCqe link sq c.cid st 0 c.writes.entry)
    | none =>
      match s.ns c.nsid.toNat with
      | none => .next s
      | some n =>
        let e := ioEntry sq n c
        if lockMax < (s.nvme link).locksHeld + e.locks.length then
          if (s.nvme link).stalled then .next s
          else .next ((s.modNvme link fun v => { v with stalled := true }).bump (Reg.NVC_LOCK_STALL link))
        else .next (((s.sqAdvance link sq).modNvme link fun v => { v with stalled := false }).lockTake link e)

/-- A fetched command can start: no earlier conflicting lock remains (R413). -/
def Nvme.startable (v : Nvme) (c : NvCmd) : Bool := !c.started && !c.dead && c.sq < moverSq && v.free c

/-- Partition of a command's namespace, 15 for none. -/
def State.cmdPart (s : State) (c : NvCmd) : Nat :=
  match s.ns c.nsid with
  | some n => n.part
  | none => 15

/-- A partition has a command that can start. -/
def State.storageWaits (s : State) (link p : Nat) : Bool :=
  (s.nvme link).cmds.any fun c => (s.nvme link).startable c && s.cmdPart c = p

/-- NVME_CMD_START (R413, R320, R321): at a moment of the hub fabric clock a fetched command starts once no earlier conflicting
lock remains and its partition has its turn. -/
def execNvmeCmdStart (link : Fin 2) (num now : Nat) (s : State) : Res :=
  match (s.nvme link).cmds.find? (fun c => c.num = num) with
  | some c =>
    let p := s.cmdPart c
    if !(s.nvme link).startable c ∨ !s.mayServe link Engine.storage.num p now 1 (s.storageWaits link) then .next s
    else .next ((s.served link Engine.storage.num p now).modNvme link fun v =>
      { v with cmds := v.cmds.map fun x => if x.num = num then { x with started := true } else x })
  | none => .next s

/-- A started command with an opcode that has sent nothing yet, with its namespace. -/
def State.readyIo (s : State) (link num : Nat) (opc : BitVec 8) : Option (NvCmd × Ns) :=
  match (s.nvme link).cmds.find? (fun c => c.num = num && c.opc = opc && c.started && !c.dead && c.members.isEmpty && c.sq < moverSq) with
  | some c => (s.ns c.nsid).map fun n => (c, n)
  | none => none

/-! ## Ends of commands -/

def State.modCmd (s : State) (link num : Nat) (f : NvCmd → NvCmd) : State :=
  s.modNvme link fun v => { v with cmds := v.cmds.map fun c => if c.num = num then f c else c }

/-- First non-successful member status in block order (R410). -/
def NvCmd.status (c : NvCmd) : Nat :=
  match c.fails.foldl (fun (a : Option (Nat × BitVec 16)) f => match a with
    | none => some f
    | some x => if f.1 < x.1 then some f else some x) none with
  | some f => f.2.toNat
  | none => Nv.ok

/-- A member command goes to its SSD, with the FUA of a Write (R408, R410, R419, R426). -/
def State.sendMember (s : State) (link num : Nat) (m : Member) (opc : BitVec 8) (lba slba nlb : Nat) (data : Bytes)
    (fua : Bool := false) : State :=
  let x := s.slot m.port
  let e : SsdCmd := { SsdCmd.reset with
    cid := x.nextCid, link := link, num := num, opc := opc, nsid := m.nsid, fua := fua, slba := slba, nlb := nlb, lba := lba
    data := data }
  let s := s.setSlot m.port { x with cmds := x.cmds ++ [e], nextCid := (x.nextCid + 1) % 65536 }
  let s := s.step1 (Reg.PRP_CMDS m.port)
  let s := s.modCmd link num fun c => { c with members := c.members ++ [(m.port, x.nextCid)] }
  s.out (.ssd m.port opc m.nsid slba nlb fua data)

/-- Queue number under which a shutdown's Flush commands stand. -/
def shutdownSq : Nat := moverSq + 1

/-- A shutdown that no command of the hosts keeps waiting sends Flush to every member of the persistent namespaces of the
controller; with no member to flush it is complete (R418). -/
def State.shnSettle (s : State) (link : Nat) : State :=
  let v := s.nvme link
  if !v.shn ∨ v.cmds.any (fun c => c.sq < moverSq ∨ c.sq = shutdownSq) then s
  else
    let ms := (s.nsOfLink link).flatMap fun e => e.2.members
    if ms.isEmpty then s.modNvme link fun v => { v with shn := false, shst := 2#2 }
    else
      let t := s.lockTake link { NvCmd.reset with sq := shutdownSq, started := true }
      ms.foldl (fun s m => s.sendMember link v.fetched m Io.flush 0 0 0 []) t

/-- NVME_CC_SHN (R418): the host asks for a shutdown. -/
def execNvmeCcShn (link : Fin 2) (s : State) : Res :=
  if !s.fnServes link nvFn then .next (s.notServed link nvFn true)
  else if !(s.nvme link).rdy then .next s
  else .next ((s.modNvme link fun v => { v with shn := true, shst := 1#2 }).shnSettle link)

/-- A command ends: a host command's completion entry, then its lock entries are free; the last Flush of a shutdown completes it
(R413, R418). -/
def State.endCmd (s : State) (link : Nat) (c : NvCmd) (status : Nat) : State :=
  let s := if c.dead ∨ !s.canPost link c.sq then s else s.postCqe link c.sq c.cid status 0 c.writes.entry
  let s := s.lockDrop link c.num
  if c.sq = shutdownSq ∧ !c.dead then s.modNvme link fun v => { v with shn := false, shst := 2#2 } else s.shnSettle link

/-! ## Volatile namespaces in tier 2 (R411) -/

/-- The storage engine's requester for a namespace. -/
def State.storeReq (s : State) (n : Ns) : Req := .hub (Fin.ofNat 2 (s.partHub n.part)) .storage (Fin.ofNat 12 n.part)

/-- Stores blocks of a volatile namespace; the blocks named in `bad` are stored as poison (R267, R417). -/
def State.putVolatile (s : State) (nsid : Nat) (n : Ns) (lba : Nat) (data : Bytes) (bad : List Nat) : State × BitVec 8 :=
  (List.range (data.length / n.bs)).foldl (fun (acc : State × BitVec 8) i =>
    if acc.2 ≠ St.ok then acc
    else
      let b := acc.1.xtsBlock nsid n true (lba + i) ((data.drop (i * n.bs)).take n.bs)
      acc.1.writeMem (s.storeReq n) (n.t2Base.toNat + (lba + i) * n.bs) b (bad.contains i)) (s, St.ok)

/-- What reading blocks of a volatile namespace gives: status, plaintext, and the blocks that carry poison. -/
structure Blks where
  state : State
  status : BitVec 8
  data : Bytes
  bad : List Nat

/-- Reads blocks of a volatile namespace. -/
def State.getVolatile (s : State) (nsid : Nat) (n : Ns) (lba count : Nat) : Blks :=
  (List.range count).foldl (fun acc i =>
    if acc.status ≠ St.ok then acc
    else
      let x := acc.state.readMem (s.storeReq n) (n.t2Base.toNat + (lba + i) * n.bs) n.bs
      ⟨x.1, x.2.status, acc.data ++ x.1.xtsBlock nsid n false (lba + i) x.2.data, if x.2.poison then acc.bad ++ [i] else acc.bad⟩)
    ⟨s, St.ok, [], []⟩

/-! ## I/O commands (R408-R413, R417) -/

/-- Takes exactly n bytes. -/
def exactly (n : Nat) (d : Bytes) : Bytes := (d ++ List.replicate (n - d.length) 0#8).take n

/-- Blocks in which a cipher pipe reports a parity error. -/
def faultBlocks (f : Option PipeFault) : List Nat :=
  match f with
  | some f => f.blocks
  | none => []

/-- A pipe's parity error while it works for a command of a controller is counted (R435). -/
def State.parityOf (s : State) (link : Nat) (f : Option PipeFault) : State :=
  match f with
  | some f => s.pipeParity link f.pipe
  | none => s

/-- Writes blocks: split into encrypted member commands, with Write Uncorrectable for the blocks `bad` that carry poison, counted
from the first; a volatile namespace is written at once. Blocks in which a pipe reports a parity error are written so too, and the
command then ends with Write Fault (R410, R411, R417, R428, R436). -/
def State.ioWrite (s : State) (link : Nat) (c : NvCmd) (n : Ns) (data : Bytes) (bad : List Nat) (parity : Option PipeFault) : State :=
  let s := if bad.isEmpty then s else s.bump (Reg.NVC_POISON link)
  let s := (s.pipeBlocks n c.nlb).parityOf link parity
  let faults := (faultBlocks parity).filter fun i => i < c.nlb
  let bad := bad ++ faults
  if n.volatile then
    let x := s.putVolatile c.nsid n c.slba data bad
    x.1.endCmd link c (if x.2 = St.ok ∧ faults.isEmpty then Nv.ok else Nv.writeFault)
  else
    let s := s.modCmd link c.num fun c => { c with fails := faults.map fun i => (c.slba + i, BitVec.ofNat 16 Nv.writeFault) }
    (n.runs c.slba c.nlb).foldl (fun s r =>
      (alikeRuns bad (r.1 - c.slba) r.2).foldl (fun s k =>
        let p := n.place (c.slba + k.1)
        if bad.contains k.1 then s.sendMember link c.num p.2.1 Io.uncorrectable (c.slba + k.1) p.2.2 k.2 []
        else
          let plain := (data.drop (k.1 * n.bs)).take (k.2 * n.bs)
          s.sendMember link c.num p.2.1 Io.write (c.slba + k.1) p.2.2 k.2 (s.xtsBlocks c.nsid n true (c.slba + k.1) plain) c.fua) s) s

/-- NVME_WRITE (R408, R410, R417): `read` is what the host's memory returns for the command's buffers, `bad` the blocks of it that
carry poison, all when none is named; `parity` what a pipe reports. -/
def execNvmeWrite (link : Fin 2) (num : Nat) (read : HostRead) (bad : List Nat) (parity : Option PipeFault) (s : State) : Res :=
  waitTag s link nvFn [read] <| orHeld s <|
  match s.readyIo link num Io.write with
  | some (c, n) =>
    let r := s.fromPrps link (s.nvSlice link c.sq) c.prp (c.nlb * n.bs) read
    if r.2.status ≠ St.ok then .next (r.1.endCmd link c Nv.transfer)
    else
      let named := bad.filter fun i => i < c.nlb
      let marks := if !r.2.poison then [] else if named.isEmpty then List.range c.nlb else named
      .next (r.1.ioWrite link c n r.2.data marks parity)
  | none => .next s

/-- WRITE_ZEROES (R408): performed as a Write of encrypted zeros. -/
def execWriteZeroes (link : Fin 2) (num : Nat) (parity : Option PipeFault) (s : State) : Res := orHeld s <|
  match s.readyIo link num Io.zeroes with
  | some (c, n) => .next (s.ioWrite link c n (List.replicate (c.nlb * n.bs) 0#8) [] parity)
  | none => .next s

/-- Data of a Read reaches the host's buffers under its queue's binding, block by block from block `first` on, the blocks `bad`
with EP set (R406, R417). -/
def State.toHost (s : State) (link : Nat) (c : NvCmd) (bs first : Nat) (data : Bytes) (bad : List Nat) : State :=
  if c.dead then s
  else (List.range (data.length / bs)).foldl (fun s i =>
    s.toPrps link (s.nvSlice link c.sq) c.prp ((first + i) * bs) ((data.drop (i * bs)).take bs) (bad.contains i) c.writes.data) s

/-- Status of a Read whose data has gone to the host. -/
def State.readEnds (s : State) (link : Nat) (c : NvCmd) (bad : List Nat) : Nat :=
  if bad.isEmpty then s.putEnds link (s.nvSlice link c.sq) c.writes.data else Nv.unrecovered

/-- The blocks of a Read or Compare go to the members (R410). -/
def State.sendReads (s : State) (link : Nat) (c : NvCmd) (n : Ns) : State :=
  (n.runs c.slba c.nlb).foldl (fun s r =>
    let p := n.place r.1
    s.sendMember link c.num p.2.1 Io.read r.1 p.2.2 r.2 []) s

/-- Blocks of a volatile namespace as a Read or Compare gets them: those poisoned, or met by a parity error, are bad (R417, R436). -/
def State.readVolatile (s : State) (link : Nat) (c : NvCmd) (n : Ns) (parity : Option PipeFault) : Blks :=
  let x := (s.pipeBlocks n c.nlb).getVolatile c.nsid n c.slba c.nlb
  let bad := x.bad ++ faultBlocks parity
  let s := x.state.parityOf link parity
  ⟨if bad.isEmpty then s else s.bump (Reg.NVC_POISON link), x.status, x.data, bad⟩

/-- NVME_READ (R408, R410, R411, R417). -/
def execNvmeRead (link : Fin 2) (num : Nat) (parity : Option PipeFault) (s : State) : Res :=
  match s.readyIo link num Io.read with
  | some (c, n) =>
    if n.volatile then
      let x := s.readVolatile link c n parity
      let t := x.state.toHost link c n.bs 0 x.data x.bad
      .next (t.endCmd link c (if x.status = St.ok then t.readEnds link c x.bad else Nv.unrecovered))
    else .next (s.sendReads link c n)
  | none => .next s

/-- COMPARE (R408): `read` is what the host's memory returns for the command's buffers. -/
def execCompare (link : Fin 2) (num : Nat) (read : HostRead) (parity : Option PipeFault) (s : State) : Res :=
  waitTag s link nvFn [read] <|
  match s.readyIo link num Io.compare with
  | some (c, n) =>
    let r := s.fromPrps link (s.nvSlice link c.sq) c.prp (c.nlb * n.bs) read
    if r.2.status ≠ St.ok ∨ r.2.poison then .next (r.1.endCmd link c Nv.transfer)
    else if n.volatile then
      let x := r.1.readVolatile link c n parity
      let st := if !x.bad.isEmpty ∨ x.status ≠ St.ok then Nv.unrecovered else if x.data = r.2.data then Nv.ok else Nv.compare
      .next (x.state.endCmd link c st)
    else .next ((r.1.modCmd link c.num fun c => { c with data := r.2.data }).sendReads link c n)
  | none => .next s

/-- DATASET_MANAGEMENT (R408, R411): ranges marked AD are deallocated: encrypted zeros on a volatile namespace, Dataset
Management with AD to the members of a persistent one. -/
def execDatasetManagement (link : Fin 2) (num : Nat) (parity : Option PipeFault) (s : State) : Res := orHeld s <|
  match s.readyIo link num Io.dsm with
  | some (c, n) =>
    if c.ranges.isEmpty then .next (s.endCmd link c Nv.ok)
    else if n.volatile then
      let t := (s.pipeBlocks n ((c.ranges.map (·.2)).sum)).parityOf link parity
      let x := c.ranges.foldl (fun (acc : State × BitVec 8 × Nat) r =>
        if acc.2.1 ≠ St.ok then acc
        else
          let bad := (faultBlocks parity).filterMap fun i => if acc.2.2 ≤ i then some (i - acc.2.2) else none
          let y := acc.1.putVolatile c.nsid n r.1 (List.replicate (r.2 * n.bs) 0#8) bad
          (y.1, y.2, acc.2.2 + r.2)) (t, St.ok, 0)
      .next (x.1.endCmd link c (if x.2.1 = St.ok ∧ (faultBlocks parity).isEmpty then Nv.ok else Nv.writeFault))
    else
      .next (c.ranges.foldl (fun s g => (n.runs g.1 g.2).foldl (fun s r =>
        let p := n.place r.1
        s.sendMember link c.num p.2.1 Io.dsm r.1 p.2.2 r.2 []) s) s)
  | none => .next s

/-- NVME_FLUSH (R413): sent to every member; a volatile namespace completes it once it holds its lock. -/
def execNvmeFlush (link : Fin 2) (num : Nat) (s : State) : Res :=
  match s.readyIo link num Io.flush with
  | some (c, n) =>
    if n.volatile then .next (s.endCmd link c Nv.ok)
    else .next (n.members.foldl (fun s m => s.sendMember link c.num m Io.flush 0 0 0 []) s)
  | none => .next s

/-! ## The device as NVMe host (R410, R420, R421) -/

/-- A member command has ended with a status; after the last one the host command completes (R410).
DESIGN CHOICE (log 74). -/
def State.memberDone (s : State) (port : Nat) (e : SsdCmd) (status : Nat) : State :=
  let s := if status = Nv.ok then s
    else s.modCmd e.link e.num fun c => { c with fails := c.fails ++ [(e.lba, BitVec.ofNat 16 status)] }
  let s := s.modCmd e.link e.num fun c => { c with members := c.members.erase (port, e.cid) }
  match (s.nvme e.link).cmds.find? (fun c => c.num = e.num) with
  | some c => if c.members.isEmpty then s.endCmd e.link c c.status else s
  | none => s

/-- Removes an outstanding command of an SSD. -/
def State.dropSsd (s : State) (port cid : Nat) : State :=
  s.modSlot port fun x => { x with cmds := x.cmds.filter fun e => e.cid ≠ cid, resetting := false }

/-- A violation is counted, logged and adds to the PRP page's bucket (R421, R518). -/
def State.ssdViolation (s : State) (port : Nat) : State :=
  let p : Page := ⟨.prp, port⟩
  let s := (s.bump (Reg.PRP_BAD port)).err p 19
  (s.partner p 1 port 0x54 []).bucket p

/-- SSD_CMD_COMPLETE (R410, R417, R436): a member command completes with a status the NVMe specification defines; `data` is what
a read returned. Its blocks are decrypted for the host, or compared; those that the SSD has not recovered, or in which a pipe
reports a parity error, go out with EP set. -/
def execSsdCmdComplete (port : Fin 16) (cid : Nat) (status : BitVec 15) (data : List (BitVec 8)) (parity : Option PipeFault)
    (s : State) : Res :=
  match (s.slot port).cmds.find? (fun e => e.cid = cid) with
  | none => .next (s.ssdViolation port)
  | some e =>
    let s := s.dropSsd port cid
    match (s.nvme e.link).cmds.find? (fun c => c.num = e.num) with
    | none => .next s
    | some c =>
      match s.ns c.nsid with
      | none => .next (s.memberDone port e status.toNat)
      | some n =>
        if e.opc ≠ Io.read ∨ (status ≠ 0#15 ∧ status.toNat % Nv.dnr ≠ Nv.unrecovered) then .next (s.memberDone port e status.toNat)
        else
          let plain := s.xtsBlocks c.nsid n false e.lba (exactly (e.nlb * n.bs) data)
          let first := e.lba - c.slba
          let bad := if status = 0#15 then faultBlocks parity else List.range e.nlb
          let s := (s.pipeBlocks n e.nlb).parityOf e.link parity
          let s := if bad.isEmpty then s else s.bump (Reg.NVC_POISON e.link)
          let st (ok : Nat) : Nat := if status ≠ 0#15 then status.toNat else if bad.isEmpty then ok else Nv.unrecovered
          if c.opc = Io.compare then
            let same := plain = (c.data.drop (first * n.bs)).take plain.length
            .next (s.memberDone port e (st (if same then Nv.ok else Nv.compare)))
          else
            let s := s.toHost e.link c n.bs first plain bad
            .next (s.memberDone port e (st (s.readEnds e.link c [])))

/-- Every command outstanding on a reset SSD is sent again (R420). -/
def State.ssdReset (s : State) (port : Nat) : State :=
  let p : Page := ⟨.prp, port⟩
  let s := ((s.bump (Reg.PRP_RESETS port)).err p 18).out (.ssdReset port)
  let s := s.modSlot port fun x =>
    { x with resetting := true, cmds := x.cmds.map fun e => { e with aborted := false, reissued := true } }
  (s.slot port).cmds.foldl (fun s e =>
    (s.step1 (Reg.PRP_CMDS port)).out (.ssd port e.opc e.nsid e.slba e.nlb e.fua e.data)) s

/-- SSD_CMD_TIMEOUT (R420, R518): PRP_TMO of a command expires: Abort is sent; at the second expiry the SSD is reset and its
commands are sent again. -/
def execSsdCmdTimeout (port : Fin 16) (cid : Nat) (s : State) : Res :=
  match (s.slot port).cmds.find? (fun e => e.cid = cid) with
  | none => .next s
  | some e =>
    let s := (s.bump (Reg.PRP_TIMEOUTS port)).partner ⟨.prp, port⟩ 1 port 0x58 []
    if e.aborted then .next (s.ssdReset port)
    else
      let s := s.modSlot port fun x => { x with cmds := x.cmds.map fun y => if y.cid = cid then { y with aborted := true } else y }
      .next (s.out (.ssd port 0x08#8 0#32 cid 0 false []))

/-- SSD_CSTS_CFS (R420, R518): the SSD reports a fatal status; it is reset and its commands are sent again. -/
def execSsdCstsCfs (port : Fin 16) (s : State) : Res := .next ((s.partner ⟨.prp, port⟩ 1 port 0x50 []).ssdReset port)

/-- The command whose status code the SSD made up ends with an internal error. -/
def State.undefinedEnds (s : State) (port cid : Nat) : State :=
  match (s.slot port).cmds.find? (fun e => e.cid = cid) with
  | some e => (s.dropSsd port cid).memberDone port e Nv.internal
  | none => s

/-- SSD_VIOLATION (R421): an SSD breaks its protocol: a completion is dropped, a DMA answered with Unsupported Request, a malformed
TLP reported; a status that is not defined ends its command with Internal Error. -/
def execSsdViolation (port : Fin 16) (kind : SsdFault) (s : State) : Res :=
  let s := s.ssdViolation port
  match kind with
  | .undefinedStatus cid => .next (s.undefinedEnds port cid)
  | .badDma => .next (s.out (.rootUr port))
  | .malformedTlp => .next (s.out (.rootAer port))
  | .unknownCid => .next s

/-! ## Slots (R422-R424) -/

def SlotSt.empty : Nat := 0
def SlotSt.powerOn : Nat := 1
def SlotSt.linking : Nat := 2
def SlotSt.active : Nat := 3
def SlotSt.ejectWait : Nat := 4
def SlotSt.off : Nat := 5
def SlotSt.fault : Nat := 6

def State.slotSt (s : State) (port : Nat) : Nat := s.rd (Reg.PRP_SLOT_STATE port)

def State.toSlot (s : State) (port st : Nat) (f : Slot → Slot) : State := (s.wr (Reg.PRP_SLOT_STATE port) st).modSlot port f

/-- Presence is asserted, as accepted. -/
def Slot.present (x : Slot) : Bool := !x.inputs.getLsbD 0

/-- Namespaces that depend on a slot (R422). -/
def State.dependents (s : State) (port : Nat) : List (Nat × Ns) :=
  s.nss.filterMap fun e => match e.2 with
    | some n => if n.members.any (fun m => m.port = port) then some (e.1, n) else none
    | none => none

/-- PRP_DEPEND of every port and NVC_NS of both controllers follow the namespaces (R425, R426). -/
def State.showNs (s : State) : State :=
  let s := (List.range 16).foldl (fun s p => s.wr (Reg.PRP_DEPEND p) (s.dependents p).length) s
  (List.range 2).foldl (fun s l => s.wr (Reg.NVC_NS l) (s.nsOfLink l).length) s

/-- SLOT_SAMPLE (R422, R423): the storage processor samples the inputs of a slot; a level that has been stable for 20 ms,
three samples, is accepted. A blink of ATTN_LED runs out. -/
def execSlotSample (port : Fin 16) (levels : BitVec 2) (s : State) : Res :=
  let x := s.slot port
  let same := if x.raw = levels then x.same + 1 else 1
  let accept := decide (3 ≤ same)
  let pressed := accept && x.inputs.getLsbD 1 && !levels.getLsbD 1
  let blink := x.blinkMs - 10
  if s.fwState (fwpKey (port / 8) 1) ≠ Fw.running then .next s
  else .next (s.setSlot port { x with
    raw := levels, same := min same 3, inputs := if accept then levels else x.inputs, button := x.button || pressed
    blinkMs := blink, attnLed := if x.blinkMs ≠ 0 ∧ blink = 0 ∧ x.attnLed = .blink then .off else x.attnLed })

/-- A slot is powered. -/
def State.slotOn (s : State) (port : Nat) : State :=
  s.toSlot port SlotSt.powerOn fun x => { x with pwrEn := true, pwrLed := .blink, perst := true }

/-- PRESENCE_DETECT (R423): PRSNT_N has been asserted for 100 ms in an EMPTY slot. -/
def execPresenceDetect (port : Fin 16) (s : State) : Res :=
  if s.slotSt port = SlotSt.empty ∧ (s.slot port).present then .next (s.slotOn port) else .next s

/-- SLOT_POWER_TIMER (R423): 100 ms after power-on PERST is released. -/
def execSlotPowerTimer (port : Fin 16) (s : State) : Res :=
  if s.slotSt port = SlotSt.powerOn then .next (s.toSlot port SlotSt.linking fun x => { x with perst := false }) else .next s

/-- The SSD behind a member as a namespace knows it: its serial number, and the NGUID of the backing namespace (R424). -/
def State.ssdOf (s : State) (m : Member) : List (BitVec 8) × BitVec 128 :=
  let x := s.slot m.port
  (x.serial, match x.nguids.find? (fun e => e.1 = m.nsid) with
    | some e => e.2
    | none => 0#128)

/-- Offline namespaces return when every member slot is ACTIVE with the SSD the namespace expects (R424). -/
def State.returnNs (s : State) : State :=
  s.nss.foldl (fun s e => match e.2 with
    | some n =>
      let back := n.offline && (n.members.zip n.ssds).all fun m =>
        s.slotSt m.1.port = SlotSt.active && s.ssdOf m.1 = m.2
      if back then (s.setNs e.1 (some { n with offline := false })).nsChanged (s.partHub n.part) e.1 else s
    | none => s) s

/-- An SSD is accepted: NVMe 1.4 or later, Write Uncorrectable, an MDTS of at least 128 KiB, plain blocks (R419). -/
def SlotFound.accepted (f : SlotFound) : Bool :=
  0x00010400 ≤ f.version.toNat && f.uncorrectable && (f.mdts = 0 || 131072 ≤ f.mdts) && f.plainBlocks

/-- SLOT_LINK_RESULT (R419, R423, R424): a linking slot becomes ACTIVE when its link is up, its SSD ready and accepted,
else FAULT. -/
def execSlotLinkResult (port : Fin 16) (found : SlotFound) (s : State) : Res :=
  if s.slotSt port ≠ SlotSt.linking then .next s
  else if found.link && found.ready && found.accepted then
    let s := s.toSlot port SlotSt.active fun x => { x with pwrLed := .on, serial := found.serial, nguids := found.nguids, cmds := [], resetting := false }
    .next ((s.wr (Reg.PRP_SLOT_WIDTH port) found.width).wr (Reg.PRP_SLOT_SPEED port) found.speed).returnNs
  else .next (s.toSlot port SlotSt.fault fun x => { x with pwrEn := false, attnLed := .on })

/-- A slot is shut down by CC.SHN and powered off (R423). -/
def State.slotOff (s : State) (port : Nat) : State :=
  let s := s.toSlot port SlotSt.off fun x => { x with pwrEn := false, pwrLed := .off, perst := true }
  let s := s.out (.ssdShutdown port)
  (s.wr (Reg.PRP_SLOT_WIDTH port) 0).wr (Reg.PRP_SLOT_SPEED port) 0

/-- BUTTON_PRESS (R423): an accepted press of the attention button. -/
def execButtonPress (port : Fin 16) (s : State) : Res :=
  if !(s.slot port).button then .next s
  else
    let s := s.modSlot port fun x => { x with button := false }
    if s.slotSt port = SlotSt.active then
      if (s.dependents port).isEmpty then .next (s.toSlot port SlotSt.ejectWait fun x => { x with pwrLed := .blink })
      else .next ((s.modSlot port fun x => { x with attnLed := .blink, blinkMs := 3000 }).err ⟨.prp, port⟩ 16)
    else if s.slotSt port = SlotSt.ejectWait then .next (s.toSlot port SlotSt.active fun x => { x with pwrLed := .on })
    else .next s

/-- EJECT_TIMEOUT (R423): 5 s have passed in EJECT_WAIT. -/
def execEjectTimeout (port : Fin 16) (s : State) : Res :=
  if s.slotSt port = SlotSt.ejectWait then .next (s.slotOff port) else .next s

/-- PRP_CTL_EJECT (R423): an orderly removal. -/
def execPrpCtlEject (port : Fin 16) (s : State) : Res :=
  withPage ⟨.prp, port⟩ 0x44 s fun s =>
  if s.slotSt port = SlotSt.ejectWait ∨ (s.slotSt port = SlotSt.active ∧ (s.dependents port).isEmpty) then .next (s.slotOff port)
  else .next s

/-- PRP_CTL_POWER (R423): powers a slot from OFF. -/
def execPrpCtlPower (port : Fin 16) (s : State) : Res :=
  withPage ⟨.prp, port⟩ 0x44 s fun s =>
  if s.slotSt port = SlotSt.off ∧ (s.slot port).present then .next (s.slotOn port) else .next s

/-- A surprise removal (R424): outstanding commands fail with DNR, dependent namespaces go offline. -/
def State.surprise (s : State) (port : Nat) : State :=
  let cmds := (s.slot port).cmds
  let s := s.modSlot port fun x => { x with cmds := [], resetting := false, pwrEn := false, pwrLed := .off, perst := true }
  let s := (s.wr (Reg.PRP_SLOT_WIDTH port) 0).wr (Reg.PRP_SLOT_SPEED port) 0
  let s := cmds.foldl (fun s e => s.memberDone port e (Nv.internal + Nv.dnr)) s
  let deps := (s.dependents port).filter fun e => !e.2.offline
  let s := deps.foldl (fun s e =>
    ((s.setNs e.1 (some { e.2 with offline := true })).nsChanged (s.partHub e.2.part) e.1)) s
  let s := s.err ⟨.prp, port⟩ 17
  if deps.isEmpty then s else s.err ⟨.nvc, port / 8⟩ 17

/-- SURPRISE_REMOVAL (R423, R424): presence is lost, or the link goes down unrequested. -/
def execSurpriseRemoval (port : Fin 16) (linkDown : Bool) (s : State) : Res :=
  let gone := !(s.slot port).present
  let st := s.slotSt port
  if !gone && !linkDown then .next s
  else if st = SlotSt.linking ∨ st = SlotSt.active ∨ st = SlotSt.ejectWait then
    let s := s.surprise port
    if gone then .next (s.toSlot port SlotSt.empty fun x => { x with attnLed := .off, pwrLed := .off })
    else .next (s.toSlot port SlotSt.fault fun x => { x with attnLed := .on })
  else if gone ∧ (st = SlotSt.fault ∨ st = SlotSt.off) then
    .next (s.toSlot port SlotSt.empty fun x => { x with attnLed := .off, pwrLed := .off })
  else .next s

/-- SSD_NOT_READY (R420, R423): an SSD is not ready within its CAP.TO after a controller reset. -/
def execSsdNotReady (port : Fin 16) (s : State) : Res :=
  if !(s.slot port).resetting then .next s
  else .next ((s.surprise port).toSlot port SlotSt.fault fun x => { x with attnLed := .on })

/-! ## Namespaces (R409) -/

/-- Member m of an NS_CREATE payload. -/
def Msg.member (m : Msg) (i : Nat) : Member :=
  { port := m.f (32 + 16 * i) 1, nsid := BitVec.ofNat 32 (m.f (36 + 16 * i) 4), start := m.f (40 + 16 * i) 8 }

/-- SSD blocks of a member's span (R410). -/
def spanOf (size count : Nat) : Nat := size / count

/-- Blocks that a namespace writes all or nothing over a power failure: those of 64 KiB, or the largest power of two that every
member's SSD supports (R416). -/
def atomOf (bs : Nat) (ms : List Nat) : Nat :=
  let least := ms.foldl min (65536 / bs)
  2 ^ ((List.range 8).filter fun k => 2 ^ k ≤ least).length / 2

/-- NS_CREATE (R409): creates a namespace; `backing` is what the SSDs report of the members' backing namespaces. A
volatile namespace is written with encrypted zeros. DEDUCED (log 109). -/
def execNsCreate (hub : Fin 2) (page : Fin 64) (backing : List Backing) (s : State) : Res :=
  withMsg 0x0510 hub page s fun s m =>
    let nsid := m.f 0 2
    let p := m.f 2 1
    let flags := m.f 3 1
    let vol := flags % 2 = 1
    let lbaf := flags / 2 % 2 = 1
    let bs := if lbaf then 512 else 4096
    let ks := m.f 4 2
    let nm := m.f 6 1
    let size := m.f 8 8
    let t2 := m.f 16 8
    let members := (List.range nm).map m.member
    let active := p < 12 && (s.part p).state == .active
    let info (x : Member) : Option Backing := backing.find? fun b => b.port = x.port && b.nsid = x.nsid
    let absent := members.any fun x => x.port < 16 && s.slotSt x.port ≠ SlotSt.active
    let inT2 := (List.range ((size * bs + t2Size - 1) / t2Size + 1)).all fun i =>
      let a := min (t2 + i * t2Size) (t2 + size * bs - 1)
      match s.tgt a with
      | .t2 u => s.unitPart (80 + u) = p
      | _ => false
    let perm := !m.onLink (s.partHub p) || !s.keySlotIn p ks || (vol && !inT2)
    let span := spanOf size nm
    let resv := m.resv (flags / 4 ≠ 0 || m.f 7 1 ≠ 0 || m.f 24 8 ≠ 0 ||
      (List.range nm).any fun i => m.f (33 + 16 * i) 3 ≠ 0)
    let badMember := members.any fun x =>
      16 ≤ x.port || x.port / 8 ≠ s.partHub p || (match info x with
        | some b => b.lbaf != lbaf || !b.uncorrectable || b.blocks < x.start + span
        | none => true)
    let bad := m.badLength (32 + 16 * nm) || resv || nsid = 0 || 1024 < nsid || !active || !s.keyUse ks true ||
      (if vol then nm ≠ 0 || t2 % 65536 ≠ 0 || 2 ^ 48 ≤ t2 || size = 0 || size * bs % 65536 ≠ 0
       else nm = 0 || 8 < nm || t2 ≠ 0 || size = 0 || size * bs % (65536 * nm) ≠ 0 || badMember)
    let clash (x y : Member) : Bool := x.port = y.port && x.nsid = y.nsid && x.start < y.start + span && y.start < x.start + span
    let overlap := (List.range nm).any fun i => (List.range i).any fun j =>
      clash (members.getD i Member.reset) (members.getD j Member.reset)
    let st := firstFault
      [(St.unitAbsent, absent), (St.notPermitted, active && perm), (St.badParam, bad),
       (St.stateError, (s.ns nsid).isSome || overlap)]
    if st ≠ St.ok then s.answer m.src st []
    else
      let n : Ns := { Ns.reset with
        part := p, volatile := vol, lbaf := lbaf, keyslot := ks, size := size, t2Base := BitVec.ofNat 48 t2
        members := members, ssds := members.map s.ssdOf
        atom := atomOf bs (members.map fun x => match info x with
          | some b => b.atom
          | none => 0) }
      let s := (s.setNs nsid (some n)).showNs
      let s := if vol then ((s.pipeBlocks n size).putVolatile nsid n 0 (List.replicate (size * bs) 0#8) []).1 else s
      (s.nsChanged (s.partHub p) nsid).answer m.src St.ok []

/-- A deleted namespace is removed once none of its commands is in flight (R409). -/
def State.nsSettle (s : State) (nsid : Nat) : State :=
  match s.ns nsid with
  | some n =>
    let link := s.partHub n.part
    match n.dying with
    | some src =>
      if (s.nvme link).cmds.any (fun c => c.nsid = nsid) then s
      else (((s.setNs nsid none).showNs).nsChanged link nsid).answer src St.ok []
    | none => s
  | none => s

/-- NS_DELETE (R409): removes a namespace once none of its commands is in flight. Given again for a page whose command has
begun, it looks whether that moment has come. -/
def execNsDelete (hub : Fin 2) (page : Fin 64) (s : State) : Res :=
  let k := hub.val * 64 + page.val
  let b := s.mbx k
  if b.started ∧ fieldAt b.held 0 2 = 0x0511 ∧ s.mbxWaits k then .next (s.nsSettle (fieldAt b.held 16 2))
  else
    withMsg 0x0511 hub page s fun s m =>
      let nsid := m.f 0 2
      match s.ns nsid with
      | none => s.answer m.src (if m.badLength 2 ∨ nsid = 0 ∨ 1024 < nsid then St.badParam else St.stateError) []
      | some n =>
        if !m.onLink (s.partHub n.part) then s.answer m.src St.notPermitted []
        else if m.badLength 2 then s.answer m.src St.badParam []
        else if n.dying.isSome then s.answer m.src St.stateError []
        else (s.setNs nsid (some { n with dying := some m.src })).nsSettle nsid

end Sys2Proof.Machine
end

