-- ==== Sys2Proof/Machine/Resets.lean ====
section
/-! DEFINITION. The passage of a page through RESETTING: what its unit loses and what its registers keep
(02_register_pages.md R56, R57; 18_bring_up.md R478; 19_faults_and_spares.md R505-R507). -/
namespace Sys2Proof.Machine

/-- Read-only words that show what lies outside their block: a core map, an interleave mode, the units that trained, a
link, a slot, or what firmware, the black box and bring-up keep. A reset of the block leaves them.
DEDUCED (log 20). -/
def keptWord (b : Blk) (off : Nat) : Bool :=
  match b with
  | .noc => 0x100 ≤ off
  | .hmc => 0x40 ≤ off && off < 0x4C
  | .lpc => 0x100 ≤ off && off % 0x20 = 0
  | .d2d => 0x40 ≤ off && off < 0x48
  | .pce => off = 0x40 || off = 0x48
  | .prp => off = 0x48
  | .clu => off = 0x80 || off = 0x84 || off = 0x108 || off = 0x10C
  | .bru => 0x40 ≤ off
  | .fwp => 0x40 ≤ off
  | .sec => 0x40 ≤ off
  | .bbx => 0x40 ≤ off
  | _ => false

/-- RWL bits of a word. -/
def rwlBits (b : Blk) (off : Nat) : BitVec 32 :=
  match (maskTable b).find? (fun e => e.1 = off) with
  | some e => e.2
  | none => 0#32

/-- A word of a page after the page has passed through RESETTING: RWL fields stay, every other field takes its reset value
(R56, R478). CAP, STATE, CFG_CRC_REF and CFG_CRC_LIVE are the page's own. -/
def resetWord (p : Page) (a : Nat) (v : BitVec 32) : BitVec 32 :=
  let off := a - p.base
  if off = 0x00 ∨ off = 0x04 ∨ off = 0x0C ∨ off = 0x10 ∨ off = 0x14 ∨ keptWord p.blk off then v
  else
    let m := rwlBits p.blk off
    (v &&& m) ||| (regReset a &&& ~~~m)

/-- Registers of a page after its reset. -/
def State.clearPage (s : State) (p : Page) : State :=
  { s with regs := SMap.mapVals regReset (fun a v => if p.base ≤ a ∧ a < p.base + 0x1000 then resetWord p a v else v) s.regs }

/-- Blocks that keep serving after a fatal event (R504). -/
def outlivesFatal (b : Blk) : Bool := b = .bbx || b = .bru || b = .pce || b = .mbx

/-- A FENCED page that no reset of its block brings back: of a core that has failed, whose slot has lost its logical number (R509),
and of every block that a fatal event has fenced (R504). -/
def State.stuck (s : State) (p : Page) : Bool :=
  s.st p = PS.fenced && ((p.blk = .cor && (s.lcOf (p.inst / 18) (p.inst % 18)).isNone) || (s.bru.fatal && !outlivesFatal p.blk))

/-- A page enters RESETTING (R56): its unit leaves service, unless a fence has already taken it out. -/
def State.enterReset (s : State) (p : Page) : State :=
  let was := s.st p
  if was = PS.off ∨ was = PS.resetting ∨ s.stuck p then s
  else
    let s := (s.wr (Reg.STATE_STATE p) PS.resetting).wr (Reg.CTRL_ENABLE p) 0
    if was = PS.fenced then s else s.leaveService p

/-- What a unit's own state becomes at the end of its reset. -/
def State.resetUnit (s : State) (p : Page) : State :=
  let h := p.inst
  match p.blk with
  | .cor => s.setCore h Core.reset
  | .clu =>
    -- fences it had not answered count as answered (R242), its beacons read 0 (R176)
    let s := (s.cluster h).fences.foldl (fun s f => s.ackFence f.part f.slot h) s
    let s : State := ({ s with beacons := SMap.keep (fun id => id / 128 ≠ h) s.beacons } : State).setCluster h Cluster.reset
    -- firmware keeps the cores of a cluster in no partition paused (R498)
    if s.clusterPart h = 15 then s.wr (Reg.CLU_PAUSE_REQ h) 1 else s
  | .dis => (s.disarmAll h .dis).modDisOf h fun d => { Dis.reset with credit := d.credit }
  | .mov => { s.disarmAll h .mov with mov := SMap.keep (fun q => s.partHub q ≠ h) s.mov }
  | .pfx => { s.disarmAll h .pfx with pfx := SMap.keep (fun q => s.partHub q ≠ h) s.pfx }
  | .nvc => (s.nvStop h).wr (Reg.NVC_NS h) (s.nsOfLink h).length
  -- its slot is EMPTY again, and what stood behind it is gone
  | .prp => ((s.surprise h).toSlot h SlotSt.empty fun x => { x with attnLed := .off, pwrLed := .off }).showNs
  -- its connections and their contexts are still there
  | .sdt => s.sdtCount h
  | .snp => s.resetLantern h
  | .cph => ((s.setCphOf h Cph.reset).countKeys h).countSas h
  | .cls => s.setClsOf h Cls.reset
  | .tsh =>
    { s with
      lanes := SMap.keep (fun k => k % 8 / 4 ≠ h) s.lanes
      nodes := SMap.keep (fun k => k / 64 / 4 ≠ h) s.nodes
      ports := SMap.mapVals (fun _ => Port.reset) (fun k x => if k / 4 = h then { Port.reset with tried := x.tried } else x) s.ports }
  | .eth => s.modPort h fun x => { x with tried := 0#2 }
  | .nic => s.dropQps h none
  | .mbx => s.setMbx h Mbx.reset
  | .tel => s.modTel h fun x => { Tel.reset with receiver := x.receiver, tid := x.tid }
  | _ => s

/-- A page leaves RESETTING for DISABLED with its epoch incremented; CTRL.DRAIN, which is no RWL field, reads 0 from there
on (R52, R56, R57). DEDUCED (log 20). -/
def State.leaveReset (s : State) (p : Page) : State :=
  if s.st p ≠ PS.resetting then s
  else
    let e := s.rd (Reg.STATE_EPOCH p)
    ((((s.clearPage p).wr (Reg.STATE_STATE p) PS.disabled).wr (Reg.STATE_EPOCH p) ((e + 1) % 256)).wr
      (Reg.STATE_CRC_MISMATCH p) 0).resetUnit p

end Sys2Proof.Machine
end

