-- ==== Sys2Proof/Machine/Partitions.lean ====
section
/-! DEFINITION. Partitions and slices: creation, teardown, service shares and the dirty-page log
(11_partitions_and_slices.md R311-R331; 18_bring_up.md R498). -/
namespace Sys2Proof.Machine

/-! ## Partitions (R315-R318) -/

/-- The shape PART_CREATE asks for (R315). -/
def Msg.shape (m : Msg) : Part :=
  { Part.reset with
    strict := m.f 1 1 % 2 = 1, link := m.f 1 1 / 2 % 2, weight := BitVec.ofNat 8 (m.f 2 1), pcap := BitVec.ofNat 16 (m.f 4 2)
    clusters := BitVec.ofNat 160 (m.f 8 20), hbm := BitVec.ofNat 80 (m.f 28 10), t2 := BitVec.ofNat 32 (m.f 40 4)
    sdtBase := m.f 44 2, sdtCount := m.f 46 2, subqBase := m.f 48 2, subqCount := m.f 50 2
    keyBase := m.f 52 2, keyCount := m.f 54 2, sramBase := m.f 56 1, sramCount := m.f 57 1 }

/-- Two ranges of units share one. -/
def rangesMeet (a n b m : Nat) : Bool := n ≠ 0 && m ≠ 0 && a < b + m && b < a + n

/-- Two partitions name a resource both (R311, R316). -/
def Part.clash (x y : Part) : Bool :=
  x.clusters &&& y.clusters != 0#160 || x.hbm &&& y.hbm != 0#80 || x.t2 &&& y.t2 != 0#32 ||
    rangesMeet x.sdtBase x.sdtCount y.sdtBase y.sdtCount || rangesMeet x.subqBase x.subqCount y.subqBase y.subqCount ||
    rangesMeet x.keyBase x.keyCount y.keyBase y.keyCount ||
    (x.link = y.link && rangesMeet x.sramBase x.sramCount y.sramBase y.sramCount)

/-- The ranges of a shape (R315): each base and count lies in the range of its field, a base also where its count is 0, and no range
runs past its limit. DEDUCED (log 96). -/
def Part.rangesOk (x : Part) : Bool :=
  let ok (base count : Nat) : Bool := base < 256 && base + count ≤ 256
  ok x.sdtBase x.sdtCount && ok x.subqBase x.subqCount && ok x.keyBase x.keyCount &&
    32 ≤ x.sramBase && ok x.sramBase x.sramCount

/-- The strict shape: whole compute dies and whole stacks (R319). -/
def Part.strictShape (x : Part) : Bool :=
  ((List.range 10).all fun d =>
    let c := natBits x.clusters.toNat (16 * d) 16
    c = 0 || c = 0xFFFF) &&
  ((List.range 20).all fun k =>
    let u := natBits x.hbm.toNat (4 * k) 4
    u = 0 || u = 15)

/-- The page of a cluster is there and functional. -/
def State.clusterAbsent (s : State) (gc : Nat) : Bool := s.clusterGone gc || !s.on (Reg.CAP_FUNCTIONAL ⟨.clu, gc⟩)

/-- A cluster or memory unit that a shape names is fenced, absent or unusable (R316). -/
def State.shapeAbsent (s : State) (x : Part) : Bool :=
  ((List.range 160).any fun gc => x.clusters.getLsbD gc && s.clusterAbsent gc) ||
  ((List.range 80).any fun u => x.hbm.getLsbD u && s.unitAbsent u) ||
  ((List.range 32).any fun u => x.t2.getLsbD u && s.unitAbsent (80 + u))

/-- PART_CREATE (R315-R317): a FREE partition whose shape passes enters CREATING, and the pages of its clusters enter
RESETTING. -/
def execPartCreate (hub : Fin 2) (page : Fin 64) (s : State) : Res :=
  withMsg 0x0210 hub page s fun s m =>
    let p := m.f 0 1
    let x := m.shape
    let resv := m.resv (m.f 1 1 / 4 ≠ 0 || m.f 3 1 ≠ 0 || m.f 6 2 ≠ 0 || m.f 38 2 ≠ 0 || m.f 58 6 ≠ 0)
    let bad := m.badLength 64 || 12 ≤ p || resv || x.clusters = 0#160 || x.weight = 0#8 ||
      !x.rangesOk || (x.strict && !x.strictShape)
    let taken := (List.range 12).any fun q => q ≠ p && (s.part q).state != .free && x.clash (s.part q)
    let st := firstFault
      [(St.unitAbsent, s.shapeAbsent x), (St.badParam, bad),
       (St.stateError, p < 12 && (s.part p).state != .free), (St.noResource, taken)]
    if st ≠ St.ok then s.answer m.src st []
    else
      let s := s.setPart p { x with state := .creating, src := some m.src }
      (List.range 160).foldl (fun s gc => if x.clusters.getLsbD gc then s.enterReset ⟨.clu, gc⟩ else s) s

/-- Every cluster of a partition has passed through RESETTING. -/
def State.clustersReset (s : State) (p : Nat) : Bool := (s.clustersOf p).all fun gc => s.st ⟨.clu, gc⟩ ≠ PS.resetting

/-- The telemetry counters of a partition start at 0 when it reaches ACTIVE (R554). -/
def State.clearTelemetry (s : State) (p : Nat) : State :=
  (List.range 2).foldl (fun s h => [Reg.TEL_P_ENERGY_LO h p, Reg.TEL_P_OPS_LO h p, Reg.TEL_P_LINES_LO h p,
    Reg.TEL_P_TXBYTES_LO h p].foldl (fun s f => s.wr64 f 0) s) s

/-- PART_CREATE_DONE (R317, R498, R554): the clusters have reset and the owner tables are written; the partition is ACTIVE and
firmware clears CLU_PAUSE.REQ of its clusters. -/
def execPartCreateDone (part : Fin 12) (s : State) : Res :=
  let p := part.val
  let x := s.part p
  if x.state ≠ .creating ∨ !s.clustersReset p then .next s
  else
    let s := (s.clustersOf p).foldl (fun s gc => s.wr (Reg.CLU_PAUSE_REQ gc) 0) s
    let s := (s.setPart p { x with state := .active, seq := 0#64, src := none }).clearTelemetry p
    match x.src with
    | some src => .next (s.answer src St.ok [])
    | none => .next s

/-- PART_DESTROY (R317, R318): an ACTIVE partition with no slice enters DESTROYING, paused, and its clusters enter
RESETTING. -/
def execPartDestroy (hub : Fin 2) (page : Fin 64) (s : State) : Res :=
  withMsg 0x0211 hub page s fun s m =>
    let p := m.f 0 1
    let x := s.part p
    let sliced := s.slices.any fun e => match e.2 with
      | some k => k.part = p
      | none => false
    let st := firstFault
      [(St.badParam, m.badLength 1 || 12 ≤ p), (St.stateError, p < 12 && (x.state != .active || sliced))]
    if st ≠ St.ok then s.answer m.src st []
    else
      let f := Reg.DIS_PAUSE x.link
      let s := if s.snapRuns p then s.snapFail p St.stateError else s
      let s := s.setPart p { x with state := .destroying, src := some m.src }
      let s := (s.setReg f.addr (s.reg f.addr ||| (1#32 <<< p))).syncPause x.link p
      (s.clustersOf p).foldl (fun s gc => s.enterReset ⟨.clu, gc⟩) s

/-- The poison word over every memory of a partition (R318 step 4). -/
def State.poisonPart (s : State) (p : Nat) : State :=
  let x := s.part p
  let s := (List.range 80).foldl (fun s u => if x.hbm.getLsbD u then s.setRegion u false else s) s
  let s := (List.range 32).foldl (fun s u => if x.t2.getLsbD u then s.setRegion (80 + u) false else s) s
  let s := (List.range x.sramCount).foldl (fun s i => s.setRegion (6032 + 256 * x.link + x.sramBase + i) false) s
  (s.clustersOf p).foldl (fun s gc =>
    (List.range 18).foldl (fun s k => s.setRegion (272 + slotKey gc k) false) (s.setRegion (112 + gc) false)) s

/-- Connections, key slots, space keys and queued frames of a partition go (R318 step 3, R381, R434). -/
def State.dropHoldings (s : State) (p : Nat) : State :=
  let x := s.part p
  let s := (s.dropConns p).dropSkeys p none
  let s := { s with keys := SMap.keep (fun k => !(x.keyBase * 32 ≤ k && k < (x.keyBase + x.keyCount) * 32)) s.keys }.countKeys x.link
  let mine (k : Nat) : Bool := x.subqBase * 64 ≤ k / 8 && k / 8 < (x.subqBase + x.subqCount) * 64
  { s with lanes := SMap.mapVals (fun _ => Lane.reset) (fun k l => if mine k then { l with frames := [] } else l) s.lanes }

/-- The engines forget what their watches told them of a partition's rings (R187). -/
def State.forgetAnswers (s : State) (p : Nat) : State :=
  let h := s.partHub p
  let s := (s.setAnswered (watchKey h .mov (BitVec.ofNat 16 p)) none).setAnswered (watchKey h .pfx (BitVec.ofNat 16 p)) none
  (List.range 4).foldl (fun s k => s.setAnswered (watchKey h .dis (BitVec.ofNat 16 (4 * p + k))) none) s

/-- PART_DESTROY_DONE (R317, R318, R498): teardown ends with memory poisoned and owners cleared, and the partition is
FREE. Its rings start again with its next life. -/
def execPartDestroyDone (part : Fin 12) (s : State) : Res :=
  let p := part.val
  let x := s.part p
  if x.state ≠ .destroying ∨ !s.clustersReset p then .next s
  else
    let cs := s.clustersOf p
    let s := ((s.dropHoldings p).forgetAnswers p).poisonPart p
    let s := { s with mov := SMap.keep (fun q => q ≠ p) s.mov, pfx := SMap.keep (fun q => q ≠ p) s.pfx }
    let clear (s : State) (f : Fld) : State := s.setReg f.addr (s.reg f.addr &&& ~~~ (1#32 <<< p))
    let s := clear (clear s (Reg.DIS_PAUSE x.link)) (Reg.DIS_PAUSED x.link)
    let s := cs.foldl (fun s gc =>
      (s.wr (Reg.CLU_PAUSE_REQ gc) 1).modCluster gc fun c => { c with pauseReq := false, pauseDone := false }) s
    let s := (((s.releaseAll p).disarmStep p).setSnap p Snap.reset).setSnapSt p SnapSt.none
    let s := s.setPart p Part.reset
    match x.src with
    | some src => .next (s.answer src St.ok [])
    | none => .next s

/-- PART_SET_QOS (R314, R330): WEIGHT and PCAP of an ACTIVE partition. -/
def execPartSetQos (hub : Fin 2) (page : Fin 64) (s : State) : Res :=
  withMsg 0x0212 hub page s fun s m =>
    let p := m.f 0 1
    let st := firstFault
      [(St.badParam, m.badLength 6 || 12 ≤ p || m.f 2 1 = 0 || m.resv (m.f 1 1 ≠ 0 || m.f 3 1 ≠ 0)),
       (St.stateError, p < 12 && (s.part p).state != .active)]
    if st ≠ St.ok then s.answer m.src st []
    else
      (s.modPart p fun x => { x with weight := BitVec.ofNat 8 (m.f 2 1), pcap := BitVec.ofNat 16 (m.f 4 2) }).answer m.src St.ok []

/-! ## Slices (R323-R326) -/

/-- SLICE_CREATE (R323, R324). -/
def execSliceCreate (hub : Fin 2) (page : Fin 64) (s : State) : Res :=
  withMsg 0x0220 hub page s fun s m =>
    let k := m.f 0 1
    let p := m.f 1 1
    let fn := m.f 2 1
    let dlog := m.f 3 1 % 2 = 1
    let rid := m.f 4 2
    let pasid := m.f 8 4
    let beacon := m.f 12 2
    let base := m.f 16 8
    let size := m.f 24 8
    let pages := m.f 48 8
    let l := s.partHub p
    let resv := m.resv (m.f 3 1 / 2 ≠ 0 || m.f 6 2 ≠ 0 || 2 ^ 20 ≤ pasid || m.f 14 2 ≠ 0 || m.f 56 8 ≠ 0)
    let known := p < 12 && (s.part p).state != .free
    let bad := m.badLength 64 || 12 ≤ p || fn = 0 || 3 < fn || resv || beaconCount ≤ beacon ||
      base % 4096 ≠ 0 || size % 4096 ≠ 0 || 2 ^ (s.link l).getBar2Log2 1 / 256 < size ||
      (fn ≠ 1 && (beacon ≠ 0 || size ≠ 0)) || m.f 32 8 % 4096 ≠ 0 || m.f 40 8 % 4096 ≠ 0 ||
      (if dlog then pages = 0 || pages % 8 ≠ 0 else pages ≠ 0) ||
      !(s.tgt base).windowed || rid ≠ ((s.link l).getFns fn).rid.toNat
    let same := s.slices.any fun e => match e.2 with
      | some x => s.partHub x.part = l && x.rid.toNat = rid && x.pasid.toNat = pasid
      | none => false
    let st := firstFault
      [(St.notPermitted, m.src.mctp || (known && !m.onLink l) || (known && fn = 1 && beacon < beaconCount && !s.beaconOfPart p beacon)),
       (St.badParam, bad), (St.stateError, (s.slice k).isSome || (p < 12 && (s.part p).state != .active) || same)]
    if st ≠ St.ok then s.answer m.src st []
    else
      let x : Slice := { Slice.reset with
        part := p, func := fn, rid := BitVec.ofNat 16 rid, pasid := BitVec.ofNat 20 pasid, beacon := BitVec.ofNat 15 beacon
        winBase := BitVec.ofNat 64 base, winSize := BitVec.ofNat 64 size, dlog := dlog
        logBase := BitVec.ofNat 64 (m.f 32 8), logIova := BitVec.ofNat 64 (m.f 40 8), logPages := BitVec.ofNat 64 pages }
      (s.setSlice k (some x)).answer m.src St.ok []

/-- The NVMe queues bound to a slice are deleted and unbound (R326, R406). -/
def State.dropNvBinds (s : State) (l k : Nat) : State :=
  let qs := ((s.nvme l).bind.filter fun e => e.2 = k + 1).map (·.1)
  (qs.foldl (fun s q =>
    (s.dropSqCmds l q).modNvme l fun v =>
      { ((v.setSqs q NvQ.reset).setCqs q NvQ.reset).setBind q 0 with masks := SMap.del v.masks q }) s).showSqs l

/-- SLICE_DESTROY (R326): the slice's engines stop, its queues go, its device requests are refused, and the reply follows
once no request of its PASID is left on the link. -/
def execSliceDestroy (hub : Fin 2) (page : Fin 64) (s : State) : Res :=
  withMsg 0x0221 hub page s fun s m =>
    let k := m.f 0 1
    match s.slice k with
    | none => s.answer m.src (if m.src.mctp then St.notPermitted else if m.badLength 1 then St.badParam else St.stateError) []
    | some x =>
      let l := s.partHub x.part
      let st := firstFault
        [(St.notPermitted, !m.onLink l), (St.badParam, m.badLength 1), (St.stateError, x.dying.isSome)]
      if st ≠ St.ok then s.answer m.src st []
      else
        let s := { s with jobqs := SMap.keep (fun q => q / 16 ≠ k) s.jobqs }
        let s := ((s.dropQps l (some k)).dropNvBinds l k).dropSkeys x.part (some k)
        (s.setSlice k (some { x with dying := some m.src })).settleSlices l

/-- DLOG_SWAP (R329): the other bitmap becomes active, and MISSED is reported and reset. Every write made under the old
bitmap has had its bit written, since each is one step. The host has zeroed the bitmap that becomes active. -/
def execDlogSwap (hub : Fin 2) (page : Fin 64) (s : State) : Res :=
  withMsg 0x0222 hub page s fun s m =>
    let k := m.f 0 1
    match s.slice k with
    | none => s.answer m.src (if m.src.mctp then St.notPermitted else if m.badLength 1 then St.badParam else St.stateError) []
    | some x =>
      let st := firstFault
        [(St.notPermitted, !m.onLink (s.partHub x.part)), (St.badParam, m.badLength 1),
         (St.stateError, !x.dlog || x.dying.isSome)]
      if st ≠ St.ok then s.answer m.src st []
      else
        let now := !x.active
        let gone (i : Nat) : Bool := (i / 2 ^ 64 = 1) != now
        let y := { x with active := now, missed := 0#32, bits := SMap.keep gone x.bits }
        (s.setSlice k (some y)).answer m.src St.ok
          ([if now then 1#8 else 0#8] ++ List.replicate 3 0#8 ++ leBytes 4 x.missed.toNat)

end Sys2Proof.Machine
end

