-- ==== Sys2Proof/Machine/KvPages.lean ====
section
/-! DEFINITION. The page mover and the prefix index (08_kv_pages.md R231-R260). -/
namespace Sys2Proof.Machine

/-! ## Page formats (R232-R234) -/

/-- A page-format descriptor. -/
structure PgFmt where
  elem : Nat
  bs16 : Bool
  heads : Nat
  group : Nat
  layer : Nat
  pos : Nat
  dim : Nat
  wellFormed : Bool
  deriving DecidableEq, Repr

/-- Bits of an element and elements of a block. -/
def PgFmt.bits (f : PgFmt) : Nat := if f.elem = 0 then 4 else 8
def PgFmt.block (f : PgFmt) : Nat := if f.bs16 then 16 else 32
def PgFmt.ke (f : PgFmt) : Nat := f.pos * f.heads * f.dim * f.bits / 8
def PgFmt.ks (f : PgFmt) : Nat := f.pos * f.heads * f.dim / f.block
/-- USED (R233). -/
def PgFmt.used (f : PgFmt) : Nat := 2 * f.ke + 2 * f.ks

def PgFmt.ofBytes (b : Bytes) : PgFmt :=
  let x := leNat b
  let f : PgFmt := { elem := natBits x 0 8, bs16 := natBits x 8 1 = 1, heads := natBits x 16 8, group := natBits x 24 8
                     layer := natBits x 32 16, pos := natBits x 48 11, dim := natBits x 64 12, wellFormed := true }
  let ok := natBits x 76 52 = 0 && natBits x 59 5 = 0 && natBits x 9 7 = 0 && f.elem ≤ 2 && !(f.bs16 && f.elem ≠ 0) &&
    0 < f.heads && f.pos % 32 = 0 && 32 ≤ f.pos && f.pos ≤ 1024 && f.dim % 32 = 0 && 32 ≤ f.dim && f.dim ≤ 2048
  { f with wellFormed := ok && f.used ≤ 65536 }

/-! ## Rings (R243-R245) -/

/-- The page that serves a kind of ring on a hub. -/
def RingKind.page (k : RingKind) (hub : Nat) : Page :=
  match k with
  | .mover => ⟨.mov, hub⟩
  | .index => ⟨.pfx, hub⟩

/-- Register words of a ring block, by byte offset in the block (R259, R260). -/
def RingKind.word (k : RingKind) (hub p off : Nat) : Nat :=
  (k.page hub).base + 0x100 + (match k with
    | .mover => 0x20
    | .index => 0x40) * p + off

def State.ringField (s : State) (k : RingKind) (hub p off lo len : Nat) : Nat :=
  natBits (s.reg (k.word hub p off)).toNat lo len

def State.ringOf (s : State) (k : RingKind) (p : Nat) : Ring :=
  match k with
  | .mover => s.movRing p
  | .index => s.pfxRing p

def State.modRing (s : State) (k : RingKind) (p : Nat) (f : Ring → Ring) : State :=
  match k with
  | .mover => s.modMovRing p f
  | .index => s.modPfxRing p f

/-- A ring that R244 refuses to serve; sizes above 2^10 are reserved. -/
def State.kvRingBad (s : State) (k : RingKind) (hub p : Nat) : Bool :=
  let f := s.ringField k hub p
  let n := f 8 16 4
  !s.beaconOfPart p (f 8 0 15) || !s.beaconOfPart p (f 12 0 15) || !s.beaconOfPart p (f 12 16 15) || 10 < n ||
    2 ^ 26 < f 0 6 20 * 64 + 2 ^ n * 32 || 2 ^ 26 < f 4 6 20 * 64 + 2 ^ n * 32

/-- At enable of a MOV or PFX page a bad ring sets BAD_RING (R244, R259). -/
def State.checkKvRings (s : State) (k : RingKind) (hub : Nat) : State :=
  if (List.range 12).any fun p => s.ringField k hub p 8 31 1 = 1 && s.kvRingBad k hub p then s.err (k.page hub) 16 else s

def Engine.ofRing : RingKind → Engine
  | .mover => .mov
  | .index => .pfx

/-- The requester a ring's engine acts as. -/
def ringReq (k : RingKind) (hub p : Nat) : Req := .hub (Fin.ofNat 2 hub) (.ofRing k) (Fin.ofNat 12 p)

/-- MOV_ACTIVE follows the commands in progress (R252, R259). -/
def State.movActive (s : State) (hub : Nat) : Nat :=
  ((List.range 12).map fun p => if s.partHub p = hub then ((s.movRing p).cmds.filter (·.phase != .done)).length else 0).sum

def State.showActive (s : State) (hub : Nat) : State := s.wr (Reg.MOV_ACTIVE hub) (s.movActive hub)

def MovCmd.op (m : MovCmd) : Nat := fieldAt m.bytes 0 1
def MovCmd.handle (m : MovCmd) : Nat := fieldAt m.bytes 4 4
def MovCmd.dest (m : MovCmd) : Nat := fieldAt m.bytes 8 8

/-- A command finishes with a status, an index and a result (R245). -/
def State.finishCmd (s : State) (k : RingKind) (p slot : Nat) (st : BitVec 8) (index result : Nat) : State :=
  let s := s.modRing k p fun r =>
    { r with cmds := r.cmds.map fun m =>
        if m.slot = slot then
          { m with phase := .done, acks := [], status := st, index := BitVec.ofNat 32 index, result := BitVec.ofNat 64 result }
        else m }
  s.showActive (s.partHub p)

/-- Reserved fields of a mover command are zero (R246). -/
def movReserved (b : Bytes) : Bool := fieldAt b 2 2 = 0 && fieldAt b 17 7 = 0 && fieldAt b 1 1 < 2

/-- The watch by which the engine of a ring learns that SUBMIT has reached its next slot (R187, R243). -/
def ringSubmit (k : RingKind) (hub p submit taken : Nat) : Watch :=
  { bid := submit, target := BitVec.ofNat 32 (taken + 1), tag := BitVec.ofNat 16 p, hub := hub, engine := .ofRing k }

/-- Commands of a partition that its teardown has begun to end complete with STATE_ERROR (R318). -/
def State.tornDown (s : State) (p : Nat) : Bool := (s.part p).state != .active

/-- The engine of a ring would take its next slot: it is served and has room for one command more (R243, R244, R252, R258). -/
def State.kvRingOpen (s : State) (k : RingKind) (h p : Nat) : Bool :=
  let r := s.ringOf k p
  let room : Bool := match k with
    | .mover => (r.cmds.filter (·.phase != .done)).length < 16 && s.movActive h < 64
    | .index => r.cmds.isEmpty
  room && s.st (k.page h) = PS.enabled && s.ringField k h p 8 31 1 = 1 && !s.kvRingBad k h p &&
    ((s.part p).state == .active || (s.part p).state == .destroying)

/-- A command waits in a ring that would be taken from. -/
def State.kvRingWaits (s : State) (k : RingKind) (h p : Nat) : Bool :=
  let submit := s.ringField k h p 8 0 15
  s.kvRingOpen k h p && !s.clusterGone (submit / 128) &&
    reaches (s.beacon submit) (BitVec.ofNat 32 ((s.ringOf k p).taken + 1))

/-- MOV_CMD_TAKE (R243, R252, R255, R318): a mover or prefix-index ring gives its next slot once SUBMIT reaches it, which the
engine learns by watch. A mover runs 64 commands at once and 16 of one ring, an index ring one; the rings of several partitions are served in their windows and turns
(R320, R321). A slot with a reserved OP, one
that cannot be read, or one of a partition that is torn down, finishes at once. -/
def execMovCmdTake (k : RingKind) (part : Fin 12) (now : Nat) (s : State) : Res :=
  let p := part.val
  let h := s.partHub p
  let r := s.ringOf k p
  let n := s.ringField k h p 8 16 4
  let submit := s.ringField k h p 8 0 15
  if !s.kvRingOpen k h p ∨ !s.mayServe h (Engine.ofRing k).num p now 1 (s.kvRingWaits k h) then .next s
  else
    let l := s.learn (ringSubmit k h p submit r.taken)
    if !l.fired then .next l.state
    else
    let s := l.state.served h (Engine.ofRing k).num p now
    let a := sramBase + h * 2 ^ 26 + s.ringField k h p 0 6 20 * 64 + r.taken % 2 ^ n * 32
    let x := s.readMem (ringReq k h p) a 32
    let m : MovCmd := { MovCmd.reset with slot := r.taken, bytes := x.2.data ++ List.replicate (32 - x.2.data.length) 0#8 }
    let s := x.1.modRing k p fun r => { r with taken := r.taken + 1, cmds := r.cmds ++ [m] }
    let last := match k with
      | .mover => 5
      | .index => 3
    if s.tornDown p then .next (s.finishCmd k p m.slot St.stateError 0xFFFFFFFF 0)
    else if x.2.status ≠ St.ok then .next (s.finishCmd k p m.slot x.2.status 0xFFFFFFFF 0)
    else if x.2.poison then .next (s.finishCmd k p m.slot St.poisoned 0xFFFFFFFF 0)
    else if m.op = 0 ∨ last < m.op then .next (s.finishCmd k p m.slot St.badParam 0xFFFFFFFF 0)
    else .next (s.showActive h)

/-- MOV_RECORD_WRITE (R243, R245, R259): the record of the oldest command taken is written once it has finished, then DONE
and CREDIT are signalled; a status other than OK sets CMD_FAIL and counts in the bucket. -/
def execMovRecordWrite (k : RingKind) (part : Fin 12) (s : State) : Res := orHeld s <|
  let p := part.val
  let h := s.partHub p
  match (s.ringOf k p).cmds with
  | [] => .next s
  | m :: rest =>
    if m.phase ≠ .done then .next s
    else
      let n := s.ringField k h p 8 16 4
      let a := sramBase + h * 2 ^ 26 + s.ringField k h p 4 6 20 * 64 + m.slot % 2 ^ n * 32
      let rec_ := (m.bytes.drop 24).take 8 ++ [m.status, BitVec.ofNat 8 m.op, 0#8, 0#8] ++ leBytes 4 m.index.toNat ++
        leBytes 8 m.result.toNat ++ List.replicate 8 0#8
      let s := (s.writeMem (ringReq k h p) a rec_ false).1
      let s := s.modRing k p fun r => { r with cmds := rest, recorded := r.recorded + 1 }
      let s := s.sigHub h (.ofRing k) (s.ringField k h p 12 16 15) 1#32
      let s := s.sigHub h (.ofRing k) (s.ringField k h p 12 0 15) 1#32
      if m.status = St.ok then .next s else .next ((s.err (k.page h) 17 Sev.corrected p).bucket (k.page h))

/-! ## Page mover commands (R246-R252) -/

/-- An address a page may lie at in tier 2 (R231). -/
def pageInT2 (a : Nat) : Bool := a % 65536 = 0 && t2Base ≤ a && a < t2Base + 32 * t2Size

/-- The tier that DEST names, whose form tells an address from a namespace block by nothing but the command (R235, R246): a
DEMOTE goes to tier 2, from HBM alone and where the address is a page's place there, else to an SSD; any other command to HBM or
tier 2, and SSD stands for an address that is no page's place in either. DEDUCED (log 107). -/
def destTier (op from_ dest : Nat) : Nat :=
  if op = 2 then (if from_ ≠ Pg.t2 ∧ pageInT2 dest then Pg.t2 else Pg.ssd)
  else if dest % 65536 = 0 ∧ dest < hbmEnd then Pg.hbm
  else if pageInT2 dest then Pg.t2
  else Pg.ssd

/-- Namespace and block of an SSD address (R235). -/
def ssdAddr (a : Nat) : Nat × Nat := (a / 2 ^ 38 % 1024 + 1, a % 2 ^ 38)

/-- A namespace block a page may lie at (R231, R251). -/
def State.ssdOk (s : State) (p a : Nat) : Bool :=
  let x := ssdAddr a
  match s.ns x.1 with
  | some n => !n.volatile && !n.lbaf && n.part = p && x.2 % 16 = 0 && x.2 + 16 ≤ n.size
  | none => false

/-- All 16 granules of a page are within the partition's rights (R217). -/
def State.pageRights (s : State) (r : Req) (a : Nat) : Bool :=
  (List.range 16).all fun i => s.permitted r (s.tgt (a + 4096 * i))

/-- All 16 granules of a page are mapped: a removed tier-2 unit leaves its range unmapped (R35). -/
def State.pageMapped (s : State) (a : Nat) : Bool := (List.range 16).all fun i => s.tgt (a + 4096 * i) != .unmapped

/-- The mover's requester for a partition. -/
def State.movReq (s : State) (p : Nat) : Req := ringReq .mover (s.partHub p) p

def State.ptBase (s : State) (p : Nat) : Nat :=
  let h := s.partHub p
  s.rd (Reg.MOV_PT_BASE_LO h p) * 16 + s.rd (Reg.MOV_PT_BASE_HI h p) * 2 ^ 32

/-- Reads entry hd of the page table; the status is that of the read. -/
def State.readPt (s : State) (p hd : Nat) : State × BitVec 8 × PtEntry :=
  let x := s.readMem (s.movReq p) (s.ptBase p + 16 * hd) 16
  (x.1, if x.2.status ≠ St.ok then x.2.status else if x.2.poison then St.poisoned else St.ok, PtEntry.ofBytes x.2.data)

/-- Writes an entry as one 16-byte unit (R237). -/
def State.writePt (s : State) (p hd : Nat) (e : PtEntry) : State :=
  (s.writeMem (s.movReq p) (s.ptBase p + 16 * hd) e.bytes false).1

/-- Reads descriptor f of the format table; an unreadable descriptor is not well formed. -/
def State.readFmt (s : State) (p f : Nat) : State × PgFmt :=
  let h := s.partHub p
  let x := s.readMem (s.movReq p) (sramBase + h * 2 ^ 26 + s.rd (Reg.MOV_FMT_BASE h p) * 64 + 16 * f) 16
  let d := PgFmt.ofBytes x.2.data
  (x.1, { d with wellFormed := d.wellFormed && x.2.status = St.ok && !x.2.poison })

/-- The oldest taken command of the mover ring with an OP that no unfinished earlier command of the ring holds back by
naming the same handle (R252). -/
def State.nextMov (s : State) (p op : Nat) : Option MovCmd :=
  let cmds := (s.movRing p).cmds
  cmds.find? fun m => m.phase == .taken && m.op = op &&
    cmds.all fun e => e.slot ≥ m.slot || e.phase == .done || e.handle ≠ m.handle

/-- Runs `f` on the next command with an OP and its page table entry; a handle beyond the table or an entry that cannot be
read finishes it. -/
def withMov (part : Fin 12) (op : Nat) (s : State) (f : State → MovCmd → PtEntry → State) : Res := orHeld s <|
  let p := part.val
  match s.nextMov p op with
  | none => .next s
  | some m =>
    if s.tornDown p then .next (s.finishCmd .mover p m.slot St.stateError m.handle 0)
    else if s.rd (Reg.MOV_PT_COUNT (s.partHub p) p) ≤ m.handle ∨ !movReserved m.bytes then
      .next (s.finishCmd .mover p m.slot St.badParam m.handle 0)
    else
      let x := s.readPt p m.handle
      if x.2.1 ≠ St.ok then .next (x.1.finishCmd .mover p m.slot x.2.1 m.handle 0) else .next (f x.1 m x.2.2)

/-- INIT (R246): a FREE entry takes a page in HBM or tier 2. -/
def execInit (part : Fin 12) (s : State) : Res :=
  withMov part 1 s fun s m e =>
    let p := part.val
    let nf := fieldAt m.bytes 16 1
    let x := s.readFmt p nf
    let tier := destTier 1 Pg.free m.dest
    let st := firstFault
      [(St.notPermitted, tier ≠ Pg.ssd && !s.pageRights (s.movReq p) m.dest),
       (St.badParam, tier = Pg.ssd || !s.pageMapped m.dest || !x.2.wellFormed), (St.stateError, e.state ≠ Pg.free)]
    if st ≠ St.ok then x.1.finishCmd .mover p m.slot st m.handle 0
    else
      let s := x.1.writePt p m.handle
        { addr := m.dest, state := tier, ro := false, prev := 0, fmt := nf, refs := 1, user := 0 }
      s.finishCmd .mover p m.slot St.ok m.handle 0

/-- SHARE (R246): the page becomes read-only. -/
def execShare (part : Fin 12) (s : State) : Res :=
  withMov part 5 s fun s m e =>
    let p := part.val
    if e.state = Pg.free then s.finishCmd .mover p m.slot St.stateError m.handle 0
    else (s.writePt p m.handle { e with ro := true }).finishCmd .mover p m.slot St.ok m.handle 0

/-- The page fence of a command goes out to every cluster of the partition that serves (R242, R247). -/
def State.sendFence (s : State) (p slot : Nat) : State :=
  let cs := (List.range 160).filter fun gc => (s.part p).clusters.getLsbD gc && !s.clusterGone gc
  s.modMovRing p fun r =>
    { r with cmds := r.cmds.map fun m => if m.slot = slot then { m with phase := .fence, acks := cs } else m }

/-- REF (R246): adds a signed delta to REFCNT; at 0 the page is freed after a page fence. -/
def execRef (part : Fin 12) (s : State) : Res :=
  withMov part 4 s fun s m e =>
    let p := part.val
    let d := signedOf 16 (m.dest % 65536)
    let n := (e.refs : Int) + d
    let bad := m.dest ≥ 65536 || d = 0 || n < 0 || 65535 < n
    if bad then s.finishCmd .mover p m.slot St.badParam m.handle 0
    else if e.state = Pg.free then s.finishCmd .mover p m.slot St.stateError m.handle 0
    else
      let s := s.writePt p m.handle { e with refs := n.toNat }
      if n = 0 then
        (s.modMovRing p fun r => { r with cmds := r.cmds.map fun c =>
          if c.slot = m.slot then { c with result := BitVec.ofNat 64 e.addr } else c }).sendFence p m.slot
      else s.finishCmd .mover p m.slot St.ok m.handle 0

/-- REQUANT's demands on the formats (R248). -/
def requantOk (src dst : PgFmt) : Bool :=
  src.elem ≠ 0 && dst.elem = 0 && src.layer = dst.layer && src.group = dst.group && src.heads = dst.heads &&
    src.pos = dst.pos && src.dim = dst.dim

/-- The locks of a command of the mover on the storage controller (R251, R414). -/
def State.moverLock (s : State) (link p slot : Nat) (nsid slba nlb : Nat) (write : Bool) : State :=
  s.lockTake link { NvCmd.reset with
    sq := moverSq + p, cid := BitVec.ofNat 16 slot, opc := if write then 1#8 else 2#8, nsid := nsid, slba := slba
    nlb := nlb, locks := [(slba, nlb, write)], started := true }

/-- A move starts (R247): the checks, then PREV and MOVING; a move to or from an SSD takes its lock entry. -/
def startMove (part : Fin 12) (op : Nat) (s : State) : Res := orHeld s <|
  withMov part op s fun s m e =>
    let p := part.val
    let link := s.partHub p
    let requant := fieldAt m.bytes 1 1 = 1
    let nf := fieldAt m.bytes 16 1
    let f0 := s.readFmt p e.fmt
    let f1 := f0.1.readFmt p nf
    let tier := destTier op e.state m.dest
    let down := (e.state = Pg.hbm && (tier = Pg.t2 || tier = Pg.ssd)) || (e.state = Pg.t2 && tier = Pg.ssd)
    let up := (e.state = Pg.ssd && (tier = Pg.t2 || tier = Pg.hbm)) || (e.state = Pg.t2 && tier = Pg.hbm)
    let stateOk := if op = 2 then e.state = Pg.hbm || e.state = Pg.t2 else e.state = Pg.ssd || e.state = Pg.t2
    let ssd (a : Nat) : Bool := !s.ssdOk p a
    let off (a : Nat) : Bool := match s.ns (ssdAddr a).1 with
      | some n => n.part = p && n.offline
      | none => false
    let bad := (if op = 2 then stateOk && !down else stateOk && !up) || (op = 3 && requant) || !f0.2.wellFormed ||
      (requant && (!f1.2.wellFormed || !requantOk f0.2 f1.2)) || 2 ^ 48 ≤ m.dest ||
      (tier ≠ Pg.ssd && !s.pageMapped m.dest) || (tier = Pg.ssd && ssd m.dest) || (e.state = Pg.ssd && ssd e.addr)
    let st := firstFault
      [(St.unitAbsent, (tier = Pg.ssd && off m.dest) || (e.state = Pg.ssd && off e.addr)),
       (St.notPermitted, tier ≠ Pg.ssd && !s.pageRights (s.movReq p) m.dest), (St.badParam, bad),
       (St.stateError, !stateOk || (requant && e.ro))]
    let s := f1.1
    let used := ((if requant then f1.2.used else f0.2.used) + 4095) / 4096
    let viaSsd := tier = Pg.ssd || e.state = Pg.ssd
    if st ≠ St.ok then s.finishCmd .mover p m.slot st m.handle 0
    else if viaSsd ∧ lockMax < (s.nvme link).locksHeld + 1 then
      -- too few lock entries: the move waits to be fetched (R414)
      s.bump (Reg.NVC_LOCK_STALL link)
    else
      let a := ssdAddr (if tier = Pg.ssd then m.dest else e.addr)
      let s := if viaSsd then s.moverLock link p m.slot a.1 a.2 used (tier = Pg.ssd) else s
      let s := s.writePt p m.handle { e with prev := e.state, state := Pg.moving }
      s.modMovRing p fun r => { r with cmds := r.cmds.map fun c =>
        if c.slot = m.slot then { c with phase := .run, result := BitVec.ofNat 64 e.addr } else c }

/-- DEMOTE (R246, R247): starts the move of a page to a lower tier. -/
def execDemote (part : Fin 12) (s : State) : Res := startMove part 2 s

/-- PROMOTE (R246, R247): starts the move of a page to a higher tier. -/
def execPromote (part : Fin 12) (s : State) : Res := startMove part 3 s

/-- A page's bytes with a poison mark per line of 64. -/
structure PageData where
  bytes : Bytes
  marks : List Bool
  status : BitVec 8

/-- Reads n bytes of a page in memory line by line. -/
def State.readPage (s : State) (r : Req) (a n : Nat) : State × PageData :=
  (List.range ((n + 63) / 64)).foldl (fun (acc : State × PageData) i =>
    if acc.2.status ≠ St.ok then acc
    else
      let x := acc.1.readMem r (a + 64 * i) 64
      (x.1, ⟨acc.2.bytes ++ x.2.data, acc.2.marks ++ [x.2.poison], x.2.status⟩)) (s, ⟨[], [], St.ok⟩)

/-- Writes a page to memory line by line, with its marks. -/
def State.writePage (s : State) (r : Req) (a : Nat) (d : PageData) : State × BitVec 8 :=
  (List.range (d.bytes.length / 64)).foldl (fun (acc : State × BitVec 8) i =>
    if acc.2 ≠ St.ok then acc
    else acc.1.writeMem r (a + 64 * i) ((d.bytes.drop (64 * i)).take 64) (d.marks.getD i false)) (s, St.ok)

/-- Elements of a block that saturate: finite and above the top magnitude at the largest scale (R84, R248). -/
def satCount (xs : List Ex) : Nat := (xs.filter fun x => x.isFinite && !x.isZero && x.cmpHalf 126 == .gt).length

/-- Requantises a page from MXFP8 to GL4 (R95, R96, R233, R248): the page, and the number of saturated elements. Every
destination line that depends on a poisoned source line is marked. -/
def requantPage (src dst : PgFmt) (d : PageData) : PageData × Nat :=
  let f : OFmt := if src.elem = 1 then .e4m3 else .e5m2
  let nb := 2 * (src.ke / 32)
  let per := if dst.bs16 then 2 else 1
  let marked (byte : Nat) : Bool := d.marks.getD (byte / 64) false
  let out := (List.range nb).map fun j =>
    let elems := fieldAt d.bytes (32 * j) 32
    let scale := fieldAt d.bytes (2 * src.ke + j) 1
    let xs := (List.range 32).map fun i => Ex.flt (mxValue f scale elems i)
    let halves := if dst.bs16 then [xs.take 16, xs.drop 16] else [xs]
    let bs := halves.map fun h => quantBlock .gl4 none false h 1#32
    (bs, satCount xs, marked (32 * j) || marked (2 * src.ke + j))
  let codes := out.flatMap fun o => leBytes 16 (packElems 4 (o.1.flatMap (·.codes)))
  let scales := out.flatMap fun o => o.1.map fun b => BitVec.ofNat 8 b.scale
  let used := codes ++ scales
  let full := used ++ List.replicate (65536 - used.length) 0#8
  let bad := (List.range nb).filter fun j => (out.getD j ([], 0, false)).2.2
  let badLines := bad.flatMap fun j => [16 * j / 64, (codes.length + per * j) / 64]
  (⟨full, (List.range 1024).map fun i => badLines.contains i, St.ok⟩, (out.map (·.2.1)).sum)

/-- What a move has read before its copy: the entry, its format, and the format of the result. -/
structure MoveRead where
  /-- the state after the reads -/
  state : State
  /-- the page's entry -/
  entry : PtEntry
  /-- its format -/
  fmt : PgFmt
  /-- the format named by the command -/
  newFmt : PgFmt

/-- What a move has read once the format named by its command is read. -/
def MoveRead.ofNew (e : PtEntry) (f0 : PgFmt) (f1 : State × PgFmt) : MoveRead := ⟨f1.1, e, f0, f1.2⟩

/-- What a move goes on to read from the page's format. -/
def MoveRead.ofFmt (p : Nat) (m : MovCmd) (e : PtEntry) (f0 : State × PgFmt) : MoveRead :=
  MoveRead.ofNew e f0.2 (f0.1.readFmt p (fieldAt m.bytes 16 1))

/-- What a move goes on to read from its entry. -/
def MoveRead.ofEntry (p : Nat) (m : MovCmd) (x : State × BitVec 8 × PtEntry) : MoveRead :=
  MoveRead.ofFmt p m x.2.2 (x.1.readFmt p x.2.2.fmt)

/-- The entry and the two formats of a move. -/
def State.moveRead (s : State) (p : Nat) (m : MovCmd) : MoveRead := MoveRead.ofEntry p m (s.readPt p m.handle)

/-- A move that converts (R251). -/
def MovCmd.requant (m : MovCmd) : Bool := fieldAt m.bytes 1 1 = 1

/-- The status of R12 that a storage outcome maps to: 0 is OK; which code another one takes is not stated: free, and not OK
(R249, R251). An unrecovered block is poison, no error (R417). DESIGN CHOICE (log 95). -/
def State.storageStatus (s : State) (ssd : BitVec 15) : BitVec 8 :=
  if ssd = 0#15 ∨ ssd = 0x281#15 then St.ok else BitVec.ofNat 8 (1 + s.free 0 % 13)

/-- The page a move copies: a page on an SSD is read with one command to its member; `blocks` is what the SSD returned and `ssd`
the storage outcome (R249, R251, R417). The command and its outcome fall in one step. DESIGN CHOICE (log 95). -/
def State.moveSource (s : State) (p : Nat) (e : PtEntry) (len : Nat) (ssd : BitVec 15) (blocks : List (BitVec 8)) : State × PageData :=
  if e.prev = Pg.ssd then
    let a := ssdAddr e.addr
    match s.ns a.1 with
    | some n =>
      if n.offline then (s, ⟨[], [], St.unitAbsent⟩)
      else
        let place := n.place a.2
        let t := (s.pipeBlocks n (len / 4096)).out (.ssd place.2.1.port 2#8 place.2.1.nsid place.2.2 (len / 4096) false [])
        let data := s.xtsBlocks a.1 n false a.2 ((blocks ++ List.replicate (len - blocks.length) 0#8).take len)
        let lost : Bool := ssd = 0x281#15
        (t.draw, ⟨if lost then List.replicate len 0#8 else data, List.replicate (len / 64) lost, s.storageStatus ssd⟩)
    | none => (s, ⟨[], [], St.unitAbsent⟩)
  else s.readPage (s.movReq p) e.addr len

/-- A page written to its namespace; blocks with poisoned lines become uncorrectable (R417). -/
def State.pageToSsd (s : State) (dest n : Nat) (d : PageData) (ssd : BitVec 15) : State × BitVec 8 :=
  let a := ssdAddr dest
  match s.ns a.1 with
  | some x =>
    if x.offline then (s, St.unitAbsent)
    else
    let data := s.xtsBlocks a.1 x true a.2 (d.bytes.take (n * 4096))
    let place := x.place a.2
    let bad := (List.range n).filter fun i => ((d.marks.drop (64 * i)).take 64).any id
    let t := (alikeRuns bad 0 n).foldl (fun t r =>
      let m := place.2.1
      if bad.contains r.1 then t.out (.ssd m.port 4#8 m.nsid (place.2.2 + r.1) r.2 false [])
      else t.out (.ssd m.port 1#8 m.nsid (place.2.2 + r.1) r.2 false ((data.drop (4096 * r.1)).take (4096 * r.2)))) (s.pipeBlocks x n)
    (t.draw, s.storageStatus ssd)
  | none => (s, St.unitAbsent)

/-- The page of a move reaches its destination, unless its source failed. -/
def State.moveDest (p : Nat) (m : MovCmd) (tier n : Nat) (d : PageData) (ssd : BitVec 15) (src : State × PageData) :
    State × BitVec 8 :=
  if src.2.status ≠ St.ok then (src.1, src.2.status)
  else if tier = Pg.ssd then src.1.pageToSsd m.dest n d ssd
  else src.1.writePage (src.1.movReq p) m.dest d

/-- The end of a copy: `out` is the destination's state and status. -/
def State.moveEnd (p : Nat) (m : MovCmd) (e : PtEntry) (sat : Nat) (poisoned : Bool) (cmd : Option NvCmd) (out : State × BitVec 8) :
    State :=
  let link := out.1.partHub p
  let s := match cmd with
    | some c => out.1.lockDrop link c.num
    | none => out.1
  let s := s.bump (Reg.MOV_SAT link) sat
  if out.2 ≠ St.ok then (s.writePt p m.handle { e with state := e.prev }).finishCmd .mover p m.slot out.2 m.handle 0
  else
    let st := if poisoned then St.poisoned else St.ok
    let s := s.modMovRing p fun r => { r with cmds := r.cmds.map fun c => if c.slot = m.slot then { c with status := st } else c }
    s.sendFence p m.slot

/-- A page as a plain move writes it: the bytes below USED and the marks of their lines; the rest is zero (R233, R247).
DEDUCED (log 107). -/
def plainPage (used : Nat) (d : PageData) : PageData :=
  ⟨d.bytes.take used ++ List.replicate (65536 - min used d.bytes.length) 0#8,
   (List.range 1024).map fun i => 64 * i < used && d.marks.getD i false, d.status⟩

/-- The copy of a move, its source read as `src`: converted where the command asks for it (R248), and written. -/
def State.moveCopy (p : Nat) (m : MovCmd) (r : MoveRead) (ssd : BitVec 15) (cmd : Option NvCmd) (src : State × PageData) : State :=
  let conv : PageData × Nat :=
    if m.requant then requantPage r.fmt r.newFmt src.2
    else (plainPage r.fmt.used src.2, 0)
  let n := ((if m.requant then r.newFmt.used else r.fmt.used) + 4095) / 4096
  State.moveEnd p m r.entry conv.2 (conv.1.marks.any id) cmd
    (State.moveDest p m (destTier m.op r.entry.prev m.dest) n conv.1 ssd src)

/-- A copy that finishes, with what its move had read. -/
def MoveRead.finish (r : MoveRead) (p : Nat) (m : MovCmd) (ssd : BitVec 15) (blocks : List (BitVec 8)) (cmd : Option NvCmd) : State :=
  State.moveCopy p m r ssd cmd (r.state.moveSource p r.entry ((r.fmt.used + 4095) / 4096 * 4096) ssd blocks)

/-- MOVE_COPY_DONE (R247-R249, R251): the copy of a move finishes. `ssd` is the storage outcome, and `blocks` what the SSD
returned for a page read from it. A failed copy restores the entry; a good one sends the page fence. -/
def execMoveCopyDone (part : Fin 12) (slot : Nat) (ssd : BitVec 15) (blocks : List (BitVec 8)) (s : State) : Res := orHeld s <|
  let p := part.val
  let link := s.partHub p
  match (s.movRing p).cmds.find? (fun m => m.slot = slot && m.phase == .run) with
  | none => .next s
  | some m =>
    let cmd := (s.nvme link).cmds.find? fun c => c.sq = moverSq + p && c.cid = BitVec.ofNat 16 slot
    let waits : Bool := match cmd with
      | some c => !(s.nvme link).free c
      | none => false
    if waits then .next s else .next ((s.moveRead p m).finish p m ssd blocks cmd)

/-- MOVE_FENCE_DONE (R246, R247): every cluster has answered the fence, or is gone; the entry of a move takes its new
place, and that of a REF to 0 becomes FREE. -/
def execMoveFenceDone (part : Fin 12) (slot : Nat) (s : State) : Res := orHeld s <|
  let p := part.val
  match (s.movRing p).cmds.find? (fun m => m.slot = slot && m.phase == .fence) with
  | none => .next s
  | some m =>
    if !(m.acks.all fun gc => s.clusterGone gc) then .next s
    else
      let x := s.readPt p m.handle
      let e := x.2.2
      let e' : PtEntry :=
        if m.op = 4 then { e with state := Pg.free, addr := 0, ro := false }
        else { e with addr := m.dest, state := destTier m.op e.prev m.dest
                      fmt := if fieldAt m.bytes 1 1 = 1 then fieldAt m.bytes 16 1 else e.fmt }
      .next ((x.1.writePt p m.handle e').finishCmd .mover p slot m.status m.handle m.result.toNat)

/-! ## The prefix index (R253-R258) -/

/-- The chained hash of a block (R253): bytes 0-7 of SM3 over the previous hash and 64 token ids. -/
def chainHash (h : Nat) (tokens : Bytes) : Nat := leNat ((sm3 (leBytes 8 h ++ tokens)).take 8)

def noEntry : Nat := 0xFFFFFFFF

/-- An index entry (R254). -/
structure PfxEntry where
  key : Nat
  value : Nat
  parent : Nat
  tok : Nat
  valid : Bool
  deriving DecidableEq, Repr

def PfxEntry.ofBytes (b : Bytes) : PfxEntry :=
  { key := fieldAt b 0 8, value := fieldAt b 8 4, parent := fieldAt b 12 4, tok := fieldAt b 16 6, valid := fieldAt b 22 1 % 2 = 1 }

def PfxEntry.bytes (e : PfxEntry) : Bytes :=
  leBytes 8 e.key ++ leBytes 4 e.value ++ leBytes 4 e.parent ++ leBytes 6 e.tok ++ [if e.valid then 1#8 else 0#8] ++
    List.replicate 9 0#8

def State.pfxBase (s : State) (p : Nat) : Nat :=
  let h := s.partHub p
  s.rd (Reg.PFX_TBL_BASE_LO h p) * 128 + s.rd (Reg.PFX_TBL_BASE_HI h p) * 2 ^ 32

def State.pfxSeed (s : State) (p : Nat) : Nat :=
  let h := s.partHub p
  s.rd (Reg.PFX_SEED_LO h p) + s.rd (Reg.PFX_SEED_HI h p) * 2 ^ 32

def State.pfxBuckets (s : State) (p : Nat) : Nat := 2 ^ s.rd (Reg.PFX_LOG2_BUCKETS (s.partHub p) p)

/-- The four entries of a bucket. -/
def State.readBucket (s : State) (p b : Nat) : State × BitVec 8 × List PfxEntry :=
  let x := s.readMem (ringReq .index (s.partHub p) p) (s.pfxBase p + 128 * b) 128
  let st := if x.2.status ≠ St.ok then x.2.status else if x.2.poison then St.poisoned else St.ok
  (x.1, st, (List.range 4).map fun w => PfxEntry.ofBytes ((x.2.data.drop (32 * w)).take 32))

/-- The 256 token bytes at an address. -/
def State.readTokens (s : State) (p a : Nat) : State × BitVec 8 × Bytes :=
  let x := s.readMem (ringReq .index (s.partHub p) p) a 256
  (x.1, if x.2.status ≠ St.ok then x.2.status else if x.2.poison then St.poisoned else St.ok, x.2.data)

def State.writeEntry (s : State) (p x : Nat) (e : PfxEntry) : State :=
  (s.writeMem (ringReq .index (s.partHub p) p) (s.pfxBase p + 32 * x) e.bytes false).1

/-- Progress of a LOOKUP (R255). -/
structure Lookup where
  state : State
  h : Nat
  parent : Nat
  m : Nat
  val : Nat
  status : BitVec 8
  ended : Bool

/-- The entry that matches a block's hash and parent, its tokens read as `u`: other tokens end the lookup as a false hit, the
same tokens take the block. -/
def Lookup.entry (l : Lookup) (p i h x : Nat) (tokens : Bytes) (e : PfxEntry) (u : State × BitVec 8 × Bytes) : Lookup :=
  if u.2.1 ≠ St.ok then { l with state := u.1, status := u.2.1, ended := true }
  else if u.2.2 ≠ tokens then { l with state := u.1.bump (Reg.PFX_FALSE (u.1.partHub p) p), ended := true }
  else { l with state := u.1, h := h, parent := x, m := i + 1, val := e.value }

/-- The bucket of a block's hash, read as `k`: the first way that is valid and has the hash and the parent. -/
def Lookup.way (l : Lookup) (p i h b : Nat) (tokens : Bytes) (k : State × BitVec 8 × List PfxEntry) : Lookup :=
  if k.2.1 ≠ St.ok then { l with state := k.1, status := k.2.1, ended := true }
  else
    match k.2.2.findIdx? (fun e => e.valid && e.key = h && e.parent = l.parent) with
    | none => { l with state := k.1, ended := true }
    | some w =>
      let e := k.2.2.getD w ⟨0, 0, 0, 0, false⟩
      l.entry p i h (4 * b + w) tokens e (k.1.readTokens p e.tok)

/-- Block i of a prompt, its tokens read as `t`. -/
def Lookup.block (l : Lookup) (p i : Nat) (t : State × BitVec 8 × Bytes) : Lookup :=
  if t.2.1 ≠ St.ok then { l with state := t.1, status := t.2.1, ended := true }
  else
    let h := chainHash l.h t.2.2
    let b := h % t.1.pfxBuckets p
    l.way p i h b t.2.2 (t.1.readBucket p b)

/-- The blocks of a prompt from block i on, n of them. -/
def lookupBlocks (p tok : Nat) : Nat → Nat → Lookup → Lookup
  | 0, _, l => l
  | n + 1, i, l =>
    let x := l.block p i (l.state.readTokens p (tok + 256 * i))
    if x.ended then x else lookupBlocks p tok n (i + 1) x

/-- The command at the head of an index ring, when it has this OP and has not run (R258). -/
def State.nextPfx (s : State) (p op : Nat) : Option MovCmd :=
  match (s.pfxRing p).cmds with
  | m :: _ => if m.phase == .taken && m.op = op then some m else none
  | [] => none

/-- Runs `f` on the command at the head of an index ring, when it has this OP; one of a partition that is torn down ends with
STATE_ERROR (R258, R318). -/
def withPfx (part : Fin 12) (op : Nat) (s : State) (f : MovCmd → Res) : Res := orHeld s <|
  match s.nextPfx part op with
  | none => .next s
  | some m => if s.tornDown part then .next (s.finishCmd .index part m.slot St.stateError noEntry 0) else f m

/-- Reserved fields of an index command are zero and its table is of a size in use (R255, R260). -/
def State.pfxFieldsOk (s : State) (p : Nat) (m : MovCmd) : Bool :=
  fieldAt m.bytes 1 3 = 0 && fieldAt m.bytes 20 4 = 0 && s.rd (Reg.PFX_LOG2_BUCKETS (s.partHub p) p) ≤ 24

/-- LOOKUP (R255): finds the longest prefix of verified blocks. -/
def execLookup (part : Fin 12) (s : State) : Res :=
  withPfx part 1 s fun m =>
    let p := part.val
    let n := m.handle
    if n = 0 ∨ 4096 < n ∨ 2 ^ 48 ≤ m.dest ∨ !s.pfxFieldsOk p m then
      .next (s.finishCmd .index p m.slot St.badParam noEntry 0)
    else
      let l := lookupBlocks p m.dest n 0 ⟨s, s.pfxSeed p, noEntry, 0, 0, St.ok, false⟩
      if l.status ≠ St.ok then .next (l.state.finishCmd .index p m.slot l.status noEntry 0)
      else .next (l.state.finishCmd .index p m.slot St.ok l.parent (l.m + l.val * 2 ^ 32))

/-- Entry x of the index, or none where the index has no such entry. -/
def State.readIndex (s : State) (p x : Nat) : State × BitVec 8 × Option PfxEntry :=
  if 4 * s.pfxBuckets p ≤ x then (s, St.ok, none)
  else
    let k := s.readBucket p (x / 4)
    (k.1, k.2.1, k.2.2[x % 4]?)

/-- Whether a way already lists the block: VALID, the same key and parent, and the same token bytes (R256). Tokens that cannot be
read end the search with their status (R258). -/
def State.listedWay (p : Nat) (h parent : Nat) (tokens : Bytes) : List (Nat × PfxEntry) → State → State × BitVec 8 × Option Nat
  | [], s => (s, St.ok, none)
  | (w, e) :: es, s =>
    if e.valid && e.key = h && e.parent = parent then
      let u := s.readTokens p e.tok
      if u.2.1 ≠ St.ok then (u.1, u.2.1, none)
      else if u.2.2 = tokens then (u.1, St.ok, some w)
      else State.listedWay p h parent tokens es u.1
    else State.listedWay p h parent tokens es s

/-- The chain hash under which a new entry's hash is formed: the partition's seed, or the key of the parent entry, none when
the parent is not valid. -/
def State.parentKey (s : State) (p parent : Nat) : State × BitVec 8 × Option Nat :=
  if parent = noEntry then (s, St.ok, some (s.pfxSeed p))
  else
    let x := s.readIndex p parent
    (x.1, x.2.1, match x.2.2 with
      | some e => if e.valid then some e.key else none
      | none => none)

/-- An INSERT ends with a status and an entry index. -/
def State.insertEnd (s : State) (p : Nat) (m : MovCmd) (st : BitVec 8) (x : Nat) : State := s.finishCmd .index p m.slot st x 0

/-- INSERT into bucket b, in which `dup` looked for the same block: the first way that is free takes the entry, written
first not valid and then valid. -/
def State.insertWay (p : Nat) (m : MovCmd) (h b : Nat) (es : List PfxEntry) (dup : State × BitVec 8 × Option Nat) : State :=
  if dup.2.1 ≠ St.ok then dup.1.insertEnd p m dup.2.1 noEntry
  else match dup.2.2 with
  | some w => dup.1.insertEnd p m St.stateError (4 * b + w)
  | none =>
    match es.findIdx? (fun e => !e.valid) with
    | none => dup.1.insertEnd p m St.noResource noEntry
    | some w =>
      let e : PfxEntry := { key := h, value := fieldAt m.bytes 16 4, parent := m.handle, tok := m.dest, valid := false }
      ((dup.1.writeEntry p (4 * b + w) e).writeEntry p (4 * b + w) { e with valid := true }).insertEnd p m St.ok (4 * b + w)

/-- INSERT with its bucket read as `k`. -/
def State.insertBucket (p : Nat) (m : MovCmd) (h b : Nat) (tokens : Bytes) (k : State × BitVec 8 × List PfxEntry) : State :=
  if k.2.1 ≠ St.ok then k.1.insertEnd p m k.2.1 noEntry
  else State.insertWay p m h b k.2.2 (State.listedWay p h m.handle tokens ((List.range 4).zip k.2.2) k.1)

/-- INSERT with its tokens read as `t` under a parent's hash. -/
def State.insertTokens (p : Nat) (m : MovCmd) (key : Nat) (t : State × BitVec 8 × Bytes) : State :=
  if t.2.1 ≠ St.ok then t.1.insertEnd p m t.2.1 noEntry
  else
    let h := chainHash key t.2.2
    let b := h % t.1.pfxBuckets p
    State.insertBucket p m h b t.2.2 (t.1.readBucket p b)

/-- INSERT with its parent's hash read as `up`. -/
def State.insertUnder (p : Nat) (m : MovCmd) (up : State × BitVec 8 × Option Nat) : State :=
  if up.2.1 ≠ St.ok then up.1.insertEnd p m up.2.1 noEntry
  else match up.2.2 with
    | none => up.1.insertEnd p m St.badParam noEntry
    | some key => State.insertTokens p m key (up.1.readTokens p m.dest)

/-- INSERT (R256, R258): adds a block entry under its parent. -/
def execInsert (part : Fin 12) (s : State) : Res :=
  withPfx part 2 s fun m =>
    let p := part.val
    if m.dest % 64 ≠ 0 ∨ 2 ^ 48 ≤ m.dest ∨ !s.pfxFieldsOk p m then .next (s.insertEnd p m St.badParam noEntry)
    else .next (State.insertUnder p m (s.parentKey p m.handle))

/-- REMOVE (R257): clears VALID of an entry. -/
def execRemove (part : Fin 12) (s : State) : Res :=
  withPfx part 3 s fun m =>
    let p := part.val
    let stop (s : State) (st : BitVec 8) : Res := .next (s.finishCmd .index p m.slot st m.handle 0)
    if !s.pfxFieldsOk p m ∨ 4 * s.pfxBuckets p ≤ m.handle then stop s St.badParam
    else
      let x := s.readIndex p m.handle
      if x.2.1 ≠ St.ok then stop x.1 x.2.1
      else match x.2.2 with
        | some e => if e.valid then stop (x.1.writeEntry p m.handle { e with valid := false }) St.ok else stop x.1 St.stateError
        | none => stop x.1 St.badParam

end Sys2Proof.Machine
end

