-- ==== Sys2Proof/Machine/Patrol.lean ====
section
/-! DEFINITION. The patrols, the checker test and the retiring of ranges (09_stored_data_protection.md R276-R281). -/
namespace Sys2Proof.Machine

/-- Units of a patrol's memory: granules of a stack, groups of a package (R276). -/
def PatrolCtl.size : PatrolCtl → Nat
  | .hmc _ => 18874368
  | .t2 _ => 67108864

/-- Its key among filters and patrols (R274). -/
def PatrolCtl.key : PatrolCtl → Nat
  | .hmc k => k
  | .t2 u => 32 + u

def PatrolCtl.pos : PatrolCtl → Fld
  | .hmc k => Reg.DIE_SCRUB_POS (k / 2) (k % 2)
  | .t2 u => Reg.HUB_T2_SCRUB_POS (u / 16) (u % 16)

def PatrolCtl.sweeps : PatrolCtl → Fld
  | .hmc k => Reg.DIE_SCRUB_SWEEPS (k / 2) (k % 2)
  | .t2 u => Reg.HUB_T2_SCRUB_SWEEPS (u / 16) (u % 16)

def PatrolCtl.enabled (s : State) : PatrolCtl → Bool
  | .hmc k => s.on (Reg.DIE_SCRUB_CFG_EN (k / 2) (k % 2))
  | .t2 u => natBits (s.rd (Reg.HUB_T2_SCRUB_CFG (u / 16) (u % 16))) 31 1 = 1

/-- Fabric address of granule g of a stack under the mode of its section (R209). -/
def State.granuleAddr (s : State) (stack g : Nat) : Nat :=
  let q := g / 4718592
  let sg := g % 4718592
  if natBits (s.rd (Reg.HMC_MODE_GLOBAL 0)) q 1 = 1 then q * 0x5A00000000 + (sg * 20 + stack) * 4096
  else q * 0x5A00000000 + stack / 2 * 0x900000000 + (sg * 2 + stack % 2) * 4096

/-- Address of the first data line of unit n of a patrol, and its number of data lines (R214, R276). -/
def PatrolCtl.lines (s : State) (n : Nat) : PatrolCtl → Nat × Nat
  | .hmc k => (s.granuleAddr k n, 64)
  | .t2 u => (groupAddr u n, 15)

/-- The memory unit that holds unit n of a patrol (R209). -/
def PatrolCtl.unit (n : Nat) : PatrolCtl → Nat
  | .hmc k => k * 4 + n / 4718592
  | .t2 u => 80 + u

/-- The next unit at or after n that is not skipped (R276): an unusable quarter stack is passed over whole, a retired
granule alone. -/
def PatrolCtl.next (s : State) (c : PatrolCtl) : Nat → Nat → Nat
  | 0, n => n
  | f + 1, n =>
    if c.size ≤ n then n
    else match c with
      | .hmc k =>
        if s.unitAbsent (c.unit n) then c.next s f ((n / 4718592 + 1) * 4718592)
        else if s.retired (s.granuleAddr k n) then c.next s f (n + 1)
        else n
      | .t2 _ => n

/-- The patrol reads one line with `upset` symbols in error, and writes corrected data or poison back (R269, R276). A line
corrected in two successive sweeps makes its range due for retirement (R279). The test line on HOLD and retired lines are
passed over. -/
def State.patrolLine (s : State) (c : PatrolCtl) (a upset : Nat) : State :=
  let held : Bool := match s.testCtlOf a with
    | some t => (s.reg t.ctl).getLsbD 29 && s.testAddr t = a
    | none => false
  if held ∨ s.retired a then s
  else
    match s.verdict a upset with
    | .corrected n =>
      let sweep := s.rd c.sweeps
      let again := (s.patrol c.key).lastSweep.any fun e => e.1 = a && (e.2 + 1) % 2 ^ 32 = sweep
      let s := (s.countCorrection a n true).freshUnit a
      let s := s.modPatrol c.key fun f => { f with lastSweep := SMap.ins f.lastSweep a sweep }
      if again then s.noteDue a else s
    | _ => (s.decodeUnit a upset true).state

/-- PATROL_STEP (R276): an HBM or tier-2 patrol reads, corrects and writes back its next unit. `found` names lines of
the unit, by number, with the symbols in error there. -/
def execPatrolStep (c : PatrolCtl) (found : List (Nat × Nat)) (s : State) : Res :=
  let n0 := c.next s 40 (s.rd c.pos)
  -- beyond the last unit the sweep has ended and the next begins
  let wrapped := decide (c.size ≤ n0)
  let n := if wrapped then c.next s 40 0 else n0
  if !c.enabled s ∨ c.size ≤ n ∨ s.unitAbsent (c.unit n) then .next s
  else
    let s := if wrapped then s.step1 c.sweeps else s
    let l := c.lines s n
    let upset (i : Nat) : Nat := match found.find? (fun e => e.1 = i) with
      | some e => e.2
      | none => 0
    let s := (List.range l.2).foldl (fun s i => s.patrolLine c (l.1 + 64 * i) (upset i)) s
    if n + 1 = c.size then .next ((s.wr c.pos 0).step1 c.sweeps) else .next (s.wr c.pos (n + 1))

/-- Key among filters, first home key, and words of 8 bytes. -/
def SramArray.place : SramArray → Nat × Nat × Nat
  | .pool gc => (64 + gc, poolBase + gc * 2 ^ 24, 2 ^ 21)
  | .hub h => (256 + h, sramBase + h * 2 ^ 26, 2 ^ 23)
  | .dmem gc k => (1000 + slotKey gc k, dmemKey (slotKey gc k) 0, 2 ^ 17)
  | .istore gc k => (5000 + slotKey gc k, istoreKey (slotKey gc k) 0, 2 ^ 14)
  | .tile gc k => (10000 + slotKey gc k, tileKey (slotKey gc k) 0, 2 ^ 14)
  | .alwaysOn => (9990, alwaysOnKey 0, 2 ^ 13)
  | .tables h => (9992 + h, tablesKey h 0, 2 ^ 13)

/-! ## The checker test (R281) -/

/-- A write of TEST_CTL (R281, R282): HOLD follows the write; an arm is set unless it is refused.
DEDUCED (log 18). -/
def State.testCtlWrite (s : State) (c : TestCtl) (v : BitVec 32) : State :=
  let arms := v &&& 0xC0000000#32
  let keep := (s.reg c.ctl &&& 0x00000003#32) ||| (v &&& 0x20000000#32)
  if arms ≠ 0#32 ∧ s.armRefused c then (s.setReg c.ctl keep).ignoreWrite c.page (c.ctl % 4096)
  else s.setReg c.ctl (keep ||| arms)

/-- TEST_WR_ARM (R281): software arms the next whole-line write to TEST_ADDR, with HOLD as it asks. -/
def execTestWrArm (c : TestCtl) (hold : Bool) (s : State) : Res :=
  withPage c.page (c.ctl % 4096) s fun s => .next (s.testCtlWrite c (if hold then 0xA0000000#32 else 0x80000000#32))

/-- TEST_RD_ARM (R281): software arms the next read of TEST_ADDR. -/
def execTestRdArm (c : TestCtl) (hold : Bool) (s : State) : Res :=
  withPage c.page (c.ctl % 4096) s fun s => .next (s.testCtlWrite c (if hold then 0x60000000#32 else 0x40000000#32))

/-! ## Retiring ranges (R278, R279) -/

/-- The retire entries of the controller that serves an address: fields (ADDR, VALID) by index. -/
def State.retireEntries (s : State) (a : Nat) : List (Fld × Fld) :=
  match s.tgt a with
  | .hbm stack _ => (List.range 32).map fun i =>
      (Reg.DIE_RETIRE_ADDR (stack / 2) (stack % 2) i, Reg.DIE_RETIRE_VALID (stack / 2) (stack % 2) i)
  | .t2 u => (List.range 128).map fun i => (Reg.HUB_T2_RETIRE_ADDR (u / 16) i, Reg.HUB_T2_RETIRE_VALID (u / 16) i)
  | _ => []

/-- Puts a range into the lowest free retire entry; none when every entry is in use (R279). -/
def State.retireInto (s : State) (a : Nat) : Option State :=
  match (s.retireEntries a).find? (fun e => !s.on e.2) with
  | some e => some ((s.wr e.1 (a / 4096 % 2 ^ 32)).wr e.2 1)
  | none => none

/-- GRANULE_RETIRE (R279): Lamplighter retires the oldest candidate range of a controller: into a retire entry, the
ledger and a RETIRE record, or sets RETIRE_FULL and leaves a RETIRE record of address 0. -/
def execGranuleRetire (c : PatrolCtl) (s : State) : Res :=
  match (s.patrol c.key).due with
  | [] => .next s
  | g :: rest =>
    let a := g * 4096
    let s := s.modPatrol c.key fun f => { f with due := rest }
    let kind := match c with
      | .hmc _ => 0x03#8
      | .t2 _ => 0x04#8
    if s.retired a then .next s
    else
      let page := s.bucketPage a
      match s.retireInto a with
      | some t =>
        let seq := t.rd (Reg.BBX_SEQ 0)
        .next ((t.bbAdd 0x0008 Sev.contained (some page) (t.ownerOf a) (leBytes 8 a)).ledgerAppend kind a seq (some page))
      | none =>
        let t := s.bbAdd 0x0008 Sev.contained (some page) (s.ownerOf a) (leBytes 8 0)
        match c with
        | .hmc k => .next (t.err ⟨.hmc, k⟩ 18)
        | .t2 u => .next (t.err ⟨.hub, u / 16⟩ 17)

end Sys2Proof.Machine
end

