-- ==== Sys2Proof/Machine/Security.lean ====
section
/-! DEFINITION. Key slots, image verification, SPDM attestation, the owner record and debug access
(16_cipher_and_trust.md R432-R454). -/
namespace Sys2Proof.Machine

def secPage : Page := ⟨.sec, 0⟩

/-! ## Key slots (R433, R434) -/

def allZero (b : Bytes) : Bool := b.all (· = 0#8)

/-- KEY_LOAD (R433). The key bytes of the request page in host memory are overwritten with zeros before the reply; the command
waits while PF0 may not write there (R305). -/
def execKeyLoad (hub : Fin 2) (page : Fin 64) (s : State) : Res :=
  let k := hub.val * 64 + page.val
  if !(s.mbx k).mctp ∧ !s.fnMaster (s.rd (Reg.MBX_STAT_LINK k)) 0 then .next s else
  withMsg 0x0610 hub page s fun s m =>
    let k := m.f 0 2
    let p := m.f 2 1
    let mode := m.f 3 1
    let alg := mode % 8
    let key := (m.bytesAt 8 64) ++ List.replicate (64 - (m.bytesAt 8 64).length) 0#8
    let used := match alg with
      | 0 => 32
      | 1 => 64
      | 2 => 16
      | _ => 32
    let half := used / 2
    let xts := alg = 1 || alg = 3
    let known := p < 12 && (s.part p).state != .free
    let bad := m.badLength 72 || 8192 ≤ k || 12 ≤ p || 4 ≤ alg || m.resv (mode / 16 ≠ 0 || m.f 4 4 ≠ 0) ||
      !allZero (key.drop used) || (xts && key.take half = (key.drop half).take half)
    let st := firstFault
      [(St.notPermitted, m.src.mctp || (known && (!s.keySlotIn p k || !m.onLink (s.partHub p)))), (St.badParam, bad),
       (St.stateError, (s.key k).isSome || (p < 12 && (s.part p).state != .active))]
    let n := m.src.hub.val * 64 + m.src.page.val
    let buf := s.rd (Reg.MBX_BUF_LO n) * 4096 + s.rd (Reg.MBX_BUF_HI n) * 2 ^ 32
    let s := if m.src.mctp then s else s.hostWrite (s.fnId m.src.link 0) (buf + 24) (List.replicate 64 0#8)
    let s := s.modMbx n fun b => { b with held := b.held.take 24 }
    if st ≠ St.ok then s.answer m.src st []
    else
      let slot : KeySlot := { alg := BitVec.ofNat 3 alg, hardened := mode / 8 % 2 = 1, key := key.take used }
      ((s.setKey k (some slot)).countKeys (s.partHub p)).answer m.src St.ok []

/-- An open connection, a namespace or a security association names the slot (R434). -/
def State.keyNamed (s : State) (k : Nat) : Bool :=
  (s.conns.any fun e => e.2.state == .opened && e.2.keyslot = k) ||
  (s.nss.any fun e => match e.2 with
    | some n => n.keyslot = k
    | none => false) ||
  (s.sas.any fun e => match e.2 with
    | some a => a.keyslot = k
    | none => false)

/-- KEY_ZERO (R434). -/
def execKeyZero (hub : Fin 2) (page : Fin 64) (s : State) : Res :=
  withMsg 0x0611 hub page s fun s m =>
    let k := m.f 0 2
    let p := m.f 2 1
    let known := p < 12 && (s.part p).state != .free
    let st := firstFault
      [(St.notPermitted, m.src.mctp || (known && (!s.keySlotIn p k || !m.onLink (s.partHub p)))),
       (St.badParam, m.badLength 3 || 8192 ≤ k || 12 ≤ p), (St.stateError, s.keyNamed k || !known)]
    if st ≠ St.ok then s.answer m.src st []
    else ((s.setKey k none).countKeys (s.partHub p)).answer m.src St.ok []

/-! ## Images (R442-R445) -/

def imageMagic : Bytes := [0x50#8, 0x58#8, 0x46#8, 0x57#8]

/-- An image of a type, header and body, verifies (R442, R443); `limit` is the room of the slot. -/
def State.imageOk (s : State) (typ limit : Nat) (img : Bytes) : Bool :=
  let at_ (o : Nat) : Nat := fieldAt img o 1
  let pub := (img.drop 64).take 64
  let len := fieldAt img 12 4
  let keyOk := if at_ 6 = 0 then sm3 pub = Config.romRootHash else s.sec.ownerKey = some (sm3 pub)
  256 ≤ img.length && img.take 4 = imageMagic && at_ 4 = 1 && at_ 5 = typ && (at_ 6 = 0 || (at_ 6 = 1 && typ = 6)) &&
    at_ 7 = 0 && allZero ((img.drop 128).take 64) && keyOk &&
    Config.sm2Verify pub (img.take 192) ((img.drop 192).take 64) && 256 + len ≤ limit && 256 + len ≤ img.length &&
    sm3 ((img.drop 256).take len) = (img.drop 32).take 32

/-- A rejected image (R443). -/
def State.rejectImage (s : State) (typ slot : Nat) : State :=
  let s := s.bump (Reg.SEC_REJECTS 0)
  (s.bbAdd 0x000F Sev.corrected (some secPage) 0xFF [BitVec.ofNat 8 typ, BitVec.ofNat 8 slot]).err secPage 16

/-- The measurement index of an image type: the DIGEST and SVN of the running image of TYPE 1-5, of the last accepted core
manifest, and of the board record (R449). -/
def measureIndex (typ : Nat) : Nat := if typ = 7 then 11 else typ + 1

/-- An accepted image is measured (R443, R449). -/
def State.measureImage (s : State) (typ : Nat) (img : Bytes) : State :=
  let i := measureIndex typ
  { s with sec := (s.sec.setMeasure i ((img.drop 32).take 32)).setSvns i (BitVec.ofNat 32 (fieldAt img 8 4)) }

/-! ## The owner record and debug access (R450-R452) -/

/-- SEC_STATE follows the owner record. -/
def State.showOwner (s : State) : State := s.wr (Reg.SEC_STATE_OWNER 0) (if s.sec.ownerKey.isSome then 1 else 0)

/-- Takes a nonce out of use; whether it was outstanding (R452). DEDUCED (log 52). -/
def State.useNonce (s : State) (n : Bytes) : State × Bool :=
  ({ s with sec := { s.sec with nonces := s.sec.nonces.filter fun x => x.value ≠ n } }, s.sec.nonces.any fun x => x.value = n)

/-- OWNER_SET (R450): the record the payload carries is written when there is none, or when the owner has signed it. -/
def execOwnerSet (hub : Fin 2) (page : Fin 64) (r : OwnerSet) (s : State) : Res :=
  withMsg 0x0618 hub page s fun s m =>
    let body := r.keyHash ++ r.salt ++ r.pwHash
    let write (s : State) : State :=
      let gone := allZero r.keyHash && s.sec.ownerKey.isSome
      { s with sec := { s.sec with
          ownerKey := if gone then none else some r.keyHash
          salt := if gone then [] else r.salt
          pwHash := if gone || allZero r.pwHash then none else some r.pwHash } }.showOwner
    if r.keyHash.length ≠ 32 ∨ r.salt.length ≠ 16 ∨ r.pwHash.length ≠ 32 then s.answer m.src St.badParam []
    else match s.sec.ownerKey, r.signed with
      | none, _ => (write s).answer m.src St.ok []
      | some _, none => s.answer m.src St.authFail []
      | some h, some (pub, nonce, sig) =>
        let u := s.useNonce nonce
        if u.2 && sm3 pub = h && Config.sm2Verify pub (body ++ nonce) sig then (write u.1).answer m.src St.ok []
        else u.1.answer m.src St.authFail []

/-- DBG_CHALLENGE (R452): a 32-byte nonce. -/
def execDbgChallenge (hub : Fin 2) (page : Fin 64) (s : State) : Res :=
  withMsg 0x0620 hub page s fun s m =>
    let n : Bytes := (List.range 32).map fun i => BitVec.ofNat 8 (s.free i)
    let s := { s with sec := { s.sec with nonces := s.sec.nonces ++ [({ value := n } : Nonce)] } }.draw
    s.answer m.src St.ok n

/-- NONCE_EXPIRY (R452): the n-th nonce outstanding is 60 s old. -/
def execNonceExpiry (n : Nat) (s : State) : Res :=
  .next { s with sec := { s.sec with nonces := s.sec.nonces.eraseIdx n } }

/-- A debug record: opened or failed, method, scope, failures (R523). The code of the first byte is not given.
DESIGN CHOICE (log 31). -/
def State.debugRecord (s : State) (method scope : Nat) : State :=
  s.bbAdd 0x000E Sev.corrected (some secPage) 0xFF
    ([BitVec.ofNat 8 (s.free 1), BitVec.ofNat 8 method, BitVec.ofNat 8 scope] ++ leBytes 2 (s.rd (Reg.SEC_DBG_FAILS 0)))

/-- DBG_UNLOCK (R452). `elapsed` is the time in seconds since SEC_DBG_WAIT last changed, by which the wait has shrunk. -/
def execDbgUnlock (hub : Fin 2) (page : Fin 64) (scope : BitVec 8) (u : Unlock) (elapsed : Nat) (s : State) : Res :=
  withMsg 0x0621 hub page s fun s m =>
    let s := s.wr (Reg.SEC_DBG_WAIT 0) (s.rd (Reg.SEC_DBG_WAIT 0) - elapsed)
    let method := match u with
      | .ownerKey _ _ _ => 0
      | .password _ => 1
    let noMeans : Bool := match s.sec.ownerKey, u with
      | none, _ => true
      | some h, .ownerKey _ _ _ => allZero h
      | some _, .password _ => s.sec.pwHash.isNone
    let badPw : Bool := match u with
      | .password pw => pw.length < 8 || 64 < pw.length
      | _ => false
    let busy := (List.range 12).any fun p => (s.part p).state != .free
    let st := firstFault
      [(St.notPermitted, noMeans), (St.badParam, badPw || m.resv (4 ≤ scope.toNat)),
       (St.stateError, busy || s.rd (Reg.SEC_DBG_WAIT 0) ≠ 0)]
    if st ≠ St.ok then s.answer m.src st []
    else
      let r : State × Bool := match u with
        | .ownerKey pub nonce sig =>
          let x := s.useNonce nonce
          (x.1, x.2 && s.sec.ownerKey = some (sm3 pub) &&
            Config.sm2Verify pub (nonce ++ Config.serial ++ [scope]) sig)
        | .password pw => (s, s.sec.pwHash = some (sm3 (s.sec.salt ++ pw)))
      if r.2 then
        let f := Reg.SEC_STATE_DEBUG_SCOPE 0
        let s := r.1.wr f (r.1.rd f ||| scope.toNat % 4)
        let s := (s.wr (Reg.SEC_DBG_FAILS 0) 0).wr (Reg.SEC_DBG_WAIT 0) 0
        ((s.debugRecord method scope.toNat).err secPage 17).answer m.src St.ok []
      else
        let s := r.1.bump (Reg.SEC_DBG_FAILS 0)
        let s := s.wr (Reg.SEC_DBG_WAIT 0) (min (2 ^ (s.rd (Reg.SEC_DBG_FAILS 0) - 1)) 4096)
        (((s.debugRecord method scope.toNat).err secPage 18).bucket secPage).answer m.src St.authFail []

/-- DBG_LOCK (R452): the ports close. -/
def execDbgLock (hub : Fin 2) (page : Fin 64) (s : State) : Res :=
  withMsg 0x0622 hub page s fun s m => (s.wr (Reg.SEC_STATE_DEBUG_SCOPE 0) 0).answer m.src St.ok []

/-! ## Attestation (R446-R449) -/

/-- The device has its identity (R446). -/
def State.hasIdentity (s : State) : Bool := s.on (Reg.SEC_STATE_PUF_OK 0)

def SpdmVia.conn : SpdmVia → Nat
  | .doe l => l.val
  | .mctp => 2

def State.spdmSays (s : State) (via : SpdmVia) (r : SpdmResp) : State := s.out (.spdm via r)

/-- Steps of a connection that have been answered. -/
def State.spdmSteps (s : State) (via : SpdmVia) : BitVec 3 := s.sec.getSpdm via.conn

def State.setSteps (s : State) (via : SpdmVia) (x : BitVec 3) : State := { s with sec := s.sec.setSpdm via.conn x }

/-- The security processor answers: it runs, and the link of a DOE request serves configuration requests. -/
def State.spdmUp (s : State) (via : SpdmVia) : Bool :=
  s.fwState 3 = Fw.running && (match via with
    | .doe l => (s.link l).up && (s.link l).configReady
    | .mctp => true)

/-- Answers a request, or refuses one that comes before the steps of DSP0274 it rests on. PRESUMED (log 51). -/
def spdm (via : SpdmVia) (need : BitVec 3) (s : State) (f : State → State) : Res :=
  if !s.spdmUp via then .next s
  else if s.spdmSteps via &&& need ≠ need then .next (s.spdmSays via (.error .unexpected))
  else .next (f s)

/-- What the security processor signs for a request. -/
def State.spdmSign (s : State) (label : Nat) (msg : Bytes) : Bytes :=
  Config.sm2Derive label (match s.sec.seed with
    | some x => leBytes 32 x.toNat
    | none => []) msg

/-- Open sessions are shown in SEC_SESSIONS. -/
def State.showSessions (s : State) : State := s.wr (Reg.SEC_SESSIONS 0) s.sec.sessions.length

def State.setSessions (s : State) (l : List SpdmSess) : State := { s with sec := { s.sec with sessions := l } }.showSessions

/-- GET_VERSION (R448): version 1.2; it begins a connection anew and ends its sessions. -/
def execGetVersion (via : SpdmVia) (s : State) : Res :=
  spdm via 0#3 s fun s =>
    ((s.setSteps via 1#3).setSessions (s.sec.sessions.filter fun x => x.conn ≠ via.conn)).spdmSays via .version

/-- GET_CAPABILITIES (R448). -/
def execGetCapabilities (via : SpdmVia) (s : State) : Res :=
  spdm via 1#3 s fun s => (s.setSteps via (s.spdmSteps via ||| 2#3)).spdmSays via .capabilities

/-- NEGOTIATE_ALGORITHMS (R448): SM2_P256, SM3, SM4_GCM. -/
def execNegotiateAlgorithms (via : SpdmVia) (s : State) : Res :=
  spdm via 3#3 s fun s => (s.setSteps via (s.spdmSteps via ||| 4#3)).spdmSays via .algorithms

/-- GET_DIGESTS (R448): the digest of slot 0. -/
def execGetDigests (via : SpdmVia) (s : State) : Res :=
  spdm via 7#3 s fun s => s.spdmSays via (.digests (sm3 Config.certificates))

/-- GET_CERTIFICATE (R448): a part of the chain of slot 0. -/
def execGetCertificate (via : SpdmVia) (offset len : Nat) (s : State) : Res :=
  spdm via 7#3 s fun s =>
    if !s.hasIdentity then s.spdmSays via (.error .unspecified)
    else
      let part := (Config.certificates.drop offset).take len
      s.spdmSays via (.certificate part (Config.certificates.length - offset - part.length))

/-- CHALLENGE (R448). -/
def execChallenge (via : SpdmVia) (nonce : List (BitVec 8)) (s : State) : Res :=
  spdm via 7#3 s fun s =>
    if !s.hasIdentity then s.spdmSays via (.error .unspecified)
    else s.spdmSays via (.challengeAuth (s.spdmSign 1 nonce))

/-- The value of a measurement index (R449). -/
def State.measurement (s : State) (i : Nat) : Bytes :=
  let digest (j : Nat) : Bytes := match s.sec.getMeasure j with
    | [] => List.replicate 32 0#8
    | d => d
  match i with
  | 1 => Config.romDigest
  | 8 => (List.range 6).flatMap fun j => leBytes 4 (s.sec.getSvns (j + 2)).toNat
  | 9 => match s.sec.ownerKey with
    | some h => h
    | none => List.replicate 32 0#8
  | 10 => [BitVec.ofNat 8 (s.rd (Reg.SEC_STATE_DEBUG_SCOPE 0))] ++ leBytes 2 (s.rd (Reg.SEC_DBG_FAILS 0))
  | _ => digest i

/-- GET_MEASUREMENTS (R449): one index, or every one for none named; signed when asked. -/
def execGetMeasurements (via : SpdmVia) (index : Option (Fin 12)) (signed : Bool) (nonce : List (BitVec 8)) (s : State) : Res :=
  spdm via 7#3 s fun s =>
    if signed ∧ !s.hasIdentity then s.spdmSays via (.error .unspecified)
    else
      let is := match index with
        | some i => [i.val]
        | none => (List.range 11).map (· + 1)
      let vs := (is.filter (· ≠ 0)).map fun i => (i, s.measurement i)
      let sig := if signed then s.spdmSign 2 (nonce ++ vs.flatMap (·.2)) else []
      s.spdmSays via (.measurements vs sig)

/-- KEY_EXCHANGE (R448): opens a session, at most 4 across the device. `req` is the requester's half of its ID; the
device's half is its own choice. -/
def execKeyExchange (via : SpdmVia) (req : BitVec 16) (exchange : List (BitVec 8)) (s : State) : Res :=
  spdm via 7#3 s fun s =>
    if !s.hasIdentity then s.spdmSays via (.error .unspecified)
    else if 4 ≤ s.sec.sessions.length then s.spdmSays via (.error .busy)
    else
      let id := req.toNat + s.free 0 % 65536 * 65536
      let x : SpdmSess := { id := id, conn := via.conn, done := false }
      let t := (s.setSessions (s.sec.sessions ++ [x])).draw
      t.spdmSays via (.keyExchange id (s.spdmSign 3 exchange))

/-- Serves a request under a session of the connection; `done`: its handshake has ended. -/
def session (via : SpdmVia) (id : Nat) (done : Bool) (s : State) (f : State → State) : Res :=
  spdm via 7#3 s fun s =>
    if s.sec.sessions.any fun x => x.id = id && x.conn = via.conn && x.done == done then f s
    else s.spdmSays via (.error .invalidSession)

/-- FINISH (R448): ends the handshake of a session. -/
def execFinish (via : SpdmVia) (id : Nat) (s : State) : Res :=
  session via id false s fun s =>
    let mark (x : SpdmSess) : SpdmSess := if x.id = id ∧ x.conn = via.conn then { x with done := true } else x
    (s.setSessions (s.sec.sessions.map mark)).spdmSays via (.finish id)

/-- HEARTBEAT (R448). -/
def execHeartbeat (via : SpdmVia) (id : Nat) (s : State) : Res :=
  session via id true s fun s => s.spdmSays via (.heartbeat id)

/-- KEY_UPDATE (R448). -/
def execKeyUpdate (via : SpdmVia) (id : Nat) (s : State) : Res :=
  session via id true s fun s => s.spdmSays via (.keyUpdate id)

/-- END_SESSION (R448). -/
def execEndSession (via : SpdmVia) (id : Nat) (s : State) : Res :=
  session via id true s fun s =>
    (s.setSessions (s.sec.sessions.filter fun x => !(x.id = id && x.conn = via.conn))).spdmSays via (.endSession id)

/-- VENDOR_DEFINED_REQUEST (R284, R448): IDE_KM, on DOE only: keys a stream of the link, 0 the link stream and 1 the
selective one, and puts it into use or out of it. -/
def execVendorDefinedRequest (via : SpdmVia) (id : Nat) (op : IdeOp) (stream : Fin 2) (s : State) : Res :=
  match via with
  | .mctp => spdm via 0#3 s fun s => s.spdmSays via (.error .unsupported)
  | .doe l =>
    session via id true s fun s =>
      let k := 2 * l.val + stream.val
      let set (x : BitVec 2) : State := { s with sec := s.sec.setIdeKeys k x }
      let s := match op with
        | .query => s
        | .keyProg => set 1#2
        | .setGo => if s.sec.getIdeKeys k = 1#2 then set 2#2 else s
        | .setStop => set 0#2
      s.spdmSays via (.vendor op stream)

end Sys2Proof.Machine
end

