-- ==== Sys2Proof/Machine/PageStates.lean ====
section
/-! DEFINITION. The passage of a page from OFF to ENABLED (02_register_pages.md R54-R59; 09_stored_data_protection.md R270;
18_bring_up.md R482, R489). -/
namespace Sys2Proof.Machine

/-- Regions of the SRAM that a page's block powers: leaving OFF poisons them (R270). -/
def pageRegions (p : Page) : List Nat :=
  match p.blk with
  | .cor => [272 + p.inst, 3152 + p.inst]
  | .clu => [112 + p.inst]
  | .hub => (List.range 256).map fun g => 6032 + 256 * p.inst + g
  | _ => []

def State.poisonRegions (s : State) (rs : List Nat) : State := rs.foldl (fun s r => s.setRegion r false) s

/-- A block leaves OFF for DISABLED (R56, R270, R480). -/
def State.pageOn (s : State) (p : Page) : State :=
  if s.st p ≠ PS.off then s
  else ((s.wr (Reg.STATE_STATE p) PS.disabled).wr (Reg.CAP_FUNCTIONAL p) 1).poisonRegions (pageRegions p)

/-- Memory units of a controller's page: 0-79 HBM, 80-111 tier 2. -/
def memUnitsOf (p : Page) : List Nat :=
  match p.blk with
  | .hmc => (List.range 4).map (4 * p.inst + ·)
  | .lpc => (List.range 4).map (80 + 4 * p.inst + ·)
  | _ => []

/-- The page's configuration refuses its enable (R339, R347, R355, R388). -/
def State.badCfg (s : State) (p : Page) : Bool :=
  match p.blk with
  | .cls => s.clsBad p.inst
  | .pol => s.polBad p.inst
  | .tsh => s.tshBad p.inst
  | .eth => s.ethBad p.inst
  | _ => false

/-- What an enable that passes begins: rings are examined (R204, R244), a memory controller trains anew (R489).
An earlier refusal stays shown in STATE.CRC_MISMATCH (R52). DESIGN CHOICE (log 91). -/
def State.beginEnable (s : State) (p : Page) : State :=
  let s := (s.wr (Reg.CTRL_ENABLE p) 1).wr (Reg.STATE_STATE p) PS.enabling
  match p.blk with
  | .dis => s.checkRings p.inst
  | .mov => s.checkKvRings .mover p.inst
  | .pfx => s.checkKvRings .index p.inst
  | _ =>
    let clear (m : BitVec 112) : BitVec 112 := (memUnitsOf p).foldl (fun m u => m &&& ~~~(1#112 <<< u)) m
    if memUnitsOf p = [] then s else { s with bru := { s.bru with memDone := clear s.bru.memDone } }

/-- ENABLE written 1 in DISABLED (R56): ENABLING when the published CRC is the reference, else refused. -/
def State.enablePage (s : State) (p : Page) : State :=
  if s.st p ≠ PS.disabled then s
  else if s.reg (Reg.CFG_CRC_LIVE p).addr ≠ s.reg (Reg.CFG_CRC_REF p).addr then s.wr (Reg.STATE_CRC_MISMATCH p) 1
  else if s.badCfg p then (if p.blk = .eth then s else s.err p 16)
  else s.beginEnable p

/-- The block is ready: its page is ENABLED (R56). A core's stub runs (R172), a port trains (R333). A memory controller is
ready when its units have trained (R489). -/
def State.readyPage (s : State) (p : Page) : State :=
  if s.st p ≠ PS.enabling ∨ !(memUnitsOf p).all (fun u => s.bru.memDone.getLsbD u) then s
  else
    let s := s.wr (Reg.STATE_STATE p) PS.enabled
    match p.blk with
    | .cor => s.modCore p.inst fun c => { c with run := .stub }
    | .eth => s.train800 p.inst
    | _ => s

/-- A training step computes the reference CRC of a DISABLED block from the values it holds, and enables it (R482). -/
def State.bringEnable (s : State) (p : Page) : State :=
  if s.st p ≠ PS.disabled then s
  else
    let c := (s.cfgCrc p).toNat
    (((s.wr (Reg.CFG_CRC_REF p) c).wr (Reg.CFG_CRC_LIVE p) c).wr (Reg.STATE_CRC_MISMATCH p) 0).enablePage p

/-- Firmware enables a core page, whose stub then runs (R172, R473, R496, R509). -/
def State.enableCore (s : State) (p : Nat) : State := ((s.pageOn ⟨.cor, p⟩).enablePage ⟨.cor, p⟩).readyPage ⟨.cor, p⟩

end Sys2Proof.Machine
end

