-- ==== Sys2Proof/Machine/Firmware.lean ====
section
/-! DEFINITION. Image slots, restarts of the firmware processors, the takeover of the standby Lamplighter, and core images
between jobs (16_cipher_and_trust.md R444; 17_firmware_processors.md R455-R457, R469-R473; 19_faults_and_spares.md R504,
R515). -/
namespace Sys2Proof.Machine

/-! ## Fatal events (R504) -/

/-- Every register page. -/
def allPages : List Page :=
  let of (b : Blk) (n : Nat) : List Page := (List.range n).map fun i => ⟨b, i⟩
  ([.hub, .bru, .pce, .prp, .eth, .cls, .nic, .tsh, .pol, .sdt, .nvc, .cph, .lpc, .tel, .pwr, .sec, .bbx, .snp, .dis, .mov,
    .pfx, .d2d, .fwp, .mbx, .die, .hmc, .noc, .clu, .cor] : List Blk).flatMap fun b => of b b.count

/-- A fatal event (R504): it is recorded, every block but BBX, BRU, PCE and MBX enters FENCED, and each endpoint whose link
is up reports an Uncorrectable Internal Error. The codes of the cause are not given. DESIGN CHOICE (log 31). -/
def State.fatal (s : State) (part : Nat := 0xFF) : State :=
  let s := { s with bru := { s.bru with fatal := true } }.bbAdd 0x0012 Sev.fatal none part [BitVec.ofNat 8 (s.free 1)]
  let s := allPages.foldl (fun s p => if outlivesFatal p.blk then s else s.fencePage p) s
  (List.range 2).foldl (fun s l => if (s.link l).up then s.out (.aer l .uncorrectableInternal) else s) s

/-! ## Image slots (R469-R472) -/

/-- Room of one image in a slot, and of the slot (R469). -/
def imageRoom : Nat := 0x200000
def slotRoom : Nat := 0x1000000

/-- What a slot holds for an image type 1-5 (R469). -/
def FwSlot.image (x : FwSlot) (typ : Nat) : Bytes := (x.bytes.drop ((typ - 1) * imageRoom)).take imageRoom

/-- The processors that run an image type (R442, R455). -/
def procsOf (typ : Nat) : List Nat := if typ ≤ 3 then [typ - 1, 16 + (typ - 1)] else [typ - 1]

/-- Keys of the processors that exist. -/
def allProcs : List Nat := [0, 1, 2, 3, 4, 16, 17, 18]

/-- A processor that is not HELD runs, or last ran, the image of a slot (R471). DEDUCED (log 54). -/
def State.slotNamed (s : State) (slot : Nat) : Bool :=
  allProcs.any fun k => s.fwState k ≠ Fw.held && s.rd (Reg.FWP_RUN_SLOT k) = slot

/-- FW_UPDATE (R471): a chunk of an image slot. -/
def execFwUpdate (hub : Fin 2) (page : Fin 64) (s : State) : Res :=
  withMsg 0x0010 hub page s fun s m =>
    let slot := m.f 0 1
    let off := m.f 4 4
    let data := m.payload.drop 8
    let x := s.fwslot slot
    let bad := m.length < 8 || 2 ≤ slot || m.resv (m.f 1 3 ≠ 0) || (off ≠ 0 && off ≠ x.bytes.length) || slotRoom < off + data.length
    let st := firstFault [(St.badParam, bad), (St.stateError, s.slotNamed slot)]
    if st ≠ St.ok then s.answer m.src st []
    else
      let x := if off = 0 then { x with state := .empty, bytes := data } else { x with bytes := x.bytes ++ data }
      (s.setFwslot slot x).answer m.src St.ok []

/-- An image of a slot is verified; a rejection is counted and recorded (R443). -/
def State.checkImage (s : State) (slot typ : Nat) : State × Bool :=
  if s.imageOk typ imageRoom ((s.fwslot slot).image typ) then (s, true) else (s.rejectImage typ slot, false)

/-- FW_COMMIT (R471): the five images of a slot are verified, and the slot is TRIAL or BAD. -/
def execFwCommit (hub : Fin 2) (page : Fin 64) (s : State) : Res :=
  withMsg 0x0011 hub page s fun s m =>
    let slot := m.f 0 1
    let st := firstFault
      [(St.badParam, m.badLength 1 || 2 ≤ slot), (St.stateError, (s.fwslot slot).state != .empty)]
    if st ≠ St.ok then s.answer m.src st []
    else
      let r := [1, 2, 3, 4, 5].foldl (fun (a : State × Bool) t => ((a.1.checkImage slot t).1, a.2 && (a.1.checkImage slot t).2)) (s, true)
      let s := r.1.modFwslot slot fun x => { x with state := if r.2 then .trial else .bad }
      s.answer m.src (if r.2 then St.ok else St.authFail) []

/-- A processor restarts (R457): RESTARTS rises and the restart is recorded; the codes of the cause are not given. The
security processor's SPDM sessions end (R455). A processor that is HELD or FAILED does not restart.
DESIGN CHOICE (log 31). -/
def State.restartFw (s : State) (k : Nat) : State :=
  let st := s.fwState k
  if st = Fw.running ∨ st = Fw.booting then
    let s := (s.wr (Reg.FWP_RUN_STATE k) Fw.restarting).bump (Reg.FWP_RUN_RESTARTS k)
    let s := s.bbAdd 0x000A Sev.corrected none 0xFF
      [BitVec.ofNat 8 (k % 16), BitVec.ofNat 8 (k / 16), BitVec.ofNat 8 (s.free 1), BitVec.ofNat 8 (s.rd (Reg.FWP_RUN_SLOT k))]
    if k = 3 then
      let s := s.setSessions []
      { s with sec := { s.sec with spdm := [] } }
    else s
  else s

/-- An activation (R471): the slot's GEN becomes one above the other slot's, and the named processors restart from it. With
no image that verifies the device leaves the ROM's service only through a reset (R481). -/
def State.activate (s : State) (slot mask : Nat) : State :=
  let s := s.modFwslot slot fun x => { x with gen := (s.fwslot (1 - slot)).gen + 1#32 }
  if s.bru.noImage then s
  else
    let ks := ([1, 2, 3, 4, 5].filter fun t => natBits mask (t - 1) 1 = 1).flatMap procsOf
    ks.foldl (fun s k => if s.fwState k = Fw.held ∨ s.fwState k = Fw.failed then s else (s.wr (Reg.FWP_RUN_SLOT k) slot).restartFw k) s

/-- FW_ACTIVATE (R471, R472): at once, or held pending while an emergency is in force; MASK 0 cancels what is pending. -/
def execFwActivate (hub : Fin 2) (page : Fin 64) (s : State) : Res :=
  withMsg 0x0012 hub page s fun s m =>
    let slot := m.f 0 1
    let mask := m.f 1 1
    let pend := Reg.FWP_ACT_PENDING 0
    let ready := (s.fwslot slot).state == .trial || (s.fwslot slot).state == .valid
    let st := firstFault
      [(St.badParam, m.badLength 2 || 2 ≤ slot || m.resv (mask / 32 ≠ 0)), (St.stateError, !ready)]
    if st ≠ St.ok then s.answer m.src st []
    else if mask % 32 = 0 then ({ s with actRun := false }.wr pend 0).answer m.src St.ok []
    else if s.pwr.emerg then ({ s with actSlot := slot, actRun := false }.wr pend (mask % 32)).answer m.src St.deferred []
    else (s.activate slot (mask % 32)).answer m.src St.ok []

/-- A deferred activation runs when the emergency ends (R472). -/
def State.runPending (s : State) : State :=
  let mask := s.rd (Reg.FWP_ACT_PENDING 0)
  if mask = 0 ∨ s.actRun then s else { s.activate s.actSlot mask with actRun := true }

/-- The progress of a deferred activation: a type whose processors have all restarted leaves FWP_ACT.PENDING; the last one
ends the activation, which is logged and raises PF0 vector 0 (R472). -/
def State.actProgress (s : State) : State :=
  if !s.actRun then s
  else
    let f := Reg.FWP_ACT_PENDING 0
    let left := [1, 2, 3, 4, 5].foldl (fun m t =>
      if (procsOf t).any fun k => s.fwState k = Fw.restarting then m else m &&& (31 - 2 ^ (t - 1))) (s.rd f)
    let s := s.wr f left
    if left ≠ 0 then s else (({ s with actRun := false }.fwLog s.lamplighter 1).vector 0 0 0).vector 1 0 0

/-- FW_CONFIRM (R471). -/
def execFwConfirm (hub : Fin 2) (page : Fin 64) (s : State) : Res :=
  withMsg 0x0013 hub page s fun s m =>
    let slot := m.f 0 1
    let x := s.fwslot slot
    let st := firstFault
      [(St.badParam, m.badLength 1 || 2 ≤ slot), (St.stateError, x.state != .trial && x.state != .tried)]
    if st ≠ St.ok then s.answer m.src st []
    else (s.setFwslot slot { x with state := .valid }).answer m.src St.ok []

/-! ## Restarts (R457) -/

/-- FWP_WATCHDOG (R457): a processor's watchdog has expired. -/
def execFwpWatchdog (hub : Fin 2) (index : Fin 16) (s : State) : Res := .next (s.restartFw (fwpKey hub index))

/-- A processor takes a fault at a time in milliseconds (R456, R457): CRASH, and a restart; the fourth within 60 s leaves the
processor FAILED. Two FAILED Lamplighters are fatal (R504). -/
def State.fwFault (s : State) (k now : Nat) : State :=
  let p : Page := ⟨.fwp, k⟩
  if s.fwState k ≠ Fw.running ∧ s.fwState k ≠ Fw.booting then s
  else
    let recent := (s.fwp k).faults.filter fun t => now < t + 60000
    let s := s.modFwp k fun x => { x with faults := now :: recent }
    let s := ((s.err p 16).bucket p).restartFw k
    if recent.length < 3 then s
    else
      let s := s.wr (Reg.FWP_RUN_STATE k) Fw.failed
      if s.fwState 0 = Fw.failed ∧ s.fwState 16 = Fw.failed then s.fatal else s

/-- FWP_FAULT (R456, R457): a processor takes a machine-mode fault, or an access fault beyond its grants, at a time in
milliseconds. -/
def execFwpFault (hub : Fin 2) (index : Fin 16) (now : Nat) (s : State) : Res := .next (s.fwFault (fwpKey hub index) now)

/-- A bus error of a processor's own access is an access fault (R40, R456). How long after its last fault it comes is free:
the access carries no time. DESIGN CHOICE (log 90). -/
def State.accessFault (s : State) (k : Nat) : State :=
  (s.fwFault k ((s.fwp k).faults.headD 0 + s.free 0)).draw

/-- FWP_CTL_RESTART (R457, R477): RESTART is written. -/
def execFwpCtlRestart (hub : Fin 2) (index : Fin 16) (s : State) : Res :=
  let k := fwpKey hub index
  withPage ⟨.fwp, k⟩ 0x44 s fun s => .next ((s.wr (Reg.FWP_CTL_RESTART k) 1).restartFw k)

/-- A processor runs the image of its type in a slot (R443, R477). -/
def State.runFw (s : State) (k slot : Nat) : State :=
  let img := (s.fwslot slot).image (k % 16 + 1)
  (((s.wr (Reg.FWP_RUN_SLOT k) slot).wr (Reg.FWP_RUN_STATE k) Fw.running).wr (Reg.FWP_SVN k) (fieldAt img 8 4)).measureImage
    (k % 16 + 1) img

/-- FWP_RESTART_DONE (R457): the image of the processor's slot is loaded and verified, and the processor is RUNNING; a
rejected image leaves it RESTARTING. -/
def execFwpRestartDone (hub : Fin 2) (index : Fin 16) (s : State) : Res :=
  let k := fwpKey hub index
  let slot := s.rd (Reg.FWP_RUN_SLOT k)
  if s.fwState k ≠ Fw.restarting then .next s
  else
    let r := s.checkImage slot (k % 16 + 1)
    if !r.2 then .next r.1
    else .next ((r.1.runFw k slot).wr (Reg.FWP_CTL_RESTART k) 0).actProgress

/-- Mailbox pages whose command the journal holds, in the order in which the commands came. -/
def State.journalPages (s : State) : List Nat :=
  let rec insert (k : Nat) : List Nat → List Nat
    | [] => [k]
    | j :: l => if (s.mbx k).order < (s.mbx j).order then k :: j :: l else j :: insert k l
  ((List.range 128).filter fun k => s.journalAt k ≠ 0#16).foldl (fun l k => insert k l) []

/-- LAMPLIGHTER_TAKEOVER (R515): the standby serves in the place of the FAILED Lamplighter of hub 0; the commands that the
journal holds are completed in order and answered. Each command whose effect is one step has had it; what waits for
something is answered when that comes. -/
def execLamplighterTakeover (s : State) : Res :=
  if s.fwState 0 ≠ Fw.failed ∨ s.fwState 16 = Fw.failed ∨ s.fwState 16 = Fw.running then .next s
  else
    let ks := s.journalPages
    let s := s.wr (Reg.FWP_RUN_STATE 16) Fw.running
    let s := s.bbAdd 0x000B Sev.corrected none 0xFF (leBytes 2 ks.length)
    .next (ks.foldl (fun s k => s.mbxReply k) s)

/-! ## Core images (R444, R473) -/

/-- An entry of a core manifest (R444). -/
structure ManEntry where
  first : Nat
  count : Nat
  codeBytes : Nat
  dataBytes : Nat
  codeDigest : Bytes
  dataDigest : Bytes
  deriving DecidableEq, Repr

def ManEntry.ofBytes (b : Bytes) : ManEntry :=
  ⟨fieldAt b 0 2, fieldAt b 2 2, fieldAt b 4 4, fieldAt b 8 4, (b.drop 16).take 32, (b.drop 48).take 32⟩

/-- Entries of a manifest body. -/
def manEntries : Nat → Bytes → List ManEntry
  | 0, _ => []
  | n + 1, b => ManEntry.ofBytes (b.take 80) :: manEntries n (b.drop 80)

def align64 (a : Nat) : Nat := (a + 63) / 64 * 64

/-- An entry with the addresses of its images, which follow one another in entry order, code before data, each on a
64-byte boundary (R473), and their CRCs. -/
structure Placed where
  e : ManEntry
  codeAddr : Nat
  dataAddr : Nat
  codeCrc : BitVec 32
  dataCrc : BitVec 32
  /-- The images match their digests (R444). -/
  good : Bool
  deriving DecidableEq, Repr

def placeImages : Nat → List ManEntry → List Placed
  | _, [] => []
  | a, e :: l =>
    let c := align64 a
    let d := align64 (c + e.codeBytes)
    ⟨e, c, d, 0#32, 0#32, false⟩ :: placeImages (d + e.dataBytes) l

/-- Firmware reads memory whole and clean. -/
def State.fwRead (s : State) (a n : Nat) : State × Bytes × Bool :=
  let x := s.readMem (.fwp 0 0) a n
  (x.1, x.2.data, x.2.whole = St.ok)

/-- The security processor compares the digests of the images as they lie in memory (R444). -/
def State.checkPlaced (s : State) (l : List Placed) : State × List Placed × Bool :=
  l.foldl (fun (acc : State × List Placed × Bool) p =>
    let c := acc.1.fwRead p.codeAddr p.e.codeBytes
    let d := c.1.fwRead p.dataAddr p.e.dataBytes
    let ok := c.2.2 && d.2.2 && sm3 c.2.1 = p.e.codeDigest && sm3 d.2.1 = p.e.dataDigest
    (d.1, acc.2.1 ++ [{ p with codeCrc := crc32c c.2.1, dataCrc := crc32c d.2.1, good := ok }], acc.2.2 && ok)) (s, [], true)

/-- The image-table entry of a logical core (R174, R496): all zero when no manifest entry covers it, or when its images do not
match, so that its stub fails (R444). -/
def tableEntry (l : List Placed) (lc : Nat) : Bytes :=
  match l.find? fun p => p.e.first ≤ lc && lc < p.e.first + p.e.count with
  | none => List.replicate 32 0#8
  | some p => if !p.good then List.replicate 32 0#8 else
    leBytes 8 p.codeAddr ++ leBytes 4 p.e.codeBytes ++ leBytes 4 p.codeCrc.toNat ++ leBytes 8 p.dataAddr ++
      leBytes 4 p.e.dataBytes ++ leBytes 4 p.dataCrc.toNat

/-- Firmware writes the image tables of clusters, one after another, and their CLU_FW_BASE (R473, R496). -/
def State.writeTables (s : State) (l : List Placed) : Nat → List Nat → State
  | _, [] => s
  | a, gc :: gcs =>
    let s := (s.writeMem (.fwp 0 0) a ((List.range 16).flatMap fun k => tableEntry l (gc * 16 + k)) false).1
    ((s.wr (Reg.CLU_FW_BASE_LO gc) (a % 2 ^ 32)).wr (Reg.CLU_FW_BASE_HI gc) (a / 2 ^ 32)).writeTables l (a + 512) gcs

/-- A core manifest at an address: verified as an image of TYPE 6 (R443), with its images placed from `images`. -/
def State.readManifest (s : State) (manifest images : Nat) : State × List Placed × Bool :=
  let h := s.fwRead manifest 256
  let len := fieldAt h.2.1 12 4
  if !h.2.2 ∨ h.2.1.take 4 ≠ imageMagic then (h.1.rejectImage 6 (s.free 1), [], false)
  else
    let b := h.1.fwRead (manifest + 256) len
    let img := h.2.1 ++ b.2.1
    if b.2.2 && b.1.imageOk 6 (2 ^ 33) img then
      (b.1.measureImage 6 img, placeImages images (manEntries (len / 80) b.2.1), true)
    else (b.1.rejectImage 6 (s.free 1), [], false)

/-- Bytes from the first image to the end of the last. -/
def placedEnd (images : Nat) (l : List Placed) : Nat := l.foldl (fun _ p => p.dataAddr + p.e.dataBytes) images

/-- Every core page of a partition's mapped slots passes through RESETTING, and its stub fetches its image (R473).
DEDUCED (log 42). -/
def State.reloadCores (s : State) (gcs : List Nat) : State :=
  gcs.foldl (fun s gc => (List.range 16).foldl (fun s k => match s.slotOf (gc * 16 + k) with
    | some slot =>
      let p : Page := ⟨.cor, slotKey gc slot⟩
      (((s.enterReset p).leaveReset p).enableCore p.inst).stubRun gc slot
    | none => s) s) s

/-- Mapped cores of clusters in a state. -/
def State.countRun (s : State) (gcs : List Nat) (r : RunState) : Nat :=
  (gcs.flatMap fun gc => (List.range 16).filter fun k => match s.slotOf (gc * 16 + k) with
    | some slot => (s.core (slotKey gc slot)).run == r
    | none => false).length

/-- The ranges of memory that a CORE_LOAD names: the manifest, the images in the order of its entries, the tables (R473). What
the manifest's bytes give of its length and its images counts before it has been verified. -/
def State.loadRanges (s : State) (p manifest images tables n : Nat) : List (Nat × Nat) :=
  let fixed := [(manifest, 256), (images, 1), (tables, 512 * n)]
  let h := (s.fwRead manifest 256).2.1
  let len := fieldAt h 12 4
  if h.take 4 ≠ imageMagic then fixed
  else if !s.rangeHeld p (manifest + 256) len then (manifest + 256, len) :: fixed
  else
    let l := placeImages images (manEntries (len / 80) (s.fwRead (manifest + 256) len).2.1)
    (manifest + 256, len) :: (images, placedEnd images l - images) :: fixed

/-- CORE_LOAD (R14, R444, R473): replaces the core images of a paused partition whose work queues are empty. Cores whose images do
not match their manifest get none, and read BOOT_FAILED. -/
def execCoreLoad (hub : Fin 2) (page : Fin 64) (s : State) : Res := orHeld s <|
  withMsg 0x0030 hub page s fun s m =>
    let p := m.f 0 1
    let manifest := m.f 8 8
    let images := m.f 16 8
    let tables := m.f 24 8
    let gcs := s.clustersOf p
    let x := s.part p
    let known := p < 12 && x.state == .active
    let ranges := s.loadRanges p manifest images tables gcs.length
    let idle := natBits (s.reg (Reg.DIS_PAUSED x.link).addr).toNat p 1 = 1 && gcs.all fun gc => (s.cluster gc).wq.isEmpty
    let st := firstFault
      [(St.unitAbsent, known && ranges.any fun e => s.rangeAbsent e.1 e.2),
       (St.notPermitted, known && !ranges.all fun e => s.rangeHeld p e.1 e.2),
       (St.badParam, m.badLength 32 || 12 ≤ p || m.resv (m.f 1 7 ≠ 0)),
       (St.stateError, !known || !idle)]
    if st ≠ St.ok then s.answer m.src st []
    else
      let r := s.readManifest manifest images
      if !r.2.2 then r.1.answer m.src St.authFail []
      else
        let c := r.1.checkPlaced r.2.1
        let s := (c.1.writeTables c.2.1 tables gcs).reloadCores gcs
        s.answer m.src St.ok (leBytes 2 (s.countRun gcs .paused) ++ leBytes 2 (s.countRun gcs .bootFailed))

end Sys2Proof.Machine
end

