-- ==== Sys2Proof/Machine/Faults.lean ====
section
/-! DEFINITION. Cores, clusters, links and memory units that fail in service, the event ring and the black box
(07_memory_tiers.md R212, R215; 18_bring_up.md R488, R489; 19_faults_and_spares.md R503-R526). -/
namespace Sys2Proof.Machine

/-! ## Cores (R508-R512) -/

/-- A slot counts as failed: self-test or the ledger names it, or it has been fenced (R29, R509). -/
def State.slotBad (s : State) (gc slot : Nat) : Bool :=
  s.bru.failedSlots.contains (slotKey gc slot) || s.st ⟨.cor, slotKey gc slot⟩ = PS.fenced ||
    s.bru.ledger.any fun e => e.kind = 0x01#8 && e.location = BitVec.ofNat 64 (gc + slot * 256)

/-- The lowest slot of a cluster that is neither failed nor mapped (R510). -/
def State.spareOf (s : State) (gc : Nat) : Option Nat :=
  (List.range 18).find? fun k => !s.slotBad gc k && (s.lcOf gc k).isNone

/-- The word of a logical core in its die's NIC-I map. -/
def mapFld (lc : Nat) : Fld := Reg.NOC_MAP_SLOT (lc / 256) (lc / 16 % 16) (lc % 16)

/-- Lamplighter writes the map: a slot, or the mark of an absent core (R528). DEDUCED (log 17). -/
def State.mapCore (s : State) (lc : Nat) (slot : Option Nat) : State :=
  s.setReg (mapFld lc).addr (match slot with
    | some k => BitVec.ofNat 32 k
    | none => 0x80#32)

/-- M and X operations of a core that are queued or run. -/
def Core.opsHeld (c : Core) : Nat × Nat :=
  (c.mqueue.length + c.mrun.length,
   (c.chan.map fun e => e.2.queue.length + (if e.2.run.isSome then 1 else 0)).foldl (· + ·) 0)

/-- A spare takes a logical number: its page leaves OFF with COR_PAUSE.REQ set and is enabled (R509, R510).
DEDUCED (log 63). -/
def State.bringSpare (s : State) (gc slot : Nat) : State :=
  let p : Page := ⟨.cor, slotKey gc slot⟩
  (((s.pageOn p).wr (Reg.COR_PAUSE_REQ p.inst) 1)).enableCore p.inst

/-- A core has failed (R509-R512): its page is fenced, the ledger and the map are written, a spare is enabled or the
logical core is absent, and the failure is recorded. The codes of the cause are not given. DESIGN CHOICE (log 31). -/
def State.coreFail (s : State) (gc slot : Nat) : State :=
  let k := slotKey gc slot
  let p : Page := ⟨.cor, k⟩
  match s.lcOf gc slot with
  | none => s
  | some lc =>
    let ops := (s.core k).opsHeld
    let part := s.clusterPart gc
    let s := s.fencePage p
    let spare := s.spareOf gc
    let seq := s.rd (Reg.BBX_SEQ 0)
    let new := match spare with
      | some n => n
      | none => 0xFF
    let s := s.bbAdd 0x0003 Sev.contained (some p) part
      (leBytes 2 lc ++ [BitVec.ofNat 8 slot, BitVec.ofNat 8 new, BitVec.ofNat 8 (s.free 1)] ++ leBytes 2 ops.1 ++ leBytes 2 ops.2)
    let s := (s.ledgerAppend 0x01#8 (gc + slot * 256) seq (some p)).mapCore lc spare
    match spare with
    | some n => s.bringSpare gc n
    | none => s

/-- A page whose unit is in service or disabled, and so can fail. -/
def State.standing (s : State) (p : Page) : Bool := !s.absentPage p

/-- CORE_FAIL (R508-R512): a parity checker fires, or two words of the core's stores are uncorrectable within 1 s. -/
def execCoreFail (gc : Fin 160) (slot : Fin 18) (s : State) : Res :=
  .next (if s.standing ⟨.cor, slotKey gc slot⟩ then s.coreFail gc slot else s)

/-- CORE_RETIRE (R508): the runtime asks that a logical core be fenced as failed. -/
def execCoreRetire (hub : Fin 2) (page : Fin 64) (s : State) : Res :=
  withMsg 0x0041 hub page s fun s m =>
    let lc := m.f 0 2
    let gc := lc / 16
    let p := s.clusterPart gc
    let slot := s.slotOf lc
    let st := firstFault
      [(St.unitAbsent, lc < 2560 && (s.clusterGone gc || (match slot with
         | some k => !s.standing ⟨.cor, slotKey gc k⟩
         | none => true))),
       (St.notPermitted, m.src.mctp || (lc < 2560 && !(p < 12 && m.onLink (s.partHub p)))),
       (St.badParam, m.badLength 2 || 2560 ≤ lc)]
    match slot with
    | some k => if st ≠ St.ok then s.answer m.src st [] else (s.coreFail gc k).answer m.src St.ok []
    | none => s.answer m.src st []

/-! ## Clusters (R513) -/

/-- CLUSTER_FAIL (R513): a part that the cores of a cluster share has failed; the cluster is fenced and recorded. The codes
of the cause are not given. -/
def execClusterFail (gc : Fin 160) (s : State) : Res :=
  let p : Page := ⟨.clu, gc⟩
  if !s.standing p then .next s
  else
    let lost := (s.cluster gc).wq.length
    let part := s.clusterPart gc
    let s := s.fencePage p
    let seq := s.rd (Reg.BBX_SEQ 0)
    let s := s.bbAdd 0x0004 Sev.contained (some p) part
      ([BitVec.ofNat 8 gc, BitVec.ofNat 8 (s.free 1)] ++ leBytes 4 lost)
    .next (s.ledgerAppend 0x02#8 gc seq (some p))

/-! ## Die-to-die links (R22, R488, R489, R502, R514) -/

/-- Width, STATE and SPARES_USED of a link. -/
structure D2dWord where
  state : Nat
  width : Nat
  spares : Nat
  deriving DecidableEq, Repr

def State.d2dWord (s : State) (n : Nat) : D2dWord :=
  let e := (linkEnds n).1
  ⟨s.rd (Reg.D2D_LINK_STATE e.1 e.2), s.rd (Reg.D2D_LINK_WIDTH e.1 e.2), s.rd (Reg.D2D_LINK_SPARES_USED e.1 e.2)⟩

/-- Both ends of a link show its word. -/
def State.setD2d (s : State) (n : Nat) (w : D2dWord) : State :=
  let put (s : State) (e : Nat × Nat) : State :=
    ((s.wr (Reg.D2D_LINK_STATE e.1 e.2) w.state).wr (Reg.D2D_LINK_WIDTH e.1 e.2) w.width).wr (Reg.D2D_LINK_SPARES_USED e.1 e.2)
      w.spares
  put (put s (linkEnds n).1) (linkEnds n).2

/-- BRU_LINKS counts the links that are FAILED, at half width, and at full width with spares (R501). -/
def State.showLinks (s : State) : State :=
  let count (f : D2dWord → Bool) : Nat := ((List.range linkCount).filter fun n => f (s.d2dWord n)).length
  ((s.wr (Reg.BRU_LINKS_FAILED 0) (count fun w => w.state = D2d.failed)).wr (Reg.BRU_LINKS_HALF 0)
    (count fun w => w.state = D2d.up && w.width = 1)).wr (Reg.BRU_LINKS_REPAIRED 0)
    (count fun w => w.state = D2d.up && w.width = 2 && w.spares ≠ 0)

/-- What training or retraining of a link ends in: width 0 is below half width (R20, R488). -/
def d2dEnd (width spares : Nat) : D2dWord :=
  if width = 0 then ⟨D2d.failed, 0, 0⟩ else ⟨D2d.up, width, spares⟩

/-- A link has trained or retrained (R488, R489, R514): a link degraded or lost is shown at both ends and recorded.
DEDUCED (log 65). -/
def State.d2dTrained (s : State) (n : Nat) (old : D2dWord) (w : D2dWord) : State :=
  let s := (s.setD2d n w).showLinks
  let e := linkEnds n
  let pages : List Page := [⟨.d2d, e.1.1⟩, ⟨.d2d, e.2.1⟩]
  let failed := w.state = D2d.failed
  let degraded := !failed && (w.width = 1 || w.spares ≠ 0)
  if !failed ∧ !degraded then s
  else
    let s := pages.foldl (fun s p => if failed then (s.err p 17 Sev.contained).bucket p else s.err p 16) s
    s.bbAdd 0x0006 (if failed then Sev.contained else Sev.corrected) (pages.head?) 0xFF
      ([e.1.1, old.state, w.state, old.width, w.width].map (BitVec.ofNat 8))

/-- A hub that has lost both of its links makes the device fatal (R504, R514). -/
def State.hubsCut (s : State) : Bool :=
  (s.d2dState 13 = D2d.failed && s.d2dState 14 = D2d.failed) || (s.d2dState 15 = D2d.failed && s.d2dState 16 = D2d.failed)

/-- The link at an instance of a D2D page, none at an edge of the package. -/
def linkAt (page i : Nat) : Option Nat :=
  (List.range linkCount).find? fun n => (linkEnds n).1 = (page, i) || (linkEnds n).2 = (page, i)

/-- D2D_RETRAIN (R489, R502): RETRAIN of an instance is written; the link retrains, holding its traffic. -/
def execD2dRetrain (page : Fin 42) (i : Fin 2) (s : State) : Res :=
  withPage ⟨.d2d, page⟩ 0x48 s fun s =>
  match linkAt page i with
  | none => .next s
  | some n =>
    let w := s.d2dWord n
    if w.state = D2d.up ∨ w.state = D2d.failed then
      let f := Reg.D2D_CTL_RETRAIN page
      .next ((s.wr f (s.rd f ||| 2 ^ i.val)).setD2d n { w with state := D2d.retraining }).showLinks
    else .next s

/-- RETRAIN of a link clears itself at both ends. -/
def State.clearRetrain (s : State) (n : Nat) : State :=
  let clear (s : State) (e : Nat × Nat) : State :=
    let f := Reg.D2D_CTL_RETRAIN e.1
    s.wr f (s.rd f &&& (3 - 2 ^ e.2))
  clear (clear s (linkEnds n).1) (linkEnds n).2

/-- A link comes back from training or retraining; a hub that has lost both of its links is fatal (R504). -/
def State.d2dReturn (s : State) (n width spares : Nat) : State :=
  let s := (s.d2dTrained n (s.d2dWord n) (d2dEnd width spares)).clearRetrain n
  if s.hubsCut ∧ !s.bru.fatal then s.fatal else s

/-- D2D_LANE_LOSS (R514): a link loses a lane in service, retrains once, and returns with a width and spares in use, or is
FAILED. -/
def execD2dLaneLoss (link : Fin 17) (width : Fin 3) (spares : Fin 9) (s : State) : Res :=
  if s.d2dState link ≠ D2d.up then .next s else .next (s.d2dReturn link width spares)

/-! ## Memory units (R212, R215) -/

/-- A memory unit is out of service; the controller shows it, and BRU_MEM counts what is left. -/
def State.showMem (s : State) : State :=
  let good (u : Nat) : Bool := s.bru.memDone.getLsbD u && !s.bru.memBad.getLsbD u
  let count (l : List Nat) : Nat := (l.filter good).length
  let s := (List.range 20).foldl (fun s k =>
    s.wr (Reg.HMC_UNITS_USABLE k) ((List.range 4).foldl (fun m q => if good (4 * k + q) then m + 2 ^ q else m) 0)) s
  (s.wr (Reg.BRU_MEM_HBM_UNITS 0) (count (List.range 80))).wr (Reg.BRU_MEM_T2_UNITS 0)
    (if s.bru.mapBuilt then ((List.range 32).filter fun u => s.bru.t2Mapped.getLsbD u).length
     else count ((List.range 32).map (80 + ·)))

/-- Channels of a unit in service. -/
def unitChannels (u : Nat) : Fld :=
  if u < 80 then ⟨(Reg.HMC_CH_OK (u / 4)).addr, 8 * (u % 4), 8⟩ else Reg.LPC_PKG_CH_OK ((u - 80) / 4) (u % 4)

/-- A record of a lost memory unit (R523). -/
def State.unitLostRecord (s : State) (u : Nat) : State :=
  s.bbAdd 0x0005 Sev.contained (some (ctrlPage u)) 0xFF
    (if u < 80 then [0#8, BitVec.ofNat 8 u] else [1#8, BitVec.ofNat 8 (u - 80)])

/-- A unit that has become unusable shows it in its controller's page: UNIT_LOST, and LOST of a tier-2 package, are set
after START alone (R228, R229). -/
def State.showLost (s : State) (u part : Nat) : State :=
  if !s.bru.started then s
  else if u < 80 then s.err ⟨.hmc, u / 4⟩ 16 Sev.contained part
  else (s.wr (Reg.LPC_PKG_LOST ((u - 80) / 4) (u % 4)) 1).err ⟨.lpc, (u - 80) / 4⟩ (16 + u % 4) Sev.contained part

/-- MEMORY_UNIT_LOST (R212, R215, R228, R229): a unit in service loses channels and becomes unusable. Before START it only
degrades the step that runs (R488, R495). -/
def execMemoryUnitLost (unit : Fin 112) (channels : BitVec 8) (s : State) : Res :=
  let u := unit.val
  if !s.bru.memDone.getLsbD u ∨ s.bru.memBad.getLsbD u then .next s
  else
    let f := unitChannels u
    let s := s.wr f (s.rd f &&& (255 - channels.toNat))
    let part := s.unitPart u
    let s := { s with bru := { s.bru with memBad := s.bru.memBad ||| (1#112 <<< u) } }.showMem
    let s := s.unitLostRecord u
    if !s.bru.started then
      .next ({ s with bru := { s.bru with stepDegraded := s.bru.stepDegraded ||| s.bru.running } }.err ⟨.bru, 0⟩ 17)
    else .next (s.showLost u part)

/-! ## The event ring (R520) -/

/-- EVT_READ (R520): records of the event ring from a SEQ upward. -/
def execEvtRead (hub : Fin 2) (page : Fin 64) (s : State) : Res :=
  withMsg 0x0040 hub page s fun s m =>
    let ring := s.bbx.ring.reverse
    let first := match ring with
      | r :: _ => r.seq.toNat
      | [] => s.rd (Reg.BBX_SEQ 0)
    let rs := ring.filter fun r => max (m.f 0 4) first ≤ r.seq.toNat
    let out := rs.take 63
    if m.badLength 4 then s.answer m.src St.badParam []
    else
      s.answer m.src St.ok
        (leBytes 4 first ++ [BitVec.ofNat 8 out.length, if 63 < rs.length then 1#8 else 0#8] ++ List.replicate 10 0#8 ++
          out.flatMap BbRec.bytes)

/-! ## The black box (R522-R525) -/

/-- BBX_RECORD (R525): a record of any source reaches the writer. -/
def execBbxRecord (typ : BitVec 16) (sev : BitVec 2) (src : Option Page) (part : Fin 16) (payload : List (BitVec 8)) (s : State) :
    Res :=
  match src with
  | some p => if p.inst < p.blk.count then .next (s.bbAdd typ.toNat sev src part payload) else .refused (.noSuchItem "page")
  | none => .next (s.bbAdd typ.toNat sev none part payload)

/-- Pages of the black-box ring: 32 MiB (R525). -/
def ringPages : Nat := 131072

/-- Records are written as one page of both flashes; bit n of `fail`: the program or verify failed on flash n (R525,
R529). -/
def State.bbPage (s : State) (rs : List BbRec) (fail : BitVec 2) : State :=
  let s := if fail = 3#2 then s else { s with bbx := { s.bbx with flash := (rs :: s.bbx.flash).take ringPages } }
  let s := s.wr (Reg.BBX_PTR 0) ((s.rd (Reg.BBX_PTR 0) + 4) % 524288)
  let s := s.wr (Reg.BBX_PEND 0) s.bbx.buffer.length
  let one (s : State) (n : Nat) : State :=
    if fail.getLsbD n then
      let f := Reg.BBX_FLASH_ERR_FLASH 0
      (((s.bump (Reg.BBX_FLASH_ERR_COUNT 0)).wr f (s.rd f ||| 2 ^ n)).err bbxPage 16).bucket bbxPage
    else s
  one (one s 0) 1

/-- BBX_PAGE_PROGRAM (R525, R526, R576): a full page, or one whose first record is 100 ms old, is programmed; during a power
failure only while its flush has pages left. -/
def execBbxPageProgram (fail : BitVec 2) (s : State) : Res :=
  if s.bbx.buffer.isEmpty ∨ (s.bbx.suspended ∧ s.bbx.flushLeft = 0) then .next s
  else
    let rs := s.bbx.buffer.take 4
    .next ({ s with bbx := { s.bbx with buffer := s.bbx.buffer.drop 4, flushLeft := s.bbx.flushLeft - 1 } }.bbPage rs fail)

/-! ## The patrol of an SRAM (R277) -/

/-- What an uncorrectable word of an array costs beyond its mark: the poison of its tile (R101); of the always-on SRAM, a fatal error (R280). -/
def State.arrayLost (s : State) (a : SramArray) : State :=
  match a with
  | .tile gc k => s.modCore (slotKey gc k) fun c => { c with tile := { c.tile with poison := true } }
  | .alwaysOn => s.fatal
  | _ => s

/-- SRAM_PATROL_STEP (R277): in a free bank clock the patrol reads and corrects one word; `upset` bits of it are in error.
When another access asks for the bank first, the write-back is abandoned. A word found clean is not written back (R274). An
error that cannot be corrected sets a tile's POISON, and in the always-on SRAM is fatal (R101, R504). -/
def execSramPatrolStep (a : SramArray) (upset : Nat) (conflict : Bool) (s : State) : Res :=
  let p := a.place
  let i := s.sramPosOf p.1 % p.2.2
  let u := p.2.1 + 8 * i
  let d := s.decodeUnit u upset true
  let clean := match s.verdict u upset with
    | .clean => true
    | _ => false
  let t := if conflict then { d.state with mem := s.mem, clean := s.clean, chk := s.chk }
    else if clean then d.state else d.state.freshUnit u
  let t := if d.poison then t.arrayLost a else t
  .next (t.setSramPosOf p.1 ((i + 1) % p.2.2))

end Sys2Proof.Machine
end

