-- ==== Sys2Proof/Machine/Power.lean ====
section
/-! DEFINITION. Sensors, operating points, limits, emergencies, energy counters, telemetry records and the PLDM terminus
(21_telemetry_and_power.md R547-R569). -/
namespace Sys2Proof.Machine

def pwrPage (h : Nat) : Page := ⟨.pwr, h⟩
def telPage (h : Nat) : Page := ⟨.tel, h⟩

/-- The power-and-telemetry processor runs (R455). -/
def State.powerUp (s : State) : Bool := s.fwState 4 = Fw.running

/-- Both hubs show a field (R568). -/
def State.bothWr (s : State) (f : Nat → Fld) (v : Nat) : State := (s.wr (f 0) v).wr (f 1) v

/-! ## Telemetry records (R563-R565) -/

/-- A telemetry record of a hub (R563). -/
def telBytes (seq typ domain count : Nat) (payload : Bytes) : Bytes :=
  let b := leBytes 4 seq ++ leBytes 2 typ ++ leBytes 2 domain ++ leBytes 6 count ++ [0#8, 0#8] ++
    (payload ++ List.replicate 44 0#8).take 44
  b ++ leBytes 4 (crc32c b).toNat

/-- Records of the host ring (R565). -/
def State.ringSize (s : State) (h : Nat) : Nat :=
  let n := s.rd (Reg.TEL_RING_LOG2 h)
  2 ^ (if 6 ≤ n ∧ n ≤ 16 then n else 6)

/-- A hub whose TEL page serves emits a record: it takes the next SEQ and, with RING_EN, the next slot of the host ring; a slot not yet released, or
a link that PF0 may not master, loses the record (R305, R563, R565, R569). DEDUCED (log 48). -/
def State.emit (s : State) (h typ domain count : Nat) (payload : Bytes) : State :=
  let b := telBytes (s.tel h).seq.toNat typ domain count payload
  if !s.serving (telPage h) then s
  else
    let s := s.modTel h fun x => { x with seq := x.seq + 1#32 }
    let head := s.rd (Reg.TEL_RING_HEAD h)
    let held := (head + 2 ^ 32 - s.rd (Reg.TEL_RING_TAIL h)) % 2 ^ 32
    if !s.on (Reg.TEL_CFG_RING_EN h) then s
    else if s.ringSize h ≤ held ∨ !s.fnMaster h 0 then (s.bump (Reg.TEL_LOST h)).err (telPage h) 16
    else
      let base := s.rd (Reg.TEL_RING_BASE_LO h) * 4096 + s.rd (Reg.TEL_RING_BASE_HI h) * 2 ^ 32
      (s.hostWrite (s.fnId h 0) (base + 64 * (head % s.ringSize h)) b).step1 (Reg.TEL_RING_HEAD h)

/-- EVENT records of both hubs (R564), each raising PF0 vector 0 as it enters the ring (R290); their count in the firmware domain is
the firmware's own: free. -/
def State.event (s : State) (kind who : Nat) : State :=
  let c := s.free 0 % 2 ^ 48
  let one (s : State) (h : Nat) : State :=
    let t := s.emit h 0x0005 0x0404 c [BitVec.ofNat 8 kind, BitVec.ofNat 8 who]
    if t.rd (Reg.TEL_RING_HEAD h) = s.rd (Reg.TEL_RING_HEAD h) then t else t.vector h 0 0
  (one (one s 0) 1).draw

/-! ## Operating points (R556, R557, R560) -/

/-- Core clock in MHz and voltage in mV of an operating point (R556). -/
def pointMhz (p : Nat) : Nat := [800, 1000, 1200, 1400, 1600, 1700, 1800].getD p 1800
def pointMv (p : Nat) : Nat := [600, 640, 680, 720, 750, 800, 850].getD p 850

/-- The point in force of a die and what limits it (R557, R568): hardware forces point 0; while the power-and-telemetry
processor does not run all else keeps its last value (R562). DEDUCED (log 45). -/
def State.updatePoint (s : State) (d : Nat) : State :=
  let x := s.pwr.getDies d
  let put (point cause : Nat) : State :=
    (s.bothWr (fun h => Reg.PWR_DIE_STAT_POINT h d) point).bothWr (fun h => Reg.PWR_DIE_STAT_LIMIT_CAUSE h d) cause
  let req := min 6 (s.rd (Reg.PWR_DIE_REQ_POINT 0 d))
  if x.hold then put 0 4
  else if !s.powerUp then s
  else if s.pwr.emerg then put 0 3
  else
    let p := min req (min x.thermLimit x.devLimit)
    put p (if req = p then 0 else if x.thermLimit = p then 1 else 2)

def State.updatePoints (s : State) : State := (List.range 10).foldl (fun s d => s.updatePoint d) s

def State.modDie (s : State) (d : Nat) (f : DieP → DieP) : State := { s with pwr := s.pwr.setDies d (f (s.pwr.getDies d)) }

/-- DVFS_SWITCH (R556): a die goes to its point in force; a higher point takes the voltage first, a lower one the
frequency. -/
def execDvfsSwitch (die : Fin 10) (s : State) : Res :=
  let d := die.val
  let p := s.rd (Reg.PWR_DIE_STAT_POINT 0 d)
  let s := if s.rd (Reg.PWR_DIE_CLK_MV 0 d) = pointMv p then s else s.out (.avs d (pointMv p))
  .next ((s.bothWr (fun h => Reg.PWR_DIE_CLK_MV h d) (pointMv p)).bothWr (fun h => Reg.PWR_DIE_CLK_MHZ h d) (pointMhz p))

/-- DROOP_DETECT (R555): a cluster's core clock is halved. -/
def execDroopDetect (gc : Fin 160) (s : State) : Res :=
  let d := dieOfGc gc
  let s := s.modDie d fun x => { x with stretch := x.stretch ||| (1#16 <<< (gc.val % 16)) }
  .next ((s.bump (Reg.PWR_DIE_DROOP 0 d)).bump (Reg.PWR_DIE_DROOP 1 d))

/-- DROOP_RECOVER (R555): the full rate returns 2 µs after the supply has recovered. -/
def execDroopRecover (gc : Fin 160) (s : State) : Res :=
  .next (s.modDie (dieOfGc gc) fun x => { x with stretch := x.stretch &&& ~~~(1#16 <<< (gc.val % 16)) })

/-! ## Emergencies (R559) -/

def Pwr.setCond (x : Pwr) (i : Nat) (b : Bool) : Pwr :=
  let m := 1#4 <<< i
  { x with pmEmerg := if b then x.pmEmerg ||| m else x.pmEmerg &&& ~~~m }

def State.cond (s : State) (i : Nat) (b : Bool) : State := { s with pwr := s.pwr.setCond i b }

/-- PWR_DEV.EMERG changes: ERR_STAT bit 16 and an EVENT record (R559). -/
def State.emergSet (s : State) (on : Bool) : State :=
  let s := { s with pwr := { s.pwr with emerg := on } }.bothWr (fun h => Reg.PWR_DEV_EMERG h) (if on then 1 else 0)
  ((s.err (pwrPage 0) 16).event (if on then 0 else 1) 0xFF).updatePoints

/-- An emergency is in force while a condition holds. -/
def State.emergStart (s : State) : State := if s.pwr.pmEmerg ≠ 0#4 ∧ !s.pwr.emerg then s.emergSet true else s

/-- EMERGENCY_START (R559). -/
def execEmergencyStart (s : State) : Res := .next s.emergStart

/-- EMERGENCY_END (R472, R559): 1 s after the last condition has cleared; a deferred activation runs. -/
def execEmergencyEnd (s : State) : Res :=
  if s.pwr.pmEmerg = 0#4 ∧ s.pwr.emerg then .next (s.emergSet false).runPending else .next s

/-! ## Sensors (R552, R557, R558) -/

/-- A temperature as a number of quarter degrees, none for no valid sample (R552). -/
def tempOf (x : BitVec 16) : Option Int := if x = 0x8000#16 then none else some x.toInt

/-- The hottest of samples, as a register shows it. -/
def hottest (l : List (BitVec 16)) : BitVec 16 :=
  l.foldl (fun m x => match tempOf m, tempOf x with
    | none, _ => x
    | _, none => m
    | some a, some b => if a < b then x else m) 0x8000#16

/-- T_THROTTLE in quarter degrees, at most 100 °C (R568). -/
def State.tThrottle (s : State) : Int := 4 * min 100 (s.rd (Reg.PWR_THERM_T_THROTTLE 0))

/-- The hottest sensor of a die. -/
def State.dieHot (s : State) (d : Nat) : Option Int := tempOf (BitVec.ofNat 16 (s.rd (Reg.PWR_DIE_TEMP 0 d)))

def State.stackTemp (s : State) (k : Nat) : Option Int := tempOf (BitVec.ofNat 16 (s.rd (Reg.PWR_HBM_TEMP 0 k)))

/-- At or above a limit. -/
def atLimit (t : Option Int) (limit : Int) : Bool := match t with
  | some x => decide (limit ≤ x)
  | none => false

/-- Hardware limits in quarter degrees: a die trips at 105 °C until 100 °C, a stack halves its bandwidth at 95 °C (R557). -/
def tripAt : Int := 420
def tripOff : Int := 400
def stackLimit : Int := 380

/-- A die or a stack is at its hardware limit (R559). -/
def State.hardLimit (s : State) : Bool :=
  ((List.range 10).any fun d => atLimit (s.dieHot d) tripAt) || ((List.range 20).any fun k => atLimit (s.stackTemp k) stackLimit)

/-- Hardware holds point 0 from 105 °C, or from THERM_ALERT_N, until the sensor is below 100 °C and the pin released
(R557). -/
def State.settleHold (s : State) (d : Nat) : State :=
  let hot := s.dieHot d
  let x := s.pwr.getDies d
  if atLimit hot tripAt ∧ !x.hold then ((s.modDie d fun x => { x with hold := true }).event 3 d).updatePoint d
  else if x.hold ∧ !s.pins.thermAlert ∧ !atLimit hot tripOff then (s.modDie d fun x => { x with hold := false }).updatePoint d
  else s

/-- A threshold is crossed between two readings: the terminus sends an event to its receiver (R566). -/
def State.crossing (s : State) (sensor : PldmSensor) (old new : Option Int) (limit : Int) : State :=
  match (s.tel 0).receiver with
  | none => s
  | some r =>
    if s.powerUp ∧ atLimit old limit ≠ atLimit new limit then s.out (.pldm (.event r sensor limit.toNat (atLimit new limit))) else s

/-- The trend alert of a die (R558), a pre-warning to the partitions of its clusters (R544), at a time in milliseconds. DEDUCED (log 46). -/
def State.trend (s : State) (d now : Nat) : State :=
  let x := s.pwr.getDies d
  let delta : Int := 4 * s.rd (Reg.PWR_THERM_TREND_DELTA 0)
  let window := 100 * max 1 (s.rd (Reg.PWR_THERM_TREND_WINDOW 0))
  match s.dieHot d with
  | none => s
  | some t =>
    let past := x.history.filter fun h => now ≤ h.1 + window
    let peak : Option Int := match x.trendPeak with
      | some p => if t ≤ p - delta then none else some (max p t)
      | none => none
    let s := s.modDie d fun x => { x with history := (now, t) :: past, trendPeak := peak }
    let rise := past.any fun h => decide (h.2 + delta < t)
    if delta ≠ 0 ∧ peak.isNone ∧ rise ∧ s.tThrottle - 40 ≤ t then
      (((s.modDie d fun x => { x with trendPeak := some t }).err (pwrPage 0) 17).event 2 d).preWarn
        ((List.range 12).filter fun q => (List.range 16).any fun k => s.clusterPart (16 * d + k) = q)
    else s

/-- SENSOR_SAMPLE (R552, R557-R559, R566): a sensor is sampled at a time in milliseconds. -/
def execSensorSample (sensor : Sensor) (temp : BitVec 16) (now : Nat) (s : State) : Res :=
  match sensor with
  | .die gc i =>
    let d := dieOfGc gc
    if h : d < 10 then
      let old := s.dieHot d
      let s := s.modDie d fun x => x.setTemps (4 * (gc.val % 16) + i.val) temp
      let hot := hottest ((List.range 64).map (s.pwr.getDies d).getTemps)
      let s := s.bothWr (fun h => Reg.PWR_DIE_TEMP h d) hot.toNat
      let s := (s.settleHold d).trend d now
      let s := s.cond 1 s.hardLimit
      .next ((s.crossing (.die ⟨d, h⟩) old (tempOf hot) s.tThrottle).crossing (.die ⟨d, h⟩) old (tempOf hot) tripAt)
    else .next s
  | .hub hub i =>
    let s := { s with pwr := s.pwr.setHubTemps (32 * hub.val + i.val) temp }
    let hot := hottest ((List.range 32).map fun j => s.pwr.getHubTemps (32 * hub.val + j))
    .next (s.wr (Reg.PWR_HUB_TEMP hub) hot.toNat)
  | .stack k =>
    let old := s.stackTemp k
    let s := s.bothWr (fun h => Reg.PWR_HBM_TEMP h k) temp.toNat
    let t := tempOf temp
    let bit : BitVec 20 := 1#20 <<< k.val
    let mark (m : BitVec 20) (b : Bool) : BitVec 20 := if b then m ||| bit else m &&& ~~~bit
    let s := { s with pwr := { s.pwr with
      stackHot := mark s.pwr.stackHot (atLimit t (4 * s.rd (Reg.PWR_THERM_HBM_THROTTLE 0)))
      stackHalf := mark s.pwr.stackHalf (atLimit t stackLimit) } }
    .next ((s.cond 1 s.hardLimit).crossing (.stack k) old t stackLimit)

/-- THERMAL_LIMIT_TICK (R557): one millisecond of a die's thermal limit. -/
def execThermalLimitTick (die : Fin 10) (s : State) : Res :=
  let d := die.val
  let hot := s.dieHot d
  let step (x : DieP) : DieP :=
    if atLimit hot s.tThrottle then { x with thermLimit := x.thermLimit - 1, coolMs := 0 }
    else if atLimit hot (s.tThrottle - 12) then { x with coolMs := 0 }
    else if x.coolMs + 1 < 10 then { x with coolMs := x.coolMs + 1 }
    else { x with thermLimit := min 6 (x.thermLimit + 1), coolMs := 0 }
  if !s.powerUp then .next s else .next ((s.modDie d step).updatePoint d)

/-- THERM_ALERT_N asserted reaches the device (R557, R559): point 0 is forced on every die, and an emergency is in
force. -/
def State.thermAlert (s : State) : State :=
  let s := (List.range 10).foldl (fun s d => s.modDie d fun x => { x with hold := true }) s
  ((s.cond 0 true).event 3 0xFF).emergStart.updatePoints

/-- THERM_ALERT_N (R557, R578): ignored until ROM_CHECK has begun, which samples the pin. -/
def execThermAlertN (s : State) : Res :=
  if s.pins.thermAlert then .next s
  else
    let s := { s with pins := { s.pins with thermAlert := true } }
    .next (if s.pins.romDone then s.thermAlert else s)

/-- THERM_ALERT_RELEASE (R557, R559). -/
def execThermAlertRelease (s : State) : Res :=
  let s := { s with pins := { s.pins with thermAlert := false } }.cond 0 false
  .next ((List.range 10).foldl (fun s d => s.settleHold d) s)

/-! ## Device power (R559, R560) -/

/-- The die with the highest point in force, the lowest-numbered of several (R560). -/
def State.highestDie (s : State) : Nat :=
  let point (d : Nat) : Nat := s.rd (Reg.PWR_DIE_STAT_POINT 0 d)
  (List.range 10).foldl (fun m d => if point m < point d then d else m) 0

/-- POWER_LIMIT_TICK (R559, R560): device power averaged over one millisecond. -/
def execPowerLimitTick (watts : BitVec 16) (s : State) : Res :=
  if !s.powerUp then .next s
  else
    let w := watts.toNat
    let limit := s.rd (Reg.PWR_LIMIT 0)
    let beyond := decide (limit < w)
    let s := s.bothWr (fun h => Reg.PWR_DEV_WATTS h) w
    let ms := if beyond then s.pwr.overMs + 1 else 0
    let s := { s with pwr := { s.pwr with overMs := ms } }.cond 3 (decide (10 < ms))
    if beyond then
      let d := s.highestDie
      let p := s.rd (Reg.PWR_DIE_STAT_POINT 0 d)
      if p = 0 then .next s
      else
        let s := s.modDie d fun x => { x with devLimit := p - 1 }
        .next ({ s with pwr := { s.pwr with lowered := d :: s.pwr.lowered } }.updatePoint d)
    else if w * 100 ≤ limit * 95 then
      match s.pwr.lowered with
      | [] => .next s
      | d :: rest =>
        let s := { s with pwr := { s.pwr with lowered := rest } }
        let up (x : DieP) : DieP := { x with devLimit := if rest.contains d then x.devLimit + 1 else 6 }
        .next ((s.modDie d up).updatePoint d)
    else .next s

/-! ## Energy (R553, R554, R561) -/

/-- ESTIMATOR_SCALE (R553): in 10 ms rail `rail` (0-9 VDD_CD, 10-11 VDD_HUB) spent `measured` µJ, `static` of it static, and its
estimators counted `counted` µJ. The scale, and the static energy for each µJ counted, are kept in 1/1024.
DESIGN CHOICE (log 105). -/
def execEstimatorScale (rail : Fin 12) (measured static counted : Nat) (s : State) : Res :=
  if !s.powerUp then .next s
  else
    let k := if counted = 0 then s.pwr.getScale rail else max 512 (min 2048 ((measured - static) * 1024 / counted))
    .next { s with pwr := (s.pwr.setScale rail k).setStatics rail (if counted = 0 then 0 else static * 1024 / counted) }

/-- Adds to a 64-bit counter of a partition in both hubs (R554). -/
def State.charge (s : State) (lo : Nat → Fld) (n : Nat) : State := (s.step64 (lo 0) n).step64 (lo 1) n

/-- µJ that an estimator has counted, scaled by its rail, with its share of the rail's static energy (R553). -/
def State.railEnergy (s : State) (rail raw : Nat) : Nat := raw * (s.pwr.getScale rail + s.pwr.getStatics rail) / 1024

/-- Sum of the entries of a list that pass a test. -/
def sumOf {α : Type} (l : List (α × Nat)) (f : α → Bool) : Nat := l.foldl (fun n e => if f e.1 then n + e.2 else n) 0

/-- ENERGY_ACCUMULATE (R554): the energy and activity of one millisecond. A millisecond's microjoules are its milliwatts. -/
def execEnergyAccumulate (e : Energy) (s : State) : Res :=
  let cl := e.clusters.map fun x => (x.1, s.railEnergy (dieOfGc x.1) x.2)
  let eng := e.engines.map fun x => (x.1.2, s.railEnergy (10 + x.1.1) x.2)
  let part (s : State) (p : Nat) : State :=
    let uj := sumOf cl (fun gc => s.clusterPart gc.val = p) + sumOf e.units (fun u => s.unitPart u.val = p) +
      sumOf eng (fun q => q.val = p)
    let s := s.charge (fun h => Reg.TEL_P_ENERGY_LO h p) uj
    let s := s.charge (fun h => Reg.TEL_P_OPS_LO h p) (sumOf e.ops fun q => q.val = p)
    let s := s.charge (fun h => Reg.TEL_P_LINES_LO h p) (sumOf e.lines fun q => q.val = p)
    let s := s.charge (fun h => Reg.TEL_P_TXBYTES_LO h p) (sumOf e.bytes fun q => q.val = p)
    s.bothWr (fun h => Reg.TEL_P_MW h p) uj
  let free := sumOf cl (fun gc => s.clusterPart gc.val = 15) + sumOf e.units (fun u => s.unitPart u.val = 15) + e.other
  let s := ((List.range 12).foldl part s).charge (fun h => Reg.TEL_UNASSIGNED_LO h) free
  .next ((List.range 10).foldl (fun s d =>
    { s with pwr := s.pwr.setDieMw d (sumOf cl fun gc => dieOfGc gc.val = d) }) s)

/-- DUTY_UPDATE (R561): the limiter of an ACTIVE partition. The control law is not given, so the duty of a capped partition is
a free value in 1-16; without a cap it is 16. -/
def execDutyUpdate (part : Fin 12) (s : State) : Res :=
  let p := part.val
  let cap := (s.part p).pcap.toNat
  if !s.powerUp ∨ (s.part p).state ≠ .active then .next s
  else
    let duty := if cap = 0 then 16 else 1 + s.free 0 % 16
    let s := s.draw
    let unmet := decide (cap ≠ 0 ∧ duty = 1 ∧ cap * 1000 < s.rd (Reg.TEL_P_MW 0 p))
    let was := s.on (Reg.TEL_P_CAP_UNMET 0 p)
    let s := s.bothWr (fun h => Reg.TEL_P_CAP_DUTY h p) duty
    let s := s.bothWr (fun h => Reg.TEL_P_CAP_UNMET h p) (if unmet then 1 else 0)
    .next (if unmet ∧ !was then s.event 4 p else s)

/-! ## Periods (R550, R551, R563-R567) -/

/-- A clock domain counts (R547, R550). -/
def State.domainRuns (s : State) (id : Nat) : Bool :=
  let i := id % 256
  let up (p : Page) : Bool := !s.absentPage p
  match id / 256 with
  | 0 => i = 0 && s.pins.refclk.getLsbD 0
  | 1 => i < 10 && up ⟨.die, i⟩
  | 2 => i < 10 && up ⟨.die, i⟩
  | 3 => i < 2 && up ⟨.hub, i⟩
  | 4 => fwpExists (i / 16) (i % 16) && s.fwState i ≠ Fw.held
  | 5 => i < 8 && up ⟨.eth, i⟩ && s.pins.refclk.getLsbD (3 + i / 4)
  | 6 => i < 2 && !s.pins.perst.getLsbD i && s.pins.refclk.getLsbD (1 + i)
  | 7 => i < 20 && up ⟨.hmc, i⟩ && s.on (Reg.CTRL_ENABLE ⟨.hmc, i⟩)
  | 8 => i < 8 && up ⟨.lpc, i⟩ && s.on (Reg.CTRL_ENABLE ⟨.lpc, i⟩)
  | _ => false

def State.partPayload (s : State) (h p : Nat) : Bytes :=
  [BitVec.ofNat 8 p, BitVec.ofNat 8 (s.rd (Reg.TEL_P_CAP_DUTY h p)), BitVec.ofNat 8 (s.rd (Reg.TEL_P_CAP_UNMET h p)), 0#8] ++
    leBytes 4 (s.rd (Reg.TEL_P_MW h p)) ++ leBytes 8 (s.rd64 (Reg.TEL_P_ENERGY_LO h p)) ++
    leBytes 8 (s.rd64 (Reg.TEL_P_OPS_LO h p)) ++ leBytes 8 (s.rd64 (Reg.TEL_P_LINES_LO h p)) ++
    leBytes 8 (s.rd64 (Reg.TEL_P_TXBYTES_LO h p))

def State.diePayload (s : State) (h d : Nat) : Bytes :=
  [BitVec.ofNat 8 d, BitVec.ofNat 8 (s.rd (Reg.PWR_DIE_STAT_POINT h d)), BitVec.ofNat 8 (s.rd (Reg.PWR_DIE_STAT_LIMIT_CAUSE h d)), 0#8] ++
    leBytes 2 (s.rd (Reg.PWR_DIE_TEMP h d)) ++ leBytes 2 (s.rd (Reg.PWR_HUB_TEMP h)) ++ leBytes 4 (s.pwr.getDieMw d) ++
    leBytes 4 (s.rd (Reg.PWR_DIE_DROOP h d))

def State.hbmPayload (s : State) (h d : Nat) : Bytes :=
  [BitVec.ofNat 8 d, 0#8, 0#8, 0#8] ++ leBytes 2 (s.rd (Reg.PWR_HBM_TEMP h (2 * d))) ++
    leBytes 2 (s.rd (Reg.PWR_HBM_TEMP h (2 * d + 1)))

/-- Domains paired with REFCLK_SYS every period: the dies' cores, the ports and the links (R551). -/
def pairDomains : List Nat :=
  (List.range 10).map (0x0100 + ·) ++ (List.range 8).map (0x0500 + ·) ++ (List.range 2).map (0x0600 + ·)

/-- The UDP frame that exports a partition's records (R567). Header fields that the spec leaves open (traffic class,
identification, flow label, hop limit) are free. DESIGN CHOICE (log 49). -/
def State.udpFrame (s : State) (h k : Nat) (payload : Bytes) : Bytes :=
  let word (f : Fld) : Bytes := leBytes 4 (s.reg f.addr).toNat
  let ipv6 := s.on (Reg.TEL_UDP_CFG_IPV6 h)
  let smac := word (Reg.SDT_SRC_MAC_LO h k) ++ (word (Reg.SDT_SRC_MAC_HI h k)).take 2
  let dmac := word (Reg.TEL_UDP_DMAC_LO h) ++ (word (Reg.TEL_UDP_DMAC_HI h)).take 2
  let sip := if ipv6 then
      word (Reg.SDT_SRC_IP6_W0 h k) ++ word (Reg.SDT_SRC_IP6_W1 h k) ++ word (Reg.SDT_SRC_IP6_W2 h k) ++ word (Reg.SDT_SRC_IP6_W3 h k)
    else word (Reg.SDT_SRC_IP4 h k)
  let dip := if ipv6 then
      word (Reg.TEL_UDP_DIP_W0 h) ++ word (Reg.TEL_UDP_DIP_W1 h) ++ word (Reg.TEL_UDP_DIP_W2 h) ++ word (Reg.TEL_UDP_DIP_W3 h)
    else word (Reg.TEL_UDP_DIP_W0 h)
  let ulen := 8 + payload.length
  let udp := beBytes 2 (s.rd (Reg.TEL_UDP_PORTS_SPORT h)) ++ beBytes 2 (s.rd (Reg.TEL_UDP_PORTS_DPORT h)) ++ beBytes 2 ulen ++
    [0#8, 0#8] ++ payload
  let open8 (i : Nat) : BitVec 8 := BitVec.ofNat 8 (s.free i)
  let l3 := if ipv6 then
      beBytes 4 (6 * 2 ^ 28 + s.free 0 % 2 ^ 28) ++ beBytes 2 ulen ++ [17#8, open8 1] ++ sip ++ dip
    else
      [0x45#8, open8 2] ++ beBytes 2 (20 + ulen) ++ [open8 3, open8 4, 0x40#8, 0#8, open8 1, 17#8, 0#8, 0#8] ++ sip ++ dip
  let f := dmac ++ smac ++ (if ipv6 then [0x86#8, 0xDD#8] else [0x08#8, 0x00#8]) ++ l3 ++ udp
  let p := (parse f 0 0).pkt
  let f := if ipv6 then fillL4 f p else fillL4 (fillIp f p) p
  f ++ fcs f

/-- A hub exports a partition's PART record, with the DIE and HBM records of the dies it holds whole, all as they were emitted in
this period: `part` is the SEQ of the PART record, `die` that of die 0's DIE record. A frame that its lane does not accept waits
(R391, R563, R567). -/
def State.exportPart (s : State) (h p count part die : Nat) : State :=
  let x := s.part p
  let dies := (List.range 10).filter fun d => natBits x.clusters.toNat (16 * d) 16 = 0xFFFF
  let b := telBytes part 1 0 count (s.partPayload h p) ++ dies.flatMap (fun d =>
    telBytes (die + d) 2 0 count (s.diePayload h d) ++ telBytes (die + 10 + d) 3 0 count (s.hbmPayload h d))
  let q := s.rd (Reg.TEL_UDP_SUBQ h) + p
  let k := (s.qEntry h q).home
  let f : Frame := { bytes := s.udpFrame h k b, owner := .other, part := p }
  (s.draw.modTel h fun x => { x with held := x.held ++ [(q, f)] }).offerHeld h

/-- TEL_PERIOD (R551, R563-R567): a telemetry period of a hub ends at a REFCLK_SYS count; `pairs` are the paired counts,
REFCLK_SYS first, of the domains of R551 in order. -/
def execTelPeriod (hub : Fin 2) (count : BitVec 48) (pairs : List (BitVec 48 × BitVec 48)) (s : State) : Res :=
  if !s.powerUp ∨ !s.serving (telPage hub) then .next s
  else
    let h := hub.val
    let c := count.toNat
    let s := s.setClockOf 0 count
    let seq := (s.tel h).seq.toNat
    let active := (List.range 12).filter fun p => (s.part p).state == .active
    let s := active.foldl (fun s p => s.emit h 1 0 c (s.partPayload h p)) s
    let s := (List.range 10).foldl (fun s d => s.emit h 2 0 c (s.diePayload h d)) s
    let s := (List.range 10).foldl (fun s d => s.emit h 3 0 c (s.hbmPayload h d)) s
    let s := (pairDomains.zip pairs).foldl (fun s x =>
      let v : BitVec 48 × BitVec 48 := if s.domainRuns 0 && s.domainRuns x.1 then x.2 else (0#48, 0#48)
      s.emit h 4 0 v.1.toNat (leBytes 2 x.1 ++ List.replicate 6 0#8 ++ leBytes 6 v.2.toNat)) s
    let s := if s.on (Reg.TEL_CFG_RING_EN h) then s.vector h 0 0 else s
    let named := active.filter fun p => s.partHub p = h && natBits (s.rd (Reg.TEL_UDP_PARTS h)) p 1 = 1
    .next (if s.on (Reg.TEL_CFG_UDP_EN h) then
      named.foldl (fun s p => s.exportPart h p c (seq + active.idxOf p) (seq + active.length)) s else s)

/-! ## Paired captures (R550) -/

/-- TEL_PAIR_GO (R550): GO is written; refused while a capture runs. -/
def execTelPairGo (hub : Fin 2) (s : State) : Res :=
  withPage (telPage hub) 0x60 s fun s =>
  if s.on (Reg.TEL_PAIR_CTL_GO hub) then .next (s.ignoreWrite (telPage hub) 0x60)
  else .next ((s.wr (Reg.TEL_PAIR_CTL_GO hub) 1).wr (Reg.TEL_PAIR_STAT_VALID hub) 0)

/-- PAIR_CAPTURE_DONE (R550): the capture ends with the counts of the two domains. -/
def execPairCaptureDone (hub : Fin 2) (a b : BitVec 48) (s : State) : Res :=
  let h := hub.val
  if !s.on (Reg.TEL_PAIR_CTL_GO h) then .next s
  else
    let da := s.rd (Reg.TEL_PAIR_DOM_A h)
    let db := s.rd (Reg.TEL_PAIR_DOM_B h)
    let ok := s.domainRuns da && s.domainRuns db
    let ca := if ok then a.toNat else 0
    let cb := if ok then b.toNat else 0
    let s := if ok then (s.setClockOf da a).setClockOf db b else s
    let s := ((s.wr (Reg.TEL_PAIR_COUNT_A_LO h) (ca % 2 ^ 32)).wr (Reg.TEL_PAIR_COUNT_A_HI h) (ca / 2 ^ 32)).wr
      (Reg.TEL_PAIR_COUNT_B_LO h) (cb % 2 ^ 32)
    let s := (s.wr (Reg.TEL_PAIR_COUNT_B_HI h) (cb / 2 ^ 32)).wr (Reg.TEL_PAIR_STAT_STATUS h)
      (if ok then St.ok else St.unitAbsent).toNat
    .next (((s.step1 (Reg.TEL_PAIR_STAT_SEQ h)).wr (Reg.TEL_PAIR_STAT_VALID h) 1).wr (Reg.TEL_PAIR_CTL_GO h) 0)

/-! ## The PLDM terminus (R566) -/

/-- Sensors with a PDR, in the order of their record handles, which count from 1 (the numbering is the model's).
PRESUMED (log 50). -/
def pldmSensors : List PldmSensor :=
  (List.range 10).map (fun d => .die (Fin.ofNat 10 d)) ++ (List.range 20).map (fun k => .stack (Fin.ofNat 20 k)) ++
    (List.range 2).map (fun h => .hub (Fin.ofNat 2 h)) ++ [.device] ++ (List.range 12).map (fun p => .part (Fin.ofNat 12 p))

/-- A sensor's reading as its register shows it: quarter degrees, watts, or milliwatts of a partition. -/
def State.pldmValue (s : State) : PldmSensor → Nat
  | .die d => s.rd (Reg.PWR_DIE_TEMP 0 d)
  | .stack k => s.rd (Reg.PWR_HBM_TEMP 0 k)
  | .hub h => s.rd (Reg.PWR_HUB_TEMP h)
  | .device => s.rd (Reg.PWR_DEV_WATTS 0)
  | .part p => s.rd (Reg.TEL_P_MW 0 p)

/-- Answers a PLDM request while the power-and-telemetry processor runs. -/
def pldm (s : State) (f : State → State × Pldm) : Res :=
  if !s.powerUp then .next s else .next ((f s).1.out (.pldm (f s).2))

/-- GETTID (R566). -/
def execGettid (s : State) : Res := pldm s fun s => (s, .tid (s.tel 0).tid)

/-- SETEVENTRECEIVER (R566): a receiver by its address, or none; polling is not supported. -/
def execSeteventreceiver (polling : Bool) (receiver : Option (BitVec 8)) (s : State) : Res :=
  pldm s fun s => if polling then (s, .invalid) else (s.modTel 0 fun x => { x with receiver := receiver }, .receiverSet)

/-- GETPDRREPOSITORYINFO (R566). -/
def execGetpdrrepositoryinfo (s : State) : Res := pldm s fun s => (s, .repository pldmSensors.length)

/-- GETPDR (R566): the PDR with a record handle; 0 asks for the first. -/
def execGetpdr (handle : Nat) (s : State) : Res :=
  pldm s fun s => match pldmSensors[(handle - 1)]? with
    | some x => (s, .pdr (max 1 handle) x)
    | none => (s, .invalid)

/-- GETSENSORREADING (R566). -/
def execGetsensorreading (sensor : PldmSensor) (s : State) : Res := pldm s fun s => (s, .reading sensor (s.pldmValue sensor))

end Sys2Proof.Machine
end

