-- ==== Sys2Proof/Machine/Bringup.lean ====
section
/-! DEFINITION. Resets of the device, ROM_CHECK, the bring-up steps, and what the supplies and reference clocks do
(18_bring_up.md R478-R501; 19_faults_and_spares.md R525-R526; 22_supplies_pins_package.md R572-R579). -/
namespace Sys2Proof.Machine

def bruPage : Page := ⟨.bru, 0⟩

/-! ## Resets (R478, R479, R574) -/

/-- Epochs after a warm reset: one more than before (R57). DEDUCED (log 32). -/
def State.epochsUp (s : State) (old : State) : State :=
  allPages.foldl (fun s p =>
    if p.inactive then s else s.wr (Reg.STATE_EPOCH p) ((old.rd (Reg.STATE_EPOCH p) + 1) % 256)) s

/-- What every reset that leads to ROM_CHECK keeps: pins, PUF seed, flash, the always-on SRAM, and what lies outside the device
(R270, R478).
DEDUCED (log 33). -/
def State.kept (s : State) (pins : Pins) (warm : Bool) : State :=
  let bru := { Bru.reset with ledger := s.bru.ledger, record := if warm then s.bru.record else Record.reset }
  let sec := { Sec.reset with
    seed := s.sec.seed, ownerKey := s.sec.ownerKey, salt := s.sec.salt, pwHash := s.sec.pwHash, ownerShut := s.sec.ownerShut }
  -- the records that a power failure has kept from the flash are counted for the next BOOT record (R526)
  let lost := if s.bbx.suspended then BitVec.ofNat 32 s.bbx.buffer.length else s.bbx.pfLost
  let bbx := { Bbx.reset with flash := s.bbx.flash, pfLost := lost }
  { State.reset with
    pins := pins, bru := bru, sec := sec, bbx := bbx, fwslots := s.fwslots, hostMem := s.hostMem, outs := s.outs
    clean := SMap.keep (fun u => alwaysOnKey 0 ≤ u) s.clean
    freeCtr := s.freeCtr, fetchPtr := s.fetchPtr, pending := s.pending }

/-- The cause of a reset (R574, R576): a power failure and a fatal event come before the pin or supply that resets.
DEDUCED (log 34). -/
def State.causeOf (s : State) (cause : BitVec 4) : BitVec 4 :=
  if s.bbx.suspended then 0x3#4
  else if s.bru.fatal then 0x5#4
  else cause

/-- An assertion of PORST_N (R478): epochs 0, no retained record. -/
def State.coldReset (s : State) (cause : BitVec 4) : State :=
  let pins := { s.pins with
    porst := true, warm := false, romDone := false, lostGroups := 0#16, resetCause := s.causeOf cause, wake := false }
  s.kept pins false

/-- PORST_N (R478). -/
def execPorstN (s : State) : Res := .next (s.coldReset 0x1#4)

/-- WRST_N (R478): epochs incremented; the retained record and FORCE_FULL stay. Groups of supplies that were lost stay
lost until a PORST_N (R572). A WRST_N under an asserted PORST_N adds nothing. -/
def execWrstN (s : State) : Res :=
  if s.pins.porst then .next { s with pins := { s.pins with wrst := true } }
  else
    let pins := { s.pins with wrst := true, warm := true, romDone := false, resetCause := s.causeOf 0x2#4, wake := false }
    let t := (s.kept pins true).epochsUp s
    .next (t.wr (Reg.BRU_CFG_FORCE_FULL 0) (s.rd (Reg.BRU_CFG_FORCE_FULL 0)))

/-- POWER_UP (R446, R478, R573): VDD_AO ramps with every other supply down; the PUF is read, and `ok` says that the helper
data's check of the seed passes. -/
def execPowerUp (ok : Bool) (s : State) : Res :=
  let t := s.coldReset 0x0#4
  .next { t with
    clean := []
    pins := { t.pins with pwrOk := 0#16, riseOrder := [], pfail := false }
    sec := { t.sec with seed := if ok then some Config.pufSeed else none } }

/-! ## The flush of a power failure (R526) -/

/-- The 32 records that a flush writes, POWER_FAIL last, and those it leaves (R526). -/
def flushOrder (l : List BbRec) : List BbRec × List BbRec :=
  let heavy (r : BbRec) : Bool := r.sev = Sev.contained || r.sev = Sev.fatal
  let pf := (l.filter fun r => r.typ = 0x0011#16).take 1
  let others := l.filter fun r => r.typ ≠ 0x0011#16
  let order := others.filter heavy ++ (others.filter fun r => !heavy r).reverse
  let now := order.take (32 - pf.length) ++ pf
  (now, l.filter fun r => !now.contains r)

/-- Pages of four records. -/
def bbPages : Nat → List BbRec → List (List BbRec)
  | 0, _ => []
  | f + 1, l => if l.isEmpty then [] else l.take 4 :: bbPages f (l.drop 4)

/-- The flush of the black box when PFAIL_N has read low on two clocks (R526): other flash operations are suspended, and at most
8 pages are written; those left are for what comes while the power falls (R576). -/
def State.flushBox (s : State) : State :=
  if s.bbx.suspended then s
  else
    let n := s.bbx.buffer.length
    let s := { s with bbx := { s.bbx with suspended := true } }
    let s := s.bbAdd 0x0011 Sev.contained none 0xFF (leBytes 4 n)
    let f := flushOrder s.bbx.buffer
    let s := { s with bbx := { s.bbx with buffer := f.2 } }
    let pages := bbPages 8 f.1
    let s := pages.foldl (fun (s : State) rs => s.bbPage rs 0#2) s
    { s with bbx := { s.bbx with flushLeft := 8 - pages.length } }

/-- PFAIL_N (R526, R559): the black box is flushed, and the emergency of a power failure begins. -/
def State.powerFail (s : State) : State := (s.flushBox.cond 2 true).emergStart

/-! ## ROM_CHECK (R480, R481) -/

/-- The order of R573: AO, PLL, HUB and CD0-9 in any order among themselves, HBM, LP, SD. -/
def riseRank (i : Nat) : Nat :=
  if i < 2 then i else if i < 13 then 2 else i - 10

/-- DEDUCED (log 35). -/
def risesInOrder : List Nat → Bool
  | a :: b :: l => decide (riseRank a ≤ riseRank b) && risesInOrder (b :: l)
  | _ => true

/-- The reset-cause byte of the BOOT record (R574). -/
def State.causeByte (s : State) : BitVec 8 :=
  (s.pins.resetCause.setWidth 8) ||| (if risesInOrder s.pins.riseOrder then 0#8 else 0x80#8)

/-- The record with the highest SEQ in the rings. -/
def Bbx.newest (x : Bbx) : Option BbRec :=
  (x.flash.flatMap id).foldl (fun b r => match b with
    | none => some r
    | some y => if y.seq.toNat < r.seq.toNat then some r else some y) none

/-- The writer opens the boot (R525): SEQ and BOOT follow the newest record. The failure count of debug access comes back
from the last debug record (R452). -/
def State.openBoot (s : State) : State :=
  let n := s.bbx.newest
  let seq := match n with
    | some r => (r.seq.toNat + 1) % 2 ^ 32
    | none => 0
  let boot := match n with
    | some r => (r.boot.toNat + 1) % 2 ^ 32
    | none => 1
  let debug := (s.bbx.flash.flatMap id).filter fun r => r.typ = 0x000E#16
  let fails := match ({ Bbx.reset with flash := [debug] } : Bbx).newest with
    | some r => fieldAt r.payload 3 2
    | none => 0
  let s := ((s.wr (Reg.BBX_SEQ 0) seq).wr (Reg.BBX_BOOT 0) boot).wr (Reg.SEC_DBG_FAILS 0) fails
  let s := ({ s with bru := { s.bru with bootCount := BitVec.ofNat 32 boot } }.wr (Reg.BRU_LEDGER_GEN 0) s.bru.ledger.length).wr
    (Reg.BBX_PF_LOST 0) s.bbx.pfLost.toNat
  let s := s.bbAdd 0x0010 Sev.corrected none 0xFF
    ([s.causeByte] ++ leBytes 4 s.bru.ledger.length ++ leBytes 4 s.bbx.pfLost.toNat)
  { s with bbx := { s.bbx with pfLost := 0#32 } }

/-- A slot that ROM_CHECK may boot (R470). -/
def State.bootable (s : State) (slot : Nat) : Bool :=
  (s.fwslot slot).state == .trial || (s.fwslot slot).state == .valid

/-- ROM_CHECK tries a slot: a TRIAL slot becomes TRIED first, and a slot whose stage-1 image is rejected BAD (R470). -/
def State.trySlot (s : State) (slot : Nat) : State × Bool :=
  let s := s.modFwslot slot fun x => if x.state == .trial then { x with state := .tried } else x
  let r := s.checkImage slot 1
  if r.2 then r else (r.1.modFwslot slot fun x => { x with state := .bad }, false)

/-- The slot whose stage-1 image boots, none when neither verifies; a boot of the second choice sets FALLBACK (R470,
R481). DEDUCED (log 36). -/
def State.bootSlot (s : State) : State × Option Nat :=
  let first := if s.bootable 1 && (!s.bootable 0 || (s.fwslot 0).gen.toNat < (s.fwslot 1).gen.toNat) then 1 else 0
  if !s.bootable first then (s, none)
  else
    let a := s.trySlot first
    if a.2 then (a.1, some first)
    else if !a.1.bootable (1 - first) then (a.1, none)
    else
      let b := a.1.trySlot (1 - first)
      if b.2 then (b.1.err ⟨.fwp, 0⟩ 17, some (1 - first)) else (b.1, none)

/-- The firmware of a slot starts (R443, R455, R480): Lamplighter, the security processor, and what it verifies. The
standby Lamplighter stays HELD. DEDUCED (log 37). -/
def State.startFw (s : State) (slot : Nat) : State :=
  let s := s.runFw 0 slot
  let sec := s.checkImage slot 4
  if !sec.2 then sec.1
  else
    let s := sec.1.runFw 3 slot
    [2, 3, 5].foldl (fun s t =>
      let r := s.checkImage slot t
      if !r.2 then r.1
      else (procsOf t).foldl (fun s k => s.runFw k slot) r.1) s

/-- Identity and owner record (R446, R447, R450): without a seed the record in flash cannot be checked.
DESIGN CHOICE (log 38). -/
def State.bootIdentity (s : State) (idMatch : Bool) : State :=
  let s : State := match s.sec.seed, s.sec.ownerShut, s.sec.ownerKey with
    | some _, some r, _ => { s with sec := { s.sec with ownerKey := some r.1, salt := r.2.1, pwHash := r.2.2, ownerShut := none } }
    | none, none, some k =>
      let shut := some (k, s.sec.salt, s.sec.pwHash)
      { s with sec := { s.sec with ownerKey := none, salt := [], pwHash := none, ownerShut := shut } }
    | _, _, _ => s
  let good := s.sec.seed.isSome
  let s := { s with sec := { s.sec with idValid := good && idMatch } }
  let s := (s.wr (Reg.SEC_STATE_PUF_OK 0) (if good then 1 else 0)).wr (Reg.SEC_STATE_ID_VALID 0) (if good && idMatch then 1 else 0)
  let s := { s with sec := s.sec.setMeasure 1 Config.romDigest }.showOwner
  if good then s else s.err secPage 19

/-- The board record (R285, R480). DESIGN CHOICE (log 38). -/
def State.bootBoard (s : State) (f : RomFound) : State :=
  if f.board.isEmpty then s
  else if s.imageOk 7 imageRoom f.board then
    let s := s.measureImage 7 f.board
    { s with bru := { s.bru with boardSub := f.sub } }
  else s.rejectImage 7 0

/-- The retained record is used (R492). DEDUCED (log 41). -/
def State.recordGood (s : State) : Bool :=
  let r := s.bru.record
  s.pins.warm && r.valid && r.ledgerGen.toNat = s.rd (Reg.BRU_LEDGER_GEN 0) && r.digest = s.sec.getMeasure 2 &&
    !s.on (Reg.BRU_CFG_FORCE_FULL 0)

/-- BRU_STATUS records a finished step; PF0 vector 0 is raised on both links (R485, R501). -/
def State.stepDone (s : State) (n : Nat) (result : BitVec 8) (degraded : Bool) : State :=
  let one (b : Bool) : Nat := if b then 1 else 0
  let bit12 : BitVec 12 := 1#12 <<< n
  let bru := { s.bru with finished := s.bru.finished ||| bit12, running := s.bru.running &&& ~~~bit12 }
  let s := { s with bru := bru.setResult n result }
  let s := ((s.wr (Reg.BRU_STATUS_STEP 0) n).wr (Reg.BRU_STATUS_RESULT 0) result.toNat).wr (Reg.BRU_STATUS_DEGRADED 0) (one degraded)
  let s := ((s.wr (Reg.BRU_STATUS_FAST 0) (one s.bru.fast)).wr (Reg.BRU_STATUS_BUSY 0) (one (s.bru.running ≠ 0#12))).wr
    (Reg.BRU_STATUS_VALID 0) 1
  let s := if 2 ≤ n ∧ n ≤ 6 then
      let d := Reg.BRU_TRAIN_DONE 0
      let g := Reg.BRU_TRAIN_DEGRADED 0
      let m := 2 ^ (n - 2)
      (s.wr d (s.rd d ||| m)).wr g (if degraded then s.rd g ||| m else s.rd g &&& (31 - m))
    else s
  let s := if result = St.ok then s else s.err bruPage 16
  let s := if degraded then s.err bruPage 17 else s
  (s.vector 0 0 0).vector 1 0 0

/-- The endpoints answer configuration requests, and links may train (R480, R481). -/
def State.openLinks (s : State) : State :=
  (List.range 2).foldl (fun s l =>
    (s.modLink l fun k => { k with configReady := true, training := s.linkMayTrain l && !k.up }).updateCto l) s

/-- Blocks that serve while no stage-1 image verifies (R481): BRU, the endpoints, mailbox page 0 and the page of MCTP. -/
def romPages : List Page := [bruPage, pcePage 0, pcePage 1, mbxPage 0, mbxPage 62]

/-- The BRU page is enabled (R480). -/
def State.bruOn (s : State) : State :=
  ((s.pageOn bruPage).wr (Reg.STATE_STATE bruPage) PS.enabled).wr (Reg.CTRL_ENABLE bruPage) 1

/-- The boot opens, a PFAIL_N already low starts a flush of the BOOT record alone (R578), and slots found bad are marked.
DEDUCED (log 37). -/
def State.romOpen (s : State) (f : RomFound) : State :=
  let s := { s with pins := { s.pins with porst := false, wrst := false, romDone := true } }.openBoot
  let s := if s.pins.pfail then s.flushBox else s
  (List.range 2).foldl (fun s n => if f.badSlots.getLsbD n then s.modFwslot n fun x => { x with state := .bad } else s) s

/-- The pins that are already asserted take effect (R578). -/
def State.romPins (s : State) : State :=
  let s := if s.pins.thermAlert then s.thermAlert else s
  if s.pins.pfail then s.powerFail else s

/-- The end of ROM_CHECK with no slot that boots: only the pages that the mask ROM serves open (R481). -/
def State.romEmpty (s : State) : State :=
  let s := (romPages.foldl (fun s p => s.pageOn p) s).bruOn
  let s := { s with bru := { s.bru with noImage := true } }.openLinks.romPins
  (s.stepDone 1 St.authFail false).wr (Reg.BRU_STATUS_SEQ 0) 1

/-- The pages of a device whose slot boots, its links and its operating points. DEDUCED (log 40). -/
def State.romPagesOn (s : State) : State :=
  let s := (allPages.foldl (fun s p => if p.inactive then s else s.pageOn p) s).bruOn
  let s := { s with bru := { s.bru with fast := s.recordGood } }.openLinks
  (List.range 10).foldl (fun s d =>
    (s.bothWr (fun h => Reg.PWR_DIE_CLK_MV h d) (pointMv (s.rd (Reg.PWR_DIE_STAT_POINT 0 d)))).bothWr
      (fun h => Reg.PWR_DIE_CLK_MHZ h d) (pointMhz (s.rd (Reg.PWR_DIE_STAT_POINT 0 d)))) s.updatePoints

/-- The end of ROM_CHECK with the slot it boots. -/
def State.romBoot (s : State) (f : RomFound) (slot : Nat) : State :=
  let s := { s with bru := { s.bru with slotBooted := slot } }.startFw slot
  let s := ((s.bootIdentity f.idMatch).bootBoard f).romPagesOn.romPins
  (s.stepDone 1 St.ok false).wr (Reg.BRU_STATUS_SEQ 0) 1

/-- ROM_CHECK after it has looked for a slot, `b`. -/
def State.romFound (f : RomFound) (b : State × Option Nat) : State :=
  let s := { b.1 with bru := { b.1.bru with accepted := 2#12 } }
  match b.2 with
  | none => s.romEmpty
  | some slot => s.romBoot f slot

/-- ROM_CHECK (R470, R480, R481, R492): PORST_N and WRST_N have been released with every supply good. -/
def execRomCheck (f : RomFound) (s : State) : Res :=
  if !(s.pins.porst || s.pins.wrst) ∨ s.pins.pwrOk ≠ 0xFFFF#16 ∨ !s.pins.refclk.getLsbD 0 then .next s
  else .next (State.romFound f (s.romOpen f).bootSlot)

/-! ## Accepting steps (R483, R484) -/

/-- DEDUCED (log 41). -/
def State.accepted (s : State) (n : Nat) : Bool := s.bru.accepted.getLsbD n
def State.finished (s : State) (n : Nat) : Bool := s.bru.finished.getLsbD n
def State.running (s : State) (n : Nat) : Bool := s.bru.running.getLsbD n

/-- A write of step n is accepted (R481, R483, R484); none after a refused START (R499). -/
def State.stepAllowed (s : State) (n : Nat) : Bool :=
  !s.bru.noImage && !s.bru.startRefused && !s.running n && s.st bruPage = PS.enabled &&
  (match n with
   | 2 => s.finished 1 && !s.accepted 7
   | 3 => s.accepted 2 && !s.accepted 7
   | 4 => s.accepted 3 && !s.accepted 7
   | 5 => s.accepted 4 && !s.accepted 7
   | 6 => s.accepted 5 && !s.accepted 7
   | 7 => [2, 3, 4, 5, 6].all s.finished
   | 8 => s.finished 7 && !s.accepted 8
   | 9 => s.finished 8 && !s.accepted 9
   | 10 => s.finished 9 && !s.accepted 10
   | 11 => s.finished 10 && !s.accepted 11
   | _ => false)

/-- The step starts; BRU_STATUS changes, which raises PF0 vector 0 on both links (R290, R483, R485). -/
def State.stepBegin (s : State) (n : Nat) : State :=
  let b : BitVec 12 := 1#12 <<< n
  let bru := { s.bru with
    accepted := s.bru.accepted ||| b, running := s.bru.running ||| b, finished := s.bru.finished &&& ~~~b
    stepDegraded := s.bru.stepDegraded &&& ~~~b }
  let s := { s with bru := bru.setResult n St.ok }
  let s := ((s.wr (Reg.BRU_STEP 0) n).wr (Reg.BRU_STATUS_VALID 0) 0).wr (Reg.BRU_STATUS_BUSY 0) 1
  (s.vector 0 0 0).vector 1 0 0

/-- A write of a step: refused and recorded, or accepted and begun (R484). -/
def runStep (n : Nat) (s : State) (f : State → State) : Res :=
  if !s.stepAllowed n then .next (s.ignoreWrite bruPage 0x40) else .next (f (s.stepBegin n))

def State.degradeStep (s : State) (n : Nat) : State :=
  { s with bru := { s.bru with stepDegraded := s.bru.stepDegraded ||| (1#12 <<< n) } }

/-! ## Training (R482, R487-R489, R493) -/

/-- The D2D pages of a link's ends. -/
def linkPages (n : Nat) : List Page := [⟨.d2d, (linkEnds n).1.1⟩, ⟨.d2d, (linkEnds n).2.1⟩]

/-- TRAIN_D2D (R482, R483): every die-to-die link not fully up trains. -/
def execTrainD2d (s : State) : Res :=
  runStep 2 s fun s =>
    (List.range linkCount).foldl (fun s n =>
      let w := s.d2dWord n
      if w.state = D2d.up ∧ w.width = 2 ∧ w.spares = 0 then s
      else ((linkPages n).foldl State.bringEnable s).setD2d n { w with state := D2d.training }) s

/-- A memory unit trains again. -/
def State.retrainUnit (s : State) (u : Nat) : State :=
  let m : BitVec 112 := 1#112 <<< u
  { s with bru := { s.bru with memDone := s.bru.memDone &&& ~~~m, memBad := s.bru.memBad &&& ~~~m } }

/-- Controllers of a kind are enabled, and the units of an enabled one that are not fully up train again. -/
def State.trainMemory (s : State) (pages : List Page) : State :=
  pages.foldl (fun s p =>
    if s.st p = PS.disabled then s.bringEnable p
    else (memUnitsOf p).foldl (fun s u => if s.bru.memBad.getLsbD u then s.retrainUnit u else s) s) s

/-- TRAIN_HBM (R482, R483). -/
def execTrainHbm (s : State) : Res := runStep 3 s fun s => s.trainMemory ((List.range 20).map fun k => ⟨.hmc, k⟩)

/-- TRAIN_LPDDR (R482, R483). -/
def execTrainLpddr (s : State) : Res := runStep 4 s fun s => s.trainMemory ((List.range 8).map fun k => ⟨.lpc, k⟩)

/-- TRAIN_ETH (R333, R482, R483): every port not UP at 800 Gb/s trains. -/
def execTrainEth (s : State) : Res :=
  runStep 5 s fun s =>
    (List.range 8).foldl (fun s p =>
      if s.st (ethPage p) = PS.disabled then (s.bringEnable (ethPage p)).readyPage (ethPage p)
      else if s.rd (Reg.ETH_LINK_STATE p) = EthSt.up ∧ s.rd (Reg.ETH_LINK_RATE p) = 2 then s
      else s.train800 p) s

/-- TRAIN_SSD (R423, R482, R483): every slot that holds an SSD and is not ACTIVE is brought up. -/
def execTrainSsd (s : State) : Res :=
  runStep 6 s fun s =>
    (List.range 16).foldl (fun s p =>
      let page : Page := ⟨.prp, p⟩
      let s := (s.bringEnable page).readyPage page
      let st := s.slotSt p
      if (s.slot p).present ∧ (st = SlotSt.empty ∨ st = SlotSt.fault) then
        (s.slotOn p).modSlot p fun x => { x with attnLed := .off }
      else s) s

/-- The power group that a unit needs has been lost (R572). -/
def State.groupLost (s : State) : UnitFound → Bool
  | .link n _ _ => s.pins.lostGroups.getLsbD (3 + linkDie n) ||
      (let e := linkEnds n
       e.1.1 < 40 && e.2.1 < 40 && s.pins.lostGroups.getLsbD (3 + e.2.1 / 4))
  | .hbm u _ _ => s.pins.lostGroups.getLsbD 13 || s.pins.lostGroups.getLsbD (3 + u / 8)
  | .package _ _ => s.pins.lostGroups.getLsbD 14

/-- A memory unit ends its training (R212, R270, R437, R488): poisoned, usable or not. -/
def State.memTrained (s : State) (u channels : Nat) (degraded : Bool) : State :=
  let bad := channels ≠ (if u < 80 then 255 else 3)
  let m : BitVec 112 := 1#112 <<< u
  let bru := { s.bru with
    memDone := s.bru.memDone ||| m, memBad := if bad then s.bru.memBad ||| m else s.bru.memBad &&& ~~~m }
  let s := { s with bru := bru }.wr (unitChannels u) channels
  let s := if u < 80 then s else (s.setT2key (u - 80) (BitVec.ofNat 256 (s.free 0))).draw
  let s := s.setRegion u false
  let step := if u < 80 then 3 else 4
  let s := if bad || degraded then (if s.running step then s.degradeStep step else s) else s
  let s := if bad then (s.unitLostRecord u).showLost u (s.unitPart u) else s
  s.showMem.readyPage (ctrlPage u)

/-- UNIT_TRAINED (R487-R489, R492, R493): a unit in training is up, degraded or lost. On the fast path it takes its stored
settings, unless `fallback` says that these did not bring it up in time and it has trained on the full path. -/
def execUnitTrained (found : UnitFound) (fallback : Bool) (s : State) : Res :=
  let stored := s.bru.fast && !fallback && !s.bru.started
  let s0 := if fallback ∧ s.bru.fast ∧ !s.bru.started then s.err bruPage 19 else s
  let lost := s.groupLost found
  match found with
  | .link n width spares =>
    let w := s.d2dWord n
    if w.state ≠ D2d.training ∧ w.state ≠ D2d.retraining then .next s
    else
      let end_ : D2dWord :=
        if lost then d2dEnd 0 0
        else if stored then
          let r := s.bru.record.getD2d n
          d2dEnd (natBits r.toNat 4 2) (natBits r.toNat 16 8)
        else d2dEnd width spares
      let s := s0.d2dReturn n end_.width end_.spares
      let s := (linkPages n).foldl (fun s p => if s.st p = PS.enabling then s.readyPage p else s) s
      .next (if s.running 2 ∧ (end_.width ≠ 2 ∨ end_.spares ≠ 0) then s.degradeStep 2 else s)
  | .hbm u channels spares =>
    if s.bru.memDone.getLsbD u ∨ !(s.st (ctrlPage u) = PS.enabling || s.st (ctrlPage u) = PS.enabled) then .next s
    else
      let ok := if lost then 0 else if stored then (if s.bru.record.getMemUnits u then 0 else 255) else channels.toNat
      .next (s0.memTrained u ok spares)
  | .package k channels =>
    let u := 80 + k.val
    if s.bru.memDone.getLsbD u ∨ !(s.st (ctrlPage u) = PS.enabling || s.st (ctrlPage u) = PS.enabled) then .next s
    else
      let ok := if lost then 0 else if stored then (if s.bru.record.getMemUnits u then 0 else 3) else channels.toNat
      .next (s0.memTrained u ok false)

/-! ## SELF_TEST, BUILD_MAP and MEM_FILL (R490, R492, R494, R495) -/

/-- A failure that the ledger does not hold yet is appended (R490, R517). DEDUCED (log 43). -/
def State.ledgerNew (s : State) (kind : BitVec 8) (location : Nat) : State :=
  if s.bru.ledger.any fun e => e.kind = kind && e.location = BitVec.ofNat 64 location then s
  else s.ledgerAppend kind location (s.rd (Reg.BBX_SEQ 0)) (some bruPage)

/-- SRAM regions that the March tests leave poisoned (R490). -/
def testedRegions : List Nat :=
  (List.range (6032 - 112)).map (112 + ·) ++ (List.range 512).map (6032 + ·)

/-- SELF_TEST (R490, R492): runs the tests, or applies what the retained record holds. -/
def execSelfTest (found : SelfFound) (s : State) : Res :=
  runStep 7 s fun s =>
    let r := s.bru.record
    if s.bru.fast then
      let s := { s with bru := { s.bru with failedSlots := r.failedSlots, failedClusters := r.failedClusters, rows := r.rows } }
      if r.failedSlots.isEmpty && r.failedClusters.isEmpty then s else s.degradeStep 7
    else
      let slots : List (Nat × Nat) := found.slots.map fun x => (x.1.val, x.2.val)
      let keys : List Nat := slots.map fun x => slotKey x.1 x.2
      let clusters : List Nat := found.clusters.map fun g => g.val
      let rows : List Nat := found.rows.map fun l => l.toNat
      let s := { s with bru := { s.bru with
        failedSlots := keys, failedClusters := clusters
        rows := rows, hubArray := found.hubArray } }
      let s := s.poisonRegions testedRegions
      let s := slots.foldl (fun s x => s.ledgerNew 0x01#8 (x.1 + x.2 * 256)) s
      let s := clusters.foldl (fun s g => s.ledgerNew 0x02#8 g) s
      let s := rows.foldl (fun s l => s.ledgerNew 0x05#8 l) s
      let s := if slots.isEmpty && clusters.isEmpty then s else s.degradeStep 7
      if found.hubArray then { s with bru := s.bru.setResult 7 St.unitAbsent } else s

/-- A cluster that self-test or the ledger marks as failed (R494). -/
def State.clusterBad (s : State) (gc : Nat) : Bool :=
  s.bru.failedClusters.contains gc || s.bru.ledger.any fun e => e.kind = 0x02#8 && e.location = BitVec.ofNat 64 gc

/-- A page goes back to OFF with no function (R494). DEDUCED (log 40). -/
def State.pageOff (s : State) (p : Page) : State := (s.wr (Reg.STATE_STATE p) PS.off).wr (Reg.CAP_FUNCTIONAL p) 0

/-- The slots of the logical cores of a cluster (R29): the lowest good ones in order; none in a failed cluster. -/
def State.goodSlots (s : State) (gc : Nat) : List Nat :=
  if s.clusterBad gc then [] else (List.range 18).filter fun k => !s.slotBad gc k

/-- The map of a cluster is loaded and its idle slots go back to OFF (R29, R492, R494). -/
def State.mapCluster (s : State) (gc : Nat) : State :=
  let good := s.goodSlots gc
  let s := (List.range 16).foldl (fun s k =>
    let lc := gc * 16 + k
    if s.bru.fast then s.setReg (mapFld lc).addr (BitVec.ofNat 32 (s.bru.record.getMaps lc)) else s.mapCore lc good[k]?) s
  let used := (List.range 16).filterMap fun k => s.slotOf (gc * 16 + k)
  let s := if s.clusterBad gc then s.pageOff ⟨.clu, gc⟩ else s
  (List.range 18).foldl (fun s k => if used.contains k && !s.clusterBad gc then s else s.pageOff ⟨.cor, slotKey gc k⟩) s

/-- Sections whose request for global mode is granted, and refused (R208, R211). -/
def State.modeOf (s : State) (q : Nat) : Bool × Bool :=
  if s.bru.fast then (s.bru.record.modes.getLsbD q, false)
  else
    let want := natBits (s.rd (Reg.BRU_CFG_GLOBAL 0)) q 1 = 1
    let whole := (List.range 20).all fun k => !s.bru.memBad.getLsbD (4 * k + q)
    (want && whole, want && !whole)

/-- The interleave modes are fixed and shown in every HMC page (R208, R211). -/
def State.fixModes (s : State) : State :=
  let sum (f : Nat → Bool) : Nat := (List.range 4).foldl (fun m q => if f q then m + 2 ^ q else m) 0
  let global := sum fun q => (s.modeOf q).1
  let refused := sum fun q => (s.modeOf q).2
  (List.range 20).foldl (fun s k => (s.wr (Reg.HMC_MODE_GLOBAL k) global).wr (Reg.HMC_MODE_REFUSED k) refused) s

/-- The tier-2 map of the packages that trained (R35, R494). -/
def State.mapTier2 (s : State) : State :=
  let good (u : Nat) : Bool := s.bru.memDone.getLsbD (80 + u) && !s.bru.memBad.getLsbD (80 + u)
  let map := (List.range 32).foldl (fun (m : BitVec 32) u => if good u then m ||| (1#32 <<< u) else m) 0#32
  let s := { s with bru := { s.bru with t2Mapped := map, mapBuilt := true } }
  (List.range 32).foldl (fun s u => s.wr (Reg.LPC_PKG_MAPPED (u / 4) (u % 4)) (if good u then 1 else 0)) s

/-- BUILD_MAP (R494). -/
def execBuildMap (s : State) : Res :=
  runStep 8 s fun s =>
    let s := ((List.range 160).foldl (fun s gc => s.mapCluster gc) s).fixModes.mapTier2
    let s := s.bru.ledger.foldl (fun s e =>
      if e.kind = 0x03#8 ∨ e.kind = 0x04#8 then (s.retireInto e.location.toNat).getD s else s) s
    let absent := ((List.range 2560).filter fun lc => (s.slotOf lc).isNone).length
    let s := (s.wr (Reg.BRU_CORES_ABSENT 0) absent).showMem
    if absent = 0 then s else s.degradeStep 8

/-- MEM_FILL (R272, R495): zero in every memory that BRU_CFG.FILL selects. -/
def execMemFill (s : State) : Res :=
  runStep 9 s fun s =>
    let on (b : Nat) : Bool := natBits (s.rd (Reg.BRU_CFG_FILL 0)) b 1 = 1
    let hbm := (List.range 80).filter fun u => on 0 && !s.unitAbsent u
    let t2 := ((List.range 32).filter fun u => on 1 && !s.unitAbsent (80 + u) && s.bru.t2Mapped.getLsbD u).map (80 + ·)
    let gcs := (List.range 160).filter fun gc => on 2 && !s.clusterGone gc
    let pools := gcs.map (112 + ·)
    let dmems := gcs.flatMap fun gc => (List.range 16).filterMap fun k => (s.slotOf (gc * 16 + k)).map fun p => 272 + slotKey gc p
    let sram := if on 3 then (List.range 2).flatMap fun h => (List.range 224).map fun g => 6032 + 256 * h + 32 + g else []
    (hbm ++ t2 ++ pools ++ dmems ++ sram).foldl (fun s r => s.setRegion r true) s

/-! ## LOAD_FW and START (R491, R496, R498, R499) -/

def State.bruAddr (s : State) (lo hi : Fld) : Nat := s.rd lo + s.rd hi * 2 ^ 32

/-- LOAD_FW (R496, R498): the manifest and its images are verified, the image tables written, and the core pages enabled,
whose stubs then run. -/
def execLoadFw (s : State) : Res :=
  runStep 10 s fun s =>
    let manifest := s.bruAddr (Reg.BRU_FW_MANIFEST_LO 0) (Reg.BRU_FW_MANIFEST_HI 0)
    let images := s.bruAddr (Reg.BRU_FW_IMAGES_LO 0) (Reg.BRU_FW_IMAGES_HI 0)
    let tables := s.bruAddr (Reg.BRU_FW_TABLES_LO 0) (Reg.BRU_FW_TABLES_HI 0)
    let result (s : State) (st : BitVec 8) : State := { s with bru := s.bru.setResult 10 st }
    if !(s.inTiers manifest 1 && s.inTiers images 1 && s.inTiers tables 1) then result s St.badParam
    else
      let r := s.readManifest manifest images
      if !r.2.2 then result r.1 St.authFail
      else
        let c := r.1.checkPlaced r.2.1
        if !c.2.2 then result c.1 St.authFail
        else
          let gcs := (List.range 160).filter fun gc => !c.1.clusterGone gc
          let s := c.1.writeTables c.2.1 tables gcs
          let s := gcs.foldl (fun s gc => s.wr (Reg.CLU_PAUSE_REQ gc) 1) s
          gcs.foldl (fun s gc => (List.range 16).foldl (fun s k => match s.slotOf (gc * 16 + k) with
            | some slot => s.enableCore (slotKey gc slot)
            | none => s) s) s

/-- The register word that shows what a link outside the package trained to: Ethernet port 0-7, SSD slot 8 + port, host link
24 + link (R491). -/
def State.trainedWord (s : State) (n : Nat) : BitVec 32 :=
  s.reg (if n < 8 then (Reg.ETH_LINK_STATE n).addr
    else if n < 24 then (Reg.PRP_SLOT_STATE (n - 8)).addr
    else (Reg.PCE_LINK_UP (n - 24)).addr)

/-- The retained record as START writes it (R491). -/
def State.retain (s : State) : Record :=
  { valid := true, failedSlots := s.bru.failedSlots, failedClusters := s.bru.failedClusters
    maps := SMap.ofFn (fun _ => 0) 2560 fun lc => (s.reg (mapFld lc).addr).toNat
    modes := BitVec.ofNat 4 (s.rd (Reg.HMC_MODE_GLOBAL 0)), ledgerGen := BitVec.ofNat 32 (s.rd (Reg.BRU_LEDGER_GEN 0))
    digest := s.sec.getMeasure 2
    d2d := SMap.ofFn (fun _ => 0#32) linkCount fun n =>
      let e := (linkEnds n).1
      s.reg (Reg.D2D_LINK_STATE e.1 e.2).addr
    links := SMap.ofFn (fun _ => 0#32) 26 s.trainedWord
    memUnits := SMap.ofFn (fun _ => false) 112 fun u => s.bru.memBad.getLsbD u
    rows := s.bru.rows }

/-- START (R499): refused with a FAILED link or a failed hub array; else the completion timeout comes into its own, both links
are ATTACHED and the mailboxes open; the record is written when it finishes (R491). -/
def execStart (s : State) : Res :=
  runStep 11 s fun s =>
    let failed := (List.range linkCount).any fun n => s.d2dState n = D2d.failed
    if failed || s.bru.hubArray then
      ({ s with bru := { s.bru.setResult 11 St.unitAbsent with startRefused := true } }).err bruPage 18
    else
      let s := { s with bru := { s.bru with started := true } }.wr (Reg.BRU_CFG_FORCE_FULL 0) 0
      let s := (s.updateCto 0).updateCto 1
      (s.wr (Reg.FWP_LINK_STATE 0 0) LinkSt.attached).wr (Reg.FWP_LINK_STATE 0 1) LinkSt.attached

/-! ## The end of a step (R485, R488) -/

/-- Mapped cores in a state. -/
def State.mappedIn (s : State) (r : RunState) : Nat := s.countRun ((List.range 160).filter fun gc => !s.clusterGone gc) r

/-- Every unit that a running step works on has come to an end (R500). -/
def State.unitsDone (s : State) (n : Nat) : Bool :=
  match n with
  | 2 => (List.range linkCount).all fun k => s.d2dState k ≠ D2d.training && s.d2dState k ≠ D2d.retraining
  | 3 => (List.range 80).all fun u => s.bru.memDone.getLsbD u || s.st (ctrlPage u) = PS.disabled
  | 4 => (List.range 32).all fun u => s.bru.memDone.getLsbD (80 + u) || s.st (ctrlPage (80 + u)) = PS.disabled
  | 5 => (List.range 8).all fun p => s.rd (Reg.ETH_LINK_STATE p) = EthSt.up || s.rd (Reg.ETH_LINK_STATE p) = EthSt.down
  | 6 => (List.range 16).all fun p => s.slotSt p ≠ SlotSt.powerOn && s.slotSt p ≠ SlotSt.linking
  | 10 => s.mappedIn .stub = 0
  | _ => true

/-- What a finished training step says of its units: its RESULT, and whether any is degraded or lost (R488). -/
def State.unitsSay (s : State) (n : Nat) : BitVec 8 × Bool :=
  let marked := s.bru.stepDegraded.getLsbD n
  match n with
  | 2 =>
    let ws := (List.range linkCount).map s.d2dWord
    (if ws.any fun w => w.state = D2d.failed then St.unitAbsent else St.ok,
     marked || ws.any fun w => w.state ≠ D2d.up || w.width ≠ 2 || w.spares ≠ 0)
  | 3 => (St.ok, marked || (List.range 80).any fun u => s.bru.memBad.getLsbD u)
  | 4 => (St.ok, marked || (List.range 32).any fun u => s.bru.memBad.getLsbD (80 + u))
  | 5 => (St.ok, marked || (List.range 8).any fun p =>
      s.rd (Reg.ETH_LINK_STATE p) ≠ EthSt.up || s.rd (Reg.ETH_LINK_RATE p) ≠ 2)
  | 6 => (St.ok, marked || (List.range 16).any fun p => s.slotSt p = SlotSt.fault ||
      (s.slotSt p = SlotSt.active && (s.rd (Reg.PRP_SLOT_WIDTH p) < 4 || s.rd (Reg.PRP_SLOT_SPEED p) < 5)))
  | 10 => (s.bru.getResult 10, marked || (s.bru.getResult 10 = St.ok && s.mappedIn .bootFailed ≠ 0))
  | _ => (s.bru.getResult n, marked)

/-- BRU_STEP_FINISH (R485, R488, R491, R496): a running step whose units have all come to an end finishes; START then writes the
retained record. -/
def execBruStepFinish (step : Fin 12) (s : State) : Res :=
  let n := step.val
  if !s.running n ∨ !s.unitsDone n then .next s
  else
    let r := s.unitsSay n
    let s := if n = 10 ∧ s.bru.getResult 10 = St.ok then s.wr (Reg.BRU_CORES_BOOT_FAILED 0) (min (s.mappedIn .bootFailed) 4095) else s
    let s := if n = 11 ∧ !s.bru.startRefused then { s with bru := { s.bru with record := s.retain } } else s
    .next ((s.stepDone n r.1 r.2).step1 (Reg.BRU_STATUS_SEQ 0))

/-! ## Power failure (R526) -/

/-- PFAIL_N (R526, R559). Before ROM_CHECK the pin is only sampled (R577). -/
def execPfailN (s : State) : Res :=
  let s := { s with pins := { s.pins with pfail := true } }
  .next (if s.pins.romDone then s.powerFail else s)

/-- PFAIL_RELEASE (R526): PFAIL_N rises with power still good; the held records are written in their turn. -/
def execPfailRelease (s : State) : Res :=
  let s := { s with pins := { s.pins with pfail := false } }
  if !s.bbx.suspended then .next s
  else .next ({ s with bbx := { s.bbx with suspended := false, pfLost := 0#32 } }.cond 2 false)

/-! ## Supplies and reference clocks (R572, R574, R579) -/

/-- A cluster loses its supply (R513, R572): fenced and recorded; its parts have not worn, so the ledger stays. -/
def State.darkCluster (s : State) (gc : Nat) : State :=
  let p : Page := ⟨.clu, gc⟩
  if !s.standing p then s
  else
    let lost := (s.cluster gc).wq.length
    let part := s.clusterPart gc
    let s := s.fencePage p
    s.bbAdd 0x0004 Sev.contained (some p) part ([BitVec.ofNat 8 gc, BitVec.ofNat 8 (s.free 1)] ++ leBytes 4 lost)

/-- A memory unit loses its supply (R212, R215). -/
def State.darkUnit (s : State) (u : Nat) : State :=
  if !s.bru.memDone.getLsbD u ∨ s.bru.memBad.getLsbD u then s
  else
    let s := { s with bru := { s.bru with memBad := s.bru.memBad ||| (1#112 <<< u) } }.wr (unitChannels u) 0
    (s.unitLostRecord u).showLost u (s.unitPart u)

/-- The links of a die (R572). -/
def dieLinks (d : Nat) : List Nat :=
  (List.range linkCount).filter fun n =>
    let e := linkEnds n
    (e.1.1 < 40 && e.1.1 / 4 = d) || (e.2.1 < 40 && e.2.1 / 4 = d)

/-- Every PCIe and Ethernet link goes down (R572). DEDUCED (log 44). -/
def State.darkSerdes (s : State) : State :=
  let s := (List.range 2).foldl (fun s l => (s.linkGone l).err (pcePage l) 20) s
  let s := { s with links := SMap.mapVals (fun _ => Link.reset) (fun _ k => { k with training := false }) s.links }
  let s := (List.range 8).foldl (fun s p => (s.ethDown p).err (ethPage p) 16) s
  (List.range 16).foldl (fun s p =>
    let st := s.slotSt p
    if st = SlotSt.linking ∨ st = SlotSt.active ∨ st = SlotSt.ejectWait then
      (s.surprise p).toSlot p SlotSt.fault fun x => { x with attnLed := .on }
    else s) s

/-- PWR_OK_DEASSERT (R572, R574): a power-good input falls; after ROM_CHECK it acts as the group's entry of the table
gives. -/
def execPwrOkDeassert (i : Fin 16) (s : State) : Res :=
  let n := i.val
  let s := { s with pins := { s.pins with pwrOk := s.pins.pwrOk &&& ~~~(1#16 <<< n) } }
  if !s.pins.romDone then .next s
  else
    let s := s.bbAdd 0x0001 Sev.contained (some ⟨.hub, 0⟩) 0xFF
      ([0x18, 0x1C, 0x28].flatMap fun o => leBytes 4 (s.reg ((Page.mk .hub 0).base + o)).toNat)
    if n < 2 then .next (s.coldReset 0x4#4)
    else
      let s := { s with pins := { s.pins with lostGroups := s.pins.lostGroups ||| (1#16 <<< n) } }
      if n = 2 then .next s.fatal
      else if n < 13 then
        let d := n - 3
        let s := (List.range 16).foldl (fun s k => s.darkCluster (16 * d + k)) s
        let s := ((List.range 8).foldl (fun s k => s.darkUnit (8 * d + k)) s).showMem
        .next ((dieLinks d).foldl (fun s k => if s.d2dState k = D2d.failed then s else s.d2dReturn k 0 0) s)
      else if n = 13 then .next (((List.range 80).foldl State.darkUnit s).showMem)
      else if n = 14 then .next ((((List.range 32).map (80 + ·)).foldl State.darkUnit s).showMem)
      else .next s.darkSerdes

/-- PWR_OK_ASSERT (R574): an input rises; the order of the first rises is recorded. -/
def execPwrOkAssert (i : Fin 16) (s : State) : Res :=
  let n := i.val
  let order := if s.pins.riseOrder.contains n then s.pins.riseOrder else s.pins.riseOrder ++ [n]
  .next { s with pins := { s.pins with pwrOk := s.pins.pwrOk ||| (1#16 <<< n), riseOrder := order } }

/-- REFCLK_STOP (R579): clock 0 is REFCLK_SYS, 1 and 2 those of the PCIe links, 3 and 4 those of the Ethernet hubs. -/
def execRefclkStop (clk : Fin 5) (s : State) : Res :=
  let n := clk.val
  let s := { s with pins := { s.pins with refclk := s.pins.refclk &&& ~~~(1#5 <<< n) } }
  if n = 0 then .next (if s.pins.romDone then s.coldReset 0x4#4 else s)
  else if n < 3 then .next ((s.linkDown (n - 1)).modLink (n - 1) fun k => { k with training := false })
  else .next ((List.range 4).foldl (fun s p => s.ethDown ((n - 3) * 4 + p)) s)

/-- REFCLK_RESTART (R579). -/
def execRefclkRestart (clk : Fin 5) (s : State) : Res :=
  let n := clk.val
  let s := { s with pins := { s.pins with refclk := s.pins.refclk ||| (1#5 <<< n) } }
  if n = 1 ∨ n = 2 then
    .next (s.modLink (n - 1) fun k => { k with training := k.training || (s.linkMayTrain (n - 1) && !k.up) })
  else .next s

end Sys2Proof.Machine
end

