-- ==== Sys2Proof/Machine/Matrix.lean ====
section
/-! DEFINITION. The matrix engine: operand and drain descriptors, the checks of the command block, MMA, drains and clears
(R99-R118). -/
namespace Sys2Proof.Machine

/-! ## Descriptors (R102-R106, R110) -/

/-- An operand descriptor (R102). -/
structure Opd where
  fmt : Nat
  bs : Nat
  elemBase : Nat
  scaleBase : Nat
  stride : Nat
  sideBase : Nat
  sideCount : Nat
  first : Nat
  reserved : Bool
  deriving DecidableEq, Repr

def Opd.ofWord (w : BitVec 128) : Opd :=
  let f (lo len : Nat) : Nat := natBits w.toNat lo len
  { fmt := f 0 4, bs := if f 4 1 = 1 then 16 else 32, elemBase := f 16 16, scaleBase := f 32 16, stride := f 48 16
    sideBase := f 64 16, sideCount := f 80 16, first := f 96 32, reserved := f 5 11 ≠ 0 }

/-- The control word of an MMA (R106). -/
structure Ctl where
  k : Nat
  accExp : BitVec 7
  beacon : Nat
  sigN : Nat
  clr : Bool
  reserved : Bool
  deriving DecidableEq, Repr

def Ctl.ofWord (w : BitVec 128) : Ctl :=
  let f (lo len : Nat) : Nat := natBits w.toNat lo len
  { k := f 0 13, accExp := BitVec.ofNat 7 (f 16 7), beacon := f 24 15, sigN := f 40 8, clr := f 48 1 = 1
    reserved := f 13 3 ≠ 0 || f 23 1 ≠ 0 || f 39 1 ≠ 0 || f 49 79 ≠ 0 }

/-- A drain descriptor (R110). -/
structure Drain where
  fmt : Nat
  bs : Nat
  cols : Bool
  flg : Bool
  outBase : Nat
  stride : Nat
  scaleBase : Nat
  flagAddr : Nat
  beacon : Nat
  sigN : Nat
  reserved : Bool
  deriving DecidableEq, Repr

def Drain.ofWord (w : BitVec 128) : Drain :=
  let f (lo len : Nat) : Nat := natBits w.toNat lo len
  { fmt := f 0 4, bs := if f 4 1 = 1 then 16 else 32, cols := f 5 1 = 1, flg := f 6 1 = 1, outBase := f 16 16
    stride := f 32 16, scaleBase := f 48 16, flagAddr := f 64 16, beacon := f 80 15, sigN := f 96 8
    reserved := f 7 9 ≠ 0 || f 95 1 ≠ 0 || f 104 24 ≠ 0 }

/-- Elements of one output line (R110, R111). -/
def Drain.lineElems (d : Drain) : Nat := if d.cols then 128 else 64

def Drain.lines (d : Drain) : Nat := if d.cols then 64 else 128

/-- Bytes of one output line (R111). -/
def Drain.lineBytes (d : Drain) : Nat :=
  let n := d.lineElems
  match d.fmt with
  | 0 => 4 * n
  | 1 => 2 * n
  | 2 => 2 * n
  | 5 => 16 * n
  | _ => n / 2

def Drain.isGl4 (d : Drain) : Bool := d.fmt = 3 || d.fmt = 4

/-- Bytes from the first byte of the element plane to the end of the last consumed block (R104). -/
def Opd.elemEnd (o : Opd) (lines k : Nat) : Nat :=
  match OFmt.ofCode o.fmt with
  | none => 0
  | some f => o.elemBase * 16 + ((lines - 1) * o.stride + k / o.bs) * f.blockBytes o.bs

def Opd.scaleEnd (o : Opd) (lines k : Nat) : Nat :=
  match OFmt.ofCode o.fmt with
  | none => 0
  | some f => if f.hasScale then o.scaleBase * 16 + ((lines - 1) * o.stride + k / o.bs) else 0

/-- The end of the sidecar window, 0 for none; SIDE_COUNT is ignored for a format that has no sidecar (R103).
DESIGN CHOICE (log 106). -/
def Opd.sideEnd (o : Opd) : Nat :=
  match OFmt.ofCode o.fmt with
  | none => 0
  | some f => if f.isGlim ∧ o.sideCount ≠ 0 then o.sideBase * 16 + 8 * o.sideCount else 0

/-- An operand of a command block breaks a rule of R105 that raises the illegal-bundle trap. -/
def Opd.illegal (o : Opd) (k : Nat) : Bool :=
  match OFmt.ofCode o.fmt with
  | none => true
  | some f => o.reserved || (f.isMx && o.bs = 16) || k % o.bs ≠ 0 || o.stride < k / o.bs

/-- The largest data memory byte an operation may touch, plus 1. -/
def dmemEnd : Nat := 2 ^ 20

/-- The trap cause of an MMA's command block (R105). -/
def mmaCause (beaconOk : Nat → Bool) (w0 w1 w2 : BitVec 128) : Option (BitVec 4) :=
  let a := Opd.ofWord w0
  let b := Opd.ofWord w1
  let c := Ctl.ofWord w2
  if a.illegal c.k || b.illegal c.k || c.reserved || a.bs ≠ b.bs || c.k = 0 || 4096 < c.k then some Trap.illegalBundle
  else if dmemEnd < a.elemEnd 128 c.k || dmemEnd < b.elemEnd 64 c.k || dmemEnd < a.scaleEnd 128 c.k ||
      dmemEnd < b.scaleEnd 64 c.k || dmemEnd < a.sideEnd || dmemEnd < b.sideEnd then some Trap.busError
  else if c.sigN ≠ 0 && !beaconOk c.beacon then some Trap.beaconFault
  else none

/-- The trap cause of a drain descriptor (R105). -/
def mdrainCause (beaconOk : Nat → Bool) (w : BitVec 128) : Option (BitVec 4) :=
  let d := Drain.ofWord w
  if 5 < d.fmt || d.reserved || d.stride * 16 < d.lineBytes then some Trap.illegalBundle
  else if dmemEnd < d.outBase * 16 + (d.lines - 1) * d.stride * 16 + d.lineBytes ||
      (d.isGl4 && dmemEnd < d.scaleBase * 16 + d.lines * (d.lineElems / d.bs)) then some Trap.busError
  else if d.sigN ≠ 0 && !beaconOk d.beacon then some Trap.beaconFault
  else none

/-! ## Computing (R104, R107) -/

/-- One line's block as an MMA reads it: scale byte, element bytes as a number, tensor block number. -/
structure BlockIn where
  scale : Nat
  elems : Nat
  num : Nat
  deriving DecidableEq, Repr

/-- An operand as read: format, block size, sidecar window and its blocks. -/
structure OpdIn where
  fmt : OFmt
  bs : Nat
  window : List Side
  deriving DecidableEq, Repr

def Opd.fmtOf (o : Opd) : OFmt := (OFmt.ofCode o.fmt).getD .fp16

/-- Number in bytes lo .. lo + n - 1 by a reader of bytes. -/
def numAt (rd : Nat → BitVec 8) (lo n : Nat) : Nat := leNat ((List.range n).map fun i => rd (lo + i))

/-- Block j of line l of an operand, whose tensor block number is taken modulo 2^32 (R104). DESIGN CHOICE (log 106). -/
def Opd.block (o : Opd) (rd : Nat → BitVec 8) (l j : Nat) : BlockIn :=
  let i := l * o.stride + j
  let bb := o.fmtOf.blockBytes o.bs
  { scale := if o.fmtOf.hasScale then (rd (o.scaleBase * 16 + i)).toNat else 0
    elems := numAt rd (o.elemBase * 16 + i * bb) bb
    num := (o.first + i) % 2 ^ 32 }

/-- The sidecar window of an operand (R104). -/
def Opd.window (o : Opd) (rd : Nat → BitVec 8) : List Side :=
  if o.fmtOf.isGlim then (List.range o.sideCount).map fun i => Side.ofNat (numAt rd (o.sideBase * 16 + 8 * i) 8)
  else []

/-- The value of element i of a block of an operand: whether it goes by the correction path, and its exact value. -/
def elemValue (o : OpdIn) (b : BlockIn) (i : Nat) : Bool × Ex :=
  if o.fmt.isGlim then glimValue o.fmt b.scale b.elems b.num o.window i
  else if o.fmt.isMx then (true, .flt (mxValue o.fmt b.scale b.elems i))
  else (true, .flt (o.fmt.ffmt.decode (elemAt o.fmt.bits b.elems i)))

/-- A correction product in FP32 (R78, R80): a Glim factor is first rounded to FP32; a zero factor of two Glim factors
makes +0. DEDUCED (log 84). -/
def corrProduct (fa fb : OFmt) (a b : Ex) : Nat :=
  let v (f : OFmt) (x : Ex) : FVal := if f.isGlim then FFmt.fp32.decode (asFp32 x) else x.toF
  if fa.isGlim ∧ fb.isGlim ∧ ((v fa a).isZero ∨ (v fb b).isZero) then 0
  else FFmt.fp32.encode ((v fa a).mul (v fb b))

/-- What one block pair adds to an element: the partials of R74 with the half-octaves of the scales, and the terms
for C. -/
structure PairOut where
  part : Int × Int
  s : Int
  terms : List Nat
  deriving DecidableEq, Repr

def pairOut (oa ob : OpdIn) (a b : BlockIn) : PairOut :=
  let glim := oa.fmt.isGlim && ob.fmt.isGlim
  if glim ∧ (a.scale = 0 ∨ b.scale = 0) then ⟨(0, 0), 0, []⟩
  else
    let xs := (List.range oa.bs).map fun i => (elemValue oa a i, elemValue ob b i, i)
    let corr := if glim then xs.filter fun x => x.1.1 || x.2.1.1 else xs
    let ts := if glim then xs.filterMap fun x =>
        if x.1.1 || x.2.1.1 then none
        else match glimElem oa.fmt (elemAt oa.fmt.bits a.elems x.2.2), glimElem ob.fmt (elemAt ob.fmt.bits b.elems x.2.2) with
          | .val n1 e1, .val n2 e2 => some (⟨n1 != n2, e1 + e2⟩ : Term)
          | _, _ => none
      else []
    ⟨partials ts, (a.scale : Int) - 128 + ((b.scale : Int) - 128),
     corr.map fun x => corrProduct oa.fmt ob.fmt x.1.2 x.2.1.2⟩

/-- A list in an order the spec leaves open: the next item is the free one among those that remain. -/
def freeOrder {α : Type} (pick : Nat → Nat) : Nat → List α → List α
  | 0, l => l
  | _ + 1, [] => []
  | n + 1, a :: l =>
    let i := pick n % (l.length + 1)
    match (a :: l)[i]? with
    | some x => x :: freeOrder pick n ((a :: l).eraseIdx i)
    | none => a :: l

/-- An element's rails after an MMA: contributions in a free order of block pairs, and the terms of C in a free order
(R79, R107). DESIGN CHOICE (log 14). -/
def mmaElement (pick : Nat → Nat) (accExp : Int) (r : Rails) (ps : List PairOut) : Rails :=
  let r := (freeOrder pick ps.length ps).foldl (fun r p => r.addPartials accExp p.s p.part) r
  let ts := ps.flatMap (·.terms)
  (freeOrder (fun i => pick (5000 + i)) ts.length ts).foldl Rails.addC r

/-- Whether an operand's consumed blocks or its window break R70 or R71 (R107). -/
def Opd.escapeFault (o : Opd) (rd : Nat → BitVec 8) (lines nb : Nat) : Bool :=
  if !o.fmtOf.isGlim then false
  else
    let w := o.window rd
    !sidesOrdered w || (List.range lines).any fun l => (List.range nb).any fun j =>
      let b := o.block rd l j
      blockEscapeFault o.fmtOf o.bs b.num b.scale b.elems w

/-- The data memory words an operand is read from. -/
def Opd.words (o : Opd) (lines nb : Nat) : List Nat :=
  let bb := o.fmtOf.blockBytes o.bs
  let span (lo n : Nat) : List Nat := if n = 0 then [] else (List.range ((lo + n - 1) / 16 - lo / 16 + 1)).map (lo / 16 + ·)
  ((List.range lines).flatMap fun l =>
    span (o.elemBase * 16 + l * o.stride * bb) (nb * bb) ++
    (if o.fmtOf.hasScale then span (o.scaleBase * 16 + l * o.stride) nb else [])) ++
  (if o.fmtOf.isGlim then span (o.sideBase * 16) (8 * o.sideCount) else [])

/-! ## The tile -/

/-- What MCLR does (R100). -/
def Tile.clear (t : Tile) : Tile := { Tile.reset with tileExp := t.tileExp }

/-- One 8-byte word of the tile takes a value: element w / 2, low or high word of its rail record. DESIGN CHOICE (log 93). -/
def Tile.setWord (t : Tile) (w : Nat) (v : BitVec 64) : Tile :=
  let k := w / 2
  if w % 2 = 0 then
    (t.setP k (v.setWidth 48)).setQ k ((t.getQ k &&& 0xFFFFFFFF0000#48) ||| (v >>> 48).setWidth 48)
  else (t.setQ k ((t.getQ k &&& 0xFFFF#48) ||| (v.setWidth 48 <<< 16))).setC k ((v >>> 32).setWidth 32)

def Tile.rails (t : Tile) (r c : Nat) : Rails := ⟨t.getP (64 * r + c), t.getQ (64 * r + c), t.getC (64 * r + c), false, false, false⟩

/-- A read of the tile decodes its words (R262, R269, R275): `found` names words in error with the number of bits. A corrected
word counts; an error that cannot be corrected sets POISON and leaves zeros in the word, which now holds the poison word (R101,
R265). A miscorrected word is free data (R264). -/
def State.tileRead (s : State) (p : Nat) (found : List (Nat × Nat)) : State :=
  found.foldl (fun s e =>
    if 16384 ≤ e.1 then s
    else
      let u := tileKey p e.1
      let v := s.verdict u e.2
      let x := s.decodeUnit u e.2 false
      x.state.modCore p fun c => match v with
        | .clean => c
        | .corrected _ => c
        | .miscorrected false => { c with tile := c.tile.setWord e.1 (BitVec.ofNat 64 (s.free (2 ^ 52 + u))) }
        | _ => { c with tile := { (c.tile.setWord e.1 0#64) with poison := true } }) s

/-- The tile is written whole: its words leave the filter of their array (R274). -/
def State.freshTile (s : State) (p : Nat) : State := s.setFilterOf (10000 + p) Filter.reset

/-- The tile with every element's rails replaced; the sticky flags collect. -/
def Tile.update (t : Tile) (f : Nat → Rails) : Tile :=
  let rs := (List.range 8192).map fun k => (k, f k)
  { t with
    p := rs.filterMap fun x => if x.2.p = 0#48 then none else some (x.1, x.2.p)
    q := rs.filterMap fun x => if x.2.q = 0#48 then none else some (x.1, x.2.q)
    c := rs.filterMap fun x => if x.2.c = 0#32 then none else some (x.1, x.2.c)
    ovfP := t.ovfP || rs.any (·.2.ovfP), ovfQ := t.ovfQ || rs.any (·.2.ovfQ), ovfC := t.ovfC || rs.any (·.2.ovfC) }

/-- A byte of an operand: written by another between issue and completion, it is seen old or new (R117).
DESIGN CHOICE (log 15). -/
def State.operandByte (s : State) (p : Nat) (o : MOp) (off : Nat) : BitVec 8 :=
  let k := dmemKey p off
  let old := SMap.get (fun _ => 0#8) o.image k
  let new := s.byteAt k
  if old = new then new else if s.free k % 2 = 0 then old else new

/-- The tile after an MMA with no escape-handling fault, and whether there is one (R107). -/
def State.mmaTile (s : State) (p : Nat) (o : MOp) : Tile × Bool :=
  let t := (s.core p).tile
  let a := Opd.ofWord o.w0
  let b := Opd.ofWord o.w1
  let nb := (Ctl.ofWord o.w2).k / a.bs
  let rd := s.operandByte p o
  let bad := (a.words 128 nb ++ b.words 64 nb).any (s.dmemPoison p)
  if a.escapeFault rd 128 nb || b.escapeFault rd 64 nb then ({ t with poison := true }, true)
  else
    let oa : OpdIn := ⟨a.fmtOf, a.bs, a.window rd⟩
    let ob : OpdIn := ⟨b.fmtOf, b.bs, b.window rd⟩
    let f (k : Nat) : Rails :=
      mmaElement (fun i => s.free (k * 300000 + i)) t.tileExp.toInt (t.rails (k / 64) (k % 64))
        ((List.range nb).map fun j => pairOut oa ob (a.block rd (k / 64) j) (b.block rd (k % 64) j))
    ({ t.update f with poison := t.poison || bad }, false)

/-! ## Drains (R111-R114) -/

/-- Rails of element i of line l. -/
def Drain.elem (d : Drain) (t : Tile) (l i : Nat) : Rails := if d.cols then t.rails i l else t.rails l i

/-- One rounded element: code, SAT of the drain, INVALID (R83, R114). -/
def drainCode (fmt : Nat) (up : Bool) (v : FVal) : Conv :=
  match fmt with
  | 0 => ⟨FFmt.fp32.encode v, false, false⟩
  | 1 => ⟨FFmt.bf16.encode v, false, false⟩
  | _ => toGl16 (.flt v) up

/-- What a drain produces: bytes by data memory offset, SAT, INVALID, and the LFSR after it. -/
structure DrainOut where
  bytes : List (Nat × BitVec 8)
  sat : Bool
  inv : Bool
  lfsr : BitVec 32
  deriving DecidableEq, Repr

def bytesFrom (lo : Nat) (bs : Bytes) : List (Nat × BitVec 8) := (List.zip (List.range bs.length) bs).map fun x => (lo + x.1, x.2)

/-- One line of a drain. -/
def Drain.line (d : Drain) (t : Tile) (up : Nat → Bool) (l : Nat) (r : BitVec 32) : DrainOut :=
  let base := d.outBase * 16 + l * d.stride * 16
  let n := d.lineElems
  let e := t.tileExp.toInt
  let xs := (List.range n).map fun i => d.elem t l i
  match d.fmt with
  | 5 => ⟨bytesFrom base (xs.flatMap fun x => leBytes 16 (railRecord x)), false, false, r⟩
  | 3 | 4 =>
    let bl := quantBlocks .gl4 none (d.fmt = 4) (chunks d.bs (xs.map fun x => Ex.flt (x.sum e))) r
    let sc := d.scaleBase * 16 + l * (n / d.bs)
    ⟨bytesFrom base (bl.flatMap fun b => leBytes (d.bs / 2) (packElems 4 b.codes)) ++
       bytesFrom sc (bl.map fun b => BitVec.ofNat 8 b.scale),
     bl.any (·.sat), bl.any (·.inv), (bl.getLast?.map (·.lfsr)).getD r⟩
  | f =>
    let cs := (List.zip (List.range n) xs).map fun x => drainCode f (up (l * 128 + x.1)) (x.2.sum e)
    let z := if f = 0 then 4 else 2
    ⟨bytesFrom base (cs.flatMap fun c => leBytes z c.code), cs.any (·.sat), cs.any (·.inv), r⟩

/-- A whole drain, lines in ascending order (R113). -/
def Drain.run (d : Drain) (t : Tile) (up : Nat → Bool) (r : BitVec 32) : DrainOut :=
  (List.range d.lines).foldl (fun acc l =>
    let x := d.line t up l acc.lfsr
    ⟨acc.bytes ++ x.bytes, acc.sat || x.sat, acc.inv || x.inv, x.lfsr⟩) ⟨[], false, false, r⟩

/-- The flags word of R114. -/
def flagsWord (t : Tile) (sat : Bool) : Bytes :=
  let b (x : Bool) (i : Nat) : Nat := if x then 2 ^ i else 0
  let e := BitVec.ofInt 8 t.tileExp.toInt
  BitVec.ofNat 8 (b t.ovfP 0 + b t.ovfQ 1 + b t.ovfC 2 + b t.poison 3 + b sat 4) :: e :: List.replicate 14 0#8

/-! ## The rows -/

/-- The head of the M queue, when it is of a kind. -/
def Core.headM (c : Core) (k : MKind) : Option (MOp × List MOp) :=
  match c.mqueue with
  | o :: rest => if o.kind = k then some (o, rest) else none
  | [] => none

def Core.mmaRuns (c : Core) : Bool := c.mrun.any (·.kind = .mma)

/-- MMA_START (R100, R116, R118 step 2): the oldest queued operation is an MMA and starts; one with CLR set waits for
every earlier MMA. The clear, which writes the tile whole, and the capture of TILE_EXP take effect now (R107). -/
def execMmaStart (gc : Fin 160) (slot : Fin 18) (s : State) : Res :=
  let p := slotKey gc slot
  let c := s.core p
  match c.headM .mma with
  | none => .next s
  | some (o, rest) =>
    let ctl := Ctl.ofWord o.w2
    if ctl.clr ∧ c.mmaRuns then .next s
    else
      let t := if ctl.clr then c.tile.clear else c.tile
      let t := if t.fresh then { t with tileExp := ctl.accExp, fresh := false } else t
      let s := if ctl.clr then s.freshTile p else s
      .next (s.setCore p { c with mqueue := rest, mrun := c.mrun ++ [o], tile := t })

/-- The record of an escape-handling fault found after the core halted by HALT (R169, R172). -/
def State.lateFault (s : State) (p : Nat) (pc : BitVec 16) : State :=
  (s.modCore p fun c => { c with trap := Trap.escapeFault, trapPc := pc, unit := 1#3, async := true }).err ⟨.cor, p⟩ 16
    Sev.corrected (s.clusterPart (p / 18))

/-- MMA_DONE (R107, R118 step 4): the oldest running operation is an MMA; its contributions are in the rails and its
beacon is signalled, or an escape-handling fault halts the core with POISON set and no signal. `found` names words of the tile in
error as the MMA reads them (R101, R262); where their count fences the core's page, the core has stopped. The contributions of an MMA all come before those of the next, though R107 lets two
overlap; log 14 names the order (R79). DESIGN CHOICE (log 14). -/
def execMmaDone (gc : Fin 160) (slot : Fin 18) (found : List (Nat × Nat)) (s : State) : Res :=
  let p := slotKey gc slot
  match (s.core p).mrun with
  | o :: rest =>
    if o.kind ≠ .mma then .next s
    else
      let s := s.tileRead p found
      let c := s.core p
      let r := s.mmaTile p o
      let w := (s.setCore p { c with mrun := rest, tile := r.1 }).draw
      if c.mrun = [] then .next s
      else if r.2 then
        (if c.run = .halted then (if c.trap = Trap.none then .next (w.lateFault p o.pc) else .next w)
         else .next (w.takeTrap p Trap.escapeFault o.pc 1#3 true))
      else
        let ctl := Ctl.ofWord o.w2
        .next ((w.freshTile p).sigCluster gc ctl.beacon (BitVec.ofNat 32 ctl.sigN))
  | [] => .next s

/-- MDRAIN_START (R116, R118 step 5): the oldest queued operation is a drain and no MMA runs; it reads the tile and rounds
it, taking its LFSR steps (R88, R137) and setting the core's SAT and INVALID (R90, R114). `found` names words of the tile in
error (R101, R262). The choice that R83 leaves to a faithful rounding is drawn anew for every drain. DESIGN CHOICE (log 14). -/
def execMdrainStart (gc : Fin 160) (slot : Fin 18) (found : List (Nat × Nat)) (s : State) : Res :=
  let p := slotKey gc slot
  match (s.core p).headM .mdrain with
  | none => .next s
  | some (o, rest) =>
    if (s.core p).mmaRuns then .next s
    else
      let s := s.tileRead p found
      let c := s.core p
      let d := Drain.ofWord o.w0
      let x : DrainOut := if c.tile.fresh then d.run { Tile.reset with tileExp := c.tile.tileExp } (fun _ => false) c.lfsr
        else d.run c.tile (fun i => s.free i % 2 = 0) c.lfsr
      let flags := if d.flg then bytesFrom (d.flagAddr * 16) (flagsWord c.tile x.sat) else []
      let o := { o with out := (x.bytes ++ flags).map fun b => (dmemKey p b.1, b.2), poison := c.tile.poison }
      if c.mqueue = [] then .next s
      else .next (s.setCore p { c with
        mqueue := rest, mrun := c.mrun ++ [o], lfsr := x.lfsr, sat := c.sat || x.sat, invalid := c.invalid || x.inv }).draw

/-- Stores bytes by home key; a unit written whole no longer holds poison, one written in part keeps it (R267). -/
def State.storeBytes (s : State) (l : List (Nat × BitVec 8)) : State :=
  let s := l.foldl (fun s c => s.setByte c.1 c.2) s
  (l.map fun c => unitOf c.1).eraseDups.foldl (fun s u =>
    if (List.range 8).all fun i => l.any fun c => c.1 = u + i then (s.setClean u true).freshUnit u
    else if s.isClean u then s
    else s.putBytes u (List.replicate 8 0#8)) s

/-- Bytes a drain writes go into data memory, and into the images of the operations behind it, which see them (R116).
While POISON is set every output word takes poison; the flags word is no output word (R101, R114, R118). -/
def State.drainWrite (s : State) (p : Nat) (o : MOp) : State :=
  let d := Drain.ofWord o.w0
  let n := if d.flg then o.out.length - 16 else o.out.length
  let put (m : List Host.Cell) : List Host.Cell := o.out.foldl (fun m c => SMap.set (fun _ => 0#8) m c.1 c.2) m
  let upd (x : MOp) : MOp := { x with image := put x.image }
  let s := if o.poison then
      ((o.out.take n).map fun c => unitOf c.1).eraseDups.foldl (fun s u => (s.poisonUnit u).freshUnit u) s
    else s.storeBytes (o.out.take n)
  (s.storeBytes (o.out.drop n)).modCore p fun c => { c with mqueue := c.mqueue.map upd, mrun := c.mrun.map upd }

/-- MDRAIN_DONE (R113, R118 steps 6 and 7): the oldest running operation is a drain; its words and flags word are written
and its beacon is signalled. -/
def execMdrainDone (gc : Fin 160) (slot : Fin 18) (s : State) : Res :=
  let p := slotKey gc slot
  let c := s.core p
  match c.mrun with
  | o :: rest =>
    if o.kind ≠ .mdrain then .next s
    else
      let d := Drain.ofWord o.w0
      let s := (s.setCore p { c with mrun := rest }).drainWrite p o
      .next (s.sigCluster gc d.beacon (BitVec.ofNat 32 d.sigN))
  | [] => .next s

/-- MCLR_START (R100, R115, R116): the oldest queued operation is an MCLR and no MMA runs; the tile is cleared and the
operation is over. -/
def execMclrStart (gc : Fin 160) (slot : Fin 18) (s : State) : Res :=
  let p := slotKey gc slot
  let c := s.core p
  match c.headM .mclr with
  | none => .next s
  | some (_, rest) =>
    if c.mmaRuns then .next s
    else .next ((s.freshTile p).setCore p { c with mqueue := rest, tile := c.tile.clear })

end Sys2Proof.Machine
end

