-- ==== Sys2Proof/Machine/Pages.lean ====
section
/-! DEFINITION. The common page header at work: enable, drain, fence and reset, error bits, the configuration sweep and the
leaky bucket (02_register_pages.md R52-R58). -/
namespace Sys2Proof.Machine

/-- A page of this device (R42, R47). -/
def Page.exists? (p : Page) : Bool := p.inst < p.blk.count

/-- Error bits of ERR_STAT.BLOCK that a page defines, bit b for ERR_STAT bit 16 + b; the rest are reserved. -/
def Page.errMask (p : Page) : BitVec 16 :=
  match p.blk with
  | .noc | .die | .mbx => 0x0000#16
  | .clu | .nic | .tel => 0x0001#16
  | .hub | .eth | .cls | .pol | .nvc | .pwr | .bbx | .snp | .dis | .mov | .pfx | .d2d | .cor => 0x0003#16
  | .tsh | .sdt | .cph | .hmc => 0x0007#16
  | .bru | .prp | .sec => 0x000F#16
  | .lpc => 0x001F#16
  | .pce => 0x003F#16
  | .fwp => if p.inst = 0 then 0x000F#16 else 0x0003#16

/-! ## CTRL (R54, R56) -/

/-- A core page begins to drain: its core stops at the first boundary with no delay bundle left, and what its queues have
accepted completes (R173). -/
def State.drainCore (s : State) (k : Nat) : State :=
  let s := s.holdChannels (k / 18) (k % 18) false
  let c := s.core k
  if c.run = .running ∧ c.branch.isNone then (s.landAll k).modCore k fun c => { c with pausing := true, bundle := [] } else s

/-- CTRL written with DRAIN 1 (R52, R54, R56): its ENABLE bit is ignored. DEDUCED (log 23). -/
def State.ctrlDrain (s : State) (p : Page) : State :=
  if s.st p ≠ PS.enabled then s.ignoreWrite p 0x08
  else
    let s := (s.wr (Reg.STATE_STATE p) PS.draining).wr (Reg.CTRL_DRAIN p) 1
    match p.blk with
    | .cor => s.drainCore p.inst
    | .eth => s.ethLeave p.inst
    | _ => s

/-- CTRL written with ENABLE 1 and DRAIN 0 (R54, R56). In FENCED the bit alone changes. -/
def State.ctrlEnable (s : State) (p : Page) : State :=
  let st := s.st p
  if st = PS.draining ∨ st = PS.off ∨ st = PS.resetting then s.ignoreWrite p 0x08
  else if st = PS.disabled then s.enablePage p
  else s.wr (Reg.CTRL_ENABLE p) 1

/-- CTRL written with ENABLE 0 and DRAIN 0 (R56). -/
def State.ctrlDisable (s : State) (p : Page) : State :=
  let st := s.st p
  if st = PS.enabling ∨ st = PS.enabled ∨ st = PS.draining ∨ st = PS.fenced then s.enterReset p else s

/-- BLOCK_ENABLE (R52, R54-R56): ENABLE is written 1. -/
def execBlockEnable (p : Page) (s : State) : Res :=
  if p.exists? then .next (s.ctrlEnable p) else .refused (.noSuchItem "page")

/-- BLOCK_READY (R56): a block in ENABLING is ready. -/
def execBlockReady (p : Page) (s : State) : Res :=
  if p.exists? then .next (s.readyPage p) else .refused (.noSuchItem "page")

/-- BLOCK_DISABLE (R56): ENABLE is written 0. -/
def execBlockDisable (p : Page) (s : State) : Res :=
  if p.exists? then .next (s.ctrlDisable p) else .refused (.noSuchItem "page")

/-- BLOCK_DRAIN (R54, R56): DRAIN is written 1. -/
def execBlockDrain (p : Page) (s : State) : Res :=
  if p.exists? then .next (s.ctrlDrain p) else .refused (.noSuchItem "page")

/-- A core has stopped and nothing it accepted is left to run (R173). -/
def State.coreQuiet (s : State) (k : Nat) : Bool :=
  let c := s.core k
  (c.run != .running || c.pausing) && c.run != .stub && c.mqueue.isEmpty && c.mrun.isEmpty &&
  (List.range 4).all fun ch => (c.getChan ch).run.isNone && (c.getChan ch).queue.isEmpty

/-- DRAIN_DONE (R56): the last work in flight of a draining block has finished. A core then is HELD (R172) and a port DOWN
(R333). -/
def execDrainDone (p : Page) (s : State) : Res :=
  if !p.exists? then .refused (.noSuchItem "page")
  else if s.st p ≠ PS.draining ∨ (p.blk = .cor ∧ !s.coreQuiet p.inst) then .next s
  else
    let s := ((s.wr (Reg.STATE_STATE p) PS.disabled).wr (Reg.CTRL_ENABLE p) 0).wr (Reg.CTRL_DRAIN p) 0
    match p.blk with
    | .cor => .next ((s.landAll p.inst).modCore p.inst Core.stop)
    | .dis => .next (s.disarmAll p.inst .dis)
    | .mov => .next (s.disarmAll p.inst .mov)
    | .pfx => .next (s.disarmAll p.inst .pfx)
    | _ => .next s

/-- RESET_DONE (R56, R57): a resetting block has answered its work in flight. -/
def execResetDone (p : Page) (s : State) : Res :=
  if p.exists? then .next (s.leaveReset p) else .refused (.noSuchItem "page")

/-- BLOCK_FENCE (R53, R56): a fence by firmware, or the error of an ERR_STAT.BLOCK bit of the page, which fences when its
ERR_EN bit is 1 and is counted where the page's chapter has it counted. -/
def execBlockFence (p : Page) (bit : Option (Fin 16)) (s : State) : Res :=
  if !p.exists? then .refused (.noSuchItem "page")
  else match bit with
    | none => .next (s.fencePage p)
    | some b => .next (if p.errMask.getLsbD b ∧ s.st p ≠ PS.off then s.blockErr p b.val else s)

/-! ## The configuration sweep (R55, R58) -/

/-- Configuration bits that an upset has changed: page offset of a word and the bits. -/
def State.upsetConfig (s : State) (p : Page) (flips : List (Nat × BitVec 32)) : State :=
  flips.foldl (fun s f => match (maskTable p.blk).find? (fun e => e.1 = f.1) with
    | some e => s.setReg (p.base + e.1) (s.reg (p.base + e.1) ^^^ (f.2 &&& e.2))
    | none => s) s

/-- CRC_SWEEP_END (R58): the sweep publishes the CRC of the configuration as it stands, `flips` being what upsets have done
to it, and CFG_CORRUPT is set when it differs from the reference in service. -/
def execCrcSweepEnd (p : Page) (flips : List (Nat × BitVec 32)) (s : State) : Res :=
  if !p.exists? then .refused (.noSuchItem "page")
  else if s.st p = PS.off then .next s
  else
    let s := s.upsetConfig p flips
    let s := s.wr (Reg.CFG_CRC_LIVE p) (s.cfgCrc p).toNat
    let st := s.st p
    if (st = PS.enabling ∨ st = PS.enabled ∨ st = PS.draining) ∧ s.rd (Reg.CFG_CRC_LIVE p) ≠ s.rd (Reg.CFG_CRC_REF p) then
      .next (s.err p 1)
    else .next s

/-! ## The leaky bucket (R52, R53) -/

/-- BUCKET_PERIOD_END (R53): LEVEL loses 1; with PERIOD 0 nothing drains. -/
def execBucketPeriodEnd (p : Page) (s : State) : Res :=
  if !p.exists? then .refused (.noSuchItem "page")
  else if s.st p = PS.off ∨ s.rd (Reg.BUCKET_CFG_PERIOD p) = 0 then .next s
  else .next ((s.wr (Reg.BUCKET_LEVEL_LEVEL p) (s.rd (Reg.BUCKET_LEVEL_LEVEL p) - 1)).updateHalf p)

/-- BUCKET_CFG is written: HALF follows the new THRESHOLD, and a THRESHOLD that LEVEL has reached overflows.
DEDUCED (log 22). -/
def State.bucketCfg (s : State) (p : Page) (v : BitVec 32) : State :=
  let s := (s.setReg (Reg.BUCKET_CFG_PERIOD p).addr v).updateHalf p
  let t := s.rd (Reg.BUCKET_CFG_THRESHOLD p)
  if t ≠ 0 ∧ t ≤ s.rd (Reg.BUCKET_LEVEL_LEVEL p) then s.err p 3 else s

/-- BUCKET_CFG_WRITE (R53). -/
def execBucketCfgWrite (p : Page) (v : BitVec 32) (s : State) : Res :=
  if p.exists? then .next (s.bucketCfg p v) else .refused (.noSuchItem "page")

/-! ## ERR_STAT and CFG_CRC_REF (R52-R54) -/

/-- ERR_STAT is written: bits written 1 are cleared, and IGNORED_WRITE takes IGN_WRITE with it (R53). -/
def State.errStat (s : State) (p : Page) (v : BitVec 32) : State :=
  let a := (Reg.ERR_STAT_BLOCK p).addr
  let s := s.setReg a (s.reg a &&& ~~~ (v &&& 0xFFFF000F#32))
  if v.getLsbD 0 then s.setReg (Reg.IGN_WRITE_COUNT p).addr 0#32 else s

/-- ERR_STAT_WRITE (R53). -/
def execErrStatWrite (p : Page) (v : BitVec 32) (s : State) : Res :=
  if p.exists? then .next (s.errStat p v) else .refused (.noSuchItem "page")

/-- CFG_CRC_REF is written: any write clears CRC_MISMATCH; outside DISABLED a write that would change it is refused
(R52, R54). -/
def State.crcRef (s : State) (p : Page) (v : BitVec 32) : State :=
  let a := (Reg.CFG_CRC_REF p).addr
  let s := s.wr (Reg.STATE_CRC_MISMATCH p) 0
  if s.st p = PS.disabled then s.setReg a v
  else if s.reg a = v then s
  else s.ignoreWrite p 0x10

/-- CFG_CRC_REF_WRITE (R52, R54). -/
def execCfgCrcRefWrite (p : Page) (v : BitVec 32) (s : State) : Res :=
  if p.exists? then .next (s.crcRef p v) else .refused (.noSuchItem "page")

end Sys2Proof.Machine
end

