-- ==== Sys2Proof/Machine/FnSpace.lean ====
section
/-! DEFINITION. What the host reads of the functions of its link: the configuration space, and BAR0 of PF1, PF2 and PF3
(10_host_link.md R284, R285, R288, R289, R292; 12_ethernet_ingress.md R354; 15_storage_controller.md R402-R404). -/
namespace Sys2Proof.Machine

/-! ## Configuration space (R284, R285) -/

/-- Class code of a function (R285). -/
def classCode (fn : Nat) : Nat := if fn < 2 then 0x120000 else if fn = 2 then 0x010802 else 0x020000

/-- Bytes of BAR0 of a function (R285). -/
def bar0Size (fn : Nat) : Nat :=
  match fn with
  | 0 => 2 ^ 26
  | 1 => 2 ^ 21
  | 2 => 2 ^ 16
  | _ => 2 ^ 20

def natOf (b : Bool) : Nat := if b then 1 else 0

/-- What a read of configuration space shows (R284, R285): flags as 0 and 1, sizes in bytes, the sizes that BAR2 may take as one bit
for each power of two, and Max Payload Size, Max Read Request Size and the completion timeout range as their encodings. -/
def State.cfgRead (s : State) (l fn : Nat) (x : CfgField) : Nat :=
  let k := s.link l
  let f := k.getFns fn
  let bar2 : Bool := fn < 2
  let pf0 : Bool := fn = 0
  match x with
  | .vendorId => 0x1F6B
  | .deviceId => 0x3220 + fn
  | .classCode => classCode fn
  | .subsystemVendorId => s.bru.boardSub.toNat % 2 ^ 16
  | .subsystemId => s.bru.boardSub.toNat / 2 ^ 16
  | .barSize bar => if bar = 0 then bar0Size fn else if bar2 then 2 ^ k.getBar2Log2 fn else 0
  | .barPrefetchable bar => natOf (bar2 && bar = 1)
  | .bar64 bar => natOf (bar = 0 || bar2)
  | .bar2Sizes => if fn = 0 then 2 ^ 41 - 2 ^ 30 else if fn = 1 then 2 ^ 42 - 2 ^ 36 else 0
  | .msixVectors => if pf0 then 64 else 2048
  | .interruptPin => natOf pf0
  | .maxPayloadSupported => 2
  | .maxPayload => f.mps.toNat
  | .maxReadRequest => f.mrrs.toNat
  | .readCompletionBoundary => 64
  | .extendedTag | .tag10Requester | .tag14Requester | .tag10Completer | .tag14Completer => 1
  | .tag10Enable => natOf f.tag10
  | .tag14Enable => natOf f.tag14
  | .maxLinkSpeed => 6
  | .maxLinkWidth => 16
  | .aer | .ecrcGeneration | .ecrcCheck => 1
  | .ecrcGenerateEnable => natOf f.ecrcGen
  | .ecrcCheckEnable => natOf f.ecrcChk
  | .doe | .ide => natOf pf0
  | .ideEnable stream => natOf (pf0 && k.ideEn.getLsbD stream)
  | .pasidWidth => 20
  | .pasidExecute | .pasidPrivileged => 0
  | .ats => natOf (!pf0)
  | .atsInvalidateQueueDepth => if pf0 then 0 else 32
  | .atsSmallestUnit => if pf0 then 0 else 4096
  | .atsEnable => natOf f.atsEn
  | .pri => 0
  | .flr => 1
  | .aspmL1 => 1
  | .aspmL0s => 0
  | .aspmEnable => natOf f.aspmL1
  | .d1 | .d2 => 0
  | .pme => natOf pf0
  | .pmeEnable => natOf (pf0 && k.pmeEn)
  | .pmeStatus => natOf (pf0 && k.pmeStatus)
  | .powerState => if f.d3 then 3 else 0
  | .completionTimeoutRanges => 15
  | .completionTimeoutValue => k.ctoRange.toNat
  | .completionTimeoutDisable => 0
  | .atomicOps | .tph | .ltr | .ari | .sriov => 0
  | .busMaster => natOf f.bme
  | .interruptDisable => natOf (pf0 && k.intDis)
  | .msixEnable => natOf f.msixEn

/-! ## MSI-X tables (R289) -/

/-- A word of the MSI-X table of PF1, PF2 or PF3. -/
def Fn.tableWord (f : Fn) (i : Nat) : Nat := if i % 4 = 3 then natOf (f.getMask (i / 4)) else (f.getTable i).toNat

/-- A word of its pending bits. -/
def Fn.pbaWord (f : Fn) (i : Nat) : Nat := (List.range 32).foldl (fun n b => n + natOf (f.getPba (32 * i + b)) * 2 ^ b) 0

/-! ## BAR0 of PF1, PF2 and PF3 -/

/-- A word of the doorbell page of a slice (R292); a page whose slice does not exist reads as zero. -/
def State.jobPageWord (s : State) (l k o : Nat) : Option Nat :=
  let there := (s.pf1Slice l k).isSome
  if o = 0x800 then some 0
  else if 0x100 ≤ o then none
  else if !there then some 0
  else
    let j := jqKey k (o / 16)
    match s.liveJobq j, o % 16 with
    | some q, 0 => some q.sqTail.toNat
    | some q, 4 => some q.cqHead.toNat
    | some q, 8 => some (natOf q.error * 2 ^ 31 + q.status.toNat * 2 ^ 16 + q.sqHead.toNat)
    | none, 0 => some (s.doorbellOf (2 * j)).toNat
    | none, 4 => some (s.doorbellOf (2 * j + 1)).toNat
    | _, _ => some 0

/-- A word of the doorbell block of a queue pair (R354); the block of one that does not exist reads as zero. -/
def State.nicBlockWord (s : State) (l q o : Nat) : Option Nat :=
  if 0x14 ≤ o then none
  else match s.nicqp (l * 4096 + q) with
    | none => some 0
    | some x => match o with
      | 0x00 => some x.rxTail.toNat
      | 0x04 => some x.txTail.toNat
      | 0x08 => some x.cqHead.toNat
      | 0x0C => some (natOf x.error * 2 ^ 31 + x.status.toNat * 2 ^ 16)
      | _ => some (x.txHead.toNat * 2 ^ 16 + x.rxHead.toNat)

/-- CAP of the NVMe controllers: MQES 0xFFFF, CQR, AMS 0, TO 0x28, DSTRD 0, MPSMIN and MPSMAX 0, and the NVM command set
(R402). PRESUMED (log 99). -/
def nvmeCap : Nat := 0xFFFF + 2 ^ 16 + 0x28 * 2 ^ 24 + 2 ^ 37

/-- A word of the NVMe controller registers; what the controller does not support reads as zero (R402). PRESUMED (log 99). -/
def State.nvmeRegWord (s : State) (l o : Nat) : Nat :=
  let v := s.nvme l
  match o with
  | 0x00 => nvmeCap % 2 ^ 32
  | 0x04 => nvmeCap / 2 ^ 32
  | 0x08 => 0x00020000
  | 0x14 => v.cc.toNat
  | 0x1C => natOf v.rdy + v.shst.toNat * 4
  | 0x24 => v.aqa.toNat
  | 0x28 => v.asq.toNat % 2 ^ 32
  | 0x2C => v.asq.toNat / 2 ^ 32
  | 0x30 => v.acq.toNat % 2 ^ 32
  | 0x34 => v.acq.toNat / 2 ^ 32
  | _ => 0

/-- A word of BAR0 of PF1, PF2 or PF3, none where nothing is implemented (R292, R354, R403). What a doorbell of PF2 reads as is not
stated: free. DESIGN CHOICE (log 108). -/
def State.fnWord (s : State) (l fn off : Nat) : Option Nat :=
  let f := (s.link l).getFns fn
  match fn with
  | 1 =>
    if off < 0x100000 then s.jobPageWord l (off / 0x1000) (off % 0x1000)
    else if off < 0x108000 then some (f.tableWord ((off - 0x100000) / 4))
    else if off < 0x108100 then some (f.pbaWord ((off - 0x108000) / 4))
    else none
  | 2 =>
    if off < 0x1000 then some (s.nvmeRegWord l off)
    else if off < 0x7004 then some (s.free off % 2 ^ 32)
    else if 0x7800 ≤ off ∧ off < 0x7900 then some (f.pbaWord ((off - 0x7800) / 4))
    else if 0x8000 ≤ off ∧ off < 0x10000 then some (f.tableWord ((off - 0x8000) / 4))
    else none
  | 3 =>
    if off < 0x80000 then s.nicBlockWord l (off / 0x80) (off % 0x80)
    else if off < 0x88000 then some (f.tableWord ((off - 0x80000) / 4))
    else if off < 0x88100 then some (f.pbaWord ((off - 0x88000) / 4))
    else none
  | _ => none

/-- An offset of a 64-bit register of the NVMe register map: CAP, ASQ and ACQ (R403). -/
def nvmeWide (fn off : Nat) : Bool := fn = 2 && (off = 0x00 || off = 0x28 || off = 0x30)

/-- What an access of n bytes to BAR0 of PF1, PF2 or PF3 reads; none where it is answered as an unimplemented location: it is not
of 32 bits, or of 64 for a 64-bit register, not naturally aligned, or to no register (R288, R292, R354, R403). -/
def State.fnRead (s : State) (l fn off n : Nat) : Option Bytes :=
  if off % 4 ≠ 0 then none
  else if n = 4 then (s.fnWord l fn off).map fun v => leBytes 4 v
  else if n = 8 ∧ nvmeWide fn off then
    match s.fnWord l fn off, s.fnWord l fn (off + 4) with
    | some a, some b => some (leBytes 4 a ++ leBytes 4 b)
    | _, _ => none
  else none

end Sys2Proof.Machine
end

