-- ==== Sys2Proof/Machine/Views.lean ====
section
/-! DEFINITION. What a register read returns: the Directory ROM (02_register_pages.md R45-R50), the words that show state held
elsewhere (R170, R171, R205, R310, R331), and the stored words. -/
namespace Sys2Proof.Machine

/-! ## The Directory ROM -/

/-- A directory entry's block type, first page, instance and page count (R46, R47). -/
structure RomEntry where
  blk : Blk
  first : Page
  inst : Nat
  pages : Nat
  deriving DecidableEq, Repr

/-- Entries of a hub, in ascending BAR0 offset (R42, R47). -/
def hubEntries (h : Nat) : List RomEntry :=
  let one (b : Blk) : List RomEntry := [⟨b, ⟨b, h⟩, h, 1⟩]
  let many (b : Blk) (n : Nat) : List RomEntry := (List.range n).map fun k => ⟨b, ⟨b, h * n + k⟩, h * n + k, 1⟩
  one .hub ++ one .bru ++ one .pce ++ many .prp 8 ++ many .eth 4 ++ one .cls ++ one .nic ++ one .tsh ++ one .pol ++ one .sdt ++
  one .nvc ++ one .cph ++ many .lpc 4 ++ one .tel ++ one .pwr ++ one .sec ++ one .bbx ++ one .snp ++ one .dis ++ one .mov ++
  one .pfx ++ [⟨.d2d, ⟨.d2d, 40 + h⟩, 40 + h, 1⟩, ⟨.fwp, ⟨.fwp, 16 * h⟩, h, 16⟩, ⟨.mbx, ⟨.mbx, 64 * h⟩, h, 64⟩]

/-- Entries of a compute die. -/
def dieEntries (d : Nat) : List RomEntry :=
  let clusters := (List.range 16).flatMap fun c =>
    let gc := d * 16 + c
    [(⟨.clu, ⟨.clu, gc⟩, gc, 1⟩ : RomEntry), ⟨.cor, ⟨.cor, gc * 18⟩, gc, 18⟩]
  [⟨.die, ⟨.die, d⟩, d, 1⟩] ++ (List.range 4).map (fun e => (⟨.d2d, ⟨.d2d, d * 4 + e⟩, d * 4 + e, 1⟩ : RomEntry)) ++
  [⟨.hmc, ⟨.hmc, 2 * d⟩, 2 * d, 1⟩, ⟨.hmc, ⟨.hmc, 2 * d + 1⟩, 2 * d + 1, 1⟩, ⟨.noc, ⟨.noc, d⟩, d, 1⟩] ++ clusters

/-- All 474 entries (R45, R46). -/
def romEntries : List RomEntry := hubEntries 0 ++ hubEntries 1 ++ (List.range 10).flatMap dieEntries

/-- Bytes before the first mask table: header, entries, end entry. -/
def romTables : Nat := 16 + 16 * (474 + 1)

/-- Block types with an RWL field outside the header, in ascending code (R49). -/
def maskedBlks : List Blk :=
  ([.hub, .bru, .pce, .prp, .eth, .cls, .nic, .tsh, .pol, .sdt, .nvc, .cph, .lpc, .tel, .pwr, .sec, .bbx, .snp, .dis, .mov, .pfx,
    .d2d, .fwp, .mbx, .die, .hmc, .noc, .clu, .cor] : List Blk).filter fun b => !(maskTable b).isEmpty

/-- A mask table (R49). -/
def maskBytes (b : Blk) : Bytes :=
  let t := maskTable b
  leBytes 2 t.length ++ leBytes 2 0 ++ t.flatMap fun e => leBytes 2 e.1 ++ leBytes 2 0 ++ leBytes 4 e.2.toNat

/-- ROM offset of a type's mask table, or 0. -/
def maskOffset (b : Blk) : Nat :=
  if (maskTable b).isEmpty then 0
  else romTables + ((maskedBlks.takeWhile (· ≠ b)).map fun c => 4 + 8 * (maskTable c).length).foldl (· + ·) 0

/-- One entry of 16 bytes (R46, R48). -/
def RomEntry.bytes (e : RomEntry) : Bytes :=
  let flags := (if e.first.inactive then 1 else 0) + (if (maskTable e.blk).isEmpty then 0 else 2)
  leBytes 4 e.first.base ++ leBytes 2 e.blk.code ++ leBytes 1 e.inst ++ leBytes 1 1 ++ leBytes 2 e.pages ++ leBytes 2 flags ++
  leBytes 4 (maskOffset e.blk)

/-- Everything the header's CRC covers (R45). -/
def romBody : Bytes :=
  (romEntries.flatMap RomEntry.bytes) ++ List.replicate 16 0xFF#8 ++ maskedBlks.flatMap maskBytes

/-- The header (R45). -/
def romHeader : Bytes :=
  [0x50#8, 0x58#8, 0x44#8, 0x52#8, 0x00#8, 0x01#8] ++ leBytes 2 romEntries.length ++ leBytes 4 (16 + romBody.length) ++
  leBytes 4 (crc32c romBody).toNat

/-- Bytes of the Directory ROM; beyond SIZE they read as zero (R45). -/
def romRead (off n : Nat) : Bytes :=
  let rom := romHeader ++ romBody
  (List.range n).map fun i => rom.getD (off + i) 0#8

/-! ## Words that show state held elsewhere -/

def RunState.code : RunState → Nat
  | .held => 0
  | .stub => 1
  | .running => 2
  | .paused => 3
  | .halted => 4
  | .bootFailed => 5

/-- The registers of a core at 0x100 and above are open (R171). -/
def State.coreOpen (s : State) (k : Nat) : Bool :=
  s.st ⟨.cor, k⟩ = PS.disabled || (s.core k).run = .paused || (s.core k).run = .halted

/-- A loop register by its index: LC0, LS0, LE0, LC1, LS1, LE1 (R170). -/
def Core.loopReg (c : Core) (j : Nat) : BitVec 16 :=
  match j with
  | 0 => c.loop0.lc
  | 1 => c.loop0.ls
  | 2 => c.loop0.le
  | 3 => c.loop1.lc
  | 4 => c.loop1.ls
  | _ => c.loop1.le

/-- A word of a move channel's block (R159, R170). -/
def Chan.word (c : Chan) (o : Nat) : Nat :=
  match o with
  | 0x00 => c.xs.toNat % 2 ^ 32
  | 0x04 => c.xs.toNat / 2 ^ 32
  | 0x08 => c.xd.toNat % 2 ^ 32
  | 0x0C => c.xd.toNat / 2 ^ 32
  | 0x10 => c.xc.toNat
  | 0x14 => c.xg.toNat
  | 0x18 => c.xb.toNat
  | _ => c.status.toNat * 2 ^ 16 + c.queue.length * 2 ^ 8 + c.state.toNat

/-- A word of a core's page (R170, R171). PC is stated in PAUSED and HALTED only: free elsewhere. -/
def State.corWord (s : State) (k off : Nat) : Option Nat :=
  let c := s.core k
  if off = 0x40 then some (c.bootStatus.toNat * 2 ^ 24 + c.trap.toNat * 2 ^ 8 + c.run.code)
  else if off = 0x44 then
    let pc := if c.run = .paused ∨ c.run = .halted then c.pc.toNat else s.free 0 % 2 ^ 16
    some (c.trapPc.toNat * 2 ^ 16 + pc)
  else if off = 0x48 then some ((if c.async then 8 else 0) + c.unit.toNat)
  else if off = 0x54 then
    some (c.mqueue.length + ((List.range 4).map fun ch => (c.getChan ch).queue.length * 2 ^ (4 + 4 * ch)).foldl (· + ·) 0)
  else if off < 0x100 then none
  else if !s.coreOpen k then some 0
  else if off < 0x140 then some (c.sr (BitVec.ofNat 4 ((off - 0x100) / 4))).toNat
  else if off < 0x180 then some (c.loopReg ((off - 0x140) / 4)).toNat
  else if off < 0x200 then some ((c.getChan ((off - 0x180) / 0x20)).word ((off - 0x180) % 0x20))
  else if off < 0x220 then some (natBits c.quant.lanes.toNat ((off - 0x200) * 8) 32)
  else if off = 0x220 then some c.lfsr.toNat
  else if off = 0x224 then some ((if c.invalid then 2 else 0) + (if c.sat then 1 else 0))
  else
    let v := c.getVreg (s.rd (Reg.COR_VSEL_REG k))
    some (natBits v.data.toNat ((off - 0x400) * 8) 32)

/-- Slices of a partition. -/
def State.sliceCount (s : State) (p : Nat) : Nat :=
  ((List.range 256).filter fun k => match s.slice k with
    | some x => x.part = p
    | none => false).length

def PartState.code : PartState → Nat
  | .free => 0
  | .creating => 1
  | .active => 2
  | .destroying => 3

/-- A word of a partition's block (R331). -/
def State.partWord (s : State) (p o : Nat) : Nat :=
  let x := s.part p
  match o with
  | 0x00 => s.sliceCount p * 2 ^ 16 + x.link * 32 + (if x.strict then 16 else 0) + x.state.code
  | 0x04 => natBits x.hbm.toNat 0 32
  | 0x08 => natBits x.hbm.toNat 32 32
  | 0x0C => natBits x.hbm.toNat 64 16
  | 0x10 => x.t2.toNat
  | 0x14 => x.sdtCount * 2 ^ 16 + x.sdtBase
  | 0x18 => x.subqCount * 2 ^ 16 + x.subqBase
  | 0x1C => x.keyCount * 2 ^ 16 + x.keyBase
  | 0x20 => x.sramCount * 2 ^ 8 + x.sramBase
  | _ => x.pcap.toNat * 2 ^ 16 + x.weight.toNat

/-- Eight owner nibbles, the first lowest. -/
def nibbles (f : Nat → Nat) : Nat := ((List.range 8).map fun j => f j * 2 ^ (4 * j)).foldl (· + ·) 0

/-- A word of a HUB page's partition table (R331). DEDUCED (log 26). -/
def State.hubWord (s : State) (h off : Nat) : Option Nat :=
  if 0x100 ≤ off ∧ off < 0x400 then some (s.partWord ((off - 0x100) / 0x40) ((off - 0x100) % 0x40))
  else if 0xE00 ≤ off ∧ off < 0xE50 then some (nibbles fun j => s.clusterPart ((off - 0xE00) / 4 * 8 + j))
  else if 0xE80 ≤ off ∧ off < 0xF00 then some (nibbles fun j => s.granulePart h ((off - 0xE80) / 4 * 8 + j))
  else none

/-- A word of a CLU page that shows the cluster (R205). -/
def State.cluWord (s : State) (gc off : Nat) : Option Nat :=
  let c := s.cluster gc
  if off = 0x100 then some (c.wq.length * 2 ^ 8 + s.rd (Reg.CLU_WQ_ELIG gc))
  else if off = 0x104 then
    some ((if c.pauseReq then 4 else 0) + (if c.pauseDone && s.pauseHolds gc then 2 else 0) + s.rd (Reg.CLU_PAUSE_REQ gc))
  else if off = 0x10C then some (s.rd (Reg.CLU_WATCH_PEAK gc) * 2 ^ 16 + c.watches.length)
  else if off = 0x110 then some (c.lines.length + (match c.pgRun with
    | some r => r.lines.length
    | none => 0))
  else none

/-- A word of a PCE page that shows the link (R299, R301, R310). A reset of a function is over with its command, so
FLR_BUSY reads 0. -/
def State.pceWord (s : State) (l off : Nat) : Option Nat :=
  let k := s.link l
  let bits (f : Fn → Bool) : Nat := ((List.range 4).map fun i => if f (k.getFns i) then 2 ^ i else 0).foldl (· + ·) 0
  if off = 0x4C then some ((k.tags.filter (·.quar)).length * 2 ^ 16 + (k.tags.filter (!·.quar)).length)
  else if off = 0x60 then some (bits (·.d3) * 16 + bits (·.bme))
  else none

/-- The word at a page offset as a read finds it; the block is not OFF, FENCED or RESETTING, or the word is of the header.
How many flits a link has retried is its own: free (R502). -/
def State.pageWord (s : State) (p : Page) (off : Nat) : BitVec 32 :=
  let shown := if off < 0x40 then none else match p.blk with
    | .cor => s.corWord p.inst off
    | .hub => s.hubWord p.inst off
    | .clu => s.cluWord p.inst off
    | .pce => s.pceWord p.inst off
    | .d2d => if off = 0x4C ∨ off = 0x50 then some (s.free off) else none
    | _ => none
  match shown with
  | some v => BitVec.ofNat 32 v
  | none => s.reg (p.base + off)

/-! ## Accesses to BAR0 and the fabric register space (R41, R43, R44, R59) -/

/-- An access of this place has a width and an alignment that registers take (R43). The Directory ROM may be read in bytes
and halfwords. -/
def aligned (a n : Nat) (write : Bool) : Bool :=
  (n = 4 || n = 8 || (a < 0x10000 && !write && (n = 1 || n = 2))) && a % n == 0

/-- A word that is implemented: one of the Directory ROM, or a register. -/
def wordThere (a : Nat) : Bool := a < 0x10000 || (wordAt a).isSome

/-- Every word of an access is to an implemented location (R43). -/
def implemented (a n : Nat) (write : Bool) : Bool := aligned a n write && wordThere a && (n ≠ 8 || wordThere (a + 4))

/-- Some word of an access is to an implemented location: a 64-bit access is two of 32 bits (R43). -/
def reachesWord (a n : Nat) (write : Bool) : Bool := aligned a n write && (wordThere a || (n = 8 && wordThere (a + 4)))

/-- What a requester is in a bus-error record: a host link by its number, any other requester by its node. -/
def State.whoOf (s : State) (r : Req) : Nat :=
  match r with
  | .host l => l
  | r => 0x100 + s.nodeOf r

/-- The page that logs an access to an unimplemented location: the page that holds it, else the HUB page of the hub that
serves it (R44, R584). For an offset of a compute-die region outside its pages the rules name no hub: the one that serves the
requester's ROM is taken. DESIGN CHOICE (log 89). -/
def State.logPage (s : State) (r : Req) (a : Nat) : Page :=
  match pageAt a with
  | some p => p
  | none => ⟨.hub, (regionHub a).getD (s.servingHub r)⟩

/-- An access of n bytes to an unimplemented location is logged as a bus error, with its offset of BAR0 (R40, R44, R523). -/
def State.logUnimplemented (s : State) (r : Req) (a n : Nat) : State := s.busErr (s.logPage r a) a (s.whoOf r) n

/-- What a requester gets for a bus error (R40, R44): the host a Completer Abort for a read and nothing for a write, a
firmware processor an access fault, any other requester BAD_PARAM. -/
def State.busFault (s : State) (r : Req) (write : Bool) : State :=
  match r with
  | .host l => if write then s else s.out (.ca l)
  | .fwp h i => s.accessFault (fwpKey h i)
  | r => s.out (.reply r St.badParam [] false)

/-- An access to an unimplemented location (R40, R44). -/
def State.unimplemented (s : State) (r : Req) (a n : Nat) (write : Bool) : State := (s.logUnimplemented r a n).busFault r write

/-- A word as a read returns it; zero for a block-specific word of a page in OFF (R59). -/
def State.readWord (s : State) (p : Page) (off : Nat) : BitVec 32 :=
  if 0x40 ≤ off ∧ s.st p = PS.off then 0#32 else s.pageWord p off

/-- A read of n bytes of an implemented location. -/
def State.readRegs (s : State) (a n : Nat) : Bytes :=
  if a < 0x10000 then romRead a n
  else ((List.range (n / 4)).filterMap fun i => wordAt (a + 4 * i)).flatMap fun w => leBytes 4 (s.readWord w.1 w.2).toNat

end Sys2Proof.Machine
end

