-- ==== Sys2Proof/Machine/Registers.lean ====
section
/-! DEFINITION. Writes of registers, accesses to unimplemented locations, and requests to memory and their replies
(02_register_pages.md R43, R44, R54, R59; 07_memory_tiers.md R218, R219; 19_faults_and_spares.md R505, R506). -/
namespace Sys2Proof.Machine

/-! ## Writes of single words (R10, R54, R59) -/

/-- The state an own command of a register leaves. -/
def Res.stateOr (r : Res) (s : State) : State :=
  match r with
  | .next t => t
  | _ => s

/-- A write by access type: RW bits follow it, W1C and W1S bits as they say, RWL bits in DISABLED alone; a refused part is
recorded (R10, R54). DEDUCED (log 25). -/
def State.splitWrite (s : State) (p : Page) (off : Nat) (row : WordRow) (v : BitVec 32) : State :=
  let a := p.base + off
  let old := s.reg a
  let keep := old &&& ~~~ (row.rw ||| row.rwl ||| row.w1c ||| row.w1s)
  let open_ : Bool := s.st p = PS.disabled
  let new := keep ||| (v &&& row.rw) ||| (old &&& ~~~v &&& row.w1c) ||| ((old ||| v) &&& row.w1s) |||
    ((if open_ then v else old) &&& row.rwl)
  let s := s.setReg a new
  if !open_ && (v ^^^ old) &&& row.rwl != 0#32 then s.ignoreWrite p off else s

/-- The loop register of an index is written. -/
def Core.setLoopReg (c : Core) (j : Nat) (v : BitVec 16) : Core :=
  match j with
  | 0 => { c with loop0 := { c.loop0 with lc := v } }
  | 1 => { c with loop0 := { c.loop0 with ls := v } }
  | 2 => { c with loop0 := { c.loop0 with le := v } }
  | 3 => { c with loop1 := { c.loop1 with lc := v } }
  | 4 => { c with loop1 := { c.loop1 with ls := v } }
  | _ => { c with loop1 := { c.loop1 with le := v } }

/-- A word of a move channel's block is written; XSTAT is read only. -/
def Chan.setWord (c : Chan) (o : Nat) (v : BitVec 32) : Chan :=
  let lo (x : BitVec 48) : BitVec 48 := BitVec.ofNat 48 (x.toNat / 2 ^ 32 * 2 ^ 32 + v.toNat)
  let hi (x : BitVec 48) : BitVec 48 := BitVec.ofNat 48 (v.toNat % 2 ^ 16 * 2 ^ 32 + x.toNat % 2 ^ 32)
  match o with
  | 0x00 => { c with xs := lo c.xs }
  | 0x04 => { c with xs := hi c.xs }
  | 0x08 => { c with xd := lo c.xd }
  | 0x0C => { c with xd := hi c.xd }
  | 0x10 => { c with xc := v }
  | 0x14 => { c with xg := v }
  | 0x18 => { c with xb := v }
  | _ => c

/-- A reserved value of the quantiser state (R133). -/
def quantReserved (l : BitVec 256) : Bool :=
  2 ≤ natBits l.toNat (224 + 6) 2 || natBits l.toNat 224 4 = 1

/-- A word of a core at 0x100 and above is written (R170, R171): s0 takes nothing, a lane of the quantiser clears QTRIP
(R93), a seed of 0 is loaded as 1 (R89), a reserved quantiser value is refused. DEDUCED (log 16). -/
def State.corWrite (s : State) (k off : Nat) (v : BitVec 32) : State :=
  let c := s.core k
  let p : Page := ⟨.cor, k⟩
  if !s.coreOpen k then s.ignoreWrite p off
  else if off < 0x140 then s.setCore k (c.setSr (BitVec.ofNat 4 ((off - 0x100) / 4)) (BitVec.ofNat 16 v.toNat))
  else if off < 0x180 then s.setCore k (c.setLoopReg ((off - 0x140) / 4) (BitVec.ofNat 16 v.toNat))
  else if off < 0x200 then s.modChan k ((off - 0x180) / 0x20) fun x => x.setWord ((off - 0x180) % 0x20) v
  else if off < 0x220 then
    let i := (off - 0x200) / 4
    let row := match p.row off with
      | some r => r.rw
      | none => 0#32
    let old := c.quant.lanes.toNat
    let lane := ((v &&& row).toNat) * 2 ^ (32 * i)
    let l := BitVec.ofNat 256 (old - natBits old (32 * i) 32 * 2 ^ (32 * i) + lane)
    if quantReserved l then s.ignoreWrite p off else s.setCore k { c with quant := Quant.ofLanes l }
  else if off = 0x220 then s.setCore k { c with lfsr := if v = 0#32 then 1#32 else v }
  else if off = 0x224 then s.setCore k { c with sat := v.getLsbD 0, invalid := v.getLsbD 1 }
  else
    let r := s.rd (Reg.COR_VSEL_REG k)
    let x := c.getVreg r
    let i := (off - 0x400) / 4
    let old := x.data.toNat
    let data := BitVec.ofNat 1024 (old - natBits old (32 * i) 32 * 2 ^ (32 * i) + v.toNat * 2 ^ (32 * i))
    s.setCore k (c.setVreg r { x with data := data })

/-- CTRL is written (R52, R54, R56). -/
def State.ctrlWrite (s : State) (p : Page) (v : BitVec 32) : State :=
  if v.getLsbD 1 then s.ctrlDrain p else if v.getLsbD 0 then s.ctrlEnable p else s.ctrlDisable p

/-- BRU_STEP is written (R483, R484). -/
def State.stepWrite (s : State) (n : Nat) (aux : RegAux) : State :=
  match n, aux with
  | 2, _ => Res.stateOr (execTrainD2d s) s
  | 3, _ => Res.stateOr (execTrainHbm s) s
  | 4, _ => Res.stateOr (execTrainLpddr s) s
  | 5, _ => Res.stateOr (execTrainEth s) s
  | 6, _ => Res.stateOr (execTrainSsd s) s
  | 7, .found f => Res.stateOr (execSelfTest f s) s
  | 8, _ => Res.stateOr (execBuildMap s) s
  | 9, _ => Res.stateOr (execMemFill s) s
  | 10, _ => Res.stateOr (execLoadFw s) s
  | 11, _ => Res.stateOr (execStart s) s
  | _, _ => s.ignoreWrite bruPage 0x40

/-- MBX_CTL.GO is written 1 (R459). DEDUCED (log 27). -/
def State.goWrite (s : State) (k : Nat) (r : Req) (aux : RegAux) : State :=
  let link : Fin 2 := match r with
    | .host l => l
    | _ => 0
  match aux with
  | .message m => Res.stateOr (execMbxGo (Fin.ofNat 2 (k / 64)) (Fin.ofNat 64 (k % 64)) link m s) s
  | _ => s

/-- A write that needs what its command reads outside the device, and does not carry it. DEDUCED (log 4). -/
def auxMissing (p : Page) (off : Nat) (v : BitVec 32) (aux : RegAux) : Bool :=
  match p.blk with
  | .mbx => off = 0x48 && v.getLsbD 0 && (match aux with
      | .message _ => false
      | _ => true)
  | .bru => off = 0x40 && v.toNat % 16 = 7 && (match aux with
      | .found _ => false
      | _ => true)
  | _ => false

/-- A write of a PWR word reaches both hubs' pages, and a requested point takes hold (R557, R560, R568). -/
def State.pwrWrite (s : State) (off : Nat) (row : WordRow) (v : BitVec 32) : State :=
  ((s.splitWrite ⟨.pwr, 0⟩ off row v).splitWrite ⟨.pwr, 1⟩ off row v).updatePoints

/-- A block-specific word of a page that serves its registers is written: by the operation of its own that the word has, or
by access type. DEDUCED (log 4). -/
def State.blockWrite (s : State) (r : Req) (p : Page) (off : Nat) (row : WordRow) (v : BitVec 32) (aux : RegAux) : State :=
  let plain := s.splitWrite p off row v
  let b0 := v.getLsbD 0
  let b1 := v.getLsbD 1
  match p.blk with
  | .cor => if 0x100 ≤ off then s.corWrite p.inst off v else plain
  | .bru => if off = 0x40 then s.stepWrite (v.toNat % 16) aux else plain
  | .pce =>
    let plain := if off = 0x44 then plain.updateCto p.inst else plain
    let t := if off = 0x70 ∨ 0x800 ≤ off then plain.updateInta p.inst else plain
    if 0x800 ≤ off ∧ off < 0xC00 then t.flushPba p.inst 0 else t
  | .prp =>
    if off = 0x44 then
      let s := if b0 then Res.stateOr (execPrpCtlEject (Fin.ofNat 16 p.inst) s) s else s
      if b1 then Res.stateOr (execPrpCtlPower (Fin.ofNat 16 p.inst) s) s else s
    else plain
  | .eth => if off = 0x44 then (if b0 then Res.stateOr (execEthRetrain (Fin.ofNat 8 p.inst) s) s else s) else plain
  | .cls => if off = 0x58 then (if b0 then Res.stateOr (execClsFence (Fin.ofNat 2 p.inst) s) s else s) else plain
  | .tsh =>
    if 0x100 ≤ off ∧ off < 0x300 ∧ off % 0x80 = 0x0C then
      let port := Fin.ofNat 8 (p.inst * 4 + (off - 0x100) / 0x80)
      let s := if b0 then Res.stateOr (execTshCommitGcl port s) s else s
      if b1 then Res.stateOr (execTshCommitWmap port s) s else s
    else plain
  | .tel => if off = 0x60 then (if b0 then Res.stateOr (execTelPairGo (Fin.ofNat 2 p.inst) s) s else s) else plain
  | .pwr => s.pwrWrite off row v
  | .dis =>
    if off = 0x40 then (List.range 12).foldl (fun s part => s.syncPause p.inst part) plain else plain
  | .d2d =>
    if off = 0x48 then
      let page := Fin.ofNat 42 p.inst
      let s := if b0 then Res.stateOr (execD2dRetrain page 0 s) s else s
      if b1 then Res.stateOr (execD2dRetrain page 1 s) s else s
    else plain
  | .fwp =>
    if off = 0x44 then
      (if b0 then Res.stateOr (execFwpCtlRestart (Fin.ofNat 2 (p.inst / 16)) (Fin.ofNat 16 (p.inst % 16)) s) s else s)
    else if off = 0x60 ∨ off = 0x68 then Res.stateOr (execFwpHb (Fin.ofNat 2 ((off - 0x60) / 8)) v s) s
    else plain
  | .mbx =>
    if off = 0x48 then (if b0 then s.goWrite p.inst r aux else s)
    else if (off = 0x40 ∨ off = 0x44) ∧ s.on (Reg.MBX_STAT_BUSY p.inst) then
      (s.ignoreWrite p off).partner p 4 (s.rd (Reg.MBX_STAT_LINK p.inst)) 0x20 []
    else plain
  | .die =>
    if off = 0x41C then s.testCtlWrite (.hmc (Fin.ofNat 20 (2 * p.inst))) v
    else if off = 0x61C then s.testCtlWrite (.hmc (Fin.ofNat 20 (2 * p.inst + 1))) v
    else plain
  | .hub => if off = 0x800 then s.testCtlWrite (.t2 (Fin.ofNat 2 p.inst)) v else plain
  | .noc =>
    -- Lamplighter alone writes the core map (R528)
    match r with
    | .fwp h i => if 0x100 ≤ off ∧ fwpKey h i = s.lamplighter then s.setReg (p.base + off) (v &&& 0x9F#32) else plain
    | _ => plain
  | _ => plain

/-- A word of a page is written: the header's words by the page itself, block-specific ones refused in OFF (R52, R59). -/
def State.writeWord (s : State) (r : Req) (p : Page) (off : Nat) (v : BitVec 32) (aux : RegAux) : State :=
  match p.row off with
  | none => s
  | some row =>
    if off = 0x08 then s.ctrlWrite p v
    else if off = 0x10 then s.crcRef p v
    else if off = 0x18 then s.errStat p v
    else if off = 0x24 then s.bucketCfg p v
    else if off < 0x40 then s.splitWrite p off row v
    else if s.st p = PS.off then s.ignoreWrite p off
    else s.blockWrite r p off row v aux

/-- The function through which a host request comes takes it (R305, R307): PF0 for one of the host, PF1 for one through the
aperture of a slice. -/
def State.hostServes (s : State) (r : Req) : Bool :=
  match r with
  | .host l => s.fnServes l 0
  | .slice k => match s.slice k with
    | some x => s.fnServes (s.partHub x.part) 1
    | none => true
  | _ => true

/-- A host request that its function does not take (R307, R308). -/
def State.hostLost (s : State) (r : Req) (posted : Bool) : State :=
  match r with
  | .host l => s.notServed l 0 posted
  | .slice k => match s.slice k with
    | some x => s.notServed (s.partHub x.part) 1 posted
    | none => s
  | _ => s

/-- The answer to a requester of the fabric; a host write is posted. -/
def State.ack (s : State) (r : Req) (st : BitVec 8) : State :=
  match r with
  | .host _ => s
  | r => s.out (.reply r st [] false)

/-- An access that is refused before it is performed (R14, R40): counted where a unit answers UNIT_ABSENT, and answered; a
firmware processor takes a bus error as an access fault. -/
def State.refuseReg (s : State) (r : Req) (a : Nat) (st : BitVec 8) : State :=
  let s := s.countAbsent (regBase + a) st
  match r with
  | .fwp h i => if st = St.badParam then s.accessFault (fwpKey h i) else s.ack r st
  | r => s.ack r st

/-- One word is written for a requester: a register, a word of the Directory ROM, which ignores it, or an unimplemented
location, which is logged (R43, R44, R54). The flag stays true while every word has been implemented. -/
def State.regWrite1 (s : State) (r : Req) (a : Nat) (v : BitVec 32) (aux : RegAux) : State × Bool :=
  match wordAt a with
  | some (p, off) => (s.writeWord r p off v aux, true)
  | none => if wordThere a then (s, true) else (s.logUnimplemented r a 4, false)

/-- REGISTER_WRITE (R10, R43, R44, R54, R59): a requester writes a register, or two that lie together: each as an access of
its own, the lower first, so that one of them may be to an unimplemented location. DEDUCED (log 25). -/
def execRegisterWrite (r : Req) (a : BitVec 26) (v : BitVec 32) (second : Option (BitVec 32)) (aux : RegAux) (s : State) : Res :=
  let o := a.toNat
  let n := if second.isSome then 8 else 4
  let missing : Bool := match wordAt o with
    | some (p, off) => auxMissing p off v aux
    | none => false
  if missing then .refused (.noSuchItem "what the command of the register reads")
  else
    let st := s.access r (regBase + o) n
    if !s.hostServes r then .next (s.hostLost r true)
    else if st ≠ St.ok then .next (s.refuseReg r o st)
    else if !aligned o n true then .next (s.unimplemented r o n true)
    else
      let x := s.regWrite1 r o v aux
      let y := match second with
        | some w => x.1.regWrite1 r (o + 4) w aux
        | none => (x.1, true)
      .next (if x.2 && y.2 then y.1.ack r St.ok else y.1.busFault r true)

/-! ## Unimplemented locations (R40, R43, R44, R288) -/

/-- An access of a host to a location of PF1, PF2 or PF3 that is not implemented (R44, R288): logged by its hub, and a read
ends with Completer Abort. -/
def State.fnUnimplemented (s : State) (l off n : Nat) (write : Bool) : State :=
  let s := s.busErr ⟨.hub, l⟩ off l n
  if write then s else s.out (.ca l)

/-- UNIMPLEMENTED_ACCESS (R43, R44, R288, R403, R584): an access of n bytes to a location that is not implemented, or of a
width or alignment that no location takes. -/
def execUnimplementedAccess (x : RegPlace) (n : Nat) (write : Bool) (s : State) : Res :=
  match x with
  | .pages r a =>
    if reachesWord a.toNat n write then .refused (.noSuchItem "unimplemented location")
    else if !s.hostServes r then .next (s.hostLost r write)
    else
      let st := s.access r (regBase + a.toNat) n
      if st = St.ok ∨ st = St.badParam then .next (s.unimplemented r a.toNat n write)
      else .next (s.refuseReg r a.toNat st)
  | .function link fn off =>
    if fn = 0 ∨ (s.fnRead link fn off n).isSome then .refused (.noSuchItem "unimplemented location")
    else if !s.fnServes link fn then .next (s.notServed link fn write)
    else .next (s.fnUnimplemented link off n write)

/-! ## Requests to memory and their replies (R218, R219, R505, R506) -/

/-- The page of the unit that a requester belongs to. -/
def reqPage (r : Req) : Page :=
  match r with
  | .core gc slot _ => ⟨.cor, slotKey gc slot⟩
  | .gather gc => ⟨.clu, gc⟩
  | .hub h e _ => match e with
    | .dis => ⟨.dis, h⟩
    | .job => ⟨.pce, h⟩
    | .mov => ⟨.mov, h⟩
    | .pfx => ⟨.pfx, h⟩
    | .sdt => ⟨.sdt, h⟩
    | .storage => ⟨.nvc, h⟩
    | .nic => ⟨.nic, h⟩
    | .lantern => ⟨.snp, h⟩
    | .firmware => ⟨.hub, h⟩
  | .fwp h i => ⟨.fwp, h.val * 16 + i.val⟩
  | .host l => ⟨.pce, l⟩
  | .slice _ => ⟨.pce, 0⟩

/-- The page of a requester; a slice's is its link's endpoint. -/
def State.pageOf (s : State) (r : Req) : Page :=
  match r with
  | .slice k => match s.slice k with
    | some x => ⟨.pce, s.partHub x.part⟩
    | none => reqPage r
  | r => reqPage r

/-- The epoch that a requester's requests carry (R506). -/
def State.epochOf (s : State) (r : Req) : BitVec 8 := BitVec.ofNat 8 (s.rd (Reg.STATE_EPOCH (s.pageOf r)))

/-- A reply sets out for its requester with the epoch of the request (R506). -/
def State.reply (s : State) (r : Req) (a : Nat) (st : BitVec 8) (data : Bytes) (poison : Bool) : State :=
  { s with replies := s.replies ++ [⟨r, s.epochOf r, a, st, data, poison⟩] }

/-- Words of a beacon's slot (R179); BCN_ADD reads zero. -/
def State.slotWord (s : State) (id off : Nat) : Nat :=
  match off with
  | 0x00 => (s.beacon id).toNat
  | 0x08 => s.clusterPart (id / 128)
  | 0x0C => ((s.cluster (id / 128)).watches.filter fun w => w.bid = id).length
  | _ => 0

/-- What a read of a beacon's slot returns: a word of it, 32 bits wide and aligned, or a bus error (R40, R179, R180). -/
def State.slotRead (s : State) (id off n : Nat) : BitVec 8 × Bytes :=
  if n = 4 ∧ off % 4 = 0 ∧ off < 0x10 then (St.ok, leBytes 4 (s.slotWord id off)) else (St.badParam, [])

/-- A request that is refused is answered; a bus error of a firmware processor is an access fault (R40). -/
def State.refuse (s : State) (r : Req) (a : Nat) (st : BitVec 8) : State :=
  match r with
  | .fwp h i => if st = St.badParam then s.accessFault (fwpKey h i) else s.reply r a st [] false
  | r => s.reply r a st [] false

/-- A request that is refused before it is performed is counted where the unit is absent, and answered (R40, R505). -/
def State.turnAway (s : State) (r : Req) (a : Nat) (st : BitVec 8) : State := (s.countAbsent a st).refuse r a st

/-- A read of a host-link window leaves on that link for a slice, or for firmware with no PASID; one whose tag the function may
not take waits (R39, R299, R324). DESIGN CHOICE (log 28). -/
def State.hostRequest (s : State) (r : Req) (l a n slice tag : Nat) : State :=
  let fw : Bool := match r with
    | .fwp _ _ => true
    | _ => false
  let st := s.access r a n
  let st := if st = St.ok ∧ !fw then s.lineSlice r slice else st
  if st ≠ St.ok then s.reply r a st [] false
  else
    let w := s.sender l 0 (if fw then none else some slice)
    if !s.tagFree l w.fn tag then s
    else
      let t : Tag :=
        { tag := tag, fn := w.fn, rid := w.rid, pasid := w.pasid, req := .read r a n, quar := false, flr := false,
          cto := s.rd (Reg.PCE_CTO l) }
      (s.modLink l fun k => { k with tags := k.tags ++ [t] }).atsUse w (a % 2 ^ 46)

/-- A read of the range of one requester (R40, R43, R44, R180, R218). Reading a register has no side effect (R11). `upset` symbols of the first
unit are in error; `parity`: the line cipher of a tier-2 unit meets a parity error, and the read returns poison (R437);
`slice` and `tag` are what a read of a host-link window leaves with. -/
def State.memRead (s : State) (r : Req) (a n upset : Nat) (parity : Bool) (slice tag : Nat) : State :=
  if !s.hostServes r then s.hostLost r false
  else match s.target a n with
  | .host l => s.hostRequest r l a n slice tag
  | t =>
    let st := s.access r a n
    if st ≠ St.ok then s.turnAway r a st
    else match t with
      | .reg o =>
        if !aligned o n false then s.unimplemented r o n false
        else if implemented o n false then s.reply r a St.ok (s.readRegs o n) false
        else
          let s := if wordThere o then s else s.logUnimplemented r o (min n 4)
          let s := if n = 8 ∧ !wordThere (o + 4) then s.logUnimplemented r (o + 4) 4 else s
          s.busFault r false
      | .beacon id off =>
        let x := s.slotRead id off n
        if x.1 = St.ok then s.reply r a x.1 x.2 false else s.turnAway r a x.1
      | _ =>
        if a % 64 + n ≤ 64 then
          let x := s.loadAt a n upset
          let tier2 : Bool := match t with
            | .t2 _ => true
            | _ => false
          if parity && tier2 then
            (x.1.reply r a x.2.status ((List.range n).map fun i => BitVec.ofNat 8 (x.1.free i)) true).draw
          else x.1.reply r a x.2.status x.2.data x.2.poison
        else
          let x := s.readMem r a n
          if x.2.status = St.ok then x.1.reply r a x.2.status x.2.data x.2.poison else x.1.refuse r a x.2.status

/-- A read of the host of BAR0 of a function: of PF0 one of the register space, of the others what `fnRead` says (R41, R288). -/
def State.fnAccess (s : State) (l : Fin 2) (fn off n : Nat) : State :=
  if fn = 0 then s.memRead (.host l) (regBase + off) n 0 false 0 0
  else if !s.fnServes l fn then s.notServed l fn false
  else match s.fnRead l fn off n with
    | some b => (s.reply (.host l) off St.ok b false).draw
    | none => s.fnUnimplemented l off n false

/-- MEMORY_READ (R38-R40, R212, R216-R218, R266, R269, R284, R285, R288, R437): a read reaches its home, is decoded and answered. An
uncorrectable error in the always-on SRAM is fatal (R504). Configuration requests are answered in D3hot too, but not before
ROM_CHECK has finished (R307, R480). -/
def execMemoryRead (m : MemAt) (upset : Nat) (parity : Bool) (slice : Fin 256) (tag : Fin 16384) (s : State) : Res :=
  match m with
  | .fabric r a more => .next (s.memRead r a.toNat (more.val + 1) upset parity slice tag)
  | .alwaysOn w =>
    let d := s.decodeUnit (alwaysOnKey (8 * w)) upset false
    .next (if d.poison then d.state.fatal else d.state)
  | .function link fn off more => .next (s.fnAccess link fn off (more.val + 1))
  | .config link fn field =>
    .next (if (s.link link).up && (s.link link).configReady then s.out (.config link fn (s.cfgRead link fn field)) else s)

/-- Runs of the 16-byte units of a line that a mask selects, with the marks of the units: units next to each other under one
mark make one run (R219, R267). -/
def maskRuns (mask marks : BitVec 4) (data : Bytes) : List Run :=
  let d := (data ++ List.replicate (64 - data.length) 0#8).take 64
  let some_ (m : Bool) : List Run :=
    (enabledRuns 0 d ((List.range 64).map fun i => mask.getLsbD (i / 16) && (marks.getLsbD (i / 16) == m))).map fun e =>
      (e.1, e.2, m)
  some_ false ++ some_ true

/-- MEMORY_WRITE (R38-R40, R216-R219, R267, R268, R536): the units of an aligned line that the mask selects are written at
their home, each with its poison mark, and the write is acknowledged; one that is held is acknowledged when it is performed. A line of a
host-link window leaves on that link; one that gets no translation is NOT_PERMITTED (R39, R303, R327, R328). -/
def execMemoryWrite (r : Req) (line : BitVec 42) (mask : BitVec 4) (data : List (BitVec 8)) (marks : BitVec 4)
    (slice : Fin 256) (host : HostWrite) (s : State) : Res :=
  let a := line.toNat * 64
  let runs := maskRuns mask marks data
  if !s.hostServes r then .next (s.hostLost r true)
  else match s.target a 64 with
  | .host l =>
    let fw : Bool := match r with
      | .fwp _ _ => true
      | _ => false
    let st := s.access r a 64
    let st := if st = St.ok ∧ !fw then s.lineSlice r slice else st
    if st ≠ St.ok then .next (s.reply r a st [] false)
    else
      let who : Option Nat := if fw then none else some slice.val
      let x := runs.foldl (fun s e => s.hostPut l who ((a + e.1) % 2 ^ 46) e.2.1 e.2.2 host) s
      .next (x.reply r a (s.putStatus (s.sender l 0 who) host) [] false)
  | .reg o =>
    -- no register takes a width of a line (R43)
    let st := s.access r a 64
    .next (if st = St.ok then s.unimplemented r o 64 true else s.turnAway r a st)
  | .beacon _ _ => .next (s.turnAway r a (if s.access r a 64 = St.ok then St.badParam else s.access r a 64))
  | _ =>
    let x := s.writeRuns r (some (s.epochOf r)) a runs
    .next (if x.held then x.state else x.state.refuse r a x.status)

/-- REPLY_RX (R506): the oldest reply under way to a requester reaches it, or is dropped when its unit is FENCED or RESETTING
or has another epoch. The hubs have no NOC page to count in. -/
def execReplyRx (r : Req) (s : State) : Res :=
  match s.replies.find? (·.req = r) with
  | none => .next s
  | some x =>
    let p := s.pageOf r
    let s := { s with replies := s.replies.erase x }
    if s.st p = PS.fenced ∨ s.st p = PS.resetting ∨ s.rd (Reg.STATE_EPOCH p) ≠ x.epoch.toNat then
      .next (if p.isHub then s else s.bump (Reg.NOC_STALE p.dieNum))
    else .next (s.out (.reply r x.status x.data x.poison))

end Sys2Proof.Machine
end

