-- ==== Sys2Proof/Machine/Bundle.lean ====
section
/-! DEFINITION. The encoding of syllables (R138-R166): what a word of the instruction store says, and what the bundle
rules read from a syllable. -/
namespace Sys2Proof.Machine

/-- A field of a syllable. -/
def fieldOf (w : BitVec 32) (lo len : Nat) : BitVec len := w.extractLsb' lo len

/-- A syllable when the fields its format leaves unused are zero, else an illegal one (R152, R156, R160, R165).
DEDUCED (log 81). -/
def unusedZero (unit : BitVec 3) (zero : Bool) (y : Syl) : Syl := if zero then y else .illegal unit

/-- S syllables (R152, R153). -/
def decodeS (op : Nat) (w : BitVec 32) : Syl :=
  let rd := fieldOf w 18 4
  let ra := fieldOf w 14 4
  let rb := fieldOf w 10 4
  let need := unusedZero 0#3
  let sr (o : AluOp) : Syl := need (fieldOf w 0 10 = 0) (.alu o rd ra rb)
  let si (o : AluOp) : Syl := .alui o rd ra (fieldOf w 0 14)
  let ld (k : LoadKind) : Syl := .load k rd ra (fieldOf w 4 10) (fieldOf w 0 4)
  let st (h : Bool) : Syl := .store h rd ra (fieldOf w 4 10) (fieldOf w 0 4)
  let br (c : Cond) : Syl := need (fieldOf w 12 2 = 0) (.branch c rd ra (fieldOf w 0 12))
  match op with
  | 0x00 => need (fieldOf w 0 22 = 0) .nop
  | 0x01 => sr .add
  | 0x02 => sr .sub
  | 0x03 => sr .and
  | 0x04 => sr .or
  | 0x05 => sr .xor
  | 0x06 => sr .shl
  | 0x07 => sr .shr
  | 0x08 => sr .sra
  | 0x09 => sr .mul
  | 0x0A => sr .mulhu
  | 0x0B => sr .slt
  | 0x0C => sr .sltu
  | 0x10 => si .add
  | 0x11 => si .and
  | 0x12 => si .or
  | 0x13 => si .xor
  | 0x14 => si .shl
  | 0x15 => si .shr
  | 0x16 => si .sra
  | 0x17 => need (fieldOf w 16 2 = 0) (.li rd (fieldOf w 0 16))
  | 0x18 => ld .ldb
  | 0x19 => ld .ldbu
  | 0x1A => ld .ldh
  | 0x1B => st false
  | 0x1C => st true
  | 0x20 => br .eq
  | 0x21 => br .ne
  | 0x22 => br .lt
  | 0x23 => br .ge
  | 0x24 => br .ltu
  | 0x25 => br .geu
  | 0x26 => need (rd = 0 && fieldOf w 16 2 = 0) (.jump (fieldOf w 0 16))
  | 0x27 => need (fieldOf w 16 2 = 0) (.jal rd (fieldOf w 0 16))
  | 0x28 => need (rd = 0 && fieldOf w 0 14 = 0) (.jr ra)
  | 0x29 => need (fieldOf w 12 5 = 0) (.loop (fieldOf w 21 1) (fieldOf w 17 4) (fieldOf w 0 12))
  | 0x2A => .loopi (fieldOf w 21 1) (fieldOf w 12 9) (fieldOf w 0 12)
  | 0x2B => need (ra = 0 && fieldOf w 6 8 = 0) (.mfsr rd (fieldOf w 0 6))
  | 0x2C => need (rd = 0 && fieldOf w 6 8 = 0) (.mtsr ra (fieldOf w 0 6))
  | 0x2D => need (fieldOf w 0 22 = 0) .halt
  | _ => .illegal 0#3

/-- M syllables (R155). -/
def decodeM (op : Nat) (w : BitVec 32) : Syl :=
  let y (k : MKind) : Syl := unusedZero 1#3 (fieldOf w 20 1 = 0) (.mop k (fieldOf w 21 1) (fieldOf w 16 4) (fieldOf w 0 16))
  match op with
  | 0x00 => y .mma
  | 0x01 => y .mdrain
  | 0x02 => y .mclr
  | _ => .illegal 1#3

/-- Operations of the VR format by opcode (R157). -/
def vrOp : Nat → Option VrOp
  | 0x04 => some .vadd
  | 0x05 => some .vsub
  | 0x06 => some .vmul
  | 0x07 => some .vfma
  | 0x08 => some .vdiv
  | 0x09 => some .vsqrt
  | 0x0A => some .vmin
  | 0x0B => some .vmax
  | 0x0C => some .vabs
  | 0x0D => some .vneg
  | 0x0E => some .vand
  | 0x0F => some .vor
  | 0x10 => some .vxor
  | 0x11 => some .vnot
  | 0x12 => some .vshl
  | 0x13 => some .vshr
  | 0x14 => some .vsra
  | 0x15 => some .vcmpeq
  | 0x16 => some .vcmpne
  | 0x17 => some .vcmplt
  | 0x18 => some .vcmple
  | 0x1A => some .vperm
  | 0x1D => some .vrsum
  | 0x1E => some .vrmax
  | 0x1F => some .vrmin
  | 0x21 => some .vexp
  | 0x22 => some .vlog
  | 0x23 => some .vrailAdd
  | 0x24 => some .vrailFin
  | 0x25 => some .vqnt
  | 0x26 => some .vqcfg
  | 0x27 => some .vqrd
  | 0x28 => some .vseed
  | 0x29 => some .vflg
  | 0x2A => some .vflgc
  | _ => none

/-- V syllables (R156, R157). -/
def decodeV (op : Nat) (w : BitVec 32) : Syl :=
  let need := unusedZero 2#3
  let f5 (lo : Nat) : BitVec 5 := fieldOf w lo 5
  match op with
  | 0x01 => .vld (f5 17) (fieldOf w 13 4) (fieldOf w 0 13)
  | 0x02 => .vst (f5 17) (fieldOf w 13 4) (fieldOf w 0 13)
  | 0x19 => need (fieldOf w 0 2 = 0) (.vsel (f5 17) (f5 12) (f5 7) (f5 2))
  | 0x1B => need (fieldOf w 7 6 = 0 && fieldOf w 0 3 = 0) (.vsplat (f5 17) (fieldOf w 13 4) (fieldOf w 3 4))
  | 0x1C => need (fieldOf w 17 1 = 0 && fieldOf w 0 1 = 0) (.vext (fieldOf w 18 4) (f5 12) (fieldOf w 5 7) (fieldOf w 1 4))
  | 0x20 => need (fieldOf w 0 2 = 0) (.vcvt (f5 17) (f5 12) (fieldOf w 8 4) (fieldOf w 4 4) (fieldOf w 2 2))
  | _ =>
    match vrOp op with
    | some o => .vr o ⟨f5 17, f5 12, f5 7, fieldOf w 3 4, fieldOf w 1 2, fieldOf w 0 1⟩
    | none => .illegal 2#3

/-- X syllables (R160). -/
def decodeX (op : Nat) (w : BitVec 32) : Syl :=
  let ch := fieldOf w 20 2
  let xf (g : BitVec 2 → BitVec 3 → BitVec 2 → BitVec 4 → Syl) : Syl :=
    unusedZero 3#3 (fieldOf w 0 11 = 0) (g ch (fieldOf w 17 3) (fieldOf w 15 2) (fieldOf w 11 4))
  let xo (y : Syl) : Syl := unusedZero 3#3 (fieldOf w 0 20 = 0) y
  match op with
  | 0x00 => xf .xset
  | 0x01 => xf .xget
  | 0x02 => xo (.xop .movs ch)
  | 0x03 => xo (.xop .fill ch)
  | 0x04 => xo (.xop .gather ch)
  | 0x05 => xo (.xstop ch)
  | 0x06 => xo (.xclr ch)
  | 0x07 => xo (.xop .wpull ch)
  | _ => .illegal 3#3

/-- B syllables (R165). -/
def decodeB (op : Nat) (w : BitVec 32) : Syl :=
  let ra := fieldOf w 18 4
  let rb := fieldOf w 14 4
  let rc := fieldOf w 10 4
  let need := unusedZero 4#3
  match op with
  | 0x00 => .sigi (fieldOf w 15 7) (fieldOf w 0 15)
  | 0x01 => need (fieldOf w 0 14 = 0) (.sig ra rb)
  | 0x02 => .rsigi (fieldOf w 7 15) (fieldOf w 0 7)
  | 0x03 => need (fieldOf w 0 14 = 0) (.rsig ra rb)
  | 0x04 => need (fieldOf w 0 10 = 0) (.setb ra rb rc)
  | 0x05 => need (fieldOf w 0 10 = 0) (.wait ra rb rc)
  | 0x06 => .waiti (fieldOf w 15 7) (fieldOf w 0 15)
  | 0x07 => need (fieldOf w 11 3 = 0 && fieldOf w 0 10 = 0) (.brd ra rb (fieldOf w 10 1))
  | _ => .illegal 4#3

/-- A word of the instruction store (R138): its STOP bit and its syllable. -/
def decodeSyl (w : BitVec 32) : Bool × Syl :=
  let op := (fieldOf w 22 6).toNat
  let unit := fieldOf w 28 3
  (w.getLsbD 31,
   match unit.toNat with
   | 0 => decodeS op w
   | 1 => decodeM op w
   | 2 => decodeV op w
   | 3 => decodeX op w
   | 4 => decodeB op w
   | _ => .illegal unit)

/-- The UNIT field of a syllable (R138); 0b111 where no syllable can be trusted (R169). -/
def Syl.unit : Syl → BitVec 3
  | .mop _ _ _ _ => 1#3
  | .vld _ _ _ | .vst _ _ _ | .vr _ _ | .vsel _ _ _ _ | .vcvt _ _ _ _ _ | .vsplat _ _ _ | .vext _ _ _ _ => 2#3
  | .xset _ _ _ _ | .xget _ _ _ _ | .xop _ _ | .xstop _ | .xclr _ => 3#3
  | .sigi _ _ | .sig _ _ | .rsigi _ _ | .rsig _ _ | .setb _ _ _ | .wait _ _ _ | .waiti _ _ | .brd _ _ _ => 4#3
  | .illegal u => u
  | .noFetch => 7#3
  | _ => 0#3

/-- The scalar register a syllable writes; a write to s0 is no destination (R141). -/
def Syl.dest (y : Syl) : Option (BitVec 4) :=
  let r : Option (BitVec 4) := match y with
    | .alu _ rd _ _ => some rd
    | .alui _ rd _ _ => some rd
    | .li rd _ => some rd
    | .load _ rd _ _ _ => some rd
    | .jal rd _ => some rd
    | .mfsr rd _ => some rd
    | .vext sd _ _ _ => some sd
    | .xget _ _ _ rd => some rd
    | .brd rd _ _ => some rd
    | _ => none
  if r = some 0#4 then none else r

/-- Syllables that a delay bundle may not hold (R147). -/
def Syl.redirects : Syl → Bool
  | .branch _ _ _ _ | .jump _ | .jal _ _ | .jr _ | .loop _ _ _ | .loopi _ _ _ => true
  | _ => false

/-- The loop level a syllable loads (R148). -/
def Syl.loads : Syl → Option (BitVec 1)
  | .loop l _ _ => some l
  | .loopi l _ _ => some l
  | _ => none

end Sys2Proof.Machine
end

