-- ==== Sys2Proof/Machine/Vector.lean ====
section
/-! DEFINITION. The vector syllables against a core's state: which forms are illegal, and what each leaves to land and does
at the end of its bundle (R119-R136, R156, R157, R585). -/
namespace Sys2Proof.Machine

/-- Lane operation of a VR syllable. -/
def VrOp.lop : VrOp → Option LOp
  | .vadd => some .add
  | .vsub => some .sub
  | .vmul => some .mul
  | .vfma => some .fma
  | .vdiv => some .div
  | .vsqrt => some .sqrt
  | .vmin => some .min
  | .vmax => some .max
  | .vabs => some .abs
  | .vneg => some .neg
  | .vshl => some .shl
  | .vshr => some .shr
  | .vsra => some .sra
  | .vcmpeq => some .cmpeq
  | .vcmpne => some .cmpne
  | .vcmplt => some .cmplt
  | .vcmple => some .cmple
  | _ => none

def VrOp.rop : VrOp → Option ROp
  | .vrsum => some .sum
  | .vrmax => some .max
  | .vrmin => some .min
  | _ => none

/-- Source types of VQNT (R123). -/
def qntSource (t : LType) : Bool := t.isFloat || t = .gl16

/-- A VR syllable's fields break R120, R122, R123 or R157: a type that is not listed, an unused field that is not zero, a
part beyond the operation's count, N outside VLOG. -/
def VrOp.badFields (o : VrOp) (a : VrArgs) : Bool :=
  let t := LType.ofCode a.type
  let noB := a.vb ≠ 0
  let n := a.n ≠ 0
  let parts (k : Nat) : Bool := k ≤ a.part.toNat
  match o with
  | .vand | .vor | .vxor => a.type ≠ 0 || parts 1 || n
  | .vnot => noB || a.type ≠ 0 || parts 1 || n
  | .vsqrt => noB || !LOp.sqrt.accepts t || parts 1 || n
  | .vabs => noB || !LOp.abs.accepts t || parts 1 || n
  | .vneg => noB || !LOp.neg.accepts t || parts 1 || n
  | .vperm => a.type ≠ 1 || parts 1 || n
  | .vrsum => noB || !ROp.sum.accepts t || parts 1 || n
  | .vrmax => noB || !ROp.max.accepts t || parts 1 || n
  | .vrmin => noB || !ROp.min.accepts t || parts 1 || n
  | .vexp => noB || !t.isFloat || parts (if t = .fp32 then 2 else 1) || n
  | .vlog => noB || !(t = .fp32 || t = .bf16) || parts (if t = .fp32 then 2 else 1)
  | .vrailAdd => a.type ≠ 0 || parts 1 || n
  | .vrailFin => a.vb.toNat ≥ 16 || a.type ≠ 0 || n
  | .vqnt => noB || !qntSource t || parts (if t = .fp32 then 2 else 1) || n
  | .vqcfg | .vseed => noB || a.vd ≠ 0 || a.type ≠ 0 || parts 1 || n
  | .vqrd | .vflg => noB || a.va ≠ 0 || a.type ≠ 0 || parts 1 || n
  | .vflgc => noB || a.va ≠ 0 || a.vd ≠ 0 || a.type ≠ 0 || parts 1 || n
  | o => (match o.lop with
    | some l => !l.accepts t
    | none => true) || parts 1 || n

def Core.vin (c : Core) (v : BitVec 5) : VIn := ⟨(c.getVreg v.toNat).data, (c.getVreg v.toNat).mark⟩

/-- A reserved value in what a VQCFG would write (R133). -/
def qcfgReserved (l : Nat) : Bool :=
  let f (lane lo len : Nat) : Nat := natBits l (32 * lane + lo) len
  f 3 18 14 ≠ 0 || f 3 15 1 ≠ 0 || f 5 17 15 ≠ 0 || f 6 17 15 ≠ 0 || f 7 8 24 ≠ 0 || 2 ≤ f 7 6 2 || f 7 0 4 = 1

/-- QBEACON that a VQCFG would write, when it writes QEN as 1 (R133). -/
def qcfgBeacon (l : Nat) : Option Nat := if natBits l (96 + 16) 1 = 1 then some (natBits l 96 15) else none

/-- The 8-word access of VLD and VST lies in words 0 .. 65,535 (R157). -/
def vAccess (c : Core) (ra : BitVec 4) (off : BitVec 13) : Nat := (c.sr ra).toNat + off.toNat

/-- Whether the syllable raises the illegal-bundle trap by its own fields and the core's registers (R120, R123, R133,
R157). -/
def Core.vIllegal (c : Core) : Syl → Bool
  | .vr o a => o.badFields a || (o = .vqcfg && qcfgReserved ((c.vin a.va).data.toNat))
  | .vsplat _ _ t => !(LType.ofCode t).isLane
  | .vext _ _ lane t => !(LType.ofCode t).isLane || (LType.ofCode t).count ≤ lane.toNat
  | .vcvt _ _ d t p => convParts (LType.ofCode t) (LType.ofCode d) ≤ p.toNat
  | _ => false

/-- Bus errors of a V syllable (R127, R157). -/
def Core.vBus (c : Core) : Syl → Bool
  | .vld _ ra off => 65536 < vAccess c ra off + 8
  | .vst _ ra off => 65536 < vAccess c ra off + 8
  | .vext _ vs lane t => laneMark (LType.ofCode t).width (c.vin vs).mark lane.toNat
  | _ => false

/-- The quantiser settings in force (R133). -/
def Core.qset (c : Core) : QSet :=
  { bs := if c.quant.bs16 then 16 else 32, stoch := c.quant.stoch
    gap := if c.quant.qgap = 0#4 then none else some c.quant.qgap.toNat, lfsr := c.lfsr }

def Core.qfmt (c : Core) : OFmt := if c.quant.qfmt = 0#2 then .gl4 else .gl3

/-- What a VQNT of the core's present state produces. -/
def Core.vqnt (c : Core) (a : VrArgs) : VqntOut :=
  vQnt c.qset c.qfmt (LType.ofCode a.type) a.part.toNat c.quant.qblk.toNat (c.vin a.va)

/-- The entries of a VQNT do not fit below QSLIM (R135). -/
def Core.vEscape (c : Core) : Syl → Bool
  | .vr .vqnt a =>
    let n := (c.vqnt a).sides.length
    n ≠ 0 && c.quant.qslim.toNat < c.quant.qside.toNat + n
  | _ => false

/-- What a V syllable leaves: results with their distances, and its effects at the end of the bundle: bytes stored, blocks
and sidecar slots taken, and the LFSR it leaves. -/
structure VOut where
  pend : List (Nat × Landing) := []
  mem : List (Nat × Bytes × Bool) := []
  blocks : Nat := 0
  slots : Nat := 0
  lfsr : Option (BitVec 32) := none

/-- A whole-register result with its distance. -/
def VOut.reg (d : Nat) (v : BitVec 5) (r : VRes) : VOut :=
  { pend := [(d, .vreg v r.data r.bytes r.mark r.sat r.inv none)] }

/-- A VR syllable on a core's state; `pick` gives the free choices of R83 and of equal values (R123, R134, R136). VQCFG and
VSEED take the bytes of a register that carries poison as they stand, and a sidecar entry or an estimator term made from a
marked lane carries no mark (R127). DEDUCED (log 92). -/
def Core.vrOut (c : Core) (pick : Nat → Bool) (o : VrOp) (a : VrArgs) : VOut :=
  let t := LType.ofCode a.type
  let d := c.vin a.vd
  let x := c.vin a.va
  let y := c.vin a.vb
  let bits (f : BitVec 1024 → BitVec 1024 → BitVec 1024) (m : BitVec 8) : VOut := .reg 4 a.vd (.whole (f x.data y.data) m)
  match o with
  | .vand => bits (· &&& ·) (x.mark ||| y.mark)
  | .vor => bits (· ||| ·) (x.mark ||| y.mark)
  | .vxor => bits (· ^^^ ·) (x.mark ||| y.mark)
  | .vnot => bits (fun u _ => ~~~ u) x.mark
  | .vperm => .reg 4 a.vd (vPerm x y)
  | .vexp => .reg 8 a.vd (vExp t a.part.toNat x)
  | .vlog => .reg 8 a.vd (vLog t (a.n = 1#1) a.part.toNat x)
  | .vrailAdd => .reg 4 a.vd (vRailAdd x y)
  | .vrailFin => .reg 8 a.vd (vRailFin a.part.toNat (c.sr (a.vb.setWidth 4)) x)
  | .vqnt =>
    let r := c.vqnt a
    let est := if c.quant.qen then some (r.terms.map (BitVec.ofNat 32)) else none
    { pend := [(8, .vreg a.vd r.res.data r.res.bytes r.res.mark r.res.sat r.res.inv est)]
      mem := if r.sides.isEmpty then [] else [(8 * c.quant.qside.toNat, r.sides.flatMap fun e => leBytes 8 e.toNat, false)]
      blocks := r.blocks, slots := r.sides.length, lfsr := some r.lfsr }
  | .vqcfg => { pend := [(4, .qcfg (x.data.setWidth 256))] }
  | .vqrd => .reg 4 a.vd (.whole (c.quant.lanes.setWidth 1024) 0#8)
  | .vseed => { pend := [(4, .seed (x.data.setWidth 32))] }
  | .vflg => .reg 4 a.vd (.whole (BitVec.ofNat 1024 ((if c.sat then 1 else 0) + (if c.invalid then 2 else 0))) 0#8)
  | .vflgc => { pend := [(4, .clearFlags)] }
  | o =>
    match o.lop, o.rop with
    | some l, _ => .reg 4 a.vd (vLanes l t pick d x y)
    | _, some r => .reg 8 a.vd (vReduce r t (pick 0) x)
    | _, _ => {}

/-- A V syllable on the state as it stands at issue. A VCVT into a Glim form advances QBLK by the blocks it makes; it has no
sidecar entry, so QSIDE stands (R136, R585). VEXT of an 8-bit lane leaves the scalar's upper 8 bits zero (R123).
DEDUCED (log 92). -/
def State.vOut (s : State) (p : Nat) : Syl → VOut
  | .vld v ra off =>
    let c := s.core p
    let w := vAccess c ra off
    let mark := partsOf 128 ((List.range 8).map fun i => s.dmemPoison p (w + i))
    .reg 6 v (.whole (BitVec.ofNat 1024 (s.dmemNat p (16 * w) 128)) mark)
  | .vst v ra off =>
    let c := s.core p
    let w := vAccess c ra off
    let x := c.vin v
    { mem := (List.range 8).map fun i => (16 * (w + i), leBytes 16 (natBits x.data.toNat (128 * i) 128), x.mark.getLsbD i) }
  | .vr o a => (s.core p).vrOut (fun i => s.free i % 2 = 0) o a
  | .vsel vd va vb vm =>
    let c := s.core p
    let m := c.vin vm
    let x := c.vin va
    let y := c.vin vb
    .reg 4 vd (.whole ((m.data &&& x.data) ||| (~~~ m.data &&& y.data)) (m.mark ||| x.mark ||| y.mark))
  | .vcvt vd vs dt st part =>
    let c := s.core p
    let q := { c.qset with gap := none }
    let dst := LType.ofCode dt
    let r := vCvt q (LType.ofCode st) dst part.toNat (fun i => s.free i % 2 = 0) (c.vin vs)
    let glim := match dst.blocked with
      | some f => f.isGlim
      | none => false
    { VOut.reg 8 vd r.1 with
      blocks := if glim then convCount (LType.ofCode st) dst / q.bs else 0, lfsr := if glim then some r.2 else none }
  | .vsplat vd sx t => .reg 4 vd (vSplat (LType.ofCode t) ((s.core p).sr sx))
  | .vext sd vs lane t =>
    let ty := LType.ofCode t
    let v := natBits ((s.core p).vin vs).data.toNat (ty.width * lane.toNat) ty.width
    { pend := [(4, .sreg sd (BitVec.ofNat 16 v))] }
  | _ => {}

/-- Applies a V syllable issued at clock t: its results wait for their landing clocks; stores, blocks, slots and LFSR
steps take effect at the end of the bundle (R124, R135, R145, R585). -/
def State.applyV (s : State) (p t : Nat) (o : VOut) : State :=
  let s := o.mem.foldl (fun s m => s.dmemWrite p m.1 m.2.1 m.2.2) s
  s.modCore p fun c =>
    { c with
      pend := o.pend.foldl (fun l x => insertPend ⟨t + x.1 - 1, x.2⟩ l) c.pend
      quant := { c.quant with
        qblk := c.quant.qblk + BitVec.ofNat 32 o.blocks, qside := c.quant.qside + BitVec.ofNat 17 o.slots }
      lfsr := o.lfsr.getD c.lfsr }

end Sys2Proof.Machine
end

