-- ==== Sys2Proof/Machine/Sequencer.lean ====
section
/-! DEFINITION. The sequencer: presenting syllables, the checks of a bundle, issue, branches, loops and fetching
(R138-R169). -/
namespace Sys2Proof.Machine

/-! ## The instruction store (R140) -/

/-- Whether a syllable can be fetched: below 32,768 and readable. -/
def State.canFetch (s : State) (p a : Nat) : Bool := a < 32768 && !s.poisonAt (istoreKey p (4 * a)) 4

/-- The word of syllable a of a slot's instruction store. -/
def State.storeWord (s : State) (p a : Nat) : BitVec 32 := BitVec.ofNat 32 (leNat (s.bytesAt (istoreKey p (4 * a)) 4))

/-- STOP and the syllable at an address (R140, R168). -/
def State.fetch (s : State) (p a : Nat) : Bool × Syl :=
  if s.canFetch p a then decodeSyl (s.storeWord p a) else (true, .noFetch)

/-- The bundle that starts at an address: it ends with STOP; six syllables cannot rise strictly in UNIT, so no legal bundle
is longer (R139). -/
def State.fetchFrom (s : State) (p : Nat) : Nat → Nat → List Syl
  | 0, _ => []
  | n + 1, a =>
    let x := s.fetch p a
    if x.1 then [x.2] else x.2 :: State.fetchFrom s p n (a + 1)

/-- The address after the first syllable at or after a with STOP set; an address that cannot be fetched ends the search
(R147, R150). -/
def State.afterStop (s : State) (p : Nat) : Nat → Nat → Nat
  | 0, a => a
  | n + 1, a =>
    if !s.canFetch p a then a
    else if (s.storeWord p a).getLsbD 31 then a + 1
    else State.afterStop s p n (a + 1)

/-- The syllable address of the bundle after the one that starts at a. -/
def State.nextBundle (s : State) (p a : Nat) : Nat := s.afterStop p 32768 a

/-! ## Checks (R105, R133, R139-R169) -/

/-- A beacon of the core's own cluster (R165). -/
def ownBeacon (gc id : Nat) : Bool := id / 128 = gc && id < beaconCount

/-- The beacon and target a WAIT or WAITI names (R165). -/
def Core.waitOf (c : Core) (gc : Nat) : Syl → Option (Nat × BitVec 32)
  | .wait ra rb rc => some ((c.sr ra).toNat, (c.sr rc).toNat * 65536 + (c.sr rb).toNat)
  | .waiti n imm => some (gc * 128 + n.toNat, imm.setWidth 32)
  | _ => none

/-- The data memory word of a scalar access, exact (R154). -/
def Core.wordAddr (c : Core) (ra : BitVec 4) (off : BitVec 10) : Int := (c.sr ra).toNat + off.toInt

def Core.wordOk (c : Core) (ra : BitVec 4) (off : BitVec 10) : Bool :=
  0 ≤ c.wordAddr ra off && c.wordAddr ra off ≤ 65535

/-- The word address of an M syllable (R155). -/
def Core.mAddr (c : Core) (reg : BitVec 1) (ra : BitVec 4) (addr : BitVec 16) : Nat :=
  (if reg = 1#1 then c.sr ra + addr else addr).toNat

/-- Parts of a move-state field (R158). -/
def fieldParts (f : BitVec 3) : Nat :=
  match f.toNat with
  | 0 => 3
  | 1 => 3
  | 2 => 2
  | 3 => 2
  | 4 => 2
  | 5 => 2
  | _ => 0

/-- The register of a field (R158). -/
def Chan.field (c : Chan) (f : BitVec 3) : Nat :=
  match f.toNat with
  | 0 => c.xs.toNat
  | 1 => c.xd.toNat
  | 2 => c.xc.toNat
  | 3 => c.xg.toNat
  | 4 => c.xb.toNat
  | _ => c.xstat.toNat

/-- XSET: one 16-bit part of a field (R158). -/
def Chan.setPart (c : Chan) (f : BitVec 3) (part : BitVec 2) (v : BitVec 16) : Chan :=
  let old := c.field f
  let lo := 16 * part.toNat
  let new := old - natBits old lo 16 * 2 ^ lo + v.toNat * 2 ^ lo
  match f.toNat with
  | 0 => { c with xs := BitVec.ofNat 48 new }
  | 1 => { c with xd := BitVec.ofNat 48 new }
  | 2 => { c with xc := BitVec.ofNat 32 new }
  | 3 => { c with xg := BitVec.ofNat 32 new }
  | 4 => { c with xb := BitVec.ofNat 32 new }
  | _ => c

/-- The alignment and reserved-bit checks of a queued X syllable (R161). -/
def Chan.badOp (c : Chan) (k : XKind) : Bool :=
  natBits c.xb.toNat 24 8 ≠ 0 || natBits c.xb.toNat 15 1 ≠ 0 ||
  (match k with
   | .movs => c.xs.toNat % 16 ≠ 0 || c.xd.toNat % 16 ≠ 0 || c.xc.toNat % 16 ≠ 0
   | .fill => c.xd.toNat % 16 ≠ 0 || c.xc.toNat % 16 ≠ 0
   | .gather => c.xs.toNat % 8 ≠ 0 || c.xd.toNat % 16 ≠ 0 || c.xg.toNat % 16 ≠ 0 || c.xg = 0#32
   | .wpull => c.xd.toNat % 64 ≠ 0)

/-- The illegal-bundle causes of one syllable that its fields and the core's registers decide. -/
def Core.illegalSyl (c : Core) (y : Syl) : Bool :=
  match y with
  | .illegal _ => true
  | .alui o _ _ imm => (o = .shl || o = .shr || o = .sra) && natBits imm.toNat 4 10 ≠ 0
  | .load .ldh _ _ _ byte => byte.toNat % 2 = 1
  | .store true _ _ _ byte => byte.toNat % 2 = 1
  | .loop _ _ last => last = 0
  | .loopi _ _ last => last = 0
  | .mfsr _ code => 0x0C ≤ code.toNat
  | .mtsr _ code => 6 ≤ code.toNat
  | .mop .mclr reg ra addr => reg ≠ 0 || ra ≠ 0 || addr ≠ 0
  | .xset _ f part _ => f = 5 || fieldParts f ≤ part.toNat
  | .xget _ f part _ => fieldParts f ≤ part.toNat
  | .xop k ch => (c.getChan ch.toNat).badOp k
  | .sigi _ imm => imm = 0
  | .rsigi _ imm => imm = 0
  | y => c.vIllegal y

/-- Bus errors that need no data memory: the ranges of R154 and R157, marked lanes (R127), fetches (R140). -/
def Core.busSyl (c : Core) (y : Syl) : Bool :=
  match y with
  | .noFetch => true
  | .load _ _ ra off _ => !c.wordOk ra off
  | .store _ _ ra off _ => !c.wordOk ra off
  | y => c.vBus y

/-- Beacon faults that need no data memory (R133, R161, R165). -/
def State.beaconSyl (s : State) (gc : Nat) (c : Core) (y : Syl) : Bool :=
  match y with
  | .sig ra _ => !ownBeacon gc (c.sr ra).toNat
  | .setb ra _ _ => !ownBeacon gc (c.sr ra).toNat
  | .wait ra _ _ => !ownBeacon gc (c.sr ra).toNat
  | .brd _ rb _ => !ownBeacon gc (c.sr rb).toNat
  | .rsig ra _ => !s.beaconInPart gc (c.sr ra).toNat
  | .rsigi id _ => !s.beaconInPart gc id.toNat
  | .xop _ ch =>
    let xb := (c.getChan ch.toNat).xb.toNat
    natBits xb 16 8 ≠ 0 && !s.beaconInPart gc (natBits xb 0 15)
  | .vr .vqcfg a =>
    match qcfgBeacon (c.vin a.va).data.toNat with
    | some id => !s.beaconInPart gc id
    | none => false
  | _ => false

/-- The checks made only in the clock in which the WAIT condition holds (R166): command blocks, poisoned scalar reads,
full queues, and the sidecar entries of a VQNT. A command block that begins in the last two words goes on at word 0.
DESIGN CHOICE (log 106). -/
def State.lateCause (s : State) (gc slot : Nat) (c : Core) (y : Syl) : Option (BitVec 4) :=
  let p := slotKey gc slot
  let ok := s.beaconInPart gc
  let full := decide (8 ≤ c.mqueue.length)
  let orFull (o : Option (BitVec 4)) : Option (BitVec 4) := if o.isSome then o else if full then some Trap.overrun else none
  match y with
  | .mop .mma reg ra addr =>
    let w := c.mAddr reg ra addr
    let at_ (i : Nat) : Nat := (w + i) % 65536
    if s.dmemPoison p (at_ 0) || s.dmemPoison p (at_ 1) || s.dmemPoison p (at_ 2) then some Trap.busError
    else orFull (mmaCause ok (BitVec.ofNat 128 (s.dmemWord p (at_ 0))) (BitVec.ofNat 128 (s.dmemWord p (at_ 1)))
      (BitVec.ofNat 128 (s.dmemWord p (at_ 2))))
  | .mop .mdrain reg ra addr =>
    let w := c.mAddr reg ra addr
    if s.dmemPoison p w then some Trap.busError
    else orFull (mdrainCause ok (BitVec.ofNat 128 (s.dmemWord p w)))
  | .mop .mclr _ _ _ => orFull none
  | .load _ _ ra off _ => if s.dmemPoison p (c.wordAddr ra off).toNat then some Trap.busError else none
  | .xop _ ch => if 8 ≤ (c.getChan ch.toNat).queue.length then some Trap.overrun else none
  | y => if c.vEscape y then some Trap.escapeFault else none

/-- The first cause a syllable raises, in the order of R169. `before` holds the syllables before it in its bundle: UNIT
must rise and no destination may come twice (R139, R141); a delay bundle holds no branch or loop (R147). -/
def State.sylCause (s : State) (gc slot : Nat) (c : Core) (late : Bool) (before : List Syl) (y : Syl) : Option (BitVec 4) :=
  let rises := before.all fun b => b.unit.toNat < y.unit.toNat
  let twice := y.dest.isSome && before.any fun b => b.dest == y.dest
  if y ≠ .noFetch && (!rises || twice || (c.branch.isSome && y.redirects) || c.illegalSyl y) then some Trap.illegalBundle
  else if c.busSyl y then some Trap.busError
  else if s.beaconSyl gc c y then some Trap.beaconFault
  else if late then s.lateCause gc slot c y
  else none

/-- The trap of a bundle: cause and charged UNIT of its first faulting syllable (R169). -/
def State.bundleTrap (s : State) (gc slot : Nat) (c : Core) (late : Bool) : List Syl → List Syl → Option (BitVec 4 × BitVec 3)
  | _, [] => none
  | before, y :: rest =>
    match s.sylCause gc slot c late before y with
    | some cause => some (cause, y.unit)
    | none => State.bundleTrap s gc slot c late (before ++ [y]) rest

/-! ## Acting -/

/-- Result of a scalar operation (R153). -/
def aluOp (o : AluOp) (a b : BitVec 16) : BitVec 16 :=
  match o with
  | .add => a + b
  | .sub => a - b
  | .and => a &&& b
  | .or => a ||| b
  | .xor => a ^^^ b
  | .shl => a <<< (b.toNat % 16)
  | .shr => a >>> (b.toNat % 16)
  | .sra => a.sshiftRight (b.toNat % 16)
  | .mul => a * b
  | .mulhu => BitVec.ofNat 16 (a.toNat * b.toNat / 65536)
  | .slt => if a.toInt < b.toInt then 1#16 else 0#16
  | .sltu => if a.toNat < b.toNat then 1#16 else 0#16

/-- The immediate of an SI syllable: sign-extended for ADDI, zero-extended otherwise (R153). -/
def immOf (o : AluOp) (imm : BitVec 14) : BitVec 16 := if o = .add then imm.signExtend 16 else imm.setWidth 16

def condHolds (k : Cond) (a b : BitVec 16) : Bool :=
  match k with
  | .eq => a = b
  | .ne => a ≠ b
  | .lt => a.toInt < b.toInt
  | .ge => b.toInt ≤ a.toInt
  | .ltu => a.toNat < b.toNat
  | .geu => b.toNat ≤ a.toNat

/-- The target of a taken branch, computed at issue (R146). -/
def Core.target (c : Core) : Syl → Option (BitVec 16)
  | .branch k ra rb off => if condHolds k (c.sr ra) (c.sr rb) then some (c.pc + off.signExtend 16) else none
  | .jump t => some t
  | .jal _ t => some t
  | .jr ra => some (c.sr ra)
  | _ => none

/-- Special register as MFSR reads it (R143). -/
def State.special (s : State) (gc slot : Nat) (c : Core) (code : BitVec 6) : BitVec 16 :=
  match code.toNat with
  | 0 => c.loop0.lc
  | 1 => c.loop0.ls
  | 2 => c.loop0.le
  | 3 => c.loop1.lc
  | 4 => c.loop1.ls
  | 5 => c.loop1.le
  | 6 => BitVec.ofNat 16 ((s.lcOf gc slot).getD (s.free 1000 % 4096))
  | 7 => BitVec.ofNat 16 gc
  | 8 => BitVec.ofNat 16 (s.clusterPart gc)
  | 9 => BitVec.ofNat 16 c.clock
  | 10 => BitVec.ofNat 16 (c.clock / 2 ^ 16)
  | _ => BitVec.ofNat 16 (c.clock / 2 ^ 32)

/-- MTSR (R143). -/
def Core.setSpecial (c : Core) (code : BitVec 6) (v : BitVec 16) : Core :=
  match code.toNat with
  | 0 => { c with loop0 := { c.loop0 with lc := v } }
  | 1 => { c with loop0 := { c.loop0 with ls := v } }
  | 2 => { c with loop0 := { c.loop0 with le := v } }
  | 3 => { c with loop1 := { c.loop1 with lc := v } }
  | 4 => { c with loop1 := { c.loop1 with ls := v } }
  | _ => { c with loop1 := { c.loop1 with le := v } }

def Core.loop (c : Core) (level : BitVec 1) : Loop := if level = 0#1 then c.loop0 else c.loop1

def Core.setLoop (c : Core) (level : BitVec 1) (l : Loop) : Core :=
  if level = 0#1 then { c with loop0 := l } else { c with loop1 := l }

/-- The bytes a scalar load reads, as its result (R153). -/
def State.loadValue (s : State) (p : Nat) (c : Core) (k : LoadKind) (ra : BitVec 4) (off : BitVec 10) (byte : BitVec 4) :
    BitVec 16 :=
  let a := 16 * (c.wordAddr ra off).toNat + byte.toNat
  match k with
  | .ldb => (BitVec.ofNat 8 (s.dmemNat p a 1)).signExtend 16
  | .ldbu => BitVec.ofNat 16 (s.dmemNat p a 1)
  | .ldh => BitVec.ofNat 16 (s.dmemNat p a 2)

/-- The data memory of a slot as listed bytes. -/
def State.dmemImage (s : State) (p : Nat) : List Host.Cell := SMap.keep (fun k => k / 2 ^ 20 = (2 ^ 48 + p * 2 ^ 20) / 2 ^ 20) s.mem

/-- An M syllable joins the queue with its command block (R105, R167). -/
def State.queueM (s0 : State) (p : Nat) (c : Core) (k : MKind) (w : Nat) (s : State) : State :=
  let word (i : Nat) : BitVec 128 := BitVec.ofNat 128 (s0.dmemWord p ((w + i) % 65536))
  let o : MOp := match k with
    | .mma => { MOp.reset with kind := .mma, w0 := word 0, w1 := word 1, w2 := word 2, pc := c.pc, image := s0.dmemImage p }
    | .mdrain => { MOp.reset with kind := .mdrain, w0 := word 0, pc := c.pc }
    | .mclr => { MOp.reset with kind := .mclr, pc := c.pc }
  s.modCore p fun c => { c with mqueue := c.mqueue ++ [o] }

/-- What one syllable does at the end of its bundle, issued at syllable address a of the bundle c.pc .. (n syllables);
sources are read from the state s0 at issue (R141). -/
def State.act (s0 : State) (gc slot : Nat) (c : Core) (a n : Nat) (y : Syl) (s : State) : State :=
  let p := slotKey gc slot
  let setR (r : BitVec 4) (v : BitVec 16) : State := s.modCore p (·.setSr r v)
  match y with
  | .alu o rd ra rb => setR rd (aluOp o (c.sr ra) (c.sr rb))
  | .alui o rd ra imm => setR rd (aluOp o (c.sr ra) (immOf o imm))
  | .li rd imm => setR rd imm
  | .load k rd ra off byte => setR rd (s0.loadValue p c k ra off byte)
  | .store half rs ra off byte =>
    let at_ := 16 * (c.wordAddr ra off).toNat + byte.toNat
    s.dmemWrite p at_ (leBytes (if half then 2 else 1) (c.sr rs).toNat) false
  | .jal rd _ => setR rd (BitVec.ofNat 16 (s0.nextBundle p (s0.nextBundle p (c.pc.toNat + n))))
  | .loop level ra last =>
    s.modCore p (·.setLoop level ⟨c.sr ra, c.pc + BitVec.ofNat 16 n, BitVec.ofNat 16 a + last.setWidth 16⟩)
  | .loopi level count last =>
    s.modCore p (·.setLoop level ⟨count.setWidth 16, c.pc + BitVec.ofNat 16 n, BitVec.ofNat 16 a + last.setWidth 16⟩)
  | .mfsr rd code => setR rd (s0.special gc slot c code)
  | .mtsr ra code => s.modCore p (·.setSpecial code (c.sr ra))
  | .mop k reg ra addr => s0.queueM p c k (c.mAddr reg ra addr) s
  | .xset ch f part rs => s.modChan p ch.toNat (·.setPart f part (c.sr rs))
  | .xget ch f part rd => setR rd (BitVec.ofNat 16 (natBits ((c.getChan ch.toNat).field f) (16 * part.toNat) 16))
  | .xop k ch =>
    let old := c.getChan ch.toNat
    s.modChan p ch.toNat fun x => { x with queue := x.queue ++ [⟨k, old.xs, old.xd, old.xc, old.xg, old.xb⟩], state := 1#2 }
  | .xstop ch => s.xstop gc slot ch.toNat
  | .xclr ch => s.modChan p ch.toNat fun x => { x with status := 0#8 }
  | .sigi m imm => s.beaconAdd (gc * 128 + m.toNat) (imm.setWidth 32)
  | .sig ra rb => s.beaconAdd (c.sr ra).toNat ((c.sr rb).setWidth 32)
  | .rsigi id imm => s.sigCluster gc id.toNat (imm.setWidth 32)
  | .rsig ra rb => s.sigCluster gc (c.sr ra).toNat ((c.sr rb).setWidth 32)
  | .setb ra rb rc => s.beaconSet (c.sr ra).toNat (BitVec.ofNat 32 ((c.sr rc).toNat * 65536 + (c.sr rb).toNat))
  | .brd rd rb hi => setR rd (BitVec.ofNat 16 ((s0.beacon (c.sr rb).toNat).toNat / (if hi = 1#1 then 65536 else 1)))
  | .nop | .branch _ _ _ _ | .jump _ | .jr _ | .halt | .wait _ _ _ | .waiti _ _ | .illegal _ | .noFetch => s
  | y => s.applyV p c.clock (s0.vOut p y)

/-! ## The next bundle (R146-R151) -/

/-- The loop test of one level: the count it leaves and where it goes, when it goes back (R149). -/
def Loop.test (l : Loop) (pc : BitVec 16) (n : Nat) : Option (BitVec 16 × Option (BitVec 16)) :=
  if pc.toNat ≤ l.le.toNat ∧ l.le.toNat < pc.toNat + n then
    (if 2 ≤ l.lc.toNat then some (l.lc - 1#16, some l.ls) else if l.lc = 1#16 then some (0#16, none) else none)
  else none

/-- Where a loop syllable that loads a count of 0 goes: past its body (R150). `after` is the address past a body's end. -/
def Core.skipTo (c : Core) (after : BitVec 12 → BitVec 16) : Syl → Option (BitVec 16)
  | .loop _ ra last => if c.sr ra = 0#16 then some (after last) else none
  | .loopi _ count last => if count = 0 then some (after last) else none
  | _ => none

/-- The address past the body of a loop syllable at address a of a bundle that ends before `seq`. -/
def State.pastBody (s : State) (p a : Nat) (seq : BitVec 16) (last : BitVec 12) : BitVec 16 :=
  if a + last.toNat < seq.toNat then seq else BitVec.ofNat 16 (s.nextBundle p (a + last.toNat))

/-- The loop counts and the pc after a bundle with no branch taken or pending (R149, R150): the inner level is tested first. -/
def State.loopOn (s : State) (p : Nat) (c : Core) (n : Nat) (b : List Syl) (x : Core) : Core :=
  let seq := c.pc + BitVec.ofNat 16 n
  let loaded := b.findSome? Syl.loads
  let t1 := if loaded = some 1#1 then none else c.loop1.test c.pc n
  let back1 : Bool := match t1 with
    | some (_, some _) => true
    | _ => false
  let t0 := if loaded = some 0#1 ∨ back1 then none else c.loop0.test c.pc n
  let put (t : Option (BitVec 16 × Option (BitVec 16))) (l : Loop) : Loop := match t with
    | some (k, _) => { l with lc := k }
    | none => l
  let goes (t : Option (BitVec 16 × Option (BitVec 16))) : Option (BitVec 16) := match t with
    | some (_, g) => g
    | none => none
  let skip : Option (BitVec 16) := (List.zip (List.range b.length) b).findSome? fun y =>
    c.skipTo (s.pastBody p (c.pc.toNat + y.1) seq) y.2
  let pc := match goes t1, goes t0, skip with
    | some x, _, _ => x
    | none, some x, _ => x
    | none, none, some x => x
    | none, none, none => seq
  { x with pc := pc, loop0 := put t0 c.loop0, loop1 := put t1 c.loop1 }

/-- Where issue goes after a bundle of n syllables, with the loop counts and the branch state it leaves; c is the core as
it stood at issue. -/
def State.goOn (s : State) (p : Nat) (c : Core) (n : Nat) (b : List Syl) (x : Core) : Core :=
  let seq := c.pc + BitVec.ofNat 16 n
  match b.findSome? c.target, c.branch with
  | some t, _ => { x with pc := seq, branch := some (t, 2) }
  | none, some (t, k) => if k ≤ 1 then { x with pc := t, branch := none } else { x with pc := seq, branch := some (t, k - 1) }
  | none, none => s.loopOn p c n b x

def State.advance (s : State) (p : Nat) (c : Core) (n : Nat) (b : List Syl) : State := s.modCore p (s.goOn p c n b)

/-! ## Issue -/

/-- The presented bundle issues: pending writes due this clock land, the bundle acts, the clock advances (R141, R145). -/
def State.issue (s : State) (gc slot : Nat) (b : List Syl) : State :=
  let p := slotKey gc slot
  let c := s.core p
  let n := b.length
  let s1 := (s.landDue p c.clock).advance p c n b
  let s2 := (List.zip (List.range n) b).foldl (fun t y => s.act gc slot c (c.pc.toNat + y.1) n y.2 t) s1
  let s3 := (s2.modCore p fun x => { x with clock := c.clock + 1, bundle := [] }).draw
  if b.any (· = .halt) then
    (s3.landAll p).modCore p fun x => { x with run := .halted, trap := Trap.none }
  -- a drain stops issue at the first boundary with no delay bundle left (R173)
  else if s3.st ⟨.cor, p⟩ = PS.draining ∧ (s3.core p).branch.isNone then
    (s3.landAll p).modCore p fun x => { x with pausing := true }
  else s3

/-- A clock in which issue is held (R144, R145). -/
def State.holdClock (s : State) (p : Nat) : State :=
  let t := (s.core p).clock
  (s.landDue p t).modCore p fun c => { c with clock := t + 1, bundle := [] }

/-- The duty-cycle limiter of a cluster lets a core issue in its present clock (R330, R561): of every 1,024 clocks of the cores of a
capped partition 64 * DUTY. Which ones is not stated: the first. DESIGN CHOICE (log 102). -/
def State.dutyOpen (s : State) (gc slot : Nat) : Bool :=
  let q := s.clusterPart gc
  (s.part q).pcap = 0#16 || decide ((s.core (slotKey gc slot)).clock % 1024 < 64 * s.rd (Reg.TEL_P_CAP_DUTY (s.partHub q) q))

/-- A complete bundle is presented for issue for one clock: the limiter holds it, it traps, is held by its WAIT, or issues
(R166, R561). -/
def State.presentBundle (s : State) (gc slot : Nat) (b0 : List Syl) : State :=
  let p := slotKey gc slot
  let c := s.core p
  let b := (List.zip (List.range b0.length) b0).map fun y => if c.pc.toNat + y.1 < 32768 then y.2 else .noFetch
  let met := match b.findSome? (c.waitOf gc) with
    | some (id, t) => reaches (s.beacon id) t
    | none => true
  if !s.dutyOpen gc slot then s.holdClock p
  else match s.bundleTrap gc slot c met [] b with
  | some (cause, unit) => s.takeTrap p cause c.pc unit false
  | none => if met then s.issue gc slot b else s.holdClock p

/-- Whether a core issues: RUNNING, and no pause has stopped it. -/
def Core.issues (c : Core) : Bool := c.run = .running && !c.pausing

/-- A syllable is presented to a core's sequencer: it joins the bundle now being presented, and the syllable with STOP set
completes it. A core that does not issue takes nothing. DESIGN CHOICE (log 10). -/
def State.present (gc : Fin 160) (slot : Fin 18) (stop : Bool) (y : Syl) (s : State) : Res :=
  let p := slotKey gc slot
  let c := s.core p
  if !c.issues then .next s
  else if stop then .next (s.presentBundle gc slot (c.bundle ++ [y]))
  else .next (s.setCore p { c with bundle := c.bundle ++ [y] })

/-- One clock of a core that fetches its own program (R139, R140). -/
def State.runBundle (s : State) (p : Nat) : State :=
  s.presentBundle (p / 18) (p % 18) (s.fetchFrom p 6 (s.core p).pc.toNat)

/-- The running core whose turn comes next after the one that fetched last. DESIGN CHOICE (log 1). -/
def State.nextRunning (s : State) : Option Nat :=
  let ready (f : Nat → Bool) : Option Nat := (s.cores.find? fun e => f e.1 && e.2.issues).map (·.1)
  match ready (fun k => s.fetchPtr < k) with
  | some k => some k
  | none => ready fun _ => true

/-- What the block does with no command waiting: the next running core fetches and issues one bundle of its own program;
with none running it idles. DESIGN CHOICE (log 1). -/
def State.idle (s : State) : State :=
  match s.nextRunning with
  | some k => ({ s with fetchPtr := k } : State).runBundle k
  | none => s

/-- REGISTER_WRITE_LANDS (R144, R145): clocks without issue pass up to the end of the next landing clock, and what is due
lands. -/
def execRegisterWriteLands (gc : Fin 160) (slot : Fin 18) (s : State) : Res :=
  let p := slotKey gc slot
  match (s.core p).pend with
  | [] => .next s
  | x :: _ => .next ((s.landDue p x.land).modCore p fun c => { c with clock := max c.clock (x.land + 1) })

end Sys2Proof.Machine
end

