-- ==== Sys2Proof/Machine/Syllables.lean ====
section
/-! DEFINITION. The syllables (R138-R166): each is presented to the sequencer of a physical core slot, with its STOP bit. A
bundle is presented one syllable at a time and acts as a whole when the syllable with STOP comes (R139, R141). -/
namespace Sys2Proof.Machine

/-- NOP (R153): the scalar NOP syllable does nothing. -/
def execNop (gc : Fin 160) (slot : Fin 18) (stop : Bool) (s : State) : Res :=
  State.present gc slot stop (.nop) s

/-- ADD (R153): rd := ra + rb, modulo 2^16. -/
def execAdd (gc : Fin 160) (slot : Fin 18) (stop : Bool) (rd ra rb : BitVec 4) (s : State) : Res :=
  State.present gc slot stop (.alu .add rd ra rb) s

/-- SUB (R153): rd := ra − rb, modulo 2^16. -/
def execSub (gc : Fin 160) (slot : Fin 18) (stop : Bool) (rd ra rb : BitVec 4) (s : State) : Res :=
  State.present gc slot stop (.alu .sub rd ra rb) s

/-- AND (R153): rd := ra AND rb. -/
def execAnd (gc : Fin 160) (slot : Fin 18) (stop : Bool) (rd ra rb : BitVec 4) (s : State) : Res :=
  State.present gc slot stop (.alu .and rd ra rb) s

/-- OR (R153): rd := ra OR rb. -/
def execOr (gc : Fin 160) (slot : Fin 18) (stop : Bool) (rd ra rb : BitVec 4) (s : State) : Res :=
  State.present gc slot stop (.alu .or rd ra rb) s

/-- XOR (R153): rd := ra XOR rb. -/
def execXor (gc : Fin 160) (slot : Fin 18) (stop : Bool) (rd ra rb : BitVec 4) (s : State) : Res :=
  State.present gc slot stop (.alu .xor rd ra rb) s

/-- SHL (R153): rd := ra shifted left by rb[3:0]. -/
def execShl (gc : Fin 160) (slot : Fin 18) (stop : Bool) (rd ra rb : BitVec 4) (s : State) : Res :=
  State.present gc slot stop (.alu .shl rd ra rb) s

/-- SHR (R153): logical right shift of ra by rb[3:0]. -/
def execShr (gc : Fin 160) (slot : Fin 18) (stop : Bool) (rd ra rb : BitVec 4) (s : State) : Res :=
  State.present gc slot stop (.alu .shr rd ra rb) s

/-- SRA (R153): arithmetic right shift of ra by rb[3:0]. -/
def execSra (gc : Fin 160) (slot : Fin 18) (stop : Bool) (rd ra rb : BitVec 4) (s : State) : Res :=
  State.present gc slot stop (.alu .sra rd ra rb) s

/-- MUL (R153): rd := low 16 bits of ra × rb. -/
def execMul (gc : Fin 160) (slot : Fin 18) (stop : Bool) (rd ra rb : BitVec 4) (s : State) : Res :=
  State.present gc slot stop (.alu .mul rd ra rb) s

/-- MULHU (R153): rd := high 16 bits of the unsigned product. -/
def execMulhu (gc : Fin 160) (slot : Fin 18) (stop : Bool) (rd ra rb : BitVec 4) (s : State) : Res :=
  State.present gc slot stop (.alu .mulhu rd ra rb) s

/-- SLT (R153): rd := 1 if ra < rb, signed, else 0. -/
def execSlt (gc : Fin 160) (slot : Fin 18) (stop : Bool) (rd ra rb : BitVec 4) (s : State) : Res :=
  State.present gc slot stop (.alu .slt rd ra rb) s

/-- SLTU (R153): rd := 1 if ra < rb, unsigned, else 0. -/
def execSltu (gc : Fin 160) (slot : Fin 18) (stop : Bool) (rd ra rb : BitVec 4) (s : State) : Res :=
  State.present gc slot stop (.alu .sltu rd ra rb) s

/-- ADDI (R153): rd := ra + sign-extended imm14. -/
def execAddi (gc : Fin 160) (slot : Fin 18) (stop : Bool) (rd ra : BitVec 4) (imm : BitVec 14) (s : State) : Res :=
  State.present gc slot stop (.alui .add rd ra imm) s

/-- ANDI (R153): rd := ra AND zero-extended imm14. -/
def execAndi (gc : Fin 160) (slot : Fin 18) (stop : Bool) (rd ra : BitVec 4) (imm : BitVec 14) (s : State) : Res :=
  State.present gc slot stop (.alui .and rd ra imm) s

/-- ORI (R153): rd := ra OR zero-extended imm14. -/
def execOri (gc : Fin 160) (slot : Fin 18) (stop : Bool) (rd ra : BitVec 4) (imm : BitVec 14) (s : State) : Res :=
  State.present gc slot stop (.alui .or rd ra imm) s

/-- XORI (R153): rd := ra XOR zero-extended imm14. -/
def execXori (gc : Fin 160) (slot : Fin 18) (stop : Bool) (rd ra : BitVec 4) (imm : BitVec 14) (s : State) : Res :=
  State.present gc slot stop (.alui .xor rd ra imm) s

/-- SHLI (R153): left shift of ra by imm14[3:0]. -/
def execShli (gc : Fin 160) (slot : Fin 18) (stop : Bool) (rd ra : BitVec 4) (imm : BitVec 14) (s : State) : Res :=
  State.present gc slot stop (.alui .shl rd ra imm) s

/-- SHRI (R153): logical right shift of ra by imm14[3:0]. -/
def execShri (gc : Fin 160) (slot : Fin 18) (stop : Bool) (rd ra : BitVec 4) (imm : BitVec 14) (s : State) : Res :=
  State.present gc slot stop (.alui .shr rd ra imm) s

/-- SRAI (R153): arithmetic right shift of ra by imm14[3:0]. -/
def execSrai (gc : Fin 160) (slot : Fin 18) (stop : Bool) (rd ra : BitVec 4) (imm : BitVec 14) (s : State) : Res :=
  State.present gc slot stop (.alui .sra rd ra imm) s

/-- LI (R153): rd := imm16. -/
def execLi (gc : Fin 160) (slot : Fin 18) (stop : Bool) (rd : BitVec 4) (imm : BitVec 16) (s : State) : Res :=
  State.present gc slot stop (.li rd imm) s

/-- LDB (R154): loads a sign-extended byte from data memory, trapping on range or poison. -/
def execLdb (gc : Fin 160) (slot : Fin 18) (stop : Bool) (rd ra : BitVec 4) (off : BitVec 10) (byte : BitVec 4)
    (s : State) : Res :=
  State.present gc slot stop (.load .ldb rd ra off byte) s

/-- LDBU (R154): loads a zero-extended byte from data memory. -/
def execLdbu (gc : Fin 160) (slot : Fin 18) (stop : Bool) (rd ra : BitVec 4) (off : BitVec 10) (byte : BitVec 4)
    (s : State) : Res :=
  State.present gc slot stop (.load .ldbu rd ra off byte) s

/-- LDH (R154): loads 16 bits from an even byte of a data memory word. -/
def execLdh (gc : Fin 160) (slot : Fin 18) (stop : Bool) (rd ra : BitVec 4) (off : BitVec 10) (byte : BitVec 4)
    (s : State) : Res :=
  State.present gc slot stop (.load .ldh rd ra off byte) s

/-- STB (R154): stores rd[7:0] into a data memory byte, visible at the end of the bundle. -/
def execStb (gc : Fin 160) (slot : Fin 18) (stop : Bool) (rs ra : BitVec 4) (off : BitVec 10) (byte : BitVec 4)
    (s : State) : Res :=
  State.present gc slot stop (.store false rs ra off byte) s

/-- STH (R154): stores rd into 16 bits at an even byte of data memory. -/
def execSth (gc : Fin 160) (slot : Fin 18) (stop : Bool) (rs ra : BitVec 4) (off : BitVec 10) (byte : BitVec 4)
    (s : State) : Res :=
  State.present gc slot stop (.store true rs ra off byte) s

/-- BEQ (R146): branches by OFF, after two delay bundles, if ra = rb. -/
def execBeq (gc : Fin 160) (slot : Fin 18) (stop : Bool) (ra rb : BitVec 4) (off : BitVec 12) (s : State) : Res :=
  State.present gc slot stop (.branch .eq ra rb off) s

/-- BNE (R146): branches if ra ≠ rb. -/
def execBne (gc : Fin 160) (slot : Fin 18) (stop : Bool) (ra rb : BitVec 4) (off : BitVec 12) (s : State) : Res :=
  State.present gc slot stop (.branch .ne ra rb off) s

/-- BLT (R146): branches if ra < rb, signed. -/
def execBlt (gc : Fin 160) (slot : Fin 18) (stop : Bool) (ra rb : BitVec 4) (off : BitVec 12) (s : State) : Res :=
  State.present gc slot stop (.branch .lt ra rb off) s

/-- BGE (R146): branches if ra ≥ rb, signed. -/
def execBge (gc : Fin 160) (slot : Fin 18) (stop : Bool) (ra rb : BitVec 4) (off : BitVec 12) (s : State) : Res :=
  State.present gc slot stop (.branch .ge ra rb off) s

/-- BLTU (R146): branches if ra < rb, unsigned. -/
def execBltu (gc : Fin 160) (slot : Fin 18) (stop : Bool) (ra rb : BitVec 4) (off : BitVec 12) (s : State) : Res :=
  State.present gc slot stop (.branch .ltu ra rb off) s

/-- BGEU (R146): branches if ra ≥ rb, unsigned. -/
def execBgeu (gc : Fin 160) (slot : Fin 18) (stop : Bool) (ra rb : BitVec 4) (off : BitVec 12) (s : State) : Res :=
  State.present gc slot stop (.branch .geu ra rb off) s

/-- J (R146): branches to an absolute 16-bit syllable address. -/
def execJ (gc : Fin 160) (slot : Fin 18) (stop : Bool) (target : BitVec 16) (s : State) : Res :=
  State.present gc slot stop (.jump target) s

/-- JAL (R147): branches to an absolute target and writes the link into rd. -/
def execJal (gc : Fin 160) (slot : Fin 18) (stop : Bool) (rd : BitVec 4) (target : BitVec 16) (s : State) : Res :=
  State.present gc slot stop (.jal rd target) s

/-- JR (R146): branches to the address held in ra. -/
def execJr (gc : Fin 160) (slot : Fin 18) (stop : Bool) (ra : BitVec 4) (s : State) : Res :=
  State.present gc slot stop (.jr ra) s

/-- LOOP (R148): loads loop level n with LS, LE and the count from ra. -/
def execLoop (gc : Fin 160) (slot : Fin 18) (stop : Bool) (level : BitVec 1) (ra : BitVec 4) (last : BitVec 12)
    (s : State) : Res :=
  State.present gc slot stop (.loop level ra last) s

/-- LOOPI (R148): loads loop level n with LS, LE and an immediate count, skipping the body when the count is 0. -/
def execLoopi (gc : Fin 160) (slot : Fin 18) (stop : Bool) (level : BitVec 1) (count : BitVec 9) (last : BitVec 12)
    (s : State) : Res :=
  State.present gc slot stop (.loopi level count last) s

/-- MFSR (R143): rd := the special register named. -/
def execMfsr (gc : Fin 160) (slot : Fin 18) (stop : Bool) (rd : BitVec 4) (code : BitVec 6) (s : State) : Res :=
  State.present gc slot stop (.mfsr rd code) s

/-- MTSR (R143): writes ra into a writable special register. -/
def execMtsr (gc : Fin 160) (slot : Fin 18) (stop : Bool) (ra : BitVec 4) (code : BitVec 6) (s : State) : Res :=
  State.present gc slot stop (.mtsr ra code) s

/-- HALT (R172): stops the core with RUN HALTED and TRAP 0. -/
def execHalt (gc : Fin 160) (slot : Fin 18) (stop : Bool) (s : State) : Res :=
  State.present gc slot stop (.halt) s

/-- MMA (R105): captures and checks a three-word command block and queues a matrix multiply-accumulate. -/
def execMma (gc : Fin 160) (slot : Fin 18) (stop : Bool) (reg : BitVec 1) (ra : BitVec 4) (addr : BitVec 16)
    (s : State) : Res :=
  State.present gc slot stop (.mop .mma reg ra addr) s

/-- MDRAIN (R110): captures and checks a drain descriptor and queues a drain of the tile. -/
def execMdrain (gc : Fin 160) (slot : Fin 18) (stop : Bool) (reg : BitVec 1) (ra : BitVec 4) (addr : BitVec 16)
    (s : State) : Res :=
  State.present gc slot stop (.mop .mdrain reg ra addr) s

/-- MCLR (R115): queues a clear of the accumulator tile. -/
def execMclr (gc : Fin 160) (slot : Fin 18) (stop : Bool) (reg : BitVec 1) (ra : BitVec 4) (addr : BitVec 16)
    (s : State) : Res :=
  State.present gc slot stop (.mop .mclr reg ra addr) s

/-- VLD (R123): loads 8 data memory words into a vector register, marking poisoned parts. -/
def execVld (gc : Fin 160) (slot : Fin 18) (stop : Bool) (v : BitVec 5) (ra : BitVec 4) (off : BitVec 13)
    (s : State) : Res :=
  State.present gc slot stop (.vld v ra off) s

/-- VST (R124): stores a vector register into 8 words, visible at the end of the bundle. -/
def execVst (gc : Fin 160) (slot : Fin 18) (stop : Bool) (v : BitVec 5) (ra : BitVec 4) (off : BitVec 13)
    (s : State) : Res :=
  State.present gc slot stop (.vst v ra off) s

/-- VADD (R123): vd := va + vb per lane. -/
def execVadd (gc : Fin 160) (slot : Fin 18) (stop : Bool) (a : VrArgs) (s : State) : Res :=
  State.present gc slot stop (.vr .vadd a) s

/-- VSUB (R123): vd := va − vb per lane. -/
def execVsub (gc : Fin 160) (slot : Fin 18) (stop : Bool) (a : VrArgs) (s : State) : Res :=
  State.present gc slot stop (.vr .vsub a) s

/-- VMUL (R123): vd := va × vb per lane, GL16 by R128. -/
def execVmul (gc : Fin 160) (slot : Fin 18) (stop : Bool) (a : VrArgs) (s : State) : Res :=
  State.present gc slot stop (.vr .vmul a) s

/-- VFMA (R121): vd := vd + va × vb, rounded once. -/
def execVfma (gc : Fin 160) (slot : Fin 18) (stop : Bool) (a : VrArgs) (s : State) : Res :=
  State.present gc slot stop (.vr .vfma a) s

/-- VDIV (R128): GL16 division by subtraction of logs. -/
def execVdiv (gc : Fin 160) (slot : Fin 18) (stop : Bool) (a : VrArgs) (s : State) : Res :=
  State.present gc slot stop (.vr .vdiv a) s

/-- VSQRT (R128): GL16 square root by halving n. -/
def execVsqrt (gc : Fin 160) (slot : Fin 18) (stop : Bool) (a : VrArgs) (s : State) : Res :=
  State.present gc slot stop (.vr .vsqrt a) s

/-- VMIN (R123): per-lane minimum. -/
def execVmin (gc : Fin 160) (slot : Fin 18) (stop : Bool) (a : VrArgs) (s : State) : Res :=
  State.present gc slot stop (.vr .vmin a) s

/-- VMAX (R123): per-lane maximum. -/
def execVmax (gc : Fin 160) (slot : Fin 18) (stop : Bool) (a : VrArgs) (s : State) : Res :=
  State.present gc slot stop (.vr .vmax a) s

/-- VABS (R123): per-lane magnitude. -/
def execVabs (gc : Fin 160) (slot : Fin 18) (stop : Bool) (a : VrArgs) (s : State) : Res :=
  State.present gc slot stop (.vr .vabs a) s

/-- VNEG (R123): per-lane negation. -/
def execVneg (gc : Fin 160) (slot : Fin 18) (stop : Bool) (a : VrArgs) (s : State) : Res :=
  State.present gc slot stop (.vr .vneg a) s

/-- VAND (R123): bitwise AND. -/
def execVand (gc : Fin 160) (slot : Fin 18) (stop : Bool) (a : VrArgs) (s : State) : Res :=
  State.present gc slot stop (.vr .vand a) s

/-- VOR (R123): bitwise OR. -/
def execVor (gc : Fin 160) (slot : Fin 18) (stop : Bool) (a : VrArgs) (s : State) : Res :=
  State.present gc slot stop (.vr .vor a) s

/-- VXOR (R123): bitwise XOR. -/
def execVxor (gc : Fin 160) (slot : Fin 18) (stop : Bool) (a : VrArgs) (s : State) : Res :=
  State.present gc slot stop (.vr .vxor a) s

/-- VNOT (R123): bitwise NOT. -/
def execVnot (gc : Fin 160) (slot : Fin 18) (stop : Bool) (a : VrArgs) (s : State) : Res :=
  State.present gc slot stop (.vr .vnot a) s

/-- VSHL (R123): left shift of each lane by the same lane of vb. -/
def execVshl (gc : Fin 160) (slot : Fin 18) (stop : Bool) (a : VrArgs) (s : State) : Res :=
  State.present gc slot stop (.vr .vshl a) s

/-- VSHR (R123): logical right shift of each lane. -/
def execVshr (gc : Fin 160) (slot : Fin 18) (stop : Bool) (a : VrArgs) (s : State) : Res :=
  State.present gc slot stop (.vr .vshr a) s

/-- VSRA (R123): arithmetic right shift of each lane. -/
def execVsra (gc : Fin 160) (slot : Fin 18) (stop : Bool) (a : VrArgs) (s : State) : Res :=
  State.present gc slot stop (.vr .vsra a) s

/-- VCMPEQ (R123): lane := all ones where equal. -/
def execVcmpeq (gc : Fin 160) (slot : Fin 18) (stop : Bool) (a : VrArgs) (s : State) : Res :=
  State.present gc slot stop (.vr .vcmpeq a) s

/-- VCMPNE (R123): lane := all ones where not equal. -/
def execVcmpne (gc : Fin 160) (slot : Fin 18) (stop : Bool) (a : VrArgs) (s : State) : Res :=
  State.present gc slot stop (.vr .vcmpne a) s

/-- VCMPLT (R123): lane := all ones where less. -/
def execVcmplt (gc : Fin 160) (slot : Fin 18) (stop : Bool) (a : VrArgs) (s : State) : Res :=
  State.present gc slot stop (.vr .vcmplt a) s

/-- VCMPLE (R123): lane := all ones where less or equal. -/
def execVcmple (gc : Fin 160) (slot : Fin 18) (stop : Bool) (a : VrArgs) (s : State) : Res :=
  State.present gc slot stop (.vr .vcmple a) s

/-- VPERM (R123): byte permutation of va by the indices in vb. -/
def execVperm (gc : Fin 160) (slot : Fin 18) (stop : Bool) (a : VrArgs) (s : State) : Res :=
  State.present gc slot stop (.vr .vperm a) s

/-- VRSUM (R126): pairwise tree sum of all lanes into lane 0. -/
def execVrsum (gc : Fin 160) (slot : Fin 18) (stop : Bool) (a : VrArgs) (s : State) : Res :=
  State.present gc slot stop (.vr .vrsum a) s

/-- VRMAX (R126): maximum of all lanes into lane 0. -/
def execVrmax (gc : Fin 160) (slot : Fin 18) (stop : Bool) (a : VrArgs) (s : State) : Res :=
  State.present gc slot stop (.vr .vrmax a) s

/-- VRMIN (R126): minimum of all lanes into lane 0. -/
def execVrmin (gc : Fin 160) (slot : Fin 18) (stop : Bool) (a : VrArgs) (s : State) : Res :=
  State.present gc slot stop (.vr .vrmin a) s

/-- VEXP (R129): writes the GL16 code of e^x per lane. -/
def execVexp (gc : Fin 160) (slot : Fin 18) (stop : Bool) (a : VrArgs) (s : State) : Res :=
  State.present gc slot stop (.vr .vexp a) s

/-- VLOG (R130): writes base-2 or natural logarithms of GL16 lanes. -/
def execVlog (gc : Fin 160) (slot : Fin 18) (stop : Bool) (a : VrArgs) (s : State) : Res :=
  State.present gc slot stop (.vr .vlog a) s

/-- VRAIL_ADD (R132): adds rail records pairwise, saturating P and Q. -/
def execVrailAdd (gc : Fin 160) (slot : Fin 18) (stop : Bool) (a : VrArgs) (s : State) : Res :=
  State.present gc slot stop (.vr .vrailAdd a) s

/-- VRAIL_FIN (R132): converts 8 rail records to FP32 by the drain formula. -/
def execVrailFin (gc : Fin 160) (slot : Fin 18) (stop : Bool) (a : VrArgs) (s : State) : Res :=
  State.present gc slot stop (.vr .vrailFin a) s

/-- VQNT (R134): quantises lanes into a blocked Glim form, writes sidecar entries and feeds the estimator. -/
def execVqnt (gc : Fin 160) (slot : Fin 18) (stop : Bool) (a : VrArgs) (s : State) : Res :=
  State.present gc slot stop (.vr .vqnt a) s

/-- VQCFG (R133): writes the quantiser state and clears QTRIP. -/
def execVqcfg (gc : Fin 160) (slot : Fin 18) (stop : Bool) (a : VrArgs) (s : State) : Res :=
  State.present gc slot stop (.vr .vqcfg a) s

/-- VQRD (R133): reads the quantiser state into a register. -/
def execVqrd (gc : Fin 160) (slot : Fin 18) (stop : Bool) (a : VrArgs) (s : State) : Res :=
  State.present gc slot stop (.vr .vqrd a) s

/-- VSEED (R89): loads the LFSR state from lane 0, replacing 0 by 1. -/
def execVseed (gc : Fin 160) (slot : Fin 18) (stop : Bool) (a : VrArgs) (s : State) : Res :=
  State.present gc slot stop (.vr .vseed a) s

/-- VFLG (R127): reads SAT and INVALID into lane 0. -/
def execVflg (gc : Fin 160) (slot : Fin 18) (stop : Bool) (a : VrArgs) (s : State) : Res :=
  State.present gc slot stop (.vr .vflg a) s

/-- VFLGC (R127): clears SAT and INVALID. -/
def execVflgc (gc : Fin 160) (slot : Fin 18) (stop : Bool) (a : VrArgs) (s : State) : Res :=
  State.present gc slot stop (.vr .vflgc a) s

/-- VSEL (R123): bitwise select of va or vb under mask vm. -/
def execVsel (gc : Fin 160) (slot : Fin 18) (stop : Bool) (vd va vb vm : BitVec 5) (s : State) : Res :=
  State.present gc slot stop (.vsel vd va vb vm) s

/-- VSPLAT (R125): fills every lane from a scalar register. -/
def execVsplat (gc : Fin 160) (slot : Fin 18) (stop : Bool) (vd : BitVec 5) (sx type : BitVec 4) (s : State) : Res :=
  State.present gc slot stop (.vsplat vd sx type) s

/-- VEXT (R123): copies the low 16 bits of one lane into a scalar register, trapping on poison. -/
def execVext (gc : Fin 160) (slot : Fin 18) (stop : Bool) (sd : BitVec 4) (vs : BitVec 5) (lane : BitVec 7)
    (type : BitVec 4) (s : State) : Res :=
  State.present gc slot stop (.vext sd vs lane type) s

/-- VCVT (R136): converts between lane types, quantising into Glim forms without escapes. -/
def execVcvt (gc : Fin 160) (slot : Fin 18) (stop : Bool) (vd vs : BitVec 5) (dtype stype : BitVec 4)
    (part : BitVec 2) (s : State) : Res :=
  State.present gc slot stop (.vcvt vd vs dtype stype part) s

/-- XSET (R158): writes a part of a channel's move-state register. -/
def execXset (gc : Fin 160) (slot : Fin 18) (stop : Bool) (ch : BitVec 2) (field : BitVec 3) (part : BitVec 2)
    (rs : BitVec 4) (s : State) : Res :=
  State.present gc slot stop (.xset ch field part rs) s

/-- XGET (R158): reads a part of a move-state register into a scalar register. -/
def execXget (gc : Fin 160) (slot : Fin 18) (stop : Bool) (ch : BitVec 2) (field : BitVec 3) (part : BitVec 2)
    (rd : BitVec 4) (s : State) : Res :=
  State.present gc slot stop (.xget ch field part rd) s

/-- MOVS (R161): captures the move-state registers and queues a copy on a channel. -/
def execMovs (gc : Fin 160) (slot : Fin 18) (stop : Bool) (ch : BitVec 2) (s : State) : Res :=
  State.present gc slot stop (.xop .movs ch) s

/-- FILL (R161): captures the move-state registers and queues a pattern fill. -/
def execFill (gc : Fin 160) (slot : Fin 18) (stop : Bool) (ch : BitVec 2) (s : State) : Res :=
  State.present gc slot stop (.xop .fill ch) s

/-- GATHER (R161): captures the move-state registers and queues a copy of listed segments. -/
def execGather (gc : Fin 160) (slot : Fin 18) (stop : Bool) (ch : BitVec 2) (s : State) : Res :=
  State.present gc slot stop (.xop .gather ch) s

/-- WPULL (R161): queues a take of one work descriptor from the cluster work queue. -/
def execWpull (gc : Fin 160) (slot : Fin 18) (stop : Bool) (ch : BitVec 2) (s : State) : Res :=
  State.present gc slot stop (.xop .wpull ch) s

/-- XSTOP (R164): pauses the running operation of a channel with write-back and discards the operations queued behind
it. -/
def execXstop (gc : Fin 160) (slot : Fin 18) (stop : Bool) (ch : BitVec 2) (s : State) : Res :=
  State.present gc slot stop (.xstop ch) s

/-- XCLR (R160): clears XSTAT.STATUS of a channel. -/
def execXclr (gc : Fin 160) (slot : Fin 18) (stop : Bool) (ch : BitVec 2) (s : State) : Res :=
  State.present gc slot stop (.xclr ch) s

/-- SIGI (R165): adds an immediate to an own-cluster beacon. -/
def execSigi (gc : Fin 160) (slot : Fin 18) (stop : Bool) (n : BitVec 7) (imm : BitVec 15) (s : State) : Res :=
  State.present gc slot stop (.sigi n imm) s

/-- SIG (R165): adds rb to an own-cluster beacon named by ra. -/
def execSig (gc : Fin 160) (slot : Fin 18) (stop : Bool) (ra rb : BitVec 4) (s : State) : Res :=
  State.present gc slot stop (.sig ra rb) s

/-- RSIGI (R182): adds an immediate to any partition beacon through the pending-signal table. -/
def execRsigi (gc : Fin 160) (slot : Fin 18) (stop : Bool) (id : BitVec 15) (imm : BitVec 7) (s : State) : Res :=
  State.present gc slot stop (.rsigi id imm) s

/-- RSIG (R182): adds rb to a partition beacon through the pending-signal table. -/
def execRsig (gc : Fin 160) (slot : Fin 18) (stop : Bool) (ra rb : BitVec 4) (s : State) : Res :=
  State.present gc slot stop (.rsig ra rb) s

/-- SETB (R165): sets an own-cluster beacon to a value. -/
def execSetb (gc : Fin 160) (slot : Fin 18) (stop : Bool) (ra rb rc : BitVec 4) (s : State) : Res :=
  State.present gc slot stop (.setb ra rb rc) s

/-- WAIT (R166): the bundle issues in the first clock in which the own-cluster beacon reaches its register target. -/
def execWait (gc : Fin 160) (slot : Fin 18) (stop : Bool) (ra rb rc : BitVec 4) (s : State) : Res :=
  State.present gc slot stop (.wait ra rb rc) s

/-- WAITI (R166): the bundle issues when an own-cluster beacon reaches an immediate target. -/
def execWaiti (gc : Fin 160) (slot : Fin 18) (stop : Bool) (n : BitVec 7) (imm : BitVec 15) (s : State) : Res :=
  State.present gc slot stop (.waiti n imm) s

/-- BRD (R165): reads half of an own-cluster beacon into a scalar register. -/
def execBrd (gc : Fin 160) (slot : Fin 18) (stop : Bool) (rd rb : BitVec 4) (hi : BitVec 1) (s : State) : Res :=
  State.present gc slot stop (.brd rd rb hi) s

end Sys2Proof.Machine
end

