-- ==== Sys2Proof/Machine/Dispatch.lean ====
section
/-! DEFINITION. One arm for each command: a direct call of its meaning. -/
namespace Sys2Proof.Machine
open Sys2Proof

/-- The effect of a command on everything but the queue of waiting commands. -/
def exec (i : Instr) (s : State) : Host.Outcome State Fault Refusal :=
  match i with
  | .powerUp ok => Sys2Proof.Machine.execPowerUp ok s
  | .porstN => Sys2Proof.Machine.execPorstN s
  | .wrstN => Sys2Proof.Machine.execWrstN s
  | .romCheck f => Sys2Proof.Machine.execRomCheck f s
  | .perstAssert link => Sys2Proof.Machine.execPerstAssert link s
  | .perstRelease link => Sys2Proof.Machine.execPerstRelease link s
  | .pfailN => Sys2Proof.Machine.execPfailN s
  | .pfailRelease => Sys2Proof.Machine.execPfailRelease s
  | .thermAlertN => Sys2Proof.Machine.execThermAlertN s
  | .pwrOkDeassert inst => Sys2Proof.Machine.execPwrOkDeassert inst s
  | .refclkStop clk => Sys2Proof.Machine.execRefclkStop clk s
  | .blockEnable p => Sys2Proof.Machine.execBlockEnable p s
  | .blockReady p => Sys2Proof.Machine.execBlockReady p s
  | .blockDisable p => Sys2Proof.Machine.execBlockDisable p s
  | .blockDrain p => Sys2Proof.Machine.execBlockDrain p s
  | .drainDone p => Sys2Proof.Machine.execDrainDone p s
  | .resetDone p => Sys2Proof.Machine.execResetDone p s
  | .blockFence p bit => Sys2Proof.Machine.execBlockFence p bit s
  | .crcSweepEnd p flips => Sys2Proof.Machine.execCrcSweepEnd p flips s
  | .bucketPeriodEnd p => Sys2Proof.Machine.execBucketPeriodEnd p s
  | .errStatWrite p v => Sys2Proof.Machine.execErrStatWrite p v s
  | .cfgCrcRefWrite p v => Sys2Proof.Machine.execCfgCrcRefWrite p v s
  | .bucketCfgWrite p v => Sys2Proof.Machine.execBucketCfgWrite p v s
  | .registerWrite r a v second aux => Sys2Proof.Machine.execRegisterWrite r a v second aux s
  | .unimplementedAccess x n write => Sys2Proof.Machine.execUnimplementedAccess x n write s
  | .nop gc slot stop => Sys2Proof.Machine.execNop gc slot stop s
  | .add gc slot stop rd ra rb => Sys2Proof.Machine.execAdd gc slot stop rd ra rb s
  | .sub gc slot stop rd ra rb => Sys2Proof.Machine.execSub gc slot stop rd ra rb s
  | .and gc slot stop rd ra rb => Sys2Proof.Machine.execAnd gc slot stop rd ra rb s
  | .or gc slot stop rd ra rb => Sys2Proof.Machine.execOr gc slot stop rd ra rb s
  | .xor gc slot stop rd ra rb => Sys2Proof.Machine.execXor gc slot stop rd ra rb s
  | .shl gc slot stop rd ra rb => Sys2Proof.Machine.execShl gc slot stop rd ra rb s
  | .shr gc slot stop rd ra rb => Sys2Proof.Machine.execShr gc slot stop rd ra rb s
  | .sra gc slot stop rd ra rb => Sys2Proof.Machine.execSra gc slot stop rd ra rb s
  | .mul gc slot stop rd ra rb => Sys2Proof.Machine.execMul gc slot stop rd ra rb s
  | .mulhu gc slot stop rd ra rb => Sys2Proof.Machine.execMulhu gc slot stop rd ra rb s
  | .slt gc slot stop rd ra rb => Sys2Proof.Machine.execSlt gc slot stop rd ra rb s
  | .sltu gc slot stop rd ra rb => Sys2Proof.Machine.execSltu gc slot stop rd ra rb s
  | .addi gc slot stop rd ra imm => Sys2Proof.Machine.execAddi gc slot stop rd ra imm s
  | .andi gc slot stop rd ra imm => Sys2Proof.Machine.execAndi gc slot stop rd ra imm s
  | .ori gc slot stop rd ra imm => Sys2Proof.Machine.execOri gc slot stop rd ra imm s
  | .xori gc slot stop rd ra imm => Sys2Proof.Machine.execXori gc slot stop rd ra imm s
  | .shli gc slot stop rd ra imm => Sys2Proof.Machine.execShli gc slot stop rd ra imm s
  | .shri gc slot stop rd ra imm => Sys2Proof.Machine.execShri gc slot stop rd ra imm s
  | .srai gc slot stop rd ra imm => Sys2Proof.Machine.execSrai gc slot stop rd ra imm s
  | .li gc slot stop rd imm => Sys2Proof.Machine.execLi gc slot stop rd imm s
  | .ldb gc slot stop rd ra off byte => Sys2Proof.Machine.execLdb gc slot stop rd ra off byte s
  | .ldbu gc slot stop rd ra off byte => Sys2Proof.Machine.execLdbu gc slot stop rd ra off byte s
  | .ldh gc slot stop rd ra off byte => Sys2Proof.Machine.execLdh gc slot stop rd ra off byte s
  | .stb gc slot stop rs ra off byte => Sys2Proof.Machine.execStb gc slot stop rs ra off byte s
  | .sth gc slot stop rs ra off byte => Sys2Proof.Machine.execSth gc slot stop rs ra off byte s
  | .beq gc slot stop ra rb off => Sys2Proof.Machine.execBeq gc slot stop ra rb off s
  | .bne gc slot stop ra rb off => Sys2Proof.Machine.execBne gc slot stop ra rb off s
  | .blt gc slot stop ra rb off => Sys2Proof.Machine.execBlt gc slot stop ra rb off s
  | .bge gc slot stop ra rb off => Sys2Proof.Machine.execBge gc slot stop ra rb off s
  | .bltu gc slot stop ra rb off => Sys2Proof.Machine.execBltu gc slot stop ra rb off s
  | .bgeu gc slot stop ra rb off => Sys2Proof.Machine.execBgeu gc slot stop ra rb off s
  | .j gc slot stop target => Sys2Proof.Machine.execJ gc slot stop target s
  | .jal gc slot stop rd target => Sys2Proof.Machine.execJal gc slot stop rd target s
  | .jr gc slot stop ra => Sys2Proof.Machine.execJr gc slot stop ra s
  | .loop gc slot stop level ra last => Sys2Proof.Machine.execLoop gc slot stop level ra last s
  | .loopi gc slot stop level count last => Sys2Proof.Machine.execLoopi gc slot stop level count last s
  | .mfsr gc slot stop rd code => Sys2Proof.Machine.execMfsr gc slot stop rd code s
  | .mtsr gc slot stop ra code => Sys2Proof.Machine.execMtsr gc slot stop ra code s
  | .halt gc slot stop => Sys2Proof.Machine.execHalt gc slot stop s
  | .mma gc slot stop reg ra addr => Sys2Proof.Machine.execMma gc slot stop reg ra addr s
  | .mdrain gc slot stop reg ra addr => Sys2Proof.Machine.execMdrain gc slot stop reg ra addr s
  | .mclr gc slot stop reg ra addr => Sys2Proof.Machine.execMclr gc slot stop reg ra addr s
  | .mmaStart gc slot => Sys2Proof.Machine.execMmaStart gc slot s
  | .mmaDone gc slot found => Sys2Proof.Machine.execMmaDone gc slot found s
  | .mdrainStart gc slot found => Sys2Proof.Machine.execMdrainStart gc slot found s
  | .mdrainDone gc slot => Sys2Proof.Machine.execMdrainDone gc slot s
  | .mclrStart gc slot => Sys2Proof.Machine.execMclrStart gc slot s
  | .vld gc slot stop v ra off => Sys2Proof.Machine.execVld gc slot stop v ra off s
  | .vst gc slot stop v ra off => Sys2Proof.Machine.execVst gc slot stop v ra off s
  | .vadd gc slot stop a => Sys2Proof.Machine.execVadd gc slot stop a s
  | .vsub gc slot stop a => Sys2Proof.Machine.execVsub gc slot stop a s
  | .vmul gc slot stop a => Sys2Proof.Machine.execVmul gc slot stop a s
  | .vfma gc slot stop a => Sys2Proof.Machine.execVfma gc slot stop a s
  | .vdiv gc slot stop a => Sys2Proof.Machine.execVdiv gc slot stop a s
  | .vsqrt gc slot stop a => Sys2Proof.Machine.execVsqrt gc slot stop a s
  | .vmin gc slot stop a => Sys2Proof.Machine.execVmin gc slot stop a s
  | .vmax gc slot stop a => Sys2Proof.Machine.execVmax gc slot stop a s
  | .vabs gc slot stop a => Sys2Proof.Machine.execVabs gc slot stop a s
  | .vneg gc slot stop a => Sys2Proof.Machine.execVneg gc slot stop a s
  | .vand gc slot stop a => Sys2Proof.Machine.execVand gc slot stop a s
  | .vor gc slot stop a => Sys2Proof.Machine.execVor gc slot stop a s
  | .vxor gc slot stop a => Sys2Proof.Machine.execVxor gc slot stop a s
  | .vnot gc slot stop a => Sys2Proof.Machine.execVnot gc slot stop a s
  | .vshl gc slot stop a => Sys2Proof.Machine.execVshl gc slot stop a s
  | .vshr gc slot stop a => Sys2Proof.Machine.execVshr gc slot stop a s
  | .vsra gc slot stop a => Sys2Proof.Machine.execVsra gc slot stop a s
  | .vcmpeq gc slot stop a => Sys2Proof.Machine.execVcmpeq gc slot stop a s
  | .vcmpne gc slot stop a => Sys2Proof.Machine.execVcmpne gc slot stop a s
  | .vcmplt gc slot stop a => Sys2Proof.Machine.execVcmplt gc slot stop a s
  | .vcmple gc slot stop a => Sys2Proof.Machine.execVcmple gc slot stop a s
  | .vsel gc slot stop vd va vb vm => Sys2Proof.Machine.execVsel gc slot stop vd va vb vm s
  | .vperm gc slot stop a => Sys2Proof.Machine.execVperm gc slot stop a s
  | .vsplat gc slot stop vd sx type => Sys2Proof.Machine.execVsplat gc slot stop vd sx type s
  | .vext gc slot stop sd vs lane type => Sys2Proof.Machine.execVext gc slot stop sd vs lane type s
  | .vrsum gc slot stop a => Sys2Proof.Machine.execVrsum gc slot stop a s
  | .vrmax gc slot stop a => Sys2Proof.Machine.execVrmax gc slot stop a s
  | .vrmin gc slot stop a => Sys2Proof.Machine.execVrmin gc slot stop a s
  | .vcvt gc slot stop vd vs dtype stype part => Sys2Proof.Machine.execVcvt gc slot stop vd vs dtype stype part s
  | .vexp gc slot stop a => Sys2Proof.Machine.execVexp gc slot stop a s
  | .vlog gc slot stop a => Sys2Proof.Machine.execVlog gc slot stop a s
  | .vrailAdd gc slot stop a => Sys2Proof.Machine.execVrailAdd gc slot stop a s
  | .vrailFin gc slot stop a => Sys2Proof.Machine.execVrailFin gc slot stop a s
  | .vqnt gc slot stop a => Sys2Proof.Machine.execVqnt gc slot stop a s
  | .vqcfg gc slot stop a => Sys2Proof.Machine.execVqcfg gc slot stop a s
  | .vqrd gc slot stop a => Sys2Proof.Machine.execVqrd gc slot stop a s
  | .vseed gc slot stop a => Sys2Proof.Machine.execVseed gc slot stop a s
  | .vflg gc slot stop a => Sys2Proof.Machine.execVflg gc slot stop a s
  | .vflgc gc slot stop a => Sys2Proof.Machine.execVflgc gc slot stop a s
  | .registerWriteLands gc slot => Sys2Proof.Machine.execRegisterWriteLands gc slot s
  | .xset gc slot stop ch field part rs => Sys2Proof.Machine.execXset gc slot stop ch field part rs s
  | .xget gc slot stop ch field part rd => Sys2Proof.Machine.execXget gc slot stop ch field part rd s
  | .movs gc slot stop ch => Sys2Proof.Machine.execMovs gc slot stop ch s
  | .fill gc slot stop ch => Sys2Proof.Machine.execFill gc slot stop ch s
  | .gather gc slot stop ch => Sys2Proof.Machine.execGather gc slot stop ch s
  | .xstop gc slot stop ch => Sys2Proof.Machine.execXstop gc slot stop ch s
  | .xclr gc slot stop ch => Sys2Proof.Machine.execXclr gc slot stop ch s
  | .wpull gc slot stop ch => Sys2Proof.Machine.execWpull gc slot stop ch s
  | .xOpStart gc slot ch => Sys2Proof.Machine.execXOpStart gc slot ch s
  | .lineStart gc host => Sys2Proof.Machine.execLineStart gc host s
  | .lineComplete gc line host => Sys2Proof.Machine.execLineComplete gc line host s
  | .xOpComplete gc slot ch => Sys2Proof.Machine.execXOpComplete gc slot ch s
  | .wpullTake gc host => Sys2Proof.Machine.execWpullTake gc host s
  | .sigi gc slot stop n imm => Sys2Proof.Machine.execSigi gc slot stop n imm s
  | .sig gc slot stop ra rb => Sys2Proof.Machine.execSig gc slot stop ra rb s
  | .rsigi gc slot stop id imm => Sys2Proof.Machine.execRsigi gc slot stop id imm s
  | .rsig gc slot stop ra rb => Sys2Proof.Machine.execRsig gc slot stop ra rb s
  | .setb gc slot stop ra rb rc => Sys2Proof.Machine.execSetb gc slot stop ra rb rc s
  | .wait gc slot stop ra rb rc => Sys2Proof.Machine.execWait gc slot stop ra rb rc s
  | .waiti gc slot stop n imm => Sys2Proof.Machine.execWaiti gc slot stop n imm s
  | .brd gc slot stop rd rb hi => Sys2Proof.Machine.execBrd gc slot stop rd rb hi s
  | .signalSend src id => Sys2Proof.Machine.execSignalSend src id s
  | .signalArrive n => Sys2Proof.Machine.execSignalArrive n s
  | .bcnValueWrite r id v => Sys2Proof.Machine.execBcnValueWrite r id v s
  | .bcnAddWrite r id n => Sys2Proof.Machine.execBcnAddWrite r id n s
  | .watchArm hub engine id target tag => Sys2Proof.Machine.execWatchArm hub engine id target tag s
  | .disarm hub engine gc tag => Sys2Proof.Machine.execDisarm hub engine gc tag s
  | .disRingTake hub ring => Sys2Proof.Machine.execDisRingTake hub ring s
  | .gateRelease hub src => Sys2Proof.Machine.execGateRelease hub src s
  | .descriptorPlace hub part now => Sys2Proof.Machine.execDescriptorPlace hub part now s
  | .workCreditReturn gc => Sys2Proof.Machine.execWorkCreditReturn gc s
  | .partitionPause hub part => Sys2Proof.Machine.execPartitionPause hub part s
  | .partitionResume hub part => Sys2Proof.Machine.execPartitionResume hub part s
  | .clusterPauseDone gc => Sys2Proof.Machine.execClusterPauseDone gc s
  | .corePause gc slot => Sys2Proof.Machine.execCorePause gc slot s
  | .coreUnpause gc slot => Sys2Proof.Machine.execCoreUnpause gc slot s
  | .stubRun gc slot => Sys2Proof.Machine.execStubRun gc slot s
  | .memoryRead m upset parity slice tag => Sys2Proof.Machine.execMemoryRead m upset parity slice tag s
  | .memoryWrite r line mask data marks slice host => Sys2Proof.Machine.execMemoryWrite r line mask data marks slice host s
  | .replyRx r => Sys2Proof.Machine.execReplyRx r s
  | .patrolStep c found => Sys2Proof.Machine.execPatrolStep c found s
  | .sramPatrolStep a upset conflict => Sys2Proof.Machine.execSramPatrolStep a upset conflict s
  | .testWrArm c hold => Sys2Proof.Machine.execTestWrArm c hold s
  | .testRdArm c hold => Sys2Proof.Machine.execTestRdArm c hold s
  | .granuleRetire c => Sys2Proof.Machine.execGranuleRetire c s
  | .pageGatherTake gc => Sys2Proof.Machine.execPageGatherTake gc s
  | .pageGatherDone gc slice host => Sys2Proof.Machine.execPageGatherDone gc slice host s
  | .pageFence gc part slot => Sys2Proof.Machine.execPageFence gc part slot s
  | .movCmdTake k part now => Sys2Proof.Machine.execMovCmdTake k part now s
  | .init part => Sys2Proof.Machine.execInit part s
  | .demote part => Sys2Proof.Machine.execDemote part s
  | .promote part => Sys2Proof.Machine.execPromote part s
  | .ref part => Sys2Proof.Machine.execRef part s
  | .share part => Sys2Proof.Machine.execShare part s
  | .moveCopyDone part slot ssd blocks => Sys2Proof.Machine.execMoveCopyDone part slot ssd blocks s
  | .moveFenceDone part slot => Sys2Proof.Machine.execMoveFenceDone part slot s
  | .movRecordWrite k part => Sys2Proof.Machine.execMovRecordWrite k part s
  | .lookup part => Sys2Proof.Machine.execLookup part s
  | .insert part => Sys2Proof.Machine.execInsert part s
  | .remove part => Sys2Proof.Machine.execRemove part s
  | .hostBar2Access link off acc => Sys2Proof.Machine.execHostBar2Access link off acc s
  | .apertureAccess link off acc => Sys2Proof.Machine.execApertureAccess link off acc s
  | .hostRequestRx link v => Sys2Proof.Machine.execHostRequestRx link v s
  | .jqSqTail link slice queue v => Sys2Proof.Machine.execJqSqTail link slice queue v s
  | .jqCqHead link slice queue v => Sys2Proof.Machine.execJqCqHead link slice queue v s
  | .bdb link slice n => Sys2Proof.Machine.execBdb link slice n s
  | .jqFetch slice queue desc => Sys2Proof.Machine.execJqFetch slice queue desc s
  | .jqPostTake slice queue => Sys2Proof.Machine.execJqPostTake slice queue s
  | .jqRecordWrite slice queue host => Sys2Proof.Machine.execJqRecordWrite slice queue host s
  | .pceMsixWrite link fn v word x => Sys2Proof.Machine.execPceMsixWrite link fn v word x s
  | .pceIntxPend link w => Sys2Proof.Machine.execPceIntxPend link w s
  | .completionTimeout link tag => Sys2Proof.Machine.execCompletionTimeout link tag s
  | .tagQuarantineEnd link tag => Sys2Proof.Machine.execTagQuarantineEnd link tag s
  | .hostCompletionRx link tag c => Sys2Proof.Machine.execHostCompletionRx link tag c s
  | .bmeClear link fn => Sys2Proof.Machine.execBmeClear link fn s
  | .bmeSet link fn => Sys2Proof.Machine.execBmeSet link fn s
  | .flr link fn => Sys2Proof.Machine.execFlr link fn s
  | .d3hotEntry link fn => Sys2Proof.Machine.execD3hotEntry link fn s
  | .partCreate hub page => Sys2Proof.Machine.execPartCreate hub page s
  | .partCreateDone part => Sys2Proof.Machine.execPartCreateDone part s
  | .partDestroy hub page => Sys2Proof.Machine.execPartDestroy hub page s
  | .partDestroyDone part => Sys2Proof.Machine.execPartDestroyDone part s
  | .partSetQos hub page => Sys2Proof.Machine.execPartSetQos hub page s
  | .sliceCreate hub page => Sys2Proof.Machine.execSliceCreate hub page s
  | .sliceDestroy hub page => Sys2Proof.Machine.execSliceDestroy hub page s
  | .dlogSwap hub page => Sys2Proof.Machine.execDlogSwap hub page s
  | .ridChange link fn rid => Sys2Proof.Machine.execRidChange link fn rid s
  | .ethRetrain port => Sys2Proof.Machine.execEthRetrain port s
  | .linkAlign port => Sys2Proof.Machine.execLinkAlign port s
  | .trainTimeout port => Sys2Proof.Machine.execTrainTimeout port s
  | .laneFail port lane => Sys2Proof.Machine.execLaneFail port lane s
  | .frameRx port frame now ts overflow desc parity data record => Sys2Proof.Machine.execFrameRx port frame now ts overflow desc parity data record s
  | .clsSync hub who => Sys2Proof.Machine.execClsSync hub who s
  | .clsFence hub => Sys2Proof.Machine.execClsFence hub s
  | .clsFenceClear hub => Sys2Proof.Machine.execClsFenceClear hub s
  | .nicQpCreate hub page => Sys2Proof.Machine.execNicQpCreate hub page s
  | .nicQpDestroy hub page => Sys2Proof.Machine.execNicQpDestroy hub page s
  | .nqRxTail link qp v => Sys2Proof.Machine.execNqRxTail link qp v s
  | .nqTxTail link qp v => Sys2Proof.Machine.execNqTxTail link qp v s
  | .nqCqHead link qp v => Sys2Proof.Machine.execNqCqHead link qp v s
  | .nicTxFetch link qp desc data parity => Sys2Proof.Machine.execNicTxFetch link qp desc data parity s
  | .nicTxDone link qp host => Sys2Proof.Machine.execNicTxDone link qp host s
  | .nicSaAdd hub page => Sys2Proof.Machine.execNicSaAdd hub page s
  | .nicSaDel hub page => Sys2Proof.Machine.execNicSaDel hub page s
  | .sdtConnOpen hub page => Sys2Proof.Machine.execSdtConnOpen hub page s
  | .sdtConnClose hub page => Sys2Proof.Machine.execSdtConnClose hub page s
  | .sdtCloseDone conn => Sys2Proof.Machine.execSdtCloseDone conn s
  | .sdtKeyGrant hub page => Sys2Proof.Machine.execSdtKeyGrant hub page s
  | .sdtKeyRevoke hub page => Sys2Proof.Machine.execSdtKeyRevoke hub page s
  | .sdtEntryTake conn => Sys2Proof.Machine.execSdtEntryTake conn s
  | .sdtWrite conn => Sys2Proof.Machine.execSdtWrite conn s
  | .sdtFlush conn => Sys2Proof.Machine.execSdtFlush conn s
  | .sdtWait conn => Sys2Proof.Machine.execSdtWait conn s
  | .sdtWaitFired conn => Sys2Proof.Machine.execSdtWaitFired conn s
  | .sdtPacketTx conn now slice host parity => Sys2Proof.Machine.execSdtPacketTx conn now slice host parity s
  | .sdtDataRx hub now parity host => Sys2Proof.Machine.execSdtDataRx hub now parity host s
  | .sdtAckRx hub now => Sys2Proof.Machine.execSdtAckRx hub now s
  | .sdtNackRx hub now => Sys2Proof.Machine.execSdtNackRx hub now s
  | .sdtCloseRx hub => Sys2Proof.Machine.execSdtCloseRx hub s
  | .sdtLossTimeout conn msn index now => Sys2Proof.Machine.execSdtLossTimeout conn msn index now s
  | .sdtBaseReset conn path => Sys2Proof.Machine.execSdtBaseReset conn path s
  | .sdtMsgDeliver conn host => Sys2Proof.Machine.execSdtMsgDeliver conn host s
  | .sdtSendRecord conn => Sys2Proof.Machine.execSdtSendRecord conn s
  | .egressEnqueue hub queue port part frame => Sys2Proof.Machine.execEgressEnqueue hub queue port part frame s
  | .egressSelect port now ts => Sys2Proof.Machine.execEgressSelect port now ts s
  | .tshCommitGcl port => Sys2Proof.Machine.execTshCommitGcl port s
  | .tshCommitWmap port => Sys2Proof.Machine.execTshCommitWmap port s
  | .shadowApply port gcl ts => Sys2Proof.Machine.execShadowApply port gcl ts s
  | .nvmeDoorbell link cq qid value => Sys2Proof.Machine.execNvmeDoorbell link cq qid value s
  | .nvcIdb link word => Sys2Proof.Machine.execNvcIdb link word s
  | .nvmeCcEnSet link cc aqa asq acq => Sys2Proof.Machine.execNvmeCcEnSet link cc aqa asq acq s
  | .nvmeCcEnClear link => Sys2Proof.Machine.execNvmeCcEnClear link s
  | .nvmeCcShn link => Sys2Proof.Machine.execNvmeCcShn link s
  | .deleteIoSq link c => Sys2Proof.Machine.execDeleteIoSq link c s
  | .createIoSq link c => Sys2Proof.Machine.execCreateIoSq link c s
  | .deleteIoCq link c => Sys2Proof.Machine.execDeleteIoCq link c s
  | .createIoCq link c => Sys2Proof.Machine.execCreateIoCq link c s
  | .getLogPage link c => Sys2Proof.Machine.execGetLogPage link c s
  | .identify link c => Sys2Proof.Machine.execIdentify link c s
  | .nvmeAbort link c => Sys2Proof.Machine.execNvmeAbort link c s
  | .setFeatures link c => Sys2Proof.Machine.execSetFeatures link c s
  | .getFeatures link c => Sys2Proof.Machine.execGetFeatures link c s
  | .asynchronousEventRequest link c => Sys2Proof.Machine.execAsynchronousEventRequest link c s
  | .qpBind link c => Sys2Proof.Machine.execQpBind link c s
  | .nsMask link c map => Sys2Proof.Machine.execNsMask link c map s
  | .nvmeCmdFetch link sq c => Sys2Proof.Machine.execNvmeCmdFetch link sq c s
  | .nvmeCmdStart link num now => Sys2Proof.Machine.execNvmeCmdStart link num now s
  | .nvmeFlush link num => Sys2Proof.Machine.execNvmeFlush link num s
  | .nvmeWrite link num data bad parity => Sys2Proof.Machine.execNvmeWrite link num data bad parity s
  | .nvmeRead link num parity => Sys2Proof.Machine.execNvmeRead link num parity s
  | .compare link num data parity => Sys2Proof.Machine.execCompare link num data parity s
  | .writeZeroes link num parity => Sys2Proof.Machine.execWriteZeroes link num parity s
  | .datasetManagement link num parity => Sys2Proof.Machine.execDatasetManagement link num parity s
  | .ssdCmdComplete port cid status data parity => Sys2Proof.Machine.execSsdCmdComplete port cid status data parity s
  | .ssdCmdTimeout port cid => Sys2Proof.Machine.execSsdCmdTimeout port cid s
  | .ssdViolation port kind => Sys2Proof.Machine.execSsdViolation port kind s
  | .nsCreate hub page backing => Sys2Proof.Machine.execNsCreate hub page backing s
  | .nsDelete hub page => Sys2Proof.Machine.execNsDelete hub page s
  | .slotSample port levels => Sys2Proof.Machine.execSlotSample port levels s
  | .presenceDetect port => Sys2Proof.Machine.execPresenceDetect port s
  | .buttonPress port => Sys2Proof.Machine.execButtonPress port s
  | .slotPowerTimer port => Sys2Proof.Machine.execSlotPowerTimer port s
  | .slotLinkResult port found => Sys2Proof.Machine.execSlotLinkResult port found s
  | .ejectTimeout port => Sys2Proof.Machine.execEjectTimeout port s
  | .prpCtlEject port => Sys2Proof.Machine.execPrpCtlEject port s
  | .prpCtlPower port => Sys2Proof.Machine.execPrpCtlPower port s
  | .surpriseRemoval port linkDown => Sys2Proof.Machine.execSurpriseRemoval port linkDown s
  | .cipherPipeOp hub now => Sys2Proof.Machine.execCipherPipeOp hub now s
  | .pipeLost hub pipe => Sys2Proof.Machine.execPipeLost hub pipe s
  | .keyLoad hub page => Sys2Proof.Machine.execKeyLoad hub page s
  | .keyZero hub page => Sys2Proof.Machine.execKeyZero hub page s
  | .ownerSet hub page r => Sys2Proof.Machine.execOwnerSet hub page r s
  | .dbgChallenge hub page => Sys2Proof.Machine.execDbgChallenge hub page s
  | .dbgUnlock hub page scope u elapsed => Sys2Proof.Machine.execDbgUnlock hub page scope u elapsed s
  | .dbgLock hub page => Sys2Proof.Machine.execDbgLock hub page s
  | .nonceExpiry n => Sys2Proof.Machine.execNonceExpiry n s
  | .getVersion via => Sys2Proof.Machine.execGetVersion via s
  | .getCapabilities via => Sys2Proof.Machine.execGetCapabilities via s
  | .negotiateAlgorithms via => Sys2Proof.Machine.execNegotiateAlgorithms via s
  | .getDigests via => Sys2Proof.Machine.execGetDigests via s
  | .getCertificate via offset len => Sys2Proof.Machine.execGetCertificate via offset len s
  | .challenge via nonce => Sys2Proof.Machine.execChallenge via nonce s
  | .getMeasurements via index signed nonce => Sys2Proof.Machine.execGetMeasurements via index signed nonce s
  | .keyExchange via req exchange => Sys2Proof.Machine.execKeyExchange via req exchange s
  | .finish via id => Sys2Proof.Machine.execFinish via id s
  | .heartbeat via id => Sys2Proof.Machine.execHeartbeat via id s
  | .keyUpdate via id => Sys2Proof.Machine.execKeyUpdate via id s
  | .endSession via id => Sys2Proof.Machine.execEndSession via id s
  | .vendorDefinedRequest via id op stream => Sys2Proof.Machine.execVendorDefinedRequest via id op stream s
  | .mbxGo hub page link msg => Sys2Proof.Machine.execMbxGo hub page link msg s
  | .mbxReply hub page => Sys2Proof.Machine.execMbxReply hub page s
  | .mctpMessage msg => Sys2Proof.Machine.execMctpMessage msg s
  | .logMirror hub page => Sys2Proof.Machine.execLogMirror hub page s
  | .traceSet hub page => Sys2Proof.Machine.execTraceSet hub page s
  | .fwUpdate hub page => Sys2Proof.Machine.execFwUpdate hub page s
  | .fwCommit hub page => Sys2Proof.Machine.execFwCommit hub page s
  | .fwActivate hub page => Sys2Proof.Machine.execFwActivate hub page s
  | .fwConfirm hub page => Sys2Proof.Machine.execFwConfirm hub page s
  | .coreLoad hub page => Sys2Proof.Machine.execCoreLoad hub page s
  | .jqCreate hub page => Sys2Proof.Machine.execJqCreate hub page s
  | .jqDestroy hub page => Sys2Proof.Machine.execJqDestroy hub page s
  | .reattach hub page => Sys2Proof.Machine.execReattach hub page s
  | .resume hub page => Sys2Proof.Machine.execResume hub page s
  | .evtRead hub page => Sys2Proof.Machine.execEvtRead hub page s
  | .coreRetire hub page => Sys2Proof.Machine.execCoreRetire hub page s
  | .fwpHb link v => Sys2Proof.Machine.execFwpHb link v s
  | .driverLoss link => Sys2Proof.Machine.execDriverLoss link s
  | .fwpWatchdog hub index => Sys2Proof.Machine.execFwpWatchdog hub index s
  | .fwpFault hub index now => Sys2Proof.Machine.execFwpFault hub index now s
  | .fwpCtlRestart hub index => Sys2Proof.Machine.execFwpCtlRestart hub index s
  | .fwpRestartDone hub index => Sys2Proof.Machine.execFwpRestartDone hub index s
  | .lamplighterTakeover => Sys2Proof.Machine.execLamplighterTakeover s
  | .trainD2d => Sys2Proof.Machine.execTrainD2d s
  | .trainHbm => Sys2Proof.Machine.execTrainHbm s
  | .trainLpddr => Sys2Proof.Machine.execTrainLpddr s
  | .trainEth => Sys2Proof.Machine.execTrainEth s
  | .trainSsd => Sys2Proof.Machine.execTrainSsd s
  | .selfTest found => Sys2Proof.Machine.execSelfTest found s
  | .buildMap => Sys2Proof.Machine.execBuildMap s
  | .memFill => Sys2Proof.Machine.execMemFill s
  | .loadFw => Sys2Proof.Machine.execLoadFw s
  | .start => Sys2Proof.Machine.execStart s
  | .unitTrained found fallback => Sys2Proof.Machine.execUnitTrained found fallback s
  | .bruStepFinish step => Sys2Proof.Machine.execBruStepFinish step s
  | .d2dRetrain page inst => Sys2Proof.Machine.execD2dRetrain page inst s
  | .d2dLaneLoss link width spares => Sys2Proof.Machine.execD2dLaneLoss link width spares s
  | .coreFail gc slot => Sys2Proof.Machine.execCoreFail gc slot s
  | .clusterFail gc => Sys2Proof.Machine.execClusterFail gc s
  | .bbxRecord typ sev src part payload => Sys2Proof.Machine.execBbxRecord typ sev src part payload s
  | .bbxPageProgram fail => Sys2Proof.Machine.execBbxPageProgram fail s
  | .snapSetup hub page => Sys2Proof.Machine.execSnapSetup hub page s
  | .snapTake hub page => Sys2Proof.Machine.execSnapTake hub page s
  | .snapAbort hub page => Sys2Proof.Machine.execSnapAbort hub page s
  | .snapRestore hub page manifests granules => Sys2Proof.Machine.execSnapRestore hub page manifests granules s
  | .snapStepAdvance part => Sys2Proof.Machine.execSnapStepAdvance part s
  | .snapCut part => Sys2Proof.Machine.execSnapCut part s
  | .snapGranuleCopy part now bucket hold => Sys2Proof.Machine.execSnapGranuleCopy part now bucket hold s
  | .snapComplete part => Sys2Proof.Machine.execSnapComplete part s
  | .snapPrewarning part now => Sys2Proof.Machine.execSnapPrewarning part now s
  | .telPairGo hub => Sys2Proof.Machine.execTelPairGo hub s
  | .pairCaptureDone hub a b => Sys2Proof.Machine.execPairCaptureDone hub a b s
  | .telPeriod hub count pairs => Sys2Proof.Machine.execTelPeriod hub count pairs s
  | .sensorSample sensor temp now => Sys2Proof.Machine.execSensorSample sensor temp now s
  | .droopDetect gc => Sys2Proof.Machine.execDroopDetect gc s
  | .droopRecover gc => Sys2Proof.Machine.execDroopRecover gc s
  | .estimatorScale rail measured static counted => Sys2Proof.Machine.execEstimatorScale rail measured static counted s
  | .energyAccumulate e => Sys2Proof.Machine.execEnergyAccumulate e s
  | .thermalLimitTick die => Sys2Proof.Machine.execThermalLimitTick die s
  | .powerLimitTick watts => Sys2Proof.Machine.execPowerLimitTick watts s
  | .dutyUpdate part => Sys2Proof.Machine.execDutyUpdate part s
  | .dvfsSwitch die => Sys2Proof.Machine.execDvfsSwitch die s
  | .emergencyStart => Sys2Proof.Machine.execEmergencyStart s
  | .emergencyEnd => Sys2Proof.Machine.execEmergencyEnd s
  | .gettid => Sys2Proof.Machine.execGettid s
  | .seteventreceiver polling receiver => Sys2Proof.Machine.execSeteventreceiver polling receiver s
  | .getpdrrepositoryinfo => Sys2Proof.Machine.execGetpdrrepositoryinfo s
  | .getpdr handle => Sys2Proof.Machine.execGetpdr handle s
  | .getsensorreading sensor => Sys2Proof.Machine.execGetsensorreading sensor s
  | .thermAlertRelease => Sys2Proof.Machine.execThermAlertRelease s
  | .pwrOkAssert inst => Sys2Proof.Machine.execPwrOkAssert inst s
  | .refclkRestart clk => Sys2Proof.Machine.execRefclkRestart clk s
  | .pcieLinkUp link width speed flit => Sys2Proof.Machine.execPcieLinkUp link width speed flit s
  | .pcieLinkDown link => Sys2Proof.Machine.execPcieLinkDown link s
  | .d3hotExit link fn => Sys2Proof.Machine.execD3hotExit link fn s
  | .configurationWrite link w => Sys2Proof.Machine.execConfigurationWrite link w s
  | .atsInvalidate link fn itag pasid page n => Sys2Proof.Machine.execAtsInvalidate link fn itag pasid page n s
  | .ssdCstsCfs port => Sys2Proof.Machine.execSsdCstsCfs port s
  | .ssdNotReady port => Sys2Proof.Machine.execSsdNotReady port s
  | .memoryUnitLost unit channels => Sys2Proof.Machine.execMemoryUnitLost unit channels s
  | .laneLock port lane => Sys2Proof.Machine.execLaneLock port lane s

end Sys2Proof.Machine
end

