-- ==== Sys2Proof/Safety.lean ====
section
/-! DEFINITION. The terms that claims about runs use: the canonical form of the state's sparse collections, and completion. -/
namespace Sys2Proof.Machine
open Sys2Proof

/-- Memory lists its bytes in rising address with no byte equal to what an unlisted address reads as. -/
def Memory.wf (m : List Host.Cell) : Bool := SMap.wf (fun _ => 0#8) m

/-- The register file lists rising offsets with no word equal to its reset value. -/
def Registers.wf (m : List (Nat × BitVec 32)) : Bool := SMap.wf regReset m

/-- Registers and memory are in canonical form. -/
def State.Canonical (s : State) : Prop := Registers.wf s.regs = true ∧ Memory.wf s.mem = true

/-- The queue is q, and registers and memory are in canonical form. -/
def Canon (q : List Instr) (s : State) : Prop := s.pending = q ∧ Registers.wf s.regs = true ∧ Memory.wf s.mem = true

/-- A command completes: it answers a next state, which has a property. -/
def Completes (c : Instr) (s : State) (post : State → Prop) : Prop := ∃ t, exec c s = .next t ∧ post t

/-! ## One syllable alone in its bundle -/

/-- A core that issues, in a clock that the duty-cycle limiter leaves it, with nothing presented, nothing pending, no delay bundle,
no drain, and no loop body that ends at its pc: a bundle of one syllable then traps, waits or acts. -/
def Ready (gc : Fin 160) (slot : Fin 18) (s : State) : Prop :=
  let c := s.core (slotKey gc slot)
  c.issues = true ∧ c.bundle = [] ∧ c.pend = [] ∧ c.branch = none ∧ c.pc.toNat < 32768 ∧
    s.st ⟨.cor, slotKey gc slot⟩ ≠ PS.draining ∧ c.loop0.test c.pc 1 = none ∧ c.loop1.test c.pc 1 = none ∧
    s.dutyOpen gc slot = true

/-- The syllable, alone in its bundle, raises no trap. -/
def NoTrap (gc : Fin 160) (slot : Fin 18) (y : Syl) (s : State) : Prop :=
  s.bundleTrap gc slot (s.core (slotKey gc slot)) true [] [y] = none

/-- A core after one bundle of one syllable: the next address, one clock later. -/
def Core.stepped (c : Core) : Core := { c with pc := c.pc + 1#16, clock := c.clock + 1 }

/-- Core p has become c, every other core is as before, and nothing else has changed but the count of free values. -/
def OnlyCore (p : Nat) (c : Core) (s t : State) : Prop :=
  t.core p = c ∧ (∀ q, q ≠ p → t.core q = s.core q) ∧ t = { s with cores := t.cores, freeCtr := t.freeCtr }

/-- A syllable completes with core c and changes nothing else. -/
def Leaves (r : Res) (gc : Fin 160) (slot : Fin 18) (c : Core) (s : State) : Prop :=
  ∃ t, r = .next t ∧ OnlyCore (slotKey gc slot) c s t

/-- A core after one bundle of one vector syllable whose result can be read d clocks after its issue (R144). -/
def Core.awaits (c : Core) (d : Nat) (x : Landing) : Core := { c.stepped with pend := [⟨c.clock + d - 1, x⟩] }

/-- The landing of a result in a vector register. -/
def VRes.into (r : VRes) (v : BitVec 5) : Landing := .vreg v r.data r.bytes r.mark r.sat r.inv none

/-- The answer of a bundle of one syllable that traps. -/
def Traps (gc : Fin 160) (slot : Fin 18) (cause : BitVec 4) (unit : BitVec 3) (s : State) : Res :=
  .next (s.takeTrap (slotKey gc slot) cause (s.core (slotKey gc slot)).pc unit false)

/-! ## Places -/

/-- A place that stores data: HBM, tier 2, a pool, a data memory or hub SRAM (R31). -/
def Tgt.stores : Tgt → Bool
  | .hbm _ _ | .t2 _ | .pool _ | .dmem _ _ | .sram _ _ => true
  | _ => false

/-! ## Mailbox commands -/

/-- The message a page holds. -/
def State.message (s : State) (hub : Fin 2) (page : Fin 64) : Msg := ⟨s.srcOf hub page, (s.mbx (hub.val * 64 + page.val)).held⟩

/-- A command waits in a page, not yet begun, and its turn has come: its owner runs, no earlier message of that owner is being
served, its link is not lost, flash may be written if it writes flash, and START has run if R486 asks for it (R455, R462, R475,
R481, R486, R526). -/
def State.serves (s : State) (op : Nat) (hub : Fin 2) (page : Fin 64) : Bool :=
  let k := hub.val * 64 + page.val
  let b := s.mbx k
  s.mbxWaits k && !b.started && decide ((s.message hub page).opcode = op) &&
    (decide (s.fwState (s.mbxOwner k) = Fw.running) || s.romServes op k) && s.mbxFirst k &&
    (b.mctp || !s.linkLost (s.srcOf hub page).link) && !(s.bbx.suspended && flashOpcodes.contains op) &&
    (decide (op < 0x200) || decide (0x600 ≤ op) || s.bru.started)

/-- A command begins: Lamplighter's journal holds each of its own from before its first effect (R515). -/
def State.begun (s : State) (op : Nat) (hub : Fin 2) (page : Fin 64) : State :=
  let k := hub.val * 64 + page.val
  (if op < 0x300 then s.setJournalAt k (BitVec.ofNat 16 op) else s).modMbx k fun b => { b with started := true }

/-- The journal entry of a command that has been answered goes (R515). -/
def State.settled (t : State) (hub : Fin 2) (page : Fin 64) : State :=
  let k := hub.val * 64 + page.val
  if (t.mbx k).reply.isSome then t.setJournalAt k 0#16 else t

/-- The mailbox command i with opcode op, when it may begin, runs to t. -/
def Serves (i : Instr) (op : Nat) (hub : Fin 2) (page : Fin 64) (s t : State) : Prop :=
  s.serves op hub page = true → exec i s = .next (t.settled hub page)

end Sys2Proof.Machine
end

