-- ==== Sys2Proof/Certificates/Slice0/Obligations.lean ====
section
/-! DEFINITION. The statements for the provers: each family of commands, the step, the state after reset, and what every step
keeps. -/
open Sys2Proof Sys2Proof.Machine

/-- A step takes the command at the front of the queue and is that command's effect with the queue's rest; with none waiting, the cores'
own programs run on (the model's choice, log entry 1). -/
def Obligations.StepRunsTheFront : Prop :=
  ∀ (c : Instr) (rest : List Instr) (s : State),
    (s.pending = c :: rest → step s = exec c { s with pending := rest }) ∧
    (s.pending = [] → step s = .next s.idle) ∧
    step { s with pending := c :: rest } = exec c { s with pending := rest }

/-- The arithmetic syllables on two registers (R153): each of the twelve, alone in its bundle, leaves its result in rd, moves
its core on by one syllable and one clock, and changes nothing else. NOP leaves no result.
The arithmetic syllables with an immediate (R153): ADDI extends its sign, ANDI, ORI and XORI extend with zeros, LI
loads; the shifts take a distance below 16 and trap with any other.
What of it is the model's choice or reading, and no rule of the spec: log entry 10. -/
def Obligations.ScalarResults : Prop :=
  (∀ (gc : Fin 160) (slot : Fin 18) (rd ra rb : BitVec 4) (s : State), Ready gc slot s →
    let c := s.core (slotKey gc slot)
    let a := c.sr ra
    let b := c.sr rb
    let gives (i : Instr) (v : BitVec 16) : Prop := Leaves (exec i s) gc slot (c.setSr rd v).stepped s
    gives (.add gc slot true rd ra rb) (a + b) ∧
    gives (.sub gc slot true rd ra rb) (a - b) ∧
    gives (.and gc slot true rd ra rb) (a &&& b) ∧
    gives (.or gc slot true rd ra rb) (a ||| b) ∧
    gives (.xor gc slot true rd ra rb) (a ^^^ b) ∧
    gives (.shl gc slot true rd ra rb) (a <<< (b.toNat % 16)) ∧
    gives (.shr gc slot true rd ra rb) (a >>> (b.toNat % 16)) ∧
    gives (.sra gc slot true rd ra rb) (a.sshiftRight (b.toNat % 16)) ∧
    gives (.mul gc slot true rd ra rb) (BitVec.ofNat 16 (a.toNat * b.toNat)) ∧
    gives (.mulhu gc slot true rd ra rb) (BitVec.ofNat 16 (a.toNat * b.toNat / 65536)) ∧
    gives (.slt gc slot true rd ra rb) (if a.toInt < b.toInt then 1 else 0) ∧
    gives (.sltu gc slot true rd ra rb) (if a.toNat < b.toNat then 1 else 0) ∧
    Leaves (exec (.nop gc slot true) s) gc slot c.stepped s)
  ∧
  (∀ (gc : Fin 160) (slot : Fin 18) (rd ra : BitVec 4) (imm : BitVec 14) (v : BitVec 16) (s : State), Ready gc slot s →
    let c := s.core (slotKey gc slot)
    let a := c.sr ra
    let gives (i : Instr) (v : BitVec 16) : Prop := Leaves (exec i s) gc slot (c.setSr rd v).stepped s
    let illegal : Res := .next (s.takeTrap (slotKey gc slot) 1 c.pc 0 false)
    gives (.addi gc slot true rd ra imm) (a + imm.signExtend 16) ∧
    gives (.andi gc slot true rd ra imm) (a &&& imm.setWidth 16) ∧
    gives (.ori gc slot true rd ra imm) (a ||| imm.setWidth 16) ∧
    gives (.xori gc slot true rd ra imm) (a ^^^ imm.setWidth 16) ∧
    gives (.li gc slot true rd v) v ∧
    (imm.toNat < 16 →
      gives (.shli gc slot true rd ra imm) (a <<< imm.toNat) ∧
      gives (.shri gc slot true rd ra imm) (a >>> imm.toNat) ∧
      gives (.srai gc slot true rd ra imm) (a.sshiftRight imm.toNat)) ∧
    (16 ≤ imm.toNat →
      exec (.shli gc slot true rd ra imm) s = illegal ∧
      exec (.shri gc slot true rd ra imm) s = illegal ∧
      exec (.srai gc slot true rd ra imm) s = illegal))

/-- The loads (R153, R154): a byte of data memory word ra + offset, extended, or two bytes from an even index, least
significant first; nothing else changes. A sum outside the words, a word that carries poison and an odd index trap.
The stores (R153, R154, R268): the register's byte, or its two bytes from an even index, least significant first, stand
in data memory word ra + offset; every other byte reads as before, and of the rest of the machine only the core's pc and
clock and the protection of the stored unit move. A unit that holds the poison word keeps it, with all its bytes.
What of it is the model's choice or reading, and no rule of the spec: log entries 5, 10. -/
def Obligations.LoadsAndStores : Prop :=
  (∀ (gc : Fin 160) (slot : Fin 18) (rd ra : BitVec 4) (off : BitVec 10) (byte : BitVec 4) (s : State), Ready gc slot s →
    let p := slotKey gc slot
    let c := s.core p
    let w : Int := (c.sr ra).toNat + off.toInt
    let at_ : Nat := 16 * w.toNat + byte.toNat
    let gives (i : Instr) (v : BitVec 16) : Prop := Leaves (exec i s) gc slot (c.setSr rd v).stepped s
    let trap (cause : BitVec 4) : Res := .next (s.takeTrap p cause c.pc 0 false)
    (0 ≤ w → w ≤ 65535 → s.dmemPoison p w.toNat = false →
      gives (.ldb gc slot true rd ra off byte) ((s.dmemByte p at_).signExtend 16) ∧
      gives (.ldbu gc slot true rd ra off byte) ((s.dmemByte p at_).setWidth 16) ∧
      (byte.toNat % 2 = 0 →
        gives (.ldh gc slot true rd ra off byte) (s.dmemByte p (at_ + 1) ++ s.dmemByte p at_))) ∧
    (¬ (0 ≤ w ∧ w ≤ 65535) ∨ s.dmemPoison p w.toNat = true →
      exec (.ldb gc slot true rd ra off byte) s = trap 2 ∧
      exec (.ldbu gc slot true rd ra off byte) s = trap 2 ∧
      (byte.toNat % 2 = 0 → exec (.ldh gc slot true rd ra off byte) s = trap 2)) ∧
    (byte.toNat % 2 = 1 → exec (.ldh gc slot true rd ra off byte) s = trap 1))
  ∧
  (∀ (gc : Fin 160) (slot : Fin 18) (rs ra : BitVec 4) (off : BitVec 10) (byte : BitVec 4) (s : State), Ready gc slot s →
    let p := slotKey gc slot
    let c := s.core p
    let w : Int := (c.sr ra).toNat + off.toInt
    let k : Nat := dmemKey p (16 * w.toNat + byte.toNat)
    let stores (i : Instr) (bs : List (BitVec 8)) : Prop :=
      ∃ t, exec i s = .next t ∧ t.core p = c.stepped ∧ (∀ q, q ≠ p → t.core q = s.core q) ∧
        t = { s with cores := t.cores, freeCtr := t.freeCtr, mem := t.mem, chk := t.chk, raws := t.raws } ∧
        ∀ j, t.byteAt j = if k ≤ j ∧ j < k + bs.length ∧ s.isClean (unitOf k) then bs.getD (j - k) 0 else s.byteAt j
    0 ≤ w → w ≤ 65535 →
      stores (.stb gc slot true rs ra off byte) [(c.sr rs).setWidth 8] ∧
      (byte.toNat % 2 = 0 →
        stores (.sth gc slot true rs ra off byte) [(c.sr rs).setWidth 8, ((c.sr rs) >>> 8).setWidth 8]))

/-- Branches (R146, R147): a comparison that holds sends the core to the branch's own bundle plus OFF after two more bundles;
one that does not holds no delay. J, JAL and JR always go, and JAL writes as its link the address past the second delay
bundle. Nothing else changes.
Loading a loop level (R148, R150): the level starts at the next bundle, ends END syllables past the loop syllable and
takes its count; with a count of 0 issue goes on past the bundle that holds the level's end. END zero traps.
What of it is the model's choice or reading, and no rule of the spec: log entry 10. -/
def Obligations.BranchesAndLoops : Prop :=
  (∀ (gc : Fin 160) (slot : Fin 18) (rd ra rb : BitVec 4) (off : BitVec 12) (to_ : BitVec 16) (s : State), Ready gc slot s →
    let p := slotKey gc slot
    let c := s.core p
    let a := c.sr ra
    let b := c.sr rb
    let goes (c : Core) (x : BitVec 16) : Core := { c.stepped with branch := some (x, 2) }
    let link : BitVec 16 := BitVec.ofNat 16 (s.nextBundle p (s.nextBundle p (c.pc.toNat + 1)))
    let cond (i : Instr) (holds : Bool) : Prop :=
      Leaves (exec i s) gc slot (if holds then goes c (c.pc + off.signExtend 16) else c.stepped) s
    cond (.beq gc slot true ra rb off) (a = b) ∧
    cond (.bne gc slot true ra rb off) (a ≠ b) ∧
    cond (.blt gc slot true ra rb off) (a.toInt < b.toInt) ∧
    cond (.bge gc slot true ra rb off) (b.toInt ≤ a.toInt) ∧
    cond (.bltu gc slot true ra rb off) (a.toNat < b.toNat) ∧
    cond (.bgeu gc slot true ra rb off) (b.toNat ≤ a.toNat) ∧
    Leaves (exec (.j gc slot true to_) s) gc slot (goes c to_) s ∧
    Leaves (exec (.jal gc slot true rd to_) s) gc slot (goes (c.setSr rd link) to_) s ∧
    Leaves (exec (.jr gc slot true ra) s) gc slot (goes c a) s)
  ∧
  (∀ (gc : Fin 160) (slot : Fin 18) (level : BitVec 1) (ra : BitVec 4) (count : BitVec 9) (last : BitVec 12) (s : State),
    Ready gc slot s →
    let p := slotKey gc slot
    let c := s.core p
    let past : BitVec 16 := BitVec.ofNat 16 (s.nextBundle p (c.pc.toNat + last.toNat))
    let loaded (n : BitVec 16) : Core := c.setLoop level ⟨n, c.pc + 1, c.pc + last.setWidth 16⟩
    let loads (i : Instr) (n : BitVec 16) : Prop :=
      (n ≠ 0 → Leaves (exec i s) gc slot (loaded n).stepped s) ∧
      (n = 0 → Leaves (exec i s) gc slot { (loaded 0).stepped with pc := past } s)
    (last ≠ 0 → loads (.loop gc slot true level ra last) (c.sr ra) ∧
      loads (.loopi gc slot true level count last) (count.setWidth 16)) ∧
    (last = 0 → exec (.loop gc slot true level ra last) s = .next (s.takeTrap p 1 c.pc 0 false) ∧
      exec (.loopi gc slot true level count last) s = .next (s.takeTrap p 1 c.pc 0 false)))

/-- Special registers (R143): MFSR reads the twelve of the table, MTSR writes the six loop registers; the other codes trap.
HALT stops the core with nothing recorded, its page as it was.
What of it is the model's choice or reading, and no rule of the spec: log entries 3, 10. -/
def Obligations.SpecialRegisterResults : Prop :=
  ∀ (gc : Fin 160) (slot : Fin 18) (rd ra : BitVec 4) (code : BitVec 6) (s : State), Ready gc slot s →
    let p := slotKey gc slot
    let c := s.core p
    let a := c.sr ra
    let illegal : Res := .next (s.takeTrap p 1 c.pc 0 false)
    let reads (n : BitVec 6) (v : BitVec 16) : Prop :=
      Leaves (exec (.mfsr gc slot true rd n) s) gc slot (c.setSr rd v).stepped s
    let writes (n : BitVec 6) (x : Core) : Prop := Leaves (exec (.mtsr gc slot true ra n) s) gc slot x.stepped s
    (reads 0 c.loop0.lc ∧ reads 1 c.loop0.ls ∧ reads 2 c.loop0.le ∧
      reads 3 c.loop1.lc ∧ reads 4 c.loop1.ls ∧ reads 5 c.loop1.le) ∧
    (∀ lc, s.lcOf gc slot = some lc → reads 6 (BitVec.ofNat 16 lc)) ∧
    reads 7 (BitVec.ofNat 16 gc) ∧ reads 8 (BitVec.ofNat 16 (s.clusterPart gc)) ∧
    reads 9 (BitVec.ofNat 16 c.clock) ∧ reads 10 (BitVec.ofNat 16 (c.clock / 2 ^ 16)) ∧
    reads 11 (BitVec.ofNat 16 (c.clock / 2 ^ 32)) ∧
    (writes 0 { c with loop0 := { c.loop0 with lc := a } } ∧ writes 1 { c with loop0 := { c.loop0 with ls := a } } ∧
      writes 2 { c with loop0 := { c.loop0 with le := a } } ∧ writes 3 { c with loop1 := { c.loop1 with lc := a } } ∧
      writes 4 { c with loop1 := { c.loop1 with ls := a } } ∧ writes 5 { c with loop1 := { c.loop1 with le := a } }) ∧
    (12 ≤ code.toNat → exec (.mfsr gc slot true rd code) s = illegal) ∧
    (6 ≤ code.toNat → exec (.mtsr gc slot true ra code) s = illegal) ∧
    Leaves (exec (.halt gc slot true) s) gc slot { c.stepped with run := .halted, trap := 0 } s

/-- M syllables (R105, R155, R167): a legal command block joins the matrix queue with the words captured at issue, and
nothing else changes; an MMA or MDRAIN that finds the queue full traps, and so does a block whose words carry poison.
What of it is the model's choice or reading, and no rule of the spec: log entries 10, 81, 106. -/
def Obligations.MatrixQueueing : Prop :=
  ∀ (gc : Fin 160) (slot : Fin 18) (reg : BitVec 1) (ra : BitVec 4) (addr : BitVec 16) (s : State), Ready gc slot s →
    let p := slotKey gc slot
    let c := s.core p
    let w : Nat := (if reg = 1 then c.sr ra + addr else addr).toNat
    let word (n : Nat) : BitVec 128 := BitVec.ofNat 128 (s.dmemWord p ((w + n) % 65536))
    let clean : Prop := ∀ n < 3, s.dmemPoison p ((w + n) % 65536) = false
    let queued (o : MOp) : Core := { c.stepped with mqueue := c.mqueue ++ [o] }
    (clean → mmaCause (s.beaconInPart gc) (word 0) (word 1) (word 2) = none →
      (c.mqueue.length < 8 →
        Leaves (exec (.mma gc slot true reg ra addr) s) gc slot
          (queued { MOp.reset with
            kind := .mma, w0 := word 0, w1 := word 1, w2 := word 2, pc := c.pc, image := s.dmemImage p }) s) ∧
      (8 ≤ c.mqueue.length → exec (.mma gc slot true reg ra addr) s = Traps gc slot 3 1 s)) ∧
    (s.dmemPoison p w = false → mdrainCause (s.beaconInPart gc) (word 0) = none →
      (c.mqueue.length < 8 →
        Leaves (exec (.mdrain gc slot true reg ra addr) s) gc slot
          (queued { MOp.reset with kind := .mdrain, w0 := word 0, pc := c.pc }) s) ∧
      (8 ≤ c.mqueue.length → exec (.mdrain gc slot true reg ra addr) s = Traps gc slot 3 1 s)) ∧
    (c.mqueue.length < 8 →
      Leaves (exec (.mclr gc slot true 0 0 0) s) gc slot (queued { MOp.reset with kind := .mclr, pc := c.pc }) s) ∧
    (reg ≠ 0 ∨ ra ≠ 0 ∨ addr ≠ 0 → exec (.mclr gc slot true reg ra addr) s = Traps gc slot 1 1 s) ∧
    (¬ clean → exec (.mma gc slot true reg ra addr) s = Traps gc slot 2 1 s) ∧
    (s.dmemPoison p w = true → exec (.mdrain gc slot true reg ra addr) s = Traps gc slot 2 1 s)

/-- Lane-by-lane vector operations (R120, R123, R144): on a type the operation accepts, with its unused fields zero, the
result of every lane waits to land, readable 4 clocks after issue, and nothing else changes; with any other type or a field
not zero the bundle is illegal. The reductions are readable after 8.
Vector forms that the tables do not give (R120, R123, R133, R157): a type, a part or a field that the operation does not
take makes the bundle illegal, and it has no effect but the trap.
What of it is the model's choice or reading, and no rule of the spec: log entries 10, 14, 81. -/
def Obligations.VectorLanes : Prop :=
  (∀ (gc : Fin 160) (slot : Fin 18) (a : VrArgs) (s : State), Ready gc slot s →
    let c := s.core (slotKey gc slot)
    let t := LType.ofCode a.type
    let lanewise (i : Instr) (o : LOp) (oneOperand : Bool) : Prop :=
      let ok : Prop := o.accepts t = true ∧ a.part = 0 ∧ a.n = 0 ∧ (oneOperand = true → a.vb = 0)
      (ok → Leaves (exec i s) gc slot
        (c.awaits 4 ((vLanes o t (fun n => s.free n % 2 = 0) (c.vin a.vd) (c.vin a.va) (c.vin a.vb)).into a.vd)) s) ∧
      (¬ ok → exec i s = Traps gc slot 1 2 s)
    let reduces (i : Instr) (o : ROp) : Prop :=
      let ok : Prop := o.accepts t = true ∧ a.part = 0 ∧ a.n = 0 ∧ a.vb = 0
      (ok → Leaves (exec i s) gc slot (c.awaits 8 ((vReduce o t (s.free 0 % 2 = 0) (c.vin a.va)).into a.vd)) s) ∧
      (¬ ok → exec i s = Traps gc slot 1 2 s)
    lanewise (.vadd gc slot true a) .add false ∧ lanewise (.vsub gc slot true a) .sub false ∧
    lanewise (.vmul gc slot true a) .mul false ∧ lanewise (.vfma gc slot true a) .fma false ∧
    lanewise (.vdiv gc slot true a) .div false ∧ lanewise (.vsqrt gc slot true a) .sqrt true ∧
    lanewise (.vmin gc slot true a) .min false ∧ lanewise (.vmax gc slot true a) .max false ∧
    lanewise (.vabs gc slot true a) .abs true ∧ lanewise (.vneg gc slot true a) .neg true ∧
    lanewise (.vshl gc slot true a) .shl false ∧ lanewise (.vshr gc slot true a) .shr false ∧
    lanewise (.vsra gc slot true a) .sra false ∧ lanewise (.vcmpeq gc slot true a) .cmpeq false ∧
    lanewise (.vcmpne gc slot true a) .cmpne false ∧ lanewise (.vcmplt gc slot true a) .cmplt false ∧
    lanewise (.vcmple gc slot true a) .cmple false ∧
    reduces (.vrsum gc slot true a) .sum ∧ reduces (.vrmax gc slot true a) .max ∧ reduces (.vrmin gc slot true a) .min)
  ∧
  (∀ (gc : Fin 160) (slot : Fin 18) (a : VrArgs) (vd vs : BitVec 5) (sx type stype : BitVec 4) (part : BitVec 2)
    (lane : BitVec 7) (s : State), Ready gc slot s →
    let c := s.core (slotKey gc slot)
    let t := LType.ofCode a.type
    let ty := LType.ofCode type
    let illegal (i : Instr) : Prop := exec i s = Traps gc slot 1 2 s
    let halves : Nat := if t = .fp32 then 2 else 1
    (a.type ≠ 0 ∨ a.part ≠ 0 ∨ a.n ≠ 0 →
      illegal (.vand gc slot true a) ∧ illegal (.vor gc slot true a) ∧ illegal (.vxor gc slot true a) ∧
      illegal (.vnot gc slot true a) ∧ illegal (.vrailAdd gc slot true a) ∧ illegal (.vqcfg gc slot true a) ∧
      illegal (.vseed gc slot true a) ∧ illegal (.vqrd gc slot true a) ∧ illegal (.vflg gc slot true a) ∧
      illegal (.vflgc gc slot true a)) ∧
    (a.vb ≠ 0 →
      illegal (.vnot gc slot true a) ∧ illegal (.vexp gc slot true a) ∧ illegal (.vlog gc slot true a) ∧
      illegal (.vqnt gc slot true a) ∧ illegal (.vqcfg gc slot true a) ∧ illegal (.vseed gc slot true a) ∧
      illegal (.vqrd gc slot true a) ∧ illegal (.vflg gc slot true a) ∧ illegal (.vflgc gc slot true a)) ∧
    (a.va ≠ 0 →
      illegal (.vqrd gc slot true a) ∧ illegal (.vflg gc slot true a) ∧ illegal (.vflgc gc slot true a)) ∧
    (a.vd ≠ 0 → illegal (.vqcfg gc slot true a) ∧ illegal (.vseed gc slot true a) ∧ illegal (.vflgc gc slot true a)) ∧
    (a.type ≠ 1 ∨ a.part ≠ 0 ∨ a.n ≠ 0 → illegal (.vperm gc slot true a)) ∧
    (t.isFloat = false ∨ halves ≤ a.part.toNat ∨ a.n ≠ 0 → illegal (.vexp gc slot true a)) ∧
    (t ≠ .fp32 ∧ t ≠ .bf16 ∨ halves ≤ a.part.toNat → illegal (.vlog gc slot true a)) ∧
    (16 ≤ a.vb.toNat ∨ a.type ≠ 0 ∨ a.n ≠ 0 → illegal (.vrailFin gc slot true a)) ∧
    (qntSource t = false ∨ halves ≤ a.part.toNat ∨ a.n ≠ 0 → illegal (.vqnt gc slot true a)) ∧
    (qcfgReserved (c.vin a.va).data.toNat = true → illegal (.vqcfg gc slot true a)) ∧
    (ty.isLane = false → illegal (.vsplat gc slot true vd sx type)) ∧
    (ty.isLane = false ∨ ty.count ≤ lane.toNat → illegal (.vext gc slot true sx vs lane type)) ∧
    (convParts (LType.ofCode stype) ty ≤ part.toNat → illegal (.vcvt gc slot true vd vs type stype part)))

/-- Vector operations on whole registers (R123, R125, R131, R136, R157, R585): their results wait to land, 4 clocks after issue, or
8 for conversions, exponentials, logarithms and the reading of rails; the marks of the sources go with them, a
conversion into a Glim form steps the LFSR and QBLK at once, and nothing else changes. VEXT reads one lane into a scalar register, and traps on a lane marked with poison.
What of it is the model's choice or reading, and no rule of the spec: log entries 10, 14, 82, 92. -/
def Obligations.VectorRegisterResults : Prop :=
  ∀ (gc : Fin 160) (slot : Fin 18) (a : VrArgs) (vd va vb vm : BitVec 5) (sx sd type stype : BitVec 4) (part : BitVec 2)
    (lane : BitVec 7) (s : State), Ready gc slot s →
    let c := s.core (slotKey gc slot)
    let x := c.vin a.va
    let y := c.vin a.vb
    let t := LType.ofCode a.type
    let gives (i : Instr) (d : Nat) (v : BitVec 5) (r : VRes) : Prop := Leaves (exec i s) gc slot (c.awaits d (r.into v)) s
    let two : Prop := a.type = 0 ∧ a.part = 0 ∧ a.n = 0
    let ty := LType.ofCode type
    (two →
      gives (.vand gc slot true a) 4 a.vd (.whole (x.data &&& y.data) (x.mark ||| y.mark)) ∧
      gives (.vor gc slot true a) 4 a.vd (.whole (x.data ||| y.data) (x.mark ||| y.mark)) ∧
      gives (.vxor gc slot true a) 4 a.vd (.whole (x.data ^^^ y.data) (x.mark ||| y.mark)) ∧
      (a.vb = 0 → gives (.vnot gc slot true a) 4 a.vd (.whole (~~~ x.data) x.mark)) ∧
      gives (.vrailAdd gc slot true a) 4 a.vd (vRailAdd x y)) ∧
    (let m := c.vin vm
     gives (.vsel gc slot true vd va vb vm) 4 vd
      (.whole ((m.data &&& (c.vin va).data) ||| (~~~ m.data &&& (c.vin vb).data)) (m.mark ||| (c.vin va).mark ||| (c.vin vb).mark))) ∧
    (a.type = 1 → a.part = 0 → a.n = 0 → gives (.vperm gc slot true a) 4 a.vd (vPerm x y)) ∧
    (ty.isLane = true → gives (.vsplat gc slot true vd sx type) 4 vd (vSplat ty (c.sr sx))) ∧
    (ty.isLane = true → lane.toNat < ty.count →
      (laneMark ty.width (c.vin va).mark lane.toNat = false →
        Leaves (exec (.vext gc slot true sd va lane type) s) gc slot
          (c.awaits 4 (.sreg sd (BitVec.ofNat 16 (natBits (c.vin va).data.toNat (ty.width * lane.toNat) ty.width)))) s) ∧
      (laneMark ty.width (c.vin va).mark lane.toNat = true →
        exec (.vext gc slot true sd va lane type) s = Traps gc slot 2 2 s)) ∧
    (part.toNat < convParts (LType.ofCode stype) ty →
      let q := { c.qset with gap := none }
      let glim : Prop := ty = .gl4 ∨ ty = .gl3 ∨ ty = .gt2
      let r := vCvt q (LType.ofCode stype) ty part.toNat (fun n => s.free n % 2 = 0) (c.vin va)
      Leaves (exec (.vcvt gc slot true vd va type stype part) s) gc slot
        { c.awaits 8 (r.1.into vd) with
          lfsr := if glim then r.2 else c.lfsr
          quant := if glim then { c.quant with
            qblk := c.quant.qblk + BitVec.ofNat 32 (convCount (LType.ofCode stype) ty / q.bs) } else c.quant } s) ∧
    (a.vb = 0 → a.n = 0 → t.isFloat = true → a.part.toNat < (if t = .fp32 then 2 else 1) →
      gives (.vexp gc slot true a) 8 a.vd (vExp t a.part.toNat x)) ∧
    (a.vb = 0 → (t = .fp32 ∨ t = .bf16) → a.part.toNat < (if t = .fp32 then 2 else 1) →
      gives (.vlog gc slot true a) 8 a.vd (vLog t (a.n = 1) a.part.toNat x)) ∧
    (a.vb.toNat < 16 → a.type = 0 → a.n = 0 →
      gives (.vrailFin gc slot true a) 8 a.vd (vRailFin a.part.toNat (c.sr (a.vb.setWidth 4)) x))

/-- VLD and VST (R124, R127, R157): eight words of data memory from word ra + offset. VLD's result is readable after 6
clocks, each part marked as its word carries poison. VST's bytes stand at the end of its bundle, a part marked with poison
storing the poison word in its two units; every other byte reads as before. An access past word 65,535 traps.
What of it is the model's choice or reading, and no rule of the spec: log entry 10. -/
def Obligations.VectorMemory : Prop :=
  ∀ (gc : Fin 160) (slot : Fin 18) (v : BitVec 5) (ra : BitVec 4) (off : BitVec 13) (s : State), Ready gc slot s →
    let p := slotKey gc slot
    let c := s.core p
    let w : Nat := (c.sr ra).toNat + off.toNat
    let k : Nat := dmemKey p (16 * w)
    let x := c.vin v
    (w + 8 ≤ 65536 →
      Leaves (exec (.vld gc slot true v ra off) s) gc slot
        (c.awaits 6 ((VRes.whole (BitVec.ofNat 1024 (s.dmemNat p (16 * w) 128))
          (partsOf 128 ((List.range 8).map fun n => s.dmemPoison p (w + n)))).into v)) s ∧
      ∃ t, exec (.vst gc slot true v ra off) s = .next t ∧ t.core p = c.stepped ∧ (∀ q, q ≠ p → t.core q = s.core q) ∧
        t = { s with cores := t.cores, freeCtr := t.freeCtr, mem := t.mem, clean := t.clean, chk := t.chk, raws := t.raws,
                     filters := t.filters } ∧
        (∀ j, t.byteAt j =
          if k ≤ j ∧ j < k + 128 then
            (if x.mark.getLsbD ((j - k) / 16) then 0 else BitVec.ofNat 8 (natBits x.data.toNat (8 * (j - k)) 8))
          else s.byteAt j) ∧
        (∀ n < 8, t.dmemPoison p (w + n) = x.mark.getLsbD n)) ∧
    (65536 < w + 8 →
      exec (.vld gc slot true v ra off) s = Traps gc slot 2 2 s ∧
      exec (.vst gc slot true v ra off) s = Traps gc slot 2 2 s)

/-- The quantiser's syllables (R89, R133, R134, R135): VQCFG takes effect 4 clocks after issue and clears QTRIP when it lands;
VSEED sets the LFSR, with 1 in place of 0; VFLG and VQRD read flags and quantiser state; VFLGC clears the flags; VQNT writes
its codes and scales 8 clocks after issue, steps the LFSR and QBLK and QSIDE at once, and traps when its sidecar entries pass
QSLIM.
What of it is the model's choice or reading, and no rule of the spec: log entries 10, 92. -/
def Obligations.QuantiserSyllables : Prop :=
  ∀ (gc : Fin 160) (slot : Fin 18) (a : VrArgs) (s : State), Ready gc slot s → a.type = 0 → a.part = 0 → a.n = 0 → a.vb = 0 →
    let c := s.core (slotKey gc slot)
    let x := (c.vin a.va).data
    let plain (i : Instr) (l : Landing) : Prop := Leaves (exec i s) gc slot (c.awaits 4 l) s
    (a.vd = 0 → qcfgReserved x.toNat = false → (∀ id, qcfgBeacon x.toNat = some id → s.beaconInPart gc id = true) →
      plain (.vqcfg gc slot true a) (.qcfg (x.setWidth 256))) ∧
    (a.vd = 0 → plain (.vseed gc slot true a) (.seed (x.setWidth 32))) ∧
    (a.va = 0 →
      plain (.vqrd gc slot true a) ((VRes.whole (c.quant.lanes.setWidth 1024) 0).into a.vd) ∧
      plain (.vflg gc slot true a)
        ((VRes.whole (BitVec.ofNat 1024 ((if c.sat then 1 else 0) + (if c.invalid then 2 else 0))) 0).into a.vd)) ∧
    (a.va = 0 → a.vd = 0 → plain (.vflgc gc slot true a) .clearFlags) ∧
    (∀ a' : VrArgs, a'.vb = 0 → a'.n = 0 → qntSource (LType.ofCode a'.type) = true →
      a'.part.toNat < (if LType.ofCode a'.type = .fp32 then 2 else 1) →
      let r := c.vqnt a'
      (r.sides = [] →
        Leaves (exec (.vqnt gc slot true a') s) gc slot
          { c.awaits 8 (.vreg a'.vd r.res.data r.res.bytes r.res.mark r.res.sat r.res.inv
              (if c.quant.qen then some (r.terms.map (BitVec.ofNat 32)) else none)) with
            quant := { c.quant with qblk := c.quant.qblk + BitVec.ofNat 32 r.blocks }, lfsr := r.lfsr } s) ∧
      (r.sides ≠ [] → c.quant.qside.toNat + r.sides.length ≤ c.quant.qslim.toNat →
        let k := dmemKey (slotKey gc slot) (8 * c.quant.qside.toNat)
        let bs := r.sides.flatMap fun e => leBytes 8 e.toNat
        ∃ t, exec (.vqnt gc slot true a') s = .next t ∧
          t.core (slotKey gc slot) = { c.awaits 8 (.vreg a'.vd r.res.data r.res.bytes r.res.mark r.res.sat r.res.inv
              (if c.quant.qen then some (r.terms.map (BitVec.ofNat 32)) else none)) with
            quant := { c.quant with
              qblk := c.quant.qblk + BitVec.ofNat 32 r.blocks, qside := c.quant.qside + BitVec.ofNat 17 r.sides.length },
            lfsr := r.lfsr } ∧
          (∀ q, q ≠ slotKey gc slot → t.core q = s.core q) ∧
          ∀ j, t.byteAt j = if k ≤ j ∧ j < k + bs.length then bs.getD (j - k) 0 else s.byteAt j) ∧
      (r.sides ≠ [] → c.quant.qslim.toNat < c.quant.qside.toNat + r.sides.length →
        exec (.vqnt gc slot true a') s = Traps gc slot 5 2 s))

/-- X syllables (R158, R160, R161, R164): XSET and XGET reach one 16-bit part of a move-state register; MOVS, FILL, GATHER and
WPULL join their channel's queue with the registers captured at issue and make it BUSY; XCLR clears its STATUS. Nothing else
changes. A part, a field, an alignment or a full queue that the rules refuse traps.
What of it is the model's choice or reading, and no rule of the spec: log entries 10, 83. -/
def Obligations.MoveSyllables : Prop :=
  ∀ (gc : Fin 160) (slot : Fin 18) (ch : BitVec 2) (f : BitVec 3) (part : BitVec 2) (r : BitVec 4) (s : State),
    Ready gc slot s →
    let c := s.core (slotKey gc slot)
    let x := c.getChan ch.toNat
    let v := c.sr r
    let put (x : Chan) : Core := (c.setChan ch.toNat x).stepped
    let sets (f : BitVec 3) (part : BitVec 2) (x : Chan) : Prop := Leaves (exec (.xset gc slot true ch f part r) s) gc slot (put x) s
    let gets (f : BitVec 3) (part : BitVec 2) (v : BitVec 16) : Prop :=
      Leaves (exec (.xget gc slot true ch f part r) s) gc slot (c.setSr r v).stepped s
    let queues (i : Instr) (k : XKind) (aligned : Prop) : Prop :=
      let legal : Prop := aligned ∧ natBits x.xb.toNat 24 8 = 0 ∧ natBits x.xb.toNat 15 1 = 0
      let beaconOk : Prop := natBits x.xb.toNat 16 8 = 0 ∨ s.beaconInPart gc (natBits x.xb.toNat 0 15) = true
      (legal → beaconOk → x.queue.length < 8 →
        Leaves (exec i s) gc slot
          (put { x with queue := x.queue ++ [⟨k, x.xs, x.xd, x.xc, x.xg, x.xb⟩], state := 1 }) s) ∧
      (¬ legal → exec i s = Traps gc slot 1 3 s) ∧
      (legal → ¬ beaconOk → exec i s = Traps gc slot 4 3 s) ∧
      (legal → beaconOk → 8 ≤ x.queue.length → exec i s = Traps gc slot 3 3 s)
    (sets 0 0 { x with xs := x.xs.extractLsb' 16 32 ++ v } ∧ sets 0 2 { x with xs := v ++ x.xs.extractLsb' 0 32 } ∧
      sets 1 1 { x with xd := (x.xd.extractLsb' 32 16 ++ v : BitVec 32) ++ x.xd.extractLsb' 0 16 } ∧
      sets 2 0 { x with xc := x.xc.extractLsb' 16 16 ++ v } ∧ sets 3 1 { x with xg := v ++ x.xg.extractLsb' 0 16 } ∧
      sets 4 0 { x with xb := x.xb.extractLsb' 16 16 ++ v }) ∧
    (gets 0 1 (x.xs.extractLsb' 16 16) ∧ gets 1 2 (x.xd.extractLsb' 32 16) ∧ gets 2 1 (x.xc.extractLsb' 16 16) ∧
      gets 3 0 (x.xg.extractLsb' 0 16) ∧ gets 4 1 (x.xb.extractLsb' 16 16) ∧
      (x.queue.length ≤ 8 →
        gets 5 0 (BitVec.ofNat 16 (x.queue.length * 256 + x.state.toNat)) ∧ gets 5 1 (x.status.setWidth 16))) ∧
    (6 ≤ f.toNat ∨ (2 ≤ f.toNat ∧ 2 ≤ part.toNat) ∨ part = 3 →
      exec (.xget gc slot true ch f part r) s = Traps gc slot 1 3 s ∧
      exec (.xset gc slot true ch f part r) s = Traps gc slot 1 3 s) ∧
    exec (.xset gc slot true ch 5 part r) s = Traps gc slot 1 3 s ∧
    queues (.movs gc slot true ch) .movs (x.xs.toNat % 16 = 0 ∧ x.xd.toNat % 16 = 0 ∧ x.xc.toNat % 16 = 0) ∧
    queues (.fill gc slot true ch) .fill (x.xd.toNat % 16 = 0 ∧ x.xc.toNat % 16 = 0) ∧
    queues (.gather gc slot true ch) .gather (x.xs.toNat % 8 = 0 ∧ x.xd.toNat % 16 = 0 ∧ x.xg.toNat % 16 = 0 ∧ x.xg ≠ 0) ∧
    queues (.wpull gc slot true ch) .wpull (x.xd.toNat % 64 = 0) ∧
    Leaves (exec (.xclr gc slot true ch) s) gc slot (put { x with status := 0 }) s ∧
    (x.state = 0 → Leaves (exec (.xstop gc slot true ch) s) gc slot c.stepped s) ∧
    (x.state ≠ 0 → x.run = none → Leaves (exec (.xstop gc slot true ch) s) gc slot (put { x with queue := [], state := 2 }) s) ∧
    (∀ run, x.state ≠ 0 → x.run = some run → run.op.kind ≠ .wpull → (s.chanLines gc slot ch.toNat).isEmpty = false →
      Leaves (exec (.xstop gc slot true ch) s) gc slot (put { x with queue := [], run := some { run with pausing := true } }) s) ∧
    (∀ run, x.state ≠ 0 → x.run = some run → run.op.kind = .wpull ∨ (s.chanLines gc slot ch.toNat).isEmpty = true →
      ∃ t, exec (.xstop gc slot true ch) s = .next t ∧
        t.core (slotKey gc slot) = put { x.writeBack run with queue := [], run := none, state := 2 } ∧
        (∀ q, q ≠ slotKey gc slot → t.core q = s.core q) ∧
        t = { s with cores := t.cores, freeCtr := t.freeCtr, clusters := t.clusters })

/-- B syllables (R165, R166, R176, R182, R187): SIGI and SIG add to a beacon of the core's own cluster, SETB writes it, and the
watches it reaches fire; RSIGI and RSIG enter the cluster's pending-signal table; BRD reads half of a beacon; a WAIT or WAITI
whose beacon has reached its target issues, and any other holds its core for the clock. A beacon outside the cluster or the
partition traps.
What of it is the model's choice or reading, and no rule of the spec: log entry 10. -/
def Obligations.BeaconSyllables : Prop :=
  ∀ (gc : Fin 160) (slot : Fin 18) (ra rb rc rd : BitVec 4) (n : BitVec 7) (imm : BitVec 15) (id : BitVec 15) (k : BitVec 7)
    (hi : BitVec 1) (s : State), Ready gc slot s →
    let p := slotKey gc slot
    let c := s.core p
    let a := (c.sr ra).toNat
    let b := (c.sr rb).toNat
    let target : BitVec 32 := c.sr rc ++ c.sr rb
    let own (id : Nat) : Prop := id / 128 = gc.val ∧ id < 20480
    let becomes (i : Instr) (id : Nat) (v : BitVec 32) : Prop :=
      ∃ t, exec i s = .next t ∧ t.core p = c.stepped ∧ (∀ q, q ≠ p → t.core q = s.core q) ∧ t.beacon id = v ∧
        (∀ j, j ≠ id → t.beacon j = s.beacon j) ∧
        (∀ w ∈ (t.cluster gc).watches, w.bid = id → reaches v w.target = false) ∧
        t = { s with cores := t.cores, freeCtr := t.freeCtr, beacons := t.beacons, clusters := t.clusters,
                     answers := t.answers, outs := t.outs }
    let sends (i : Instr) (id : Nat) (v : BitVec 32) : Prop :=
      ∃ t, exec i s = .next t ∧ t.core p = c.stepped ∧ (∀ q, q ≠ p → t.core q = s.core q) ∧
        (t.cluster gc).getTable id = (s.cluster gc).getTable id + v ∧
        (∀ j, j ≠ id → (t.cluster gc).getTable j = (s.cluster gc).getTable j) ∧
        t = { s with cores := t.cores, freeCtr := t.freeCtr, clusters := t.clusters }
    let held (i : Instr) : Prop := Leaves (exec i s) gc slot { c with clock := c.clock + 1 } s
    (imm ≠ 0 → becomes (.sigi gc slot true n imm) (gc * 128 + n.toNat) (s.beacon (gc * 128 + n.toNat) + imm.setWidth 32)) ∧
    (imm = 0 → exec (.sigi gc slot true n imm) s = Traps gc slot 1 4 s) ∧
    (own a → becomes (.sig gc slot true ra rb) a (s.beacon a + (c.sr rb).setWidth 32)) ∧
    (own a → becomes (.setb gc slot true ra rb rc) a target) ∧
    (k ≠ 0 → s.beaconInPart gc id.toNat = true → sends (.rsigi gc slot true id k) id.toNat (k.setWidth 32)) ∧
    (k = 0 → exec (.rsigi gc slot true id k) s = Traps gc slot 1 4 s) ∧
    (s.beaconInPart gc a = true → sends (.rsig gc slot true ra rb) a ((c.sr rb).setWidth 32)) ∧
    (own b → Leaves (exec (.brd gc slot true rd rb hi) s) gc slot
      (c.setSr rd (if hi = 1 then (s.beacon b).extractLsb' 16 16 else (s.beacon b).extractLsb' 0 16)).stepped s) ∧
    (own a →
      (reaches (s.beacon a) target = true → Leaves (exec (.wait gc slot true ra rb rc) s) gc slot c.stepped s) ∧
      (reaches (s.beacon a) target = false → held (.wait gc slot true ra rb rc))) ∧
    (reaches (s.beacon (gc * 128 + n.toNat)) (imm.setWidth 32) = true →
      Leaves (exec (.waiti gc slot true n imm) s) gc slot c.stepped s) ∧
    (reaches (s.beacon (gc * 128 + n.toNat)) (imm.setWidth 32) = false → held (.waiti gc slot true n imm)) ∧
    (¬ own a → exec (.sig gc slot true ra rb) s = Traps gc slot 4 4 s ∧ exec (.setb gc slot true ra rb rc) s = Traps gc slot 4 4 s ∧
      exec (.wait gc slot true ra rb rc) s = Traps gc slot 4 4 s) ∧
    (¬ own b → exec (.brd gc slot true rd rb hi) s = Traps gc slot 4 4 s) ∧
    (s.beaconInPart gc a = false → exec (.rsig gc slot true ra rb) s = Traps gc slot 4 4 s) ∧
    (k ≠ 0 → s.beaconInPart gc id.toNat = false → exec (.rsigi gc slot true id k) s = Traps gc slot 4 4 s)

/-- Bundles (R138, R139, R141, R166, R561): a syllable with STOP 0 joins the bundle being presented and does nothing yet; a core that
does not issue takes nothing; in a clock
that the duty-cycle limiter of its partition closes, the bundle waits for one clock; a second syllable whose UNIT does not rise makes the bundle illegal and charges itself; two
that rise both act, and the second reads its sources as they stood at issue.
What of it is the model's choice or reading, and no rule of the spec: log entries 1, 10, 102. -/
def Obligations.Bundles : Prop :=
  ∀ (gc : Fin 160) (slot : Fin 18) (s : State),
    let p := slotKey gc slot
    let c := s.core p
    (∀ y, c.issues = true → State.present gc slot false y s = .next (s.setCore p { c with bundle := c.bundle ++ [y] })) ∧
    (∀ y stop, c.issues = false → State.present gc slot stop y s = .next s) ∧
    (∀ y, c.issues = true → c.pend = [] → s.dutyOpen gc slot = false →
      State.present gc slot true y s = .next (s.setCore p { c with bundle := [], clock := c.clock + 1 })) ∧
    (∀ y z : Syl, c.issues = true → c.bundle = [y] → c.branch = none → c.pc.toNat + 1 < 32768 → y ≠ .noFetch → z ≠ .noFetch →
      c.waitOf gc y = none → c.waitOf gc z = none → s.sylCause gc slot c true [] y = none → z.unit.toNat ≤ y.unit.toNat →
      s.dutyOpen gc slot = true →
      State.present gc slot true z s = .next (s.takeTrap p 1 c.pc z.unit false)) ∧
    (∀ (rd ra : BitVec 4) (imm : BitVec 14) (rb : BitVec 4) (id : BitVec 4) (t : State), rd ≠ 0 →
      Ready gc slot s → c.loop0.test c.pc 2 = none → c.loop1.test c.pc 2 = none → c.pc.toNat + 1 < 32768 →
      (c.sr id).toNat / 128 = gc.val → (c.sr id).toNat < 20480 →
      exec (.addi gc slot false rd ra imm) s = .next t →
      ∃ u, exec (.sig gc slot true id rb) t = .next u ∧
        u.beacon (c.sr id).toNat = s.beacon (c.sr id).toNat + (c.sr rb).setWidth 32 ∧
        (u.core p).sr rd = c.sr ra + imm.signExtend 16 ∧ (u.core p).pc = c.pc + 2 ∧ (u.core p).clock = c.clock + 1)

/-- Taking a trap (R168, R169, R202): the core is HALTED with the cause, the address of its bundle and the charged UNIT recorded, a
synchronous trap with ASYNC 0; ERR_STAT.BLOCK bit 16 of its page is set; every other core and all memory are as before, and the
page stays in service when bit 16 of ERR_EN is clear. A pause that is taking effect, or has, ends: its channels are released. s0 reads 0 and takes no write.
Results that wait (R89, R127, R133, R145): REGISTER_WRITE_LANDS passes the clocks to the end of the next landing clock, and
the result takes effect: a scalar register, a whole vector register with its marks and the sticky flags, the quantiser state
with QTRIP cleared, the LFSR with 1 in place of 0, or the flags cleared.
What of it is the model's choice or reading, and no rule of the spec: log entries 7, 10, 92. -/
def Obligations.TrapsAndLandings : Prop :=
  (∀ (s : State) (gc : Fin 160) (slot : Fin 18) (cause : BitVec 4) (pc : BitVec 16) (unit : BitVec 3) (async : Bool),
    let p := slotKey gc slot
    (s.core p).pend = [] →
    let page : Page := ⟨.cor, p⟩
    (s.reg (page.base + 0x1C)).getLsbD 16 = false →
    let c := s.core p
    let t := s.takeTrap p cause pc unit async
    (c.pausing = false → c.run ≠ .paused →
      t.core p = { c with run := .halted, trap := cause, trapPc := pc, unit := unit, async := async, bundle := [] } ∧
      t.clusters = s.clusters) ∧
    (t.core p).run = .halted ∧ (t.core p).trap = cause ∧ (t.core p).trapPc = pc ∧ (t.core p).unit = unit ∧
    (t.core p).async = async ∧ (t.core p).pausing = false ∧ (t.core p).sreg = c.sreg ∧ (t.core p).pc = c.pc ∧
    (c.pausing = true ∨ c.run = .paused → ∀ ch < 4, ((t.core p).getChan ch).held = false) ∧
    (∀ q, q ≠ p → t.core q = s.core q) ∧ t.mem = s.mem ∧ t.beacons = s.beacons ∧
    (t.reg (page.base + 0x18)).getLsbD 16 = true ∧ t.st page = s.st page ∧
    (∀ (x : Core) (v : BitVec 16), x.setSr 0 v = x ∧ x.sr 0 = 0) ∧
    (∀ (x : Core) (r q : BitVec 4) (v : BitVec 16), r ≠ 0 → (x.setSr r v).sr r = v ∧ (q ≠ r → (x.setSr r v).sr q = x.sr q)))
  ∧
  (∀ (gc : Fin 160) (slot : Fin 18) (s : State) (k : Nat) (x : Landing),
    let p := slotKey gc slot
    let c := s.core p
    let after (y : Core) : Prop :=
      ∃ t, exec (.registerWriteLands gc slot) s = .next t ∧ OnlyCore p { y with pend := [], clock := max c.clock (k + 1) } s t
    c.pend = [⟨k, x⟩] →
    (∀ r v, x = .sreg r v → after (c.setSr r v)) ∧
    (∀ v data mark sat inv, x = .vreg v data (BitVec.allOnes 128) mark sat inv none →
      after { c.setVreg v.toNat ⟨data, mark⟩ with sat := c.sat || sat, invalid := c.invalid || inv }) ∧
    (∀ lanes, x = .qcfg lanes → after { c with quant := Quant.ofLanes lanes } ∧ (Quant.ofLanes lanes).qtrip = false) ∧
    (∀ v, x = .seed v → after { c with lfsr := if v = 0 then 1 else v }) ∧
    (x = .clearFlags → after { c with sat := false, invalid := false }))

/-- The matrix engine (R100, R101, R107, R113, R115, R116, R118): an MMA at the head of the queue starts, clears the tile when
CLR says so, captures ACC_EXP into a clear tile, and waits with CLR while another runs; its end, after the words that it read of
the tile are decoded, takes it out, leaves the tile it computed and signals its beacon, or, with an escape fault, which a format
that is no Glim form never has, marks the tile and halts the core. A drain starts when no MMA runs, with the bytes it will write,
and at its end they stand in data memory, or every output word holds poison. MCLR clears the tile. A tile read with no word in
error reads what it holds.
What of it is the model's choice or reading, and no rule of the spec: log entries 14, 15, 93, 106. -/
def Obligations.MatrixEngine : Prop :=
  ∀ (gc : Fin 160) (slot : Fin 18) (o : MOp) (rest : List MOp) (found : List (Nat × Nat)) (s : State),
    let p := slotKey gc slot
    let c := s.core p
    let running : Prop := ∃ m ∈ c.mrun, m.kind = MKind.mma
    let ctl := Ctl.ofWord o.w2
    let d := Drain.ofWord o.w0
    let u := s.tileRead p found
    let signalled (t : State) (id n : Nat) : Prop :=
      (t.cluster gc).getTable id = (u.cluster gc).getTable id + BitVec.ofNat 32 n ∧
      ∀ j, j ≠ id → (t.cluster gc).getTable j = (u.cluster gc).getTable j
    (c.mqueue = o :: rest → o.kind = .mma → (ctl.clr = false ∨ ¬ running) →
      let tile := if ctl.clr then c.tile.clear else c.tile
      ∃ t, exec (.mmaStart gc slot) s = .next t ∧
        t.core p = { c with
          mqueue := rest, mrun := c.mrun ++ [o],
          tile := if tile.fresh then { tile with tileExp := ctl.accExp, fresh := false } else tile } ∧
        (∀ q, q ≠ p → t.core q = s.core q) ∧ t = { s with cores := t.cores, filters := t.filters }) ∧
    (c.mqueue = o :: rest → o.kind = .mma → ctl.clr = true → running → exec (.mmaStart gc slot) s = .next s) ∧
    (c.mrun = o :: rest → o.kind = .mma →
      ∃ t, exec (.mmaDone gc slot found) s = .next t ∧
        ((u.core p).mrun ≠ [] → (u.mmaTile p o).2 = false → t.core p = { u.core p with mrun := rest, tile := (u.mmaTile p o).1 } ∧
          (∀ q, q ≠ p → t.core q = u.core q) ∧ signalled t ctl.beacon ctl.sigN ∧
          t = { u with cores := t.cores, freeCtr := t.freeCtr, clusters := t.clusters, filters := t.filters })) ∧
    ((Opd.ofWord o.w0).fmtOf.isGlim = false → (Opd.ofWord o.w1).fmtOf.isGlim = false → (u.mmaTile p o).2 = false) ∧
    (c.mrun = o :: rest → o.kind = .mma → (u.core p).mrun ≠ [] → (u.mmaTile p o).2 = true →
      let w := (u.setCore p { u.core p with mrun := rest, tile := { (u.core p).tile with poison := true } }).draw
      ((u.core p).run ≠ .halted → exec (.mmaDone gc slot found) s = .next (w.takeTrap p 5 o.pc 1 true)) ∧
      ((u.core p).run = .halted → exec (.mmaDone gc slot found) s = .next (if (u.core p).trap = 0 then w.lateFault p o.pc else w))) ∧
    (c.mqueue = o :: rest → o.kind = .mdrain → ¬ running →
      let k := u.core p
      let x : DrainOut := if k.tile.fresh then d.run { Tile.reset with tileExp := k.tile.tileExp } (fun _ => false) k.lfsr
        else d.run k.tile (fun n => u.free n % 2 = 0) k.lfsr
      let flags := if d.flg then bytesFrom (d.flagAddr * 16) (flagsWord k.tile x.sat) else []
      exec (.mdrainStart gc slot found) s = .next (if k.mqueue = [] then u else (u.setCore p { k with
        mqueue := rest, lfsr := x.lfsr, sat := k.sat || x.sat, invalid := k.invalid || x.inv,
        mrun := k.mrun ++ [{ o with out := (x.bytes ++ flags).map (fun b => (dmemKey p b.1, b.2)), poison := k.tile.poison }] }).draw)) ∧
    s.tileRead p [] = s ∧
    (c.mrun = o :: rest → o.kind = .mdrain → (∀ b ∈ o.out, ∃ off < 1048576, b.1 = dmemKey p off) →
      ∃ t, exec (.mdrainDone gc slot) s = .next t ∧ (t.core p).mrun.map (·.kind) = rest.map (·.kind) ∧
        (t.core p).tile = c.tile ∧ (∀ q, q ≠ p → t.core q = s.core q) ∧
        (t.cluster gc).getTable d.beacon = (s.cluster gc).getTable d.beacon + BitVec.ofNat 32 d.sigN ∧
        (∀ j, j ≠ d.beacon → (t.cluster gc).getTable j = (s.cluster gc).getTable j) ∧
        (d.flg = false → o.poison = true → ∀ b ∈ o.out, t.isClean (unitOf b.1) = false) ∧
        (o.poison = false → (∀ b ∈ o.out, s.isClean (unitOf b.1) = true) →
          ∀ j, t.byteAt j = ((o.out.reverse.find? fun b => b.1 = j).map (·.2)).getD (s.byteAt j))) ∧
    (c.mqueue = o :: rest → o.kind = .mclr → ¬ running →
      ∃ t, exec (.mclrStart gc slot) s = .next t ∧ t.core p = { c with mqueue := rest, tile := c.tile.clear } ∧
        (∀ q, q ≠ p → t.core q = s.core q) ∧ t = { s with cores := t.cores, filters := t.filters }) ∧
    (∀ t : Tile, t.clear.fresh = true ∧ t.clear.tileExp = t.tileExp ∧ t.clear.poison = false ∧
      ∀ k, t.clear.getP k = 0 ∧ t.clear.getQ k = 0 ∧ t.clear.getC k = 0)

/-- The move channels (R159, R162, R163, R164, R223): a channel takes its oldest queued operation, and a WPULL begins to wait; a
start slot goes to the first eligible channel after the pointer, in the order of R223, which then stands at it; a line that
completes joins the progress, and one that is refused leaves its status and stops the operation; an operation whose lines are
all done ends, IDLE or BUSY with the next, and signals its beacon; one that stopped or paused writes its progress back.
What of it is the model's choice or reading, and no rule of the spec: log entries 11, 15, 71, 83. -/
def Obligations.MoveEngine : Prop :=
  ∀ (gc : Fin 160) (slot : Fin 18) (ch : Fin 4) (host : HostSide) (r : XRun) (s : State),
    let p := slotKey gc slot
    let x := (s.core p).getChan ch
    let put (s : State) (x : Chan) : State := s.setCore p ((s.core p).setChan ch x)
    let ended (x : Chan) : Chan := { x with run := none, state := if x.queue = [] then 0 else 1 }
    let signal (s : State) (o : XOp) : State := s.sigCluster gc (natBits o.xb.toNat 0 15) (BitVec.ofNat 32 (natBits o.xb.toNat 16 8))
    (∀ o rest, x.run = none → x.queue = o :: rest → x.held = false → s.serving ⟨.cor, p⟩ = true →
      let t := put s { x with queue := rest, run := some { XRun.reset with op := o } }
      exec (.xOpStart gc slot ch) s = .next (if o.kind = .wpull then
        t.setCluster gc { s.cluster gc with waiting := (s.cluster gc).waiting ++ [(slot.val, ch.val)] } else t)) ∧
    (∀ k q run, host.entry ≠ .timeout → host.read ≠ .timeout → s.gatherReady gc = false → s.nextChannel gc = some (k, q) → ((s.core (slotKey gc q)).getChan (k % 4)).run = some run →
      let y := (s.core (slotKey gc q)).getChan (k % 4)
      let n := run.op.lineLen run.next
      exec (.lineStart gc host) s = .next
        ((s.setCore (slotKey gc q) ((s.core (slotKey gc q)).setChan (k % 4) { y with run := some { run with next := run.next + n } })).setCluster gc
          { s.cluster gc with rot := k, pgTurn := true, lines := (s.cluster gc).lines ++ [⟨q, k % 4, run.next, n⟩] })) ∧
    (∀ k q, s.nextChannel gc = some (k, q) →
      s.slotOf (gc * 16 + k / 4) = some q ∧ s.lineReady gc q (k % 4) = true ∧
      ∃ d < 64, k = ((s.cluster gc).rot + 1 + d) % 64 ∧
        ∀ e < d, ∀ q', s.slotOf (gc * 16 + ((s.cluster gc).rot + 1 + e) % 64 / 4) = some q' →
          s.lineReady gc q' (((s.cluster gc).rot + 1 + e) % 64 % 4) = false) ∧
    (∀ (l : Line), (s.chanLines gc slot ch).find? (fun m => m.off = l.off) = some l → x.run = some r → r.op.kind = .fill →
      host.entry ≠ .timeout → host.read ≠ .timeout →
      let s1 := s.setCluster gc { s.cluster gc with lines := (s.cluster gc).lines.erase l }
      (∀ k, s1.target (r.op.xd.toNat + l.off) l.len ≠ .host k) →
      let bytes := (List.range l.len).map fun n => (leBytes 4 r.op.xg.toNat).getD ((l.off + n) % 4) 0
      let w := s1.writeMem (.core gc slot ch) (r.op.xd.toNat + l.off) bytes false
      w.1.holdHit = [] →
      (w.2 = 0 → exec (.lineComplete gc (.chan slot ch l.off) host) s =
        .next (w.1.modChan p ch fun y => { y with run := some (r.complete l.off l.len) })) ∧
      (w.2 ≠ 0 → exec (.lineComplete gc (.chan slot ch l.off) host) s =
        .next (w.1.modChan p ch fun y =>
          { y with status := if y.status = 0 then w.2 else y.status, run := some { r with stop := some w.2 } }))) ∧
    (x.run = some r → s.chanLines gc slot ch = [] → r.op.kind ≠ .wpull →
      (r.pausing = true →
        exec (.xOpComplete gc slot ch) s = .next (put s { x.writeBack r with run := none, state := if x.queue = [] then 2 else 1 })) ∧
      (r.pausing = false → r.stop ≠ none →
        exec (.xOpComplete gc slot ch) s = .next (signal (put s (ended (x.writeBack r))) r.op)) ∧
      (r.pausing = false → r.stop = none → r.done = r.op.total →
        exec (.xOpComplete gc slot ch) s = .next (signal (put s (ended x)) r.op)))

/-- Work reaches cores and credits return (R162, R198, R199): the WPULL that has waited longest takes the oldest descriptor of
its cluster's queue and writes it at its destination, one credit sets out, and the channel signals; a credit that reaches the
distributor is held there, at most 64.
The work distributor (R192, R193, R194, R195, R196, R198, R201, R202): a ring slot whose turn has come is read, its credit
goes back and TAKEN advances, whatever it holds; a checked descriptor waits at its source, behind its gate; a released one
enters the queue of its cluster with PARTITION and the partition's next SEQ and takes one credit. The ring and the gate are learnt by watch.
What of it is the model's choice or reading, and no rule of the spec: log entries 11, 80, 94. -/
def Obligations.WorkAndCredits : Prop :=
  (∀ (gc : Fin 160) (slot : Fin 18) (ch : Fin 4) (ws : List (Nat × Nat)) (d : List (BitVec 8)) (ds : List (List (BitVec 8)))
    (r : XRun) (host : HostWrite) (s : State),
    let p := slotKey gc slot
    let k := s.cluster gc
    let signal (s : State) (o : XOp) : State := s.sigCluster gc (natBits o.xb.toNat 0 15) (BitVec.ofNat 32 (natBits o.xb.toNat 16 8))
    (k.pauseReq = false → k.waiting = (slot.val, ch.val) :: ws → k.wq = d :: ds → ((s.core p).getChan ch).run = some r →
      let s1 := s.setCluster gc { k with waiting := ws, wq := ds, creditOut := k.creditOut + 1 }
      (∀ l, s1.target r.op.xd.toNat d.length ≠ .host l) →
      let w := s1.writeMem (.core gc slot ch) r.op.xd.toNat d false
      let t := signal (w.1.modChan p ch fun c =>
        { c with
          status := if w.2 = 0 ∨ c.status ≠ 0 then c.status else w.2, run := none, state := if c.queue = [] then 0 else 1 }) r.op
      t.holdHit = [] → exec (.wpullTake gc host) s = .next t) ∧
    (k.pauseReq = true → exec (.wpullTake gc host) s = .next s) ∧
    (0 < k.creditOut →
      let h := s.partHub (s.clusterPart gc)
      exec (.workCreditReturn gc) s = .next
        ((s.setCluster gc { k with creditOut := k.creditOut - 1 }).setDisOf h
          ((s.disOf h).setCredit gc (min 64 ((s.disOf h).getCredit gc + 1))))) ∧
    (k.creditOut = 0 → exec (.workCreditReturn gc) s = .next s))
  ∧
  (∀ (hub : Fin 2) (ring : Fin 48) (part : Fin 12) (src : Nat) (d : Desc) (rest : List Desc) (gc now : Nat) (s : State),
    let p := ring.val / 4
    let taken := s.rd (Reg.DIS_RING_TAKEN hub ring)
    let submit := s.rd (Reg.DIS_RING_CFG_SUBMIT hub ring)
    let a := sramBase + hub.val * 2 ^ 26 +
      (s.rd (Reg.DIS_RING_BASE hub ring) + taken % 2 ^ s.rd (Reg.DIS_RING_CFG_LOG2_SIZE hub ring)) * 64
    let l := (s.checkRing hub ring).learn (ringWatch hub ring submit taken)
    let x := l.state.readMem (.hub hub .dis (Fin.ofNat 12 p)) a 64
    let back := (x.1.sigHub hub .dis (s.rd (Reg.DIS_RING_CREDIT hub ring)) 1).step1 (Reg.DIS_RING_TAKEN hub ring)
    (s.ringServed hub ring = true → l.fired = true →
      let st := if x.2.status ≠ 0 then x.2.status else if x.2.poison then St.poisoned else back.descStatus p x.2.data
      (st = 0 →
        exec (.disRingTake hub ring) s = .next (back.modDisOf hub fun y =>
          y.setHeld ring (y.getHeld ring ++ [{ part := p, bytes := x.2.data, ready := ¬ fieldAt x.2.data 1 1 / 2 % 2 = 1 }]))) ∧
      (st ≠ 0 → exec (.disRingTake hub ring) s = .next (back.badDesc hub ring (fieldAt x.2.data 12 1) st p))) ∧
    (s.ringServed hub ring = true → l.fired = false → exec (.disRingTake hub ring) s = .next l.state) ∧
    (s.ringServed hub ring = true → s.clusterGone (submit / 128) = false →
      reaches (s.beacon submit) (BitVec.ofNat 32 (taken + 1)) = true →
      s.answered (watchKey hub .dis (BitVec.ofNat 16 ring)) = none →
      (∀ w ∈ (s.cluster (submit / 128)).watches, ¬ (w.hub = hub.val ∧ w.engine = .dis ∧ w.tag = BitVec.ofNat 16 ring)) →
      l.fired = true) ∧
    ((s.disOf hub).getHeld src = d :: rest → d.ready = false → s.st ⟨.dis, hub⟩ = PS.enabled →
      let g := s.learn (gateWatch hub src d.bytes)
      exec (.gateRelease hub src) s = .next (if g.fired then
        g.state.setDisOf hub ((g.state.disOf hub).setHeld src ({ d with ready := true } :: rest)) else g.state)) ∧
    (s.pauseInForce part = false → s.mayServe hub Engine.dis.num part now 1 (s.placeWaits hub) = true → s.serving ⟨.dis, hub⟩ = true → s.nextSource hub part = some (src, d, .go gc) →
      ∃ t, exec (.descriptorPlace hub part now) s = .next t ∧
        (t.cluster gc).wq = (s.cluster gc).wq ++ [placedBytes d.bytes part (s.part part).seq] ∧
        (t.part part).seq = (s.part part).seq + 1 ∧ (t.disOf hub).getCredit gc = (s.disOf hub).getCredit gc - 1 ∧
        (t.disOf hub).getHeld src = ((s.disOf hub).getHeld src).drop 1 ∧ (t.disOf hub).getRr part = src ∧
        (∀ q, q ≠ gc → t.cluster q = s.cluster q) ∧ (∀ q, q ≠ part.val → t.part q = s.part q) ∧
        t = { s with dis := t.dis, parts := t.parts, clusters := t.clusters, turns := t.turns, clocks := t.clocks }) ∧
    ((∀ q < 12, s.strictOn q = false) → (∀ q, q ≠ part.val → s.placeWaits hub q = false) → s.partHub part = hub.val →
      s.mayServe hub Engine.dis.num part now 1 (s.placeWaits hub) = true) ∧
    (s.nextSource hub part = some (src, d, .go gc) → 0 < (s.disOf hub).getCredit gc ∧ d.ready = true ∧ d.part = part.val))

/-- Signals (R176, R177, R180, R182, R185, R186, R187): a sender's sum of adds leaves as one message and its entry is cleared; a
message that arrives adds to its beacon, modulo 2^32, and frees every watch it reaches, each answered FIRED; writes of a beacon
slot set it or add to it and are answered; a watch is answered at once when its target is reached, held while there is room,
and a DISARM frees it. An engine that learns a beacon by watch acts on a FIRED answer that waits for it, and else arms its watch
once.
What of it is the model's choice or reading, and no rule of the spec: log entry 11. -/
def Obligations.Signals : Prop :=
  ∀ (gc : Fin 160) (id : Fin 20480) (r : Req) (v : BitVec 32) (n : Nat) (g : Sig) (hub : Fin 2) (engine : Engine)
    (tag : BitVec 16) (s : State),
    let at_ (id : Nat) (x : BitVec 32) (t : State) : Prop :=
      t.beacon id = x ∧ (∀ j, j ≠ id → t.beacon j = s.beacon j) ∧
        (∀ w ∈ (t.cluster (id / 128)).watches, w.bid = id → reaches x w.target = false) ∧
        (∀ w ∈ (s.cluster (id / 128)).watches, w.bid = id → reaches x w.target = true →
          Out.watch w.hub w.engine w.tag 0 x ∈ t.outs) ∧
        t.mem = s.mem ∧ t.regs = s.regs ∧ t.cores = s.cores
    let free : Watch := ⟨id, v, tag, hub, engine⟩
    ((s.cluster gc).getTable id ≠ 0 →
      exec (.signalSend (.cluster gc) id) s = .next
        { s.setCluster gc ((s.cluster gc).setTable id 0) with
          signals := s.signals ++ [⟨some gc, 0, id, (s.cluster gc).getTable id⟩] }) ∧
    (s.hubSum (hubTableKey hub engine id) ≠ 0 →
      exec (.signalSend (.engine hub engine) id) s = .next
        { s.setHubSum (hubTableKey hub engine id) 0 with
          signals := s.signals ++ [⟨none, hub, id, s.hubSum (hubTableKey hub engine id)⟩] }) ∧
    (s.signals[n]? = some g → g.bid < 20480 → s.clusterGone (g.bid / 128) = false →
      s.bcnDropped (match g.srcGc with | some c => c / 16 | none => hubNode g.srcHub) (g.bid / 128) = none →
      ∃ t, exec (.signalArrive n) s = .next t ∧ at_ g.bid (s.beacon g.bid + g.add) t ∧ t.signals = s.signals.eraseIdx n) ∧
    (s.slotStatus r id = 0 →
      (∃ t, exec (.bcnValueWrite r id v) s = .next t ∧ at_ id v t ∧ Out.reply r 0 [] false ∈ t.outs) ∧
      ∃ t, exec (.bcnAddWrite r id v) s = .next t ∧ at_ id (s.beacon id + v) t ∧ Out.reply r 0 [] false ∈ t.outs) ∧
    (s.slotStatus r id ≠ 0 →
      exec (.bcnValueWrite r id v) s = .next (s.out (.reply r (s.slotStatus r id) [] false)) ∧
      exec (.bcnAddWrite r id v) s = .next (s.out (.reply r (s.slotStatus r id) [] false))) ∧
    (s.bcnDropped (hubNode hub) (id / 128) = none → s.clusterGone (id / 128) = false →
      (reaches (s.beacon id) v = true →
        exec (.watchArm hub engine id v tag) s = .next ((s.out (.watch hub engine tag 0 (s.beacon id))).setAnswered
          (watchKey hub engine tag) (some ⟨id, v, 0, s.beacon id⟩))) ∧
      (reaches (s.beacon id) v = false → (s.cluster (id / 128)).watches.length < 64 →
        ∃ t, exec (.watchArm hub engine id v tag) s = .next t ∧
          t = { s.setCluster (id / 128) { s.cluster (id / 128) with watches := (s.cluster (id / 128)).watches ++ [free] } with
                regs := t.regs } ∧
          ∀ a, a ≠ (Reg.CLU_WATCH_PEAK (id / 128)).addr → t.reg a = s.reg a)) ∧
    (s.clusterGone gc = false →
      ∀ w, (s.cluster gc).watches.find? (fun w => w.hub = hub.val && w.engine == engine && w.tag = tag) = some w →
      exec (.disarm hub engine gc tag) s = .next
        (((s.setCluster gc { s.cluster gc with
          watches := (s.cluster gc).watches.filter fun w => !(w.hub = hub.val && w.engine == engine && w.tag = tag) }).out
          (.watch hub engine tag 2 0)).setAnswered (watchKey hub engine tag) (some ⟨w.bid, w.target, 2, 0⟩))) ∧
    (∀ w : Watch, w.bid = id → w.target = v → w.tag = tag → w.hub = hub.val → w.engine = engine →
      s.clusterGone (id / 128) = false → (∀ y ∈ (s.cluster (id / 128)).watches, ¬ (y.hub = hub.val ∧ y.engine = engine ∧ y.tag = tag)) →
      s.answered (watchKey hub engine tag) = none →
      (reaches (s.beacon id) v = true → (s.learn w).fired = true) ∧
      (reaches (s.beacon id) v = false → (s.cluster (id / 128)).watches.length < 64 →
        (s.learn w).fired = false ∧ ((s.learn w).state.cluster (id / 128)).watches = (s.cluster (id / 128)).watches ++ [w])) ∧
    (∀ (w : Watch) (x : BitVec 32), s.answered (watchKey w.hub w.engine w.tag) = some ⟨w.bid, w.target, 0, x⟩ →
      (s.learn w).fired = true ∧ (s.learn w).value = x ∧ (s.learn w).state.answered (watchKey w.hub w.engine w.tag) = none)

/-- Signals to a cluster that does not stand (R186): a signal that reaches a cluster whose page is FENCED or RESETTING, or an absent one,
is discarded and no beacon moves; the sending cluster counts it in CLU_SIG_DROP, or the hub of the engine in HUB_SIG_DROP and in the
leaky bucket of its HUB page; no reply is sent. -/
def Obligations.DiscardedSignals : Prop :=
  ∀ (n : Nat) (g : Sig) (s : State),
    let to_ := g.bid / 128
    let hub : Page := ⟨.hub, g.srcHub⟩
    s.signals[n]? = some g →
    s.st ⟨.clu, to_⟩ = PS.fenced ∨ s.st ⟨.clu, to_⟩ = PS.resetting ∨ s.st ⟨.clu, to_⟩ = PS.off →
    s.bcnDropped (match g.srcGc with | some c => c / 16 | none => hubNode g.srcHub) to_ = none →
    ∃ t, exec (.signalArrive n) s = .next t ∧ t.signals = s.signals.eraseIdx n ∧ t.beacons = s.beacons ∧ t.replies = s.replies ∧
      (∀ gc, g.srcGc = some gc → t.rd (Reg.CLU_SIG_DROP gc) = min (s.rd (Reg.CLU_SIG_DROP gc) + 1) (2 ^ 32 - 1) ∧
        t = { s with regs := t.regs, signals := t.signals }) ∧
      (g.srcGc = none → t.rd (Reg.HUB_SIG_DROP g.srcHub) = min (s.rd (Reg.HUB_SIG_DROP g.srcHub) + 1) (2 ^ 32 - 1) ∧
        t.rd (Reg.BUCKET_LEVEL_LEVEL hub) = min (s.rd (Reg.BUCKET_LEVEL_LEVEL hub) + 1) 65535)

/-- Pausing and resuming (R173, R201, R202): DIS_PAUSE's bit asks the partition's clusters to pause, or to resume; a core whose
pause is asked for stops at a boundary with no delay bundle left, its results land, its channels hold, and with nothing left to
run it is PAUSED; a cluster whose cores are all paused reports DONE, and DIS_PAUSED is set when every cluster has; with no pause
asked for, a PAUSED core runs on.
What of it is the model's choice or reading, and no rule of the spec: log entry 11. -/
def Obligations.Pausing : Prop :=
  ∀ (hub : Fin 2) (part : Fin 12) (gc : Fin 160) (slot : Fin 18) (s : State),
    let p := slotKey gc slot
    let c := s.core p
    let bit := 1#32 <<< part.val
    let f := (Reg.DIS_PAUSE hub).addr
    let paused := (Reg.DIS_PAUSED (s.partHub part)).addr
    let up : Prop := s.st ⟨.dis, hub⟩ ≠ PS.off ∧ s.pageGone ⟨.dis, hub⟩ 0x40 = false
    (up → s.partHub part = hub.val →
      (∃ t, exec (.partitionPause hub part) s = .next t ∧ t.reg f = s.reg f ||| bit ∧
        ((∀ g ∈ s.clustersOf part, (s.cluster g).pauseReq = false) → s.resuming part = false →
          ∀ g ∈ s.clustersOf part, (t.cluster g).pauseReq = true ∧ (t.cluster g).pauseDone = false) ∧
        t = { s with regs := t.regs, clusters := t.clusters }) ∧
      ∃ t, exec (.partitionResume hub part) s = .next t ∧ t.reg f = s.reg f &&& ~~~ bit ∧
        (natBits (s.rd (Reg.DIS_PAUSED hub)) part 1 = 1 → (∃ g ∈ s.clustersOf part, (s.cluster g).pauseReq = true) →
          ∀ g ∈ s.clustersOf part, (t.cluster g).pauseReq = false ∧ (t.cluster g).pauseDone = false) ∧
        t = { s with regs := t.regs, clusters := t.clusters }) ∧
    (up → s.partHub part ≠ hub.val →
      exec (.partitionPause hub part) s = .next (s.setReg f (s.reg f ||| bit)) ∧
      exec (.partitionResume hub part) s = .next (s.setReg f (s.reg f &&& ~~~ bit))) ∧
    (c.run = .running → s.st ⟨.cor, p⟩ ≠ PS.draining → s.pauseRequested gc slot = true → c.branch = none →
      (∀ n < 4, (c.getChan n).run = none) →
      ∃ t, exec (.corePause gc slot) s = .next t ∧
        (c.mqueue = [] → c.mrun = [] → (∀ l ∈ (s.cluster gc).lines, l.slot ≠ slot.val) →
          (t.core p).run = .paused ∧ (t.core p).pausing = false) ∧
        ((c.mqueue ≠ [] ∨ c.mrun ≠ []) → (t.core p).run = .running ∧ (t.core p).pausing = true) ∧
        (c.pausing = false → (t.core p).bundle = [] ∧
          ((∀ x ∈ c.pend, ∀ y, c.pend.getLast? = some y → x.land ≤ y.land) → (t.core p).pend = []) ∧ ∀ n < 4, ((t.core p).getChan n).held = true)) ∧
    (s.pauseRequested gc slot = false → s.st ⟨.cor, p⟩ ≠ PS.draining → c.run = .paused → s.clusterPart gc = 15 →
      (∀ n < 4, (c.getChan n).run = none) →
      ∃ t, exec (.coreUnpause gc slot) s = .next t ∧ (t.core p).run = .running ∧ (t.core p).pausing = false ∧
        (∀ n < 4, ((t.core p).getChan n).held = false) ∧ (t.cluster gc).pauseDone = false ∧
        t = { s with cores := t.cores, clusters := t.clusters }) ∧
    ((s.cluster gc).pauseReq = true → s.clusterPaused gc = true → s.clusterPart gc = part.val →
      natBits (s.rd (Reg.DIS_PAUSE (s.partHub part))) part 1 = 1 →
      (∀ g ∈ s.clustersOf part, g ≠ gc.val → (s.cluster g).pauseDone = true ∨ s.clusterGone g = true) →
      gc.val ∈ s.clustersOf part →
      ∃ t, exec (.clusterPauseDone gc) s = .next t ∧ (t.cluster gc).pauseDone = true ∧
        t.reg paused = s.reg paused ||| bit ∧ t = { s with regs := t.regs, clusters := t.clusters })

/-- The page gather (R239, R240, R241, R242): a command whose turn has come is taken, running when its fields obey R240 and
stopped with its status when they do not or cannot be read; once its last page is copied it is finished, with its beacon and its
credit signalled and DONE one more; a page fence is answered at once when no command runs, and otherwise waits for the pages
before it.
What of it is the model's choice or reading, and no rule of the spec: log entries 11, 85. -/
def Obligations.PageGather : Prop :=
  ∀ (gc : Fin 160) (part : Fin 12) (slot : Nat) (r : PgRun) (m : MovCmd) (slice : Fin 256) (host : HostWrite) (s : State),
    let k := s.cluster gc
    let n := s.rd (Reg.CLU_PG_CFG_LOG2_SIZE gc)
    let submit := gc.val * 128 + s.rd (Reg.CLU_PG_CFG_SUBMIT gc)
    let x := s.readMem (.gather gc) (poolBase + gc.val * 2 ^ 24 + (s.rd (Reg.CLU_PG_BASE gc) + k.pgTaken % 2 ^ n) * 64) 64
    let c := PgCmd.ofBytes r.cmd
    let runs (r : PgRun) : Res := .next (x.1.modCluster gc fun c => { c with pgTaken := c.pgTaken + 1, pgRun := some r })
    (k.pgRun = none → s.on (Reg.CLU_PG_CFG_EN gc) = true → n ≤ 8 → s.st ⟨.clu, gc⟩ = PS.enabled → s.gatherHeld gc = false →
      reaches (s.beacon submit) (BitVec.ofNat 32 (k.pgTaken + 1)) = true →
      (x.2.status = 0 → x.2.poison = false → x.1.pgCmdOk gc x.2.data = true →
        exec (.pageGatherTake gc) s = runs { PgRun.reset with cmd := x.2.data }) ∧
      (x.2.status = 0 → x.2.poison = false → x.1.pgCmdOk gc x.2.data = false →
        exec (.pageGatherTake gc) s =
          runs { PgRun.reset with cmd := x.2.data, stop := some (0, St.badParam, 0xFFFFFFFF) }) ∧
      (x.2.status = 0 → x.2.poison = true →
        exec (.pageGatherTake gc) s =
          runs { PgRun.reset with cmd := x.2.data, stop := some (0, St.poisoned, 0xFFFFFFFF) }) ∧
      (x.2.status ≠ 0 →
        exec (.pageGatherTake gc) s =
          runs { PgRun.reset with cmd := x.2.data, stop := some (0, x.2.status, 0xFFFFFFFF) })) ∧
    (k.pgRun = some r → r.lines = [] → r.stop = none → c.count ≤ r.page → c.statusAddr = 0 →
      s.beaconInPart gc c.beacon = true → k.fences = [] → s.holdHit = [] →
      exec (.pageGatherDone gc slice host) s = .next
        ((((s.sigCluster gc c.beacon (BitVec.ofNat 32 c.sigN)).sigCluster gc (s.rd (Reg.CLU_PG_CREDIT gc)) 1).step1
          (Reg.CLU_PG_DONE gc)).modCluster gc fun k => { k with pgRun := none })) ∧
    (m ∈ (s.movRing part).cmds → m.slot = slot → gc.val ∈ m.acks →
      (∀ f ∈ k.fences, ¬ (f.part = part.val ∧ f.slot = slot)) →
      (k.pgRun = none → k.fences = [] →
        ∃ t, exec (.pageFence gc part slot) s = .next t ∧ (t.cluster gc).fences = [] ∧
          ∀ m' ∈ (t.movRing part).cmds, m'.slot = slot → gc.val ∉ m'.acks) ∧
      (let pages := if r.line = 0 then r.page else r.page + 1
       k.pgRun = some r → (∃ l ∈ r.lines, l.page < pages) → k.fences = [] →
        exec (.pageFence gc part slot) s = .next (s.setCluster gc { k with fences := [⟨part, slot, pages⟩] })))

/-- Mover and index rings (R187, R243, R244, R245, R252, R259, R318): a ring that is served gives its next slot when SUBMIT has reached it and
there is room, as the ring learns by watch; a command of a partition that is being destroyed ends with STATE_ERROR; one whose OP is reserved, or that cannot be read, finishes at once; finishing writes status, index and
result into the command; the oldest command's record is written once it has finished, and DONE and CREDIT are signalled.
What of it is the model's choice or reading, and no rule of the spec: log entries 11, 94. -/
def Obligations.KvRings : Prop :=
  ∀ (k : RingKind) (part : Fin 12) (m : MovCmd) (rest : List MovCmd) (slot index result now : Nat) (st : BitVec 8) (s : State),
    let p := part.val
    let h := s.partHub p
    let r := s.ringOf k p
    let n := s.ringField k h p 8 16 4
    let submit := s.ringField k h p 8 0 15
    let room : Prop := match k with
      | .mover => (r.cmds.filter (·.phase ≠ .done)).length < 16 ∧ s.movActive h < 64
      | .index => r.cmds = []
    let last : Nat := match k with
      | .mover => 5
      | .index => 3
    let l := s.learn (ringSubmit k h p submit r.taken)
    let y := l.state.served h (Engine.ofRing k).num p now
    let x := y.readMem (ringReq k h p) (sramBase + h * 2 ^ 26 + y.ringField k h p 0 6 20 * 64 + r.taken % 2 ^ n * 32) 32
    let serves : Prop := s.kvRingOpen k h p = true ∧ s.mayServe h (Engine.ofRing k).num p now 1 (s.kvRingWaits k h) = true
    let new : MovCmd := { MovCmd.reset with slot := r.taken, bytes := x.2.data ++ List.replicate (32 - x.2.data.length) 0 }
    let joined := x.1.modRing k p fun r => { r with taken := r.taken + 1, cmds := r.cmds ++ [new] }
    (room → s.st (k.page h) = PS.enabled → s.ringField k h p 8 31 1 = 1 → s.kvRingBad k h p = false →
      (s.part p).state = .active ∨ (s.part p).state = .destroying → s.kvRingOpen k h p = true) ∧
    (s.clusterGone (submit / 128) = false → reaches (s.beacon submit) (BitVec.ofNat 32 (r.taken + 1)) = true →
      s.answered (watchKey h (.ofRing k) (BitVec.ofNat 16 p)) = none →
      (∀ w ∈ (s.cluster (submit / 128)).watches, ¬ (w.hub = h ∧ w.engine = .ofRing k ∧ w.tag = BitVec.ofNat 16 p)) →
      l.fired = true) ∧
    (serves → l.fired = false → exec (.movCmdTake k part now) s = .next l.state) ∧
    (serves → l.fired = true → (s.part p).state = .destroying →
      exec (.movCmdTake k part now) s = .next (joined.finishCmd k p new.slot St.stateError 0xFFFFFFFF 0)) ∧
    (serves → l.fired = true → (s.part p).state = .active →
      (x.2.status ≠ 0 → exec (.movCmdTake k part now) s = .next (joined.finishCmd k p new.slot x.2.status 0xFFFFFFFF 0)) ∧
      (x.2.status = 0 → x.2.poison = false → new.op ≠ 0 → new.op ≤ last → exec (.movCmdTake k part now) s = .next (joined.showActive h)) ∧
      (x.2.status = 0 → x.2.poison = false → new.op = 0 ∨ last < new.op →
        exec (.movCmdTake k part now) s = .next (joined.finishCmd k p new.slot 2 0xFFFFFFFF 0)) ∧
      (x.2.status = 0 → x.2.poison = true → exec (.movCmdTake k part now) s = .next (joined.finishCmd k p new.slot St.poisoned 0xFFFFFFFF 0))) ∧
    ((s.ringOf k p).cmds = m :: rest → m.slot = slot → (∀ m' ∈ rest, m'.slot ≠ slot) →
      (s.finishCmd k p slot st index result).ringOf k p =
        { s.ringOf k p with
          cmds := { m with phase := .done, acks := [], status := st, index := BitVec.ofNat 32 index,
                           result := BitVec.ofNat 64 result } :: rest }) ∧
    (r.cmds = m :: rest → m.phase ≠ .done → s.holdHit = [] → exec (.movRecordWrite k part) s = .next s) ∧
    (r.cmds = m :: rest → m.phase = .done →
      let rec_ := (m.bytes.drop 24).take 8 ++ [m.status, BitVec.ofNat 8 m.op, 0, 0] ++ leBytes 4 m.index.toNat ++
        leBytes 8 m.result.toNat ++ List.replicate 8 0
      let w := (s.writeMem (ringReq k h p) (sramBase + h * 2 ^ 26 + s.ringField k h p 4 6 20 * 64 + m.slot % 2 ^ n * 32) rec_ false).1
      let u := w.modRing k p fun r => { r with cmds := rest, recorded := r.recorded + 1 }
      let v := u.sigHub h (.ofRing k) (u.ringField k h p 12 16 15) 1
      let z := v.sigHub h (.ofRing k) (v.ringField k h p 12 0 15) 1
      let t := if m.status = 0 then z else (z.err (k.page h) 17 0 p).bucket (k.page h)
      t.holdHit = [] → exec (.movRecordWrite k part) s = .next t)

/-- The page mover (R233, R235, R237, R246, R247, R252, R318): on the entry its handle names, INIT gives a FREE entry its page, SHARE makes it
read-only, REF moves its count and sends a page fence at 0, and DEMOTE and PROMOTE between memories mark it MOVING from its tier;
the copy's end writes the page at its destination, zero past its last used byte, and sends the fence, and the fence's end gives the
entry its new place. A command of a partition that is being destroyed ends with STATE_ERROR.
What of it is the model's choice or reading, and no rule of the spec: log entries 11, 15, 95, 107. -/
def Obligations.PageMover : Prop :=
  ∀ (part : Fin 12) (m : MovCmd) (e : PtEntry) (slot : Nat) (ssd : BitVec 15) (blocks : List (BitVec 8)) (s u : State),
    let p := part.val
    let runs (i : Instr) (op : Nat) (t : State) : Prop :=
      s.nextMov p op = some m → m.handle < s.rd (Reg.MOV_PT_COUNT (s.partHub p) p) → movReserved m.bytes = true →
        s.tornDown p = false → s.readPt p m.handle = (u, 0, e) → t.holdHit = [] → exec i s = .next t
    let done (t : State) (st : BitVec 8) : State := t.finishCmd .mover p m.slot st m.handle 0
    let nf := fieldAt m.bytes 16 1
    let n : Int := e.refs + signedOf 16 (m.dest % 65536)
    let tier (op : Nat) := destTier op e.state m.dest
    (let x := u.readFmt p nf
     let tier := destTier 1 Pg.free m.dest
     tier ≠ Pg.ssd → u.pageRights (u.movReq p) m.dest = true → u.pageMapped m.dest = true → x.2.wellFormed = true → e.state = Pg.free →
      runs (.init part) 1 (done (x.1.writePt p m.handle
        { addr := m.dest, state := tier, ro := false, prev := 0, fmt := nf, refs := 1, user := 0 }) 0)) ∧
    (e.state ≠ Pg.free → runs (.share part) 5 (done (u.writePt p m.handle { e with ro := true }) 0)) ∧
    (e.state = Pg.free → runs (.share part) 5 (done u St.stateError)) ∧
    (m.dest < 65536 → m.dest % 65536 ≠ 0 → 0 < n → n ≤ 65535 → e.state ≠ Pg.free →
      runs (.ref part) 4 (done (u.writePt p m.handle { e with refs := n.toNat }) 0)) ∧
    (m.dest < 65536 → m.dest % 65536 ≠ 0 → n = 0 → e.state ≠ Pg.free →
      runs (.ref part) 4 (((u.writePt p m.handle { e with refs := 0 }).modMovRing p fun r => { r with
        cmds := r.cmds.map fun c => if c.slot = m.slot then { c with result := BitVec.ofNat 64 e.addr } else c }).sendFence p m.slot)) ∧
    (m.dest = 0 ∨ 65536 ≤ m.dest ∨ n < 0 ∨ 65535 < n → runs (.ref part) 4 (done u St.badParam)) ∧
    (∀ (i : Instr) (op : Nat), (i = .demote part ∧ op = 2 ∧ e.state = Pg.hbm ∧ tier 2 = Pg.t2) ∨
        (i = .promote part ∧ op = 3 ∧ e.state = Pg.t2 ∧ tier 3 = Pg.hbm) →
      let f0 := u.readFmt p e.fmt
      let f1 := f0.1.readFmt p nf
      fieldAt m.bytes 1 1 = 0 → f0.2.wellFormed = true → u.pageRights (u.movReq p) m.dest = true → u.pageMapped m.dest = true → m.dest < 2 ^ 48 →
      runs i op ((f1.1.writePt p m.handle { e with prev := e.state, state := Pg.moving }).modMovRing p fun r =>
        { r with cmds := r.cmds.map fun c =>
            if c.slot = m.slot then { c with phase := .run, result := BitVec.ofNat 64 e.addr } else c })) ∧
    ((s.movRing p).cmds.find? (fun m => m.slot = slot && m.phase == .run) = some m →
      ((s.nvme (s.partHub p)).cmds.find? fun c => c.sq = moverSq + p && c.cid = BitVec.ofNat 16 slot) = none →
      let t := (s.moveRead p m).finish p m ssd blocks none
      t.holdHit = [] → exec (.moveCopyDone part slot ssd blocks) s = .next t) ∧
    (∀ src : State × PageData, src.2.status = 0 → m.requant = false → destTier m.op e.prev m.dest ≠ Pg.ssd →
      ∀ fmt newFmt : PgFmt,
      let d := plainPage fmt.used src.2
      let w := src.1.writePage (src.1.movReq p) m.dest d
      (∀ j, d.bytes.getD j 0 = if j < fmt.used then src.2.bytes.getD j 0 else 0) ∧
      (w.2 = 0 → d.marks.any id = false →
      State.moveCopy p m ⟨u, e, fmt, newFmt⟩ ssd none src =
        ((w.1.bump (Reg.MOV_SAT (w.1.partHub p)) 0).modMovRing p fun r => { r with
          cmds := r.cmds.map fun c => if c.slot = m.slot then { c with status := 0 } else c }).sendFence p m.slot)) ∧
    (s.tornDown p = true → ∀ op, s.nextMov p op = some m → s.holdHit = [] →
      let t := done s St.stateError
      (op = 1 → exec (.init part) s = .next t) ∧ (op = 2 → exec (.demote part) s = .next t) ∧
      (op = 3 → exec (.promote part) s = .next t) ∧ (op = 4 → exec (.ref part) s = .next t) ∧
      (op = 5 → exec (.share part) s = .next t)) ∧
    ((s.movRing p).cmds.find? (fun m => m.slot = slot && m.phase == .fence) = some m →
      (∀ g ∈ m.acks, s.clusterGone g = true) → s.readPt p m.handle = (u, 0, e) →
      let placed : PtEntry := { e with
        addr := m.dest, state := destTier m.op e.prev m.dest, fmt := if fieldAt m.bytes 1 1 = 1 then nf else e.fmt }
      let freed : PtEntry := { e with state := Pg.free, addr := 0, ro := false }
      let t := (u.writePt p m.handle (if m.op = 4 then freed else placed)).finishCmd .mover p slot m.status m.handle m.result.toNat
      t.holdHit = [] → exec (.moveFenceDone part slot) s = .next t)

/-- The prefix index (R253, R255, R256, R257, R258, R318): a LOOKUP answers the longest chain of blocks whose hash, parent and token bytes all
match, block after block from the partition's seed; INSERT writes its entry first not valid and then valid in the first free way
of its bucket, and refuses a block already listed, tokens that do not read, an invalid parent and a full bucket; REMOVE clears VALID. A command
of a partition that is being destroyed ends with STATE_ERROR.
What of it is the model's choice or reading, and no rule of the spec: log entries 11, 13. -/
def Obligations.PrefixIndex : Prop :=
  ∀ (part : Fin 12) (m : MovCmd) (s : State),
    let p := part.val
    let done (t : State) (st : BitVec 8) (index result : Nat) : State := t.finishCmd .index p m.slot st index result
    (s.tornDown p = false → s.nextPfx p 1 = some m → 0 < m.handle → m.handle ≤ 4096 → m.dest < 2 ^ 48 → s.pfxFieldsOk p m = true →
      let l := lookupBlocks p m.dest m.handle 0 ⟨s, s.pfxSeed p, noEntry, 0, 0, 0, false⟩
      (l.status = 0 → (done l.state 0 l.parent (l.m + l.val * 2 ^ 32)).holdHit = [] →
        exec (.lookup part) s = .next (done l.state 0 l.parent (l.m + l.val * 2 ^ 32))) ∧
      l.m ≤ m.handle ∧ (l.m = 0 → l.parent = noEntry)) ∧
    (s.tornDown p = false → s.nextPfx p 1 = some m → m.handle = 0 ∨ 4096 < m.handle → (done s St.badParam noEntry 0).holdHit = [] →
      exec (.lookup part) s = .next (done s St.badParam noEntry 0)) ∧
    (∀ (l : Lookup) (h x : Nat) (i : Nat) (tokens : List (BitVec 8)) (e : PfxEntry) (u : State × BitVec 8 × List (BitVec 8)),
      u.2.1 = 0 →
      (u.2.2 = tokens → (l.entry p i h x tokens e u).m = i + 1 ∧ (l.entry p i h x tokens e u).val = e.value ∧
        (l.entry p i h x tokens e u).parent = x ∧ (l.entry p i h x tokens e u).h = h ∧ (l.entry p i h x tokens e u).ended = l.ended) ∧
      (u.2.2 ≠ tokens → (l.entry p i h x tokens e u).m = l.m ∧ (l.entry p i h x tokens e u).ended = true)) ∧
    (∀ (key w : Nat) (u u' : State) (tokens : List (BitVec 8)) (k : State × BitVec 8 × List PfxEntry),
      s.tornDown p = false → s.nextPfx p 2 = some m → m.dest % 64 = 0 → m.dest < 2 ^ 48 → s.pfxFieldsOk p m = true →
      s.parentKey p m.handle = (u, 0, some key) → u.readTokens p m.dest = (u', 0, tokens) →
      let h := leNat ((sm3 (leBytes 8 key ++ tokens)).take 8)
      let b := h % u'.pfxBuckets p
      u'.readBucket p b = k → k.2.1 = 0 →
      let dup := State.listedWay p h m.handle tokens ((List.range 4).zip k.2.2) k.1
      (dup.2.1 = 0 → dup.2.2 = none → k.2.2.findIdx? (fun e => ¬ e.valid) = some w →
        let e : PfxEntry := { key := h, value := fieldAt m.bytes 16 4, parent := m.handle, tok := m.dest, valid := false }
        let t := done ((dup.1.writeEntry p (4 * b + w) e).writeEntry p (4 * b + w) { e with valid := true }) 0 (4 * b + w) 0
        t.holdHit = [] → exec (.insert part) s = .next t) ∧
      (dup.2.1 = 0 → dup.2.2 = none → k.2.2.findIdx? (fun e => ¬ e.valid) = none → (done dup.1 St.noResource noEntry 0).holdHit = [] →
        exec (.insert part) s = .next (done dup.1 St.noResource noEntry 0)) ∧
      (dup.2.1 = 0 → dup.2.2 = some w → (done dup.1 St.stateError (4 * b + w) 0).holdHit = [] →
        exec (.insert part) s = .next (done dup.1 St.stateError (4 * b + w) 0)) ∧
      (dup.2.1 ≠ 0 → (done dup.1 dup.2.1 noEntry 0).holdHit = [] →
        exec (.insert part) s = .next (done dup.1 dup.2.1 noEntry 0))) ∧
    (∀ (e : PfxEntry) (u : State), s.tornDown p = false → s.nextPfx p 3 = some m → s.pfxFieldsOk p m = true → m.handle < 4 * s.pfxBuckets p →
      s.readIndex p m.handle = (u, 0, some e) →
      (e.valid = true → (done (u.writeEntry p m.handle { e with valid := false }) 0 m.handle 0).holdHit = [] →
        exec (.remove part) s = .next (done (u.writeEntry p m.handle { e with valid := false }) 0 m.handle 0)) ∧
      (e.valid = false → (done u St.stateError m.handle 0).holdHit = [] →
        exec (.remove part) s = .next (done u St.stateError m.handle 0))) ∧
    (s.tornDown p = true → s.holdHit = [] →
      let t := done s St.stateError noEntry 0
      (s.nextPfx p 1 = some m → exec (.lookup part) s = .next t) ∧ (s.nextPfx p 2 = some m → exec (.insert part) s = .next t) ∧
      (s.nextPfx p 3 = some m → exec (.remove part) s = .next t))

/-- The states of a page (R53, R54, R56, R57): ENABLE 1 begins to enable a DISABLED page whose configuration is the reference and is
refused with CRC_MISMATCH otherwise; a block in ENABLING that is ready is ENABLED; DRAIN drains an ENABLED page alone; the end
of a drain is DISABLED with both bits clear, and an engine that learns by watch has none left; ENABLE 0 sends a page through RESETTING; its end is DISABLED with EPOCH one more, and a
core slot that serves no logical core, or a page fenced by a fatal error, stays FENCED; a
fence takes a page out of service from any state but OFF and RESETTING; a page that no block has is refused.
What of it is the model's choice or reading, and no rule of the spec: log entries 19, 20, 21, 23, 86, 91. -/
def Obligations.PageStates : Prop :=
  ∀ (p : Page) (s : State), p.exists? = true →
    let st := s.st p
    let state := Reg.STATE_STATE p
    let moved (i : Instr) (n : Nat) : Prop := ∃ t, exec i s = .next t ∧ t.st p = n
    (st = PS.disabled → s.reg (Reg.CFG_CRC_LIVE p).addr ≠ s.reg (Reg.CFG_CRC_REF p).addr →
      exec (.blockEnable p) s = .next (s.wr (Reg.STATE_CRC_MISMATCH p) 1)) ∧
    (st = PS.disabled → s.reg (Reg.CFG_CRC_LIVE p).addr = s.reg (Reg.CFG_CRC_REF p).addr → s.badCfg p = false →
      p.blk ≠ .dis → p.blk ≠ .mov → p.blk ≠ .pfx → memUnitsOf p = [] →
      exec (.blockEnable p) s = .next ((s.wr (Reg.CTRL_ENABLE p) 1).wr state PS.enabling) ∧ moved (.blockEnable p) PS.enabling) ∧
    (st = PS.enabling ∨ st = PS.enabled ∨ st = PS.fenced → exec (.blockEnable p) s = .next (s.wr (Reg.CTRL_ENABLE p) 1)) ∧
    (st = PS.draining ∨ st = PS.off ∨ st = PS.resetting → exec (.blockEnable p) s = .next (s.ignoreWrite p 8)) ∧
    (st = PS.enabling → memUnitsOf p = [] → p.blk ≠ .cor → p.blk ≠ .eth → exec (.blockReady p) s = .next (s.wr state PS.enabled)) ∧
    (st = PS.enabling → p.blk = .cor →
      exec (.blockReady p) s = .next ((s.wr state PS.enabled).setCore p.inst { s.core p.inst with run := .stub })) ∧
    (st = PS.enabled → p.blk ≠ .cor → p.blk ≠ .eth →
      exec (.blockDrain p) s = .next ((s.wr state PS.draining).wr (Reg.CTRL_DRAIN p) 1) ∧ moved (.blockDrain p) PS.draining) ∧
    (st ≠ PS.enabled → exec (.blockDrain p) s = .next (s.ignoreWrite p 8)) ∧
    (let t := ((s.wr state PS.disabled).wr (Reg.CTRL_ENABLE p) 0).wr (Reg.CTRL_DRAIN p) 0
     st = PS.draining → p.blk ≠ .cor →
      (p.blk ≠ .dis → p.blk ≠ .mov → p.blk ≠ .pfx → exec (.drainDone p) s = .next t ∧ moved (.drainDone p) PS.disabled) ∧
      (p.blk = .dis → exec (.drainDone p) s = .next (t.disarmAll p.inst .dis)) ∧
      (p.blk = .mov → exec (.drainDone p) s = .next (t.disarmAll p.inst .mov)) ∧
      (p.blk = .pfx → exec (.drainDone p) s = .next (t.disarmAll p.inst .pfx))) ∧
    (st = PS.draining → p.blk = .cor → s.coreQuiet p.inst = true → (s.core p.inst).pend = [] →
      exec (.drainDone p) s = .next ((((s.wr state PS.disabled).wr (Reg.CTRL_ENABLE p) 0).wr (Reg.CTRL_DRAIN p) 0).setCore p.inst
        (s.core p.inst).stop)) ∧
    (st = PS.disabled ∨ st = PS.off ∨ st = PS.resetting → exec (.blockDisable p) s = .next s) ∧
    (st = PS.fenced → s.stuck p = false → exec (.blockDisable p) s =
      .next ((s.wr state PS.resetting).wr (Reg.CTRL_ENABLE p) 0) ∧ moved (.blockDisable p) PS.resetting) ∧
    (st = PS.fenced → s.stuck p = true → exec (.blockDisable p) s = .next s) ∧
    (st = PS.enabled → p.blk ≠ .cor → p.blk ≠ .clu → p.blk ≠ .sdt → p.blk ≠ .eth → moved (.blockDisable p) PS.resetting) ∧
    (st = PS.resetting → p.blk ≠ .nvc → p.blk ≠ .snp → p.blk ≠ .nic → p.blk ≠ .clu → p.blk ≠ .prp →
      ∃ t, exec (.resetDone p) s = .next t ∧ t.st p = PS.disabled ∧
        t.rd (Reg.STATE_EPOCH p) = (s.rd (Reg.STATE_EPOCH p) + 1) % 256 ∧ t.mem = s.mem) ∧
    (st = PS.off ∨ st = PS.resetting ∨ st = PS.fenced → exec (.blockFence p none) s = .next s) ∧
    (st = PS.disabled ∨ st = PS.enabling ∨ st = PS.enabled ∨ st = PS.draining →
      p.blk ≠ .cor → p.blk ≠ .clu → p.blk ≠ .sdt → p.blk ≠ .eth →
      exec (.blockFence p none) s = .next (s.wr state PS.fenced) ∧ moved (.blockFence p none) PS.fenced) ∧
    (∀ b : Fin 16, p.errMask.getLsbD b = true → st ≠ PS.off → 
      exec (.blockFence p (some b)) s =
        .next (if p.countMask.getLsbD b then (s.err p (16 + b.val)).bucket p else s.err p (16 + b.val)))

/-- The header's other registers (R52, R53, R54, R58): a sweep publishes the CRC of the configuration and sets CFG_CORRUPT when a
page in service has departed from its reference; LEVEL of the leaky bucket loses 1 a period and HALF follows it; a snapshot is warned when
HALF rises; BUCKET_CFG takes its value; ERR_STAT's bits are cleared by ones, and with IGNORED_WRITE its record; CFG_CRC_REF takes a value in DISABLED
alone, and any write of it clears CRC_MISMATCH.
What of it is the model's choice or reading, and no rule of the spec: log entries 19, 21, 22. -/
def Obligations.PageConfiguration : Prop :=
  ∀ (p : Page) (v : BitVec 32) (flips : List (Nat × BitVec 32)) (s : State), p.exists? = true →
    let live := (s.upsetConfig p flips).wr (Reg.CFG_CRC_LIVE p) ((s.upsetConfig p flips).cfgCrc p).toNat
    let half (s : State) : Nat :=
      let t := s.rd (Reg.BUCKET_CFG_THRESHOLD p)
      if t ≠ 0 ∧ t / 2 ≤ s.rd (Reg.BUCKET_LEVEL_LEVEL p) then 1 else 0
    let quiet (t : State) : Prop := half t = 0 ∨ s.rd (Reg.BUCKET_LEVEL_HALF p) = 1 → t.snaps = s.snaps
    let inService : Prop := live.st p = PS.enabling ∨ live.st p = PS.enabled ∨ live.st p = PS.draining
    (s.st p = PS.off → exec (.crcSweepEnd p flips) s = .next s) ∧
    (s.st p ≠ PS.off →
      (inService → live.rd (Reg.CFG_CRC_LIVE p) ≠ live.rd (Reg.CFG_CRC_REF p) →
        exec (.crcSweepEnd p flips) s = .next (live.err p 1)) ∧
      (¬ inService ∨ live.rd (Reg.CFG_CRC_LIVE p) = live.rd (Reg.CFG_CRC_REF p) → exec (.crcSweepEnd p flips) s = .next live) ∧
      live.reg (Reg.CFG_CRC_LIVE p).addr = (s.upsetConfig p flips).cfgCrc p) ∧
    (s.st p ≠ PS.off → s.rd (Reg.BUCKET_CFG_PERIOD p) ≠ 0 →
      ∃ t, exec (.bucketPeriodEnd p) s = .next t ∧
        t.rd (Reg.BUCKET_LEVEL_LEVEL p) = s.rd (Reg.BUCKET_LEVEL_LEVEL p) - 1 ∧ t.rd (Reg.BUCKET_LEVEL_HALF p) = half t ∧
        (∀ a, a ≠ (Reg.BUCKET_LEVEL_LEVEL p).addr → t.reg a = s.reg a) ∧ quiet t ∧ t = { s with regs := t.regs, snaps := t.snaps }) ∧
    (s.st p = PS.off ∨ s.rd (Reg.BUCKET_CFG_PERIOD p) = 0 → exec (.bucketPeriodEnd p) s = .next s) ∧
    (v.toNat % 2 ^ 16 = 0 ∨ s.rd (Reg.BUCKET_LEVEL_LEVEL p) < v.toNat % 2 ^ 16 →
      ∃ t, exec (.bucketCfgWrite p v) s = .next t ∧ t.reg (Reg.BUCKET_CFG_PERIOD p).addr = v ∧
        t.rd (Reg.BUCKET_LEVEL_LEVEL p) = s.rd (Reg.BUCKET_LEVEL_LEVEL p) ∧ t.rd (Reg.BUCKET_LEVEL_HALF p) = half t ∧
        quiet t ∧ t = { s with regs := t.regs, snaps := t.snaps }) ∧
    (∃ t, exec (.errStatWrite p v) s = .next t ∧
      t.reg (Reg.ERR_STAT_BLOCK p).addr = s.reg (Reg.ERR_STAT_BLOCK p).addr &&& ~~~ (v &&& 0xFFFF000F#32) ∧
      t.reg (Reg.IGN_WRITE_COUNT p).addr = (if v.getLsbD 0 then 0 else s.reg (Reg.IGN_WRITE_COUNT p).addr) ∧
      (∀ a, a ≠ (Reg.ERR_STAT_BLOCK p).addr → a ≠ (Reg.IGN_WRITE_COUNT p).addr → t.reg a = s.reg a) ∧
      t = { s with regs := t.regs }) ∧
    (s.st p = PS.disabled ∨ s.reg (Reg.CFG_CRC_REF p).addr = v →
      ∃ t, exec (.cfgCrcRefWrite p v) s = .next t ∧ t.reg (Reg.CFG_CRC_REF p).addr = v ∧
        t.rd (Reg.STATE_CRC_MISMATCH p) = 0 ∧ t.st p = s.st p ∧ t = { s with regs := t.regs }) ∧
    (s.st p ≠ PS.disabled → s.reg (Reg.CFG_CRC_REF p).addr ≠ v →
      exec (.cfgCrcRefWrite p v) s = .next ((s.wr (Reg.STATE_CRC_MISMATCH p) 0).ignoreWrite p 0x10))

/-- Register writes (R10, R40, R43, R44, R52, R54, R505, R584): a write that is permitted reaches an implemented word and, but for the
host's, is answered; a page in FENCED or RESETTING answers UNIT_ABSENT for its own registers and is counted at its die; an access
that is not permitted changes nothing but for its answer, and is an access fault of a firmware processor where nothing lies; one to a
location that is not implemented sets BUS_ERROR of the page it lies in, or of a HUB page, and ends a host's read with Completer Abort. In a word a
field that is written freely follows the value and the rest stays, and a field locked outside DISABLED stays there and the
attempt is recorded.
What of it is the model's choice or reading, and no rule of the spec: log entries 4, 19, 25, 86, 89, 90. -/
def Obligations.RegisterAccesses : Prop :=
  ∀ (h : Fin 2) (n : Fin 16) (a : BitVec 26) (v : BitVec 32) (aux : RegAux) (p : Page) (off : Nat) (row : WordRow) (s : State),
    let r : Req := .fwp h n
    let o := a.toNat
    (wordAt o = some (p, off) → auxMissing p off v aux = false →
      (s.access r (regBase + o) 4 = 0 →
        exec (.registerWrite r a v none aux) s = .next ((s.writeWord r p off v aux).out (.reply r 0 [] false))) ∧
      (let st := s.access r (regBase + o) 4
       let t := s.countAbsent (regBase + o) st
       (st ≠ 0 → st ≠ St.badParam → exec (.registerWrite r a v none aux) s = .next (t.out (.reply r st [] false))) ∧
       (st = St.badParam → exec (.registerWrite r a v none aux) s = .next (t.accessFault (fwpKey h n)))) ∧
      (s.pageGone p off = true → s.target (regBase + o) 4 = .reg o → ∀ q, s.access q (regBase + o) 4 = St.unitAbsent) ∧
      (s.fnServes h 0 = true → s.access (.host h) (regBase + o) 4 = 0 →
        exec (.registerWrite (.host h) a v none aux) s = .next (s.writeWord (.host h) p off v aux)) ∧
      (s.fnServes h 0 = false → exec (.registerWrite (.host h) a v none aux) s = .next (s.notServed h 0 true))) ∧
    (wordAt o = none → implemented o 4 true = false → s.access r (regBase + o) 4 = 0 →
      exec (.registerWrite r a v none aux) s = .next (s.unimplemented r o 4 true)) ∧
    (∀ (q : Req) (w : Nat) (write : Bool), reachesWord o w write = false → s.hostServes q = true →
      let st := s.access q (regBase + o) w
      (st = 0 ∨ st = St.badParam →
        exec (.unimplementedAccess (.pages q a) w write) s = .next (s.unimplemented q o w write)) ∧
      (st ≠ 0 → st ≠ St.badParam → exec (.unimplementedAccess (.pages q a) w write) s = .next (s.refuseReg q o st))) ∧
    (let at_ (q : Req) (l : Nat) (t : State) (w : Nat) : State :=
       t.busErr (match pageAt o with | some p => p | none => ⟨.hub, (regionHub o).getD (t.servingHub q)⟩) o l w
     ∀ (l : Fin 2) (w : Nat), s.unimplemented (.host l) o w true = at_ (.host l) l s w ∧
      s.unimplemented (.host l) o w false = (at_ (.host l) l s w).out (.ca l)) ∧
    (∀ (link : Fin 2) (fn : Fin 4) (w : Nat), fn ≠ 0 → s.fnRead link fn off w = none → s.fnServes link fn = true →
      exec (.unimplementedAccess (.function link fn off) w true) s = .next (s.busErr ⟨.hub, link⟩ off link w) ∧
      exec (.unimplementedAccess (.function link fn off) w false) s = .next ((s.busErr ⟨.hub, link⟩ off link w).out (.ca link))) ∧
    (row.rwl = 0 → row.w1c = 0 → row.w1s = 0 →
      s.splitWrite p off row v = s.setReg (p.base + off) ((s.reg (p.base + off) &&& ~~~ row.rw) ||| (v &&& row.rw))) ∧
    (row.rw = 0 → row.w1c = 0 → row.w1s = 0 →
      let old := s.reg (p.base + off)
      (s.st p = PS.disabled → s.splitWrite p off row v = s.setReg (p.base + off) ((old &&& ~~~ row.rwl) ||| (v &&& row.rwl))) ∧
      (s.st p ≠ PS.disabled → (v ^^^ old) &&& row.rwl ≠ 0 → s.splitWrite p off row v = (s.setReg (p.base + off) old).ignoreWrite p off))

/-- Memory (R216, R218, R219, R266, R268, R437, R504, R506): a whole line written to HBM or tier 2 stands there byte for byte, is clean, and
is acknowledged, every other byte as before; written as poison it holds the poison word; a read is answered with its line as
decoded, all zero when it is poison, and of tier 2 with poison after a parity error of the line cipher; a word of the always-on
SRAM that cannot be corrected is a fatal error; an access that is refused is answered with
its status; a reply reaches its requester in its epoch, and a stale one is dropped.
What of it is the model's choice or reading, and no rule of the spec: log entries 5, 6, 19, 24, 25, 89, 93, 98. -/
def Obligations.MemoryAccesses : Prop :=
  ∀ (r : Req) (line : BitVec 42) (data : List (BitVec 8)) (slice : Fin 256) (host : HostWrite) (a : BitVec 48) (more : Fin 64)
    (upset : Nat) (tag : Fin 16384) (x : Reply) (s : State),
    let b := line.toNat * 64
    let n := more.val + 1
    let page := s.pageOf r
    (data.length = 64 → b < t2Base + 32 * t2Size → (s.target b 64).stores = true → s.tgt b = s.target b 64 → s.access r b 64 = 0 →
      s.hostServes r = true → s.pendingPart b = none → s.armedAt 31 b = none →
      (∃ t, exec (.memoryWrite r line 15 data 0 slice host) s = .next t ∧
        (∀ j, t.byteAt j = if b ≤ j ∧ j < b + 64 then data.getD (j - b) 0 else s.byteAt j) ∧ t.isClean b = true ∧
        (∃ e, t.replies = s.replies ++ [⟨r, e, b, 0, [], false⟩]) ∧ t.cores = s.cores ∧ t.beacons = s.beacons) ∧
      ∃ t, exec (.memoryWrite r line 15 data 15 slice host) s = .next t ∧
        (∀ j, t.byteAt j = if b ≤ j ∧ j < b + 64 then 0 else s.byteAt j) ∧ t.isClean b = false) ∧
    ((s.target a.toNat n).stores = true → a.toNat % 64 + n ≤ 64 → s.access r a.toNat n = 0 → s.hostServes r = true →
      let d := s.loadAt a.toNat n upset
      exec (.memoryRead (.fabric r a more) upset false slice tag) s =
        .next (d.1.reply r a.toNat d.2.status d.2.data d.2.poison) ∧
      ((∃ k, s.target a.toNat n = .t2 k) → exec (.memoryRead (.fabric r a more) upset true slice tag) s =
        .next (d.1.reply r a.toNat d.2.status ((List.range n).map fun j => BitVec.ofNat 8 (d.1.free j)) true).draw) ∧
      (let c := s.countRead (s.tgt a.toNat)
       let u := a.toNat / 64 * 64
       a.toNat < t2Base + 32 * t2Size → s.home a.toNat = a.toNat → c.armedAt 30 a.toNat = none → upset = 0 → s.chkErrors u = 0 →
        (s.isClean u = true → d.2.poison = false ∧ d.2.data = (List.range n).map fun j => s.byteAt (a.toNat + j)) ∧
        (s.isClean u = false → d.2.poison = true ∧ d.2.data = List.replicate n 0))) ∧
    ((s.target a.toNat n).stores = true → s.access r a.toNat n ≠ 0 → s.hostServes r = true → (∀ h k, r ≠ .fwp h k) →
      exec (.memoryRead (.fabric r a more) upset false slice tag) s =
        .next ((s.countAbsent a.toNat (s.access r a.toNat n)).reply r a.toNat (s.access r a.toNat n) [] false)) ∧
    (∀ w : Fin 8192, let d := s.decodeUnit (alwaysOnKey (8 * w)) upset false
      exec (.memoryRead (.alwaysOn w) upset false slice tag) s = .next (if d.poison then d.state.fatal else d.state) ∧
      (upset = 0 → s.chkErrors (alwaysOnKey (8 * w)) = 0 → exec (.memoryRead (.alwaysOn w) upset false slice tag) s = .next s)) ∧
    (s.replies.find? (fun y => y.req = r) = some x →
      let t := { s with replies := s.replies.erase x }
      (s.st page ≠ PS.fenced → s.st page ≠ PS.resetting → s.rd (Reg.STATE_EPOCH page) = x.epoch.toNat →
        exec (.replyRx r) s = .next (t.out (.reply r x.status x.data x.poison))) ∧
      (s.st page = PS.fenced ∨ s.st page = PS.resetting ∨ s.rd (Reg.STATE_EPOCH page) ≠ x.epoch.toNat →
        exec (.replyRx r) s = .next (if page.isHub then t else t.bump (Reg.NOC_STALE page.dieNum)))) ∧
    (∀ (t : State) (st : BitVec 8) (poison : Bool),
      (t.reply r b st data poison).replies = t.replies ++
        [⟨r, BitVec.ofNat 8 (t.rd (Reg.STATE_EPOCH (t.pageOf r))), b, st, data, poison⟩])

/-- Writes within a unit and patrols (R268, R276, R277, R278, R279, R281): a part of a unit that holds the poison word changes
nothing, and a part of a clean one changes its own bytes alone; the patrol of an SRAM moves on by one word; an enabled patrol of
HBM or tier 2 moves on by one unit; a due range takes the lowest free retire entry, or sets RETIRE_FULL; arming the checker test
sets its arm and HOLD, or is refused and recorded outside the controller's free memory.
What of it is the model's choice or reading, and no rule of the spec: log entries 12, 18, 93. -/
def Obligations.Protection : Prop :=
  ∀ (k : Nat) (bs : List (BitVec 8)) (c : PatrolCtl) (t : TestCtl) (arr : SramArray) (upset : Nat) (hold conflict : Bool)
    (found : List (Nat × Nat)) (g : Nat) (rest : List Nat) (s : State),
    let up : Prop := s.st t.page ≠ PS.off ∧ s.pageGone t.page (t.ctl % 4096) = false
    (2 ^ 48 ≤ k → 0 < bs.length → bs.length < 8 → k % 8 + bs.length ≤ 8 →
      (s.isClean (unitOf k) = false → s.writeHome k bs false = s) ∧
      (s.isClean (unitOf k) = true → ∀ j, (s.writeHome k bs false).byteAt j =
        if k ≤ j ∧ j < k + bs.length then bs.getD (j - k) 0 else s.byteAt j)) ∧
    (let word := s.sramPosOf arr.place.1 % arr.place.2.2
     ∃ u, exec (.sramPatrolStep arr upset conflict) s = .next u ∧ u.sramPosOf arr.place.1 = (word + 1) % arr.place.2.2) ∧
    (c.enabled s = false → exec (.patrolStep c found) s = .next s) ∧
    (c.enabled s = true → c.next s 40 (s.rd c.pos) = s.rd c.pos → s.rd c.pos + 1 < c.size →
      s.unitAbsent (c.unit (s.rd c.pos)) = false →
      ∃ u : State, exec (.patrolStep c found) s = .next (u.wr c.pos (s.rd c.pos + 1))) ∧
    (up → s.armRefused t = false →
      (∃ u, exec (.testWrArm t hold) s = .next u ∧ u = s.setReg t.ctl (u.reg t.ctl) ∧ (u.reg t.ctl).getLsbD 31 = true ∧
        (u.reg t.ctl).getLsbD 30 = false ∧ (u.reg t.ctl).getLsbD 29 = hold) ∧
      ∃ u, exec (.testRdArm t hold) s = .next u ∧ u = s.setReg t.ctl (u.reg t.ctl) ∧ (u.reg t.ctl).getLsbD 31 = false ∧
        (u.reg t.ctl).getLsbD 30 = true ∧ (u.reg t.ctl).getLsbD 29 = hold) ∧
    (up → s.armRefused t = true →
      (∃ u : State, exec (.testWrArm t hold) s = .next (u.ignoreWrite t.page (t.ctl % 4096)) ∧ (u.reg t.ctl).getLsbD 31 = false) ∧
      ∃ u : State, exec (.testRdArm t hold) s = .next (u.ignoreWrite t.page (t.ctl % 4096)) ∧ (u.reg t.ctl).getLsbD 30 = false) ∧
    ((s.patrol c.key).due = g :: rest →
      let u := s.modPatrol c.key fun f => { f with due := rest }
      let page := u.bucketPage (g * 4096)
      (u.retired (g * 4096) = true → exec (.granuleRetire c) s = .next u) ∧
      (u.retired (g * 4096) = false → ∀ w, u.retireInto (g * 4096) = some w →
        exec (.granuleRetire c) s = .next ((w.bbAdd 8 2 (some page) (w.ownerOf (g * 4096)) (leBytes 8 (g * 4096))).ledgerAppend
          (match c with
            | .hmc _ => 3
            | .t2 _ => 4) (g * 4096) (w.rd (Reg.BBX_SEQ 0)) (some page))) ∧
      (u.retired (g * 4096) = false → u.retireInto (g * 4096) = none →
        exec (.granuleRetire c) s = .next ((u.bbAdd 8 2 (some page) (u.ownerOf (g * 4096)) (leBytes 8 0)).err
          (match c with
            | .hmc n => ⟨.hmc, n⟩
            | .t2 n => ⟨.hub, n / 16⟩)
          (match c with
            | .hmc _ => 18
            | .t2 _ => 17))))

/-- Mailboxes (R303, R305, R451, R459, R461, R463, R467, R468): GO on a free page in service takes the message, BUSY and SEQ shown and VALID
clear, waits to be read while PF0 may not master its link, and is ignored while the page is busy; a message that reads poisoned is
answered POISONED, and one that does not read NOT_PERMITTED, with nothing performed; a message of the
management controller enters hub 0 page 62; a reply goes into the buffer, once
PF0 may master its link, VALID is set and BUSY and GO are clear. LOG_MIRROR
starts a ring's mirror at its TAIL and TRACE_SET sets 256 trace points.
What of it is the model's choice or reading, and no rule of the spec: log entries 53, 55, 98. -/
def Obligations.Mailboxes : Prop :=
  ∀ (hub : Fin 2) (page : Fin 64) (link : Fin 2) (msg : List (BitVec 8)) (st : BitVec 8) (s : State),
    let k := hub.val * 64 + page.val
    let p := mbxPage k
    let b := s.mbx k
    let m := s.message hub page
    let f (o n : Nat) := fieldAt m.payload o n
    let taken (j l : Nat) (t : State) : Prop :=
      t.on (Reg.MBX_STAT_BUSY j) = true ∧ t.on (Reg.MBX_CTL_GO j) = true ∧ t.on (Reg.MBX_STAT_VALID j) = false ∧
        t.rd (Reg.MBX_STAT_LINK j) = l ∧ t.rd (Reg.MBX_STAT_SEQ j) = fieldAt msg 6 2 ∧ (t.mbx j).held = msg ∧
        (t.mbx j).started = false ∧ (∀ q, q ≠ j → t.mbx q = s.mbx q) ∧
        (t.mbx j).reply =
          (if j = 63 ∧ natBits (s.rd (Reg.SEC_STATE_DEBUG_SCOPE 0)) 1 1 = 0 then some (St.notPermitted, [])
           else if fieldAt msg 3 1 ≠ 1 then some (St.versionMismatch, [])
           else if 4080 < fieldAt msg 4 2 ∨ knownOpcodes.contains (fieldAt msg 0 2) = false then some (St.badParam, [])
           else none) ∧
        t.mem = s.mem ∧ t.cores = s.cores ∧ t.parts = s.parts ∧ t.hostMem = s.hostMem ∧
        ((t.mbx j).reply = none →
          (∀ a, a ≠ (Reg.MBX_CTL_GO j).addr → a ≠ (Reg.MBX_STAT_BUSY j).addr → (∀ l, a ≠ (Reg.PCE_INTX_LEVEL l).addr) →
            t.reg a = s.reg a) ∧
          t = { s with regs := t.regs, mbxs := t.mbxs, mbxOrder := s.mbxOrder + 1, links := t.links, outs := t.outs })
    (s.st p = PS.enabled → s.absentPage p = false → s.on (Reg.MBX_STAT_BUSY k) = false →
      (s.fnMaster link 0 = false → ∃ t, exec (.mbxGo hub page link (.data msg false)) s = .next t ∧
        t.on (Reg.MBX_STAT_BUSY k) = true ∧ t.on (Reg.MBX_CTL_GO k) = true ∧ (t.mbx k).unread = true ∧ (t.mbx k).reply = none) ∧
      (s.fnMaster link 0 = true →
        ∃ t, exec (.mbxGo hub page link (.data msg false)) s = .next t ∧ taken k link.val t ∧ (t.mbx k).mctp = false) ∧
      ∀ (x : HostRead) (e : BitVec 8), x = .data msg true ∧ e = St.poisoned ∨ (x = .refused ∨ x = .noTranslation) ∧ e = St.notPermitted →
      s.fnMaster link 0 = true →
      ∃ t, exec (.mbxGo hub page link x) s = .next t ∧ t.rd (Reg.MBX_STAT_STATUS k) = e.toNat ∧
        t.on (Reg.MBX_STAT_VALID k) = true ∧ t.on (Reg.MBX_STAT_BUSY k) = false ∧ t.on (Reg.MBX_CTL_GO k) = false ∧
        (t.mbx k).reply = none ∧ t.hostMem = s.hostMem) ∧
    (s.st p = PS.enabled → s.absentPage p = false → s.on (Reg.MBX_STAT_BUSY k) = true →
      (b.unread = false → exec (.mbxGo hub page link (.data msg false)) s =
        .next ((s.ignoreWrite p 0x48).partner p 4 link 0x20 [])) ∧
      (b.unread = true → s.fnMaster (s.rd (Reg.MBX_STAT_LINK k)) 0 = true →
        ∃ t, exec (.mbxGo hub page link (.data msg false)) s = .next t ∧ (t.mbx k).held = msg ∧ (t.mbx k).unread = false ∧
          t.on (Reg.MBX_STAT_BUSY k) = true)) ∧
    (s.st (mbxPage 62) = PS.enabled → s.on (Reg.MBX_STAT_BUSY 62) = false →
      ∃ t, exec (.mctpMessage msg) s = .next t ∧ taken 62 0 t ∧ (t.mbx 62).mctp = true) ∧
    (∀ bytes, b.reply = some (st, bytes) → s.on (Reg.MBX_STAT_BUSY k) = true → b.mctp = false →
      s.fnMaster (s.rd (Reg.MBX_STAT_LINK k)) 0 = false → exec (.mbxReply hub page) s = .next s) ∧
    (∀ bytes, b.reply = some (st, bytes) → s.on (Reg.MBX_STAT_BUSY k) = true →
      b.mctp = true ∨ s.fnMaster (s.rd (Reg.MBX_STAT_LINK k)) 0 = true →
      let reply := replyBytes (b.held ++ List.replicate (16 - b.held.length) 0#8) st bytes
      let buf := s.rd (Reg.MBX_BUF_LO k) * 4096 + s.rd (Reg.MBX_BUF_HI k) * 2 ^ 32
      ∃ t, exec (.mbxReply hub page) s = .next t ∧ t.rd (Reg.MBX_STAT_STATUS k) = st.toNat ∧
        t.on (Reg.MBX_STAT_VALID k) = true ∧ t.on (Reg.MBX_STAT_BUSY k) = false ∧ t.on (Reg.MBX_CTL_GO k) = false ∧
        (t.mbx k).reply = none ∧ t.mem = s.mem ∧ t.cores = s.cores ∧
        (b.mctp = true → t.outs = .mctp reply :: s.outs ∧ t.hostMem = s.hostMem) ∧
        (b.mctp = false → t.hostMem = (s.hostWrite (s.fnId (s.rd (Reg.MBX_STAT_LINK k)) 0) buf reply).hostMem)) ∧
    (let u := s.begun 0x20 hub page
     let j := fwpKey (f 1 1) (f 0 1)
     20 ≤ m.length → fwpExists (f 1 1) (f 0 1) = true → f 2 6 = 0 → (m.payload.drop 20).any (· ≠ 0#8) = false →
     f 8 8 % 4096 = 0 → f 8 8 = 0 ∨ (∃ n, 7 ≤ n ∧ n ≤ 16 ∧ f 16 4 = 2 ^ n) → m.src.mctp = false →
     Serves (.logMirror hub page) 0x20 hub page s ((u.modFwp j fun x => { x with mirror :=
       { base := BitVec.ofNat 64 (f 8 8), size := if f 8 8 = 0 then 0 else f 16 4, link := m.src.link
         copied := u.rd (Reg.FWP_MIRROR_TAIL j), due := [] } }).answer m.src St.ok [])) ∧
    (let u := s.begun 0x21 hub page
     let j := fwpKey (f 1 1) (f 0 1)
     40 ≤ m.length → fwpExists (f 1 1) (f 0 1) = true → f 4 4 = 0 → (m.payload.drop 40).any (· ≠ 0#8) = false →
     f 2 2 % 256 = 0 → f 2 2 < 4096 →
     ∃ t : State, Serves (.traceSet hub page) 0x21 hub page s (t.answer m.src St.ok []) ∧
       (∀ i < 4096, (t.fwp j).getTrace i =
         if f 2 2 ≤ i ∧ i < f 2 2 + 256 then natBits (f 8 32) (i - f 2 2) 1 = 1 else (s.fwp j).getTrace i) ∧
       (∀ q, q ≠ j → t.fwp q = s.fwp q) ∧ t = { u with fwps := t.fwps })

/-- Partitions (R311, R315, R316, R317, R318, R320, R321, R330, R498, R554): PART_CREATE gives a FREE partition its shape, CREATING, and sends its
clusters through RESETTING, unless a resource is another's; with its clusters reset it is ACTIVE and answered; PART_SET_QOS gives an
ACTIVE one its WEIGHT and PCAP; PART_DESTROY pauses an ACTIVE one with no slice and resets its clusters; its end leaves it FREE with
no snapshot, rings or prefix index, and answers. A strict partition's engines start work in its own window alone, and a shared one
keeps its turn for as many units as its WEIGHT.
What of it is the model's choice or reading, and no rule of the spec: log entries 53, 61, 96, 97. -/
def Obligations.PartitionLife : Prop :=
  ∀ (hub : Fin 2) (page : Fin 64) (part : Fin 12) (s : State),
    let m := s.message hub page
    let p := m.f 0 1
    let x := m.shape
    let q := part.val
    (let u := s.begun 0x210 hub page
     64 ≤ m.length → p < 12 → m.f 1 1 < 4 → m.f 3 1 = 0 → m.f 6 2 = 0 → m.f 38 2 = 0 → m.f 58 6 = 0 →
     (m.payload.drop 64).any (· ≠ 0#8) = false → x.clusters ≠ 0#160 → x.weight ≠ 0#8 → x.rangesOk = true →
     (x.strict = true → x.strictShape = true) → u.shapeAbsent x = false → (s.part p).state = .free →
     ((∀ r < 12, r ≠ p → (s.part r).state = .free ∨ x.clash (s.part r) = false) →
       Serves (.partCreate hub page) 0x210 hub page s
         ((List.range 160).foldl (fun t gc => if x.clusters.getLsbD gc then t.enterReset ⟨.clu, gc⟩ else t)
           (u.setPart p { x with state := .creating, src := some m.src }))) ∧
     ((∃ r < 12, r ≠ p ∧ (s.part r).state ≠ .free ∧ x.clash (s.part r) = true) →
       Serves (.partCreate hub page) 0x210 hub page s (u.answer m.src St.noResource []))) ∧
    ((s.part q).state = .creating → (∀ gc ∈ s.clustersOf q, s.st ⟨.clu, gc⟩ ≠ PS.resetting) →
      ∃ t, exec (.partCreateDone part) s = .next t ∧ t.part q = { s.part q with state := .active, seq := 0#64, src := none } ∧
        (∀ r, r ≠ q → t.part r = s.part r) ∧ (∀ gc ∈ s.clustersOf q, t.on (Reg.CLU_PAUSE_REQ gc) = false) ∧
        (∀ h < 2, t.rd (Reg.TEL_P_ENERGY_LO h q) = 0) ∧ t = { s with regs := t.regs, parts := t.parts, mbxs := t.mbxs } ∧
        (∀ src, (s.part q).src = some src →
          let k := src.hub.val * 64 + src.page.val
          (s.mbx k).order = src.order → s.on (Reg.MBX_STAT_BUSY k) = true → (t.mbx k).reply = some (St.ok, []))) ∧
    ((s.part q).state = .creating → (∃ gc ∈ s.clustersOf q, s.st ⟨.clu, gc⟩ = PS.resetting) →
      exec (.partCreateDone part) s = .next s) ∧
    (let u := s.begun 0x212 hub page
     6 ≤ m.length → p < 12 → m.f 2 1 ≠ 0 → m.f 1 1 = 0 → m.f 3 1 = 0 → (m.payload.drop 6).any (· ≠ 0#8) = false →
     ((s.part p).state = .active → Serves (.partSetQos hub page) 0x212 hub page s
       ((u.setPart p { s.part p with weight := BitVec.ofNat 8 (m.f 2 1), pcap := BitVec.ofNat 16 (m.f 4 2) }).answer m.src St.ok [])) ∧
     ((s.part p).state ≠ .active → Serves (.partSetQos hub page) 0x212 hub page s (u.answer m.src St.stateError []))) ∧
    (let u := s.begun 0x211 hub page
     let f := Reg.DIS_PAUSE (s.part p).link
     1 ≤ m.length → p < 12 → (m.payload.drop 1).any (· ≠ 0#8) = false → (s.part p).state = .active →
     ((∀ e ∈ s.slices, ∀ y, e.2 = some y → y.part ≠ p) → u.snapRuns p = false →
       let w := u.setPart p { s.part p with state := .destroying, src := some m.src }
       Serves (.partDestroy hub page) 0x211 hub page s
         (((w.setReg f.addr (s.reg f.addr ||| (1#32 <<< p))).syncPause (s.part p).link p |> fun v =>
           (v.clustersOf p).foldl (fun t gc => t.enterReset ⟨.clu, gc⟩) v))) ∧
     ((∃ e ∈ s.slices, ∃ y, e.2 = some y ∧ y.part = p) →
       Serves (.partDestroy hub page) 0x211 hub page s (u.answer m.src St.stateError []))) ∧
    ((s.part q).state = .destroying → (∀ gc ∈ s.clustersOf q, s.st ⟨.clu, gc⟩ ≠ PS.resetting) →
      ∃ t, exec (.partDestroyDone part) s = .next t ∧ t.part q = Part.reset ∧ t.snap q = Snap.reset ∧ t.movRing q = Ring.reset ∧
        (∀ r, r ≠ q → t.part r = s.part r) ∧
        (∀ src, (s.part q).src = some src →
          let k := src.hub.val * 64 + src.page.val
          (s.mbx k).order = src.order → s.on (Reg.MBX_STAT_BUSY k) = true → (t.mbx k).reply = some (St.ok, []))) ∧
    ((s.part q).state = .destroying → (∃ gc ∈ s.clustersOf q, s.st ⟨.clu, gc⟩ = PS.resetting) →
      exec (.partDestroyDone part) s = .next s) ∧
    -- the engines' service of partitions
    (∀ (e now n : Nat) (waits : Nat → Bool), 0 < n →
      ((∀ r < 12, s.strictOn r = false) → s.windowOpen q now n = true) ∧
      (s.strictOn q = true → s.mayServe hub e q now n waits = true → now / 2500 % 12 = q ∧ (now + n - 1) / 2500 = now / 2500) ∧
      (s.strictOn q = false → s.strictOn (now / 2500 % 12) = true → s.mayServe hub e q now n waits = false) ∧
      (s.turnPart hub e waits = some q → (s.turnOf (hub * 16 + e)).left = 0 → (s.part q).weight ≠ 0#8 →
        let after (k : Nat) : State := (List.range k).foldl (fun t _ => t.served hub e q now) s
        (∀ k < (s.part q).weight.toNat, (after k).turnPart hub e waits = some q) ∧
        (after (s.part q).weight.toNat).turnPart hub e waits =
          ((List.range 12).map fun k => (q + 1 + k) % 12).find? fun r => s.partHub r = hub && !s.strictOn r && waits r))

/-- Slices (R304, R323, R324, R326, R329): SLICE_CREATE gives a free number its identity when every field of the request may be so,
in order of priority a right, a parameter, a state; SLICE_DESTROY ends its job queues and leaves it dying until nothing of its PASID
is on the link; DLOG_SWAP turns the active bitmap over, and reports and clears MISSED.
What of it is the model's choice or reading, and no rule of the spec: log entries 53, 60. -/
def Obligations.SliceLife : Prop :=
  ∀ (hub : Fin 2) (page : Fin 64) (s : State),
    let m := s.message hub page
    let k := m.f 0 1
    let p := m.f 1 1
    let l := s.partHub p
    let fn := m.f 2 1
    (let u := s.begun 0x220 hub page
     let size := m.f 24 8
     let pages := m.f 48 8
     64 ≤ m.length → p < 12 → 1 ≤ fn → fn ≤ 3 → m.f 3 1 < 2 → m.f 6 2 = 0 → m.f 8 4 < 2 ^ 20 → m.f 14 2 = 0 → m.f 56 8 = 0 →
     (m.payload.drop 64).any (· ≠ 0#8) = false → m.f 12 2 < beaconCount → m.f 16 8 % 4096 = 0 → size % 4096 = 0 →
     size ≤ 2 ^ (s.link l).getBar2Log2 1 / 256 → (fn ≠ 1 → m.f 12 2 = 0 ∧ size = 0) → m.f 32 8 % 4096 = 0 → m.f 40 8 % 4096 = 0 →
     (m.f 3 1 = 0 → pages = 0) → (m.f 3 1 = 1 → pages ≠ 0 ∧ pages % 8 = 0) → (s.tgt (m.f 16 8)).windowed = true →
     m.f 4 2 = ((s.link l).getFns fn).rid.toNat → m.onLink l = true → (fn = 1 → s.beaconOfPart p (m.f 12 2) = true) →
     (s.part p).state = .active → s.slice k = none →
     let y : Slice := { Slice.reset with
       part := p, func := fn, rid := BitVec.ofNat 16 (m.f 4 2), pasid := BitVec.ofNat 20 (m.f 8 4)
       beacon := BitVec.ofNat 15 (m.f 12 2), winBase := BitVec.ofNat 64 (m.f 16 8), winSize := BitVec.ofNat 64 size
       dlog := decide (m.f 3 1 = 1), logBase := BitVec.ofNat 64 (m.f 32 8), logIova := BitVec.ofNat 64 (m.f 40 8)
       logPages := BitVec.ofNat 64 pages }
     ((∀ e ∈ s.slices, ∀ x, e.2 = some x → s.partHub x.part = l → x.rid.toNat = m.f 4 2 → x.pasid.toNat ≠ m.f 8 4) →
       Serves (.sliceCreate hub page) 0x220 hub page s ((u.setSlice k (some y)).answer m.src St.ok [])) ∧
     ((∃ e ∈ s.slices, ∃ x, e.2 = some x ∧ s.partHub x.part = l ∧ x.rid.toNat = m.f 4 2 ∧ x.pasid.toNat = m.f 8 4) →
       Serves (.sliceCreate hub page) 0x220 hub page s (u.answer m.src St.stateError []))) ∧
    (p < 12 → (s.part p).state ≠ .free → m.onLink l = false →
      Serves (.sliceCreate hub page) 0x220 hub page s ((s.begun 0x220 hub page).answer m.src St.notPermitted [])) ∧
    (∀ x, s.slice k = some x → 1 ≤ m.length → (m.payload.drop 1).any (· ≠ 0#8) = false → x.dying = none →
      (m.onLink (s.partHub x.part) = true →
        let u := s.begun 0x221 hub page
        let w := { u with jobqs := SMap.keep (fun q => q / 16 ≠ k) u.jobqs }
        Serves (.sliceDestroy hub page) 0x221 hub page s
          (((((w.dropQps (s.partHub x.part) (some k)).dropNvBinds (s.partHub x.part) k).dropSkeys x.part (some k)).setSlice k
            (some { x with dying := some m.src })).settleSlices (s.partHub x.part))) ∧
      (m.onLink (s.partHub x.part) = false →
        Serves (.sliceDestroy hub page) 0x221 hub page s ((s.begun 0x221 hub page).answer m.src St.notPermitted [])) ∧
      (m.onLink (s.partHub x.part) = true → x.dlog = true →
        let u := s.begun 0x222 hub page
        let now := !x.active
        Serves (.dlogSwap hub page) 0x222 hub page s
          ((u.setSlice k (some { x with
            active := now, missed := 0#32, bits := SMap.keep (fun i => (i / 2 ^ 64 = 1) != now) x.bits })).answer m.src St.ok
            ([if now then 1#8 else 0#8] ++ List.replicate 3 0#8 ++ leBytes 4 x.missed.toNat)))) ∧
    (∀ x : Slice, x.dlog = true →
      (∀ a n, 0 < n → x.inLog a n = false → x.missed ≠ 0xFFFFFFFF#32 → (x.logWrite a n false).missed = x.missed + 1#32) ∧
      (∀ a n, 0 < n → x.missed ≠ 0xFFFFFFFF#32 → (x.logWrite a n true).missed = x.missed + 1#32) ∧
      (∀ a n g, 0 < n → x.inLog a n = true → g ∈ touched a n →
        (x.logWrite a n false).getBits ((if x.active then 2 ^ 64 else 0) + (g - x.logIova.toNat / 4096)) = true))

/-- The boot stub (R172, R174, R175, R497): a core in STUB whose image table entry, code and data are held by its partition, lie
where images may lie, read clean and match their checks gets its stores filled and is handed over, RUNNING at PC 0, or PAUSED there
when a pause is asked for; a bad table address fails boot with BAD_PARAM, memory of another with NOT_PERMITTED, a mismatch with
AUTH_FAIL, the core BOOT_FAILED and bit 17 of its page set.
What of it is the model's choice or reading, and no rule of the spec: log entry 42. -/
def Obligations.StubRuns : Prop :=
  ∀ (gc : Fin 160) (slot : Fin 18) (lc : Nat) (s : State),
    let p := slotKey gc slot
    let base := s.rd (Reg.CLU_FW_BASE_LO gc) + s.rd (Reg.CLU_FW_BASE_HI gc) * 2 ^ 32
    let r : Req := .fwp 0 0
    let x := s.readMem r (base + 32 * (lc % 16)) 32
    let e := ImageEntry.ofBytes x.2.data
    let part := x.1.clusterPart gc
    let code := x.1.readMem r e.codeAddr e.codeBytes
    let stored := code.1.loadStore p code.2.data
    let data := if e.dataBytes = 0 then (stored, (⟨St.ok, [], false⟩ : RdRes)) else stored.readMem r e.dataAddr e.dataBytes
    let ready := data.1.dmemWrite p 0 data.2.data false
    let mine := x.1.rangeHeld part e.codeAddr e.codeBytes = true ∧ x.1.rangeHeld part e.dataAddr e.dataBytes = true
    (s.core p).run = .stub →
    (base = 0 ∨ base % 32 ≠ 0 → exec (.stubRun gc slot) s = .next (s.bootFail p St.badParam)) ∧
    (base ≠ 0 → base % 32 = 0 → s.lcOf gc slot = some lc →
      (x.2.whole ≠ 0 → exec (.stubRun gc slot) s = .next (x.1.bootFail p x.2.whole)) ∧
      (x.2.whole = 0 → ¬ mine → exec (.stubRun gc slot) s = .next (x.1.bootFail p St.notPermitted)) ∧
      (x.2.whole = 0 → mine → e.bad = false → x.1.inTiers e.codeAddr e.codeBytes = true →
        (e.dataBytes ≠ 0 → x.1.inTiers e.dataAddr e.dataBytes = true) → code.2.whole = 0 →
        (crc32c code.2.data ≠ BitVec.ofNat 32 e.codeCrc →
          exec (.stubRun gc slot) s = .next (stored.bootFail p St.authFail)) ∧
        (crc32c code.2.data = BitVec.ofNat 32 e.codeCrc → data.2.whole = 0 →
          (e.dataBytes ≠ 0 → crc32c data.2.data = BitVec.ofNat 32 e.dataCrc) →
          exec (.stubRun gc slot) s = .next (ready.modCore p fun _ => { Core.reset with
            bootStatus := St.ok, run := if ready.pauseRequested gc slot then .paused else .running
            pausing := decide (ready.st ⟨.cor, p⟩ = PS.draining) })))) ∧
    (∀ (u : State) (st : BitVec 8), (u.reg ((Page.mk .cor p).base + 0x1C)).getLsbD 17 = false →
      ((u.bootFail p st).core p) = { u.core p with bootStatus := st, run := .bootFailed } ∧
      ((u.bootFail p st).reg ((Page.mk .cor p).base + 0x18)).getLsbD 17 = true)

/-- The host link's windows and requests (R284, R286, R287, R289, R291, R288, R301, R302, R303, R304, R306, R308): an access within a
window reaches the fabric at its base plus offset, one past it or past the BAR is unsupported, one to no memory gets a completer abort; a violation is answered and recorded; unmasking a
vector sends its message; a timed-out read answers poison and its tag is in quarantine, from which it comes free; a completion
answers its request with its data or a refusal, or is dropped and counted.
What of it is the model's choice or reading, and no rule of the spec: log entries 6, 28, 66, 98. -/
def Obligations.HostWindows : Prop :=
  ∀ (link : Fin 2) (slice : Fin 256) (off : Nat) (acc : BarAccess) (fn : Fin 4) (v : Fin 2048) (word : Fin 4) (w : BitVec 32)
    (tag : Fin 16384) (t : Tag) (x : Slice) (data h : List (BitVec 8)) (posted : Bool) (s : State),
    let l := link.val
    let k := s.link link
    let page := pcePage l
    let found := k.tags.find? (fun y => y.tag = tag.val)
    let without (u : State) : State := u.modLink l fun y => { y with tags := y.tags.filter (·.tag ≠ tag.val) }
    -- a poisoned write is reported whatever it reaches
    (let y := if acc.poison && k.up then s.poisonRx l else s
     let wbase := y.rd (Reg.PCE_WIN0_BASE_LO l) * 2 ^ 30 + y.rd (Reg.PCE_WIN0_BASE_HI l) * 2 ^ 32 + off
     let part := 2 ^ (y.link l).getBar2Log2 1 / 256
     (y.fnServes l 0 = true → off + acc.size ≤ 2 ^ (y.link l).getBar2Log2 0 → acc.size ≤ y.maxPayload l 0 →
       ((y.target wbase acc.size).windowed = true →
         exec (.hostBar2Access link off acc) s = .next (y.barMemory (.host link) wbase acc)) ∧
       ((y.target wbase acc.size).windowed = false →
         let t := y.busErr ⟨.hub, l⟩ wbase l acc.size
         exec (.hostBar2Access link off acc) s = .next (if acc.posted then t else t.out (.ca l)))) ∧
     (y.fnServes l 0 = true → 2 ^ (y.link l).getBar2Log2 0 < off + acc.size →
       exec (.hostBar2Access link off acc) s = .next (y.urLogged l acc.posted [])) ∧
     (y.fnServes l 1 = true → off + acc.size ≤ 2 ^ (y.link l).getBar2Log2 1 → acc.size ≤ y.maxPayload l 1 → off / part = slice.val →
       (y.pf1Slice l slice = none → exec (.apertureAccess link off acc) s = .next (y.urAnswer l acc)) ∧
       (y.pf1Slice l slice = some x →
         (off % part + acc.size ≤ x.winSize.toNat →
           exec (.apertureAccess link off acc) s = .next (y.barMemory (.slice slice) (x.winBase.toNat + off % part) acc)) ∧
         (x.winSize.toNat < off % part + acc.size → exec (.apertureAccess link off acc) s = .next (y.urAnswer l acc)))) ∧
     (y.fnServes l fn = false → (y.link l).up = true → ((y.link l).getFns fn).d3 = true →
       (fn = 0 → exec (.hostBar2Access link off acc) s = .next (y.urLogged l acc.posted [])) ∧
       (fn = 1 → exec (.apertureAccess link off acc) s = .next (y.urLogged l acc.posted [])))) ∧
    (k.up = true →
      exec (.hostRequestRx link (.malformed h)) s =
        .next ((((s.out (.aer l .malformedTlp)).partner page 0 l 0x18 h).err page 18).bucket page) ∧
      exec (.hostRequestRx link (.outsideBars posted h)) s =
        .next (if posted then (s.unsupported l).partner page 0 l 0x5C h
          else ((s.unsupported l).partner page 0 l 0x5C h).out (.ur l)) ∧
      exec (.hostRequestRx link (.atomicOp h)) s = .next (((s.unsupported l).partner page 0 l 0x5C h).out (.ur l)) ∧
      exec (.hostRequestRx link (.crossing posted h)) s = exec (.hostRequestRx link (.outsideBars posted h)) s ∧
      ((k.getFns fn).d3 = true →
        exec (.hostRequestRx link (.toD3 fn posted h)) s = exec (.hostRequestRx link (.outsideBars posted h)) s) ∧
      exec (.hostRequestRx link .poisoned) s = .next (s.poisonRx l)) ∧
    (s.fnServes l fn = true → fn ≠ 0 →
      let f := k.getFns fn
      let u := s.modLink l fun y => y.setFns fn
        (if word = 3 then f.setMask v (w.getLsbD 0) else f.setTable (4 * v.val + word.val) w)
      exec (.pceMsixWrite link fn v word w) s = .next (u.flushPba l fn) ∧
      (f.msixEn = true → f.bme = true → k.up = true → word = 3 → w.getLsbD 0 = false → u.pba l fn v = true →
        .msix l fn v ∈ (u.flushPba l fn).outs ∧ (u.flushPba l fn).pba l fn v = false)) ∧
    (s.fnServes l 0 = true → v.val < 64 → s.st page ≠ PS.off → s.pageGone page (0x800 + 16 * v.val + 4 * word.val) = false →
      exec (.pceMsixWrite link 0 v word w) s =
        .next ((s.setReg ((Reg.PCE_MSIX_ADDR_LO l v).addr + 4 * word.val)
          (w &&& (if word = 0 then 0xFFFFFFFC#32 else if word = 3 then 1#32 else 0xFFFFFFFF#32))).flushPba l 0)) ∧
    (s.st page ≠ PS.off → s.pageGone page 0x70 = false → exec (.pceIntxPend link w) s =
      .next (if w.getLsbD 0 then (s.wr (Reg.PCE_INTX_PEND l) 0).updateInta l else s)) ∧
    (k.tags.find? (fun y => y.tag = tag.val && !y.quar) = some t →
      let u := s.hostTimeout ⟨l, t.fn, t.rid, t.pasid⟩ tag
      ((u.link l).tags.head?.map fun y => (y.tag, y.quar, y.flr)) = some (tag.val, true, false) ∧
      (∀ r (a : Nat) n, t.req = .read r a n →
        exec (.completionTimeout link tag) s = .next (u.out (.reply r St.ok (List.replicate n 0#8) true)))) ∧
    (let u := s.modLink l fun y => { y with tags := y.tags.filter fun z => !(z.tag = tag.val && z.quar) }
     (∀ y ∈ (u.link l).tags, y.tag = tag.val → y.quar = false) ∧
     exec (.tagQuarantineEnd link tag) s = .next (u.settleSlices l)) ∧
    (found = some t → t.quar = false → ∀ r (a : Nat) n, t.req = .read r a n →
      exec (.hostCompletionRx link tag (.data data posted)) s =
        .next (((if posted then (without s).poisonRx l else without s).out
          (.reply r St.ok ((data ++ List.replicate n 0#8).take n) posted)).settleSlices l) ∧
      exec (.hostCompletionRx link tag .refused) s =
        .next (((without s).out (.reply r St.notPermitted [] false)).settleSlices l)) ∧
    (found = some t → t.quar = true → t.flr = true →
      exec (.hostCompletionRx link tag (.data data posted)) s = .next (s.bump (Reg.PCE_FLR_DROP l))) ∧
    (found = none ∨ (found = some t ∧ t.quar = true ∧ t.flr = false) →
      exec (.hostCompletionRx link tag (.data data posted)) s =
        .next (((s.out (.aer l .unexpectedCompletion)).bump (Reg.PCE_LATE_CPL l)).err page 17)) ∧
    exec (.hostCompletionRx link tag (.badFields h)) s =
      .next ((((s.out (.aer l .malformedTlp)).partner page 0 l 0x18 h).err page 18).bucket page) ∧
    (∀ (itag : Fin 32) (first n : Nat) (pasid : BitVec 20), k.up = true →
      ∃ u, exec (.atsInvalidate link fn itag (some pasid) first n) s = .next u ∧ u.outs = .atsDone link itag :: s.outs ∧
        (∀ e, e ∈ (u.link l).ats ↔ e ∈ k.ats ∧
          ¬ (e.1 / 2 ^ 52 / 2 ^ 37 = fn.val ∧ e.1 / 2 ^ 52 % 2 ^ 21 = pasid.toNat + 1 ∧ first ≤ e.1 % 2 ^ 52 ∧ e.1 % 2 ^ 52 < first + n)) ∧
        u = { s with links := u.links, outs := u.outs })

/-- Job queues and their doorbells (R178, R292, R294, R295, R296, R297, R298): a tail or head in range is kept, and a head releases the
slots behind it that have been written; one out of range stops the queue with bit 21; BDB adds to the slice's beacon; the next
submission slot is fetched and its descriptor held for the distributor, or refused with its status; a posted record is taken and its
credit returned; a record goes to the next completion slot with the phase of its pass, and VECTOR is sent behind the last.
What of it is the model's choice or reading, and no rule of the spec: log entries 6, 62. -/
def Obligations.JobQueueService : Prop :=
  ∀ (link : Fin 2) (slice : Fin 256) (queue : Fin 16) (v : BitVec 16) (n : BitVec 32) (q : JobQ) (x : Slice) (desc : HostRead)
    (body : List (BitVec 8)) (mark : Bool) (rest : List (List (BitVec 8) × Bool)) (host : HostWrite) (s : State),
    let k := jqKey slice queue
    let l := s.partHub x.part
    let stopped := ((s.setJobq k (some { q with error := true, status := St.badParam })).partner (pcePage link) 0 link 0x18 []).err (pcePage link) 21
    (s.fnServes link 1 = true → s.pf1Slice link slice = some x → x.suspended = false → s.liveJobq k = some q →
      exec (.jqSqTail link slice queue v) s =
        .next (if v.toNat < 2 ^ q.log2Sq then s.setJobq k (some { q with sqTail := v }) else stopped) ∧
      exec (.jqCqHead link slice queue v) s =
        .next (if v.toNat < 2 ^ q.log2Cq then
            s.setJobq k (some { q with
              cqHead := v
              released := min q.written (q.released + (v.toNat + 2 ^ q.log2Cq - q.cqHead.toNat) % 2 ^ q.log2Cq) })
          else stopped)) ∧
    (s.fnServes link 1 = true → s.pf1Slice link slice = some x → x.suspended = false →
      exec (.bdb link slice n) s = .next (s.sigHub link .job x.beacon.toNat n)) ∧
    (s.fnServes link 1 = true → (s.pf1Slice link slice = none ∨ (s.pf1Slice link slice = some x ∧ x.suspended = true)) →
      exec (.jqSqTail link slice queue v) s = .next (s.unsupported link) ∧
      exec (.jqCqHead link slice queue v) s = .next (s.unsupported link) ∧
      exec (.bdb link slice n) s = .next (s.unsupported link)) ∧
    -- the words of a queue that is not there are kept
    (s.fnServes link 1 = true → s.pf1Slice link slice = some x → x.suspended = false → s.liveJobq k = none →
      exec (.jqSqTail link slice queue v) s = .next (s.setDoorbellOf (2 * k) v) ∧
      exec (.jqCqHead link slice queue v) s = .next (s.setDoorbellOf (2 * k + 1) v)) ∧
    (s.slice slice = some x → s.liveJobq k = some q → s.jqRuns slice q = true →
      (q.sqHead ≠ q.sqTail → s.st ⟨.dis, l⟩ = PS.enabled →
        let r := s.sliceRead slice (q.sqBase.toNat + 64 * q.sqHead.toNat) 64 desc
        let u := r.1.setJobq k (some { q with sqHead := BitVec.ofNat 16 ((q.sqHead.toNat + 1) % 2 ^ q.log2Sq) })
        (r.2.status = St.ok → r.2.poison = false → r.2.data.length = 64 →
          (fieldAt r.2.data 12 1 = slice.val → u.descStatus x.part r.2.data = St.ok →
            exec (.jqFetch slice queue desc) s = .next (u.holdDesc l (jobSource slice queue) x.part r.2.data)) ∧
          (fieldAt r.2.data 12 1 = slice.val → u.descStatus x.part r.2.data ∈ St.order →
            exec (.jqFetch slice queue desc) s =
              .next (u.refuseDesc l (jobSource slice queue) x.part r.2.data (u.descStatus x.part r.2.data)))) ∧
        (r.2.status = St.ok → r.2.poison = true → r.2.data.length = 64 → (desc ≠ .timeout ∨ (s.freeTag l x.func).isSome = true) →
          exec (.jqFetch slice queue desc) s = .next (u.refuseDesc l (jobSource slice queue) x.part r.2.data St.poisoned))) ∧
      (q.sqHead = q.sqTail → exec (.jqFetch slice queue desc) s = .next s) ∧
      -- the engine learns by watch that a record is posted
      (let w := s.learn (postWatch l k q);
        (w.fired = false → exec (.jqPostTake slice queue) s = .next w.state) ∧
        (w.fired = true →
          let a := sramBase + l * 2 ^ 26 + q.stageBase.toNat * 64 + q.postTaken % 2 ^ q.log2Stage * 32
          let r := w.state.readMem (.hub (Fin.ofNat 2 l) .job (Fin.ofNat 12 x.part)) a 25
          r.2.status = St.ok → r.2.poison = false →
          exec (.jqPostTake slice queue) s =
            .next ((r.1.setJobq k (some { q with postTaken := q.postTaken + 1, ready := q.ready ++ [(r.2.data, false)] })).sigHub l
              .job q.stageCredit.toNat 1#32))) ∧
      (q.ready = (body, mark) :: rest → q.written - q.released < 2 ^ q.log2Cq →
        let u := (s.hostPut l (some slice.val) (q.cqBase.toNat + 32 * (q.written % 2 ^ q.log2Cq)) (q.record queue body) mark
          host).setJobq k (some { q with written := q.written + 1, ready := rest })
        (rest ≠ [] ∨ 2048 ≤ q.vector.toNat → exec (.jqRecordWrite slice queue host) s = .next u) ∧
        (rest = [] → q.vector.toNat < 2048 → exec (.jqRecordWrite slice queue host) s = .next (u.vector l 1 q.vector.toNat)))) ∧
    ((q.record queue body).length = 32 ∧
      (q.record queue body)[31]? = some (if q.written / 2 ^ q.log2Cq % 2 = 0 then 1#8 else 0#8) ∧
      (q.record queue body)[25]? = some (BitVec.ofNat 8 queue))

/-- Job queues as firmware makes them, and driver loss (R293, R465, R474, R475, R476): JQ_CREATE writes the context of a queue that
does not exist and JQ_DESTROY ends one that does; a heartbeat arms the timer, and ends LOST when PF0 masters its link; a timeout
makes an ATTACHED link LOST with its cause and bit; REATTACH reports the held records of a link's queues; RESUME with DISCARD drops
them, and makes the link ATTACHED.
What of it is the model's choice or reading, and no rule of the spec: log entries 53, 87, 98. -/
def Obligations.JobQueueLife : Prop :=
  ∀ (hub : Fin 2) (page : Fin 64) (link : Fin 2) (v : BitVec 32) (x : Slice) (s : State),
    let m := s.message hub page
    let k := m.f 0 1
    let q := m.f 1 1
    let state := Reg.FWP_LINK_STATE 0 link
    let hb := s.setReg (Reg.FWP_HB 0 link).addr v
    let l := m.src.link.val
    let entries := (s.jobqsOf l).filter fun e => s.heldRecords e.2 ≠ 0
    let tail := entries.drop (m.f 0 4)
    (s.slice k = some x → x.dying = none → m.onLink (s.partHub x.part) = true → x.part < 12 →
      (36 ≤ m.length → x.func = 1 → q < 16 → m.f 2 6 = 0 → (m.payload.drop 36).any (· ≠ 0#8) = false → m.f 8 8 % 4096 = 0 →
        m.f 16 8 % 4096 = 0 → m.f 25 1 ≤ 12 → (m.f 26 2 < 2048 ∨ m.f 26 2 = 0xFFFF) → m.f 28 4 < 2 ^ 20 →
        s.beaconOfPart x.part (m.f 32 2) = true → s.beaconOfPart x.part (m.f 34 2) = true →
        let u := s.begun 0x120 hub page
        (s.liveJobq (jqKey k q) = none →
          Serves (.jqCreate hub page) 0x120 hub page s (((((u.disarmTag (s.partHub x.part) .job (BitVec.ofNat 16 (jqKey k q))).setDoorbellOf
            (2 * jqKey k q) 0#16).setDoorbellOf (2 * jqKey k q + 1) 0#16).setJobq (jqKey k q) (some { JobQ.reset with
            sqBase := BitVec.ofNat 64 (m.f 8 8), cqBase := BitVec.ofNat 64 (m.f 16 8)
            log2Sq := m.f 24 1 % 16 + 1, log2Cq := m.f 24 1 / 16 + 1, vector := BitVec.ofNat 16 (m.f 26 2)
            stageBase := BitVec.ofNat 20 (m.f 28 4), log2Stage := m.f 25 1, post := BitVec.ofNat 15 (m.f 32 2)
            stageCredit := BitVec.ofNat 15 (m.f 34 2) })).answer m.src St.ok [])) ∧
        (s.liveJobq (jqKey k q) ≠ none →
          Serves (.jqCreate hub page) 0x120 hub page s (u.answer m.src St.stateError []))) ∧
      (2 ≤ m.length → q < 16 → (m.payload.drop 2).any (· ≠ 0#8) = false →
        let u := s.begun 0x121 hub page
        (s.liveJobq (jqKey k q) ≠ none →
          Serves (.jqDestroy hub page) 0x121 hub page s ((u.setJobq (jqKey k q) none).answer m.src St.ok [])) ∧
        (s.liveJobq (jqKey k q) = none →
          Serves (.jqDestroy hub page) 0x121 hub page s (u.answer m.src St.stateError [])))) ∧
    (s.st ⟨.fwp, 0⟩ ≠ PS.off → s.pageGone ⟨.fwp, 0⟩ (0x60 + 8 * link.val) = false → ∃ t, exec (.fwpHb link v) s = .next t ∧ t.reg (Reg.FWP_HB 0 link).addr = v ∧
      (s.rd state = LinkSt.attached → (t.lossOf link).armed = true ∧ (t.lossOf link).cause = (s.lossOf link).cause ∧
        t.rd state = LinkSt.attached) ∧
      (s.rd state = LinkSt.lost → ((s.link link).getFns 0).bme = true → t.rd state = LinkSt.reattach ∧ t.loss = s.loss) ∧
      (s.rd state = LinkSt.lost → ((s.link link).getFns 0).bme = false → t = hb) ∧
      t = { s with regs := t.regs, loss := t.loss }) ∧
    ((s.lossOf link).armed = true → s.rd state = LinkSt.attached → (s.reg ((Page.mk .fwp 0).base + 0x1C)).getLsbD (18 + link) = false →
      ∃ t, exec (.driverLoss link) s = .next t ∧ t.rd state = LinkSt.lost ∧
        t.lossOf link = { armed := false, cause := BitVec.ofNat 8 Loss.heartbeat } ∧
        (t.reg ((Page.mk .fwp 0).base + 0x18)).getLsbD (18 + link) = true ∧ t.cores = s.cores ∧ t.mem = s.mem ∧ t.links = s.links) ∧
    ((s.lossOf link).armed = false → exec (.driverLoss link) s = .next s) ∧
    (4 ≤ m.length → (m.payload.drop 4).any (· ≠ 0#8) = false → m.src.mctp = false →
      let u := s.begun 0x2 hub page
      Serves (.reattach hub page) 0x2 hub page s (u.answer m.src St.ok
        (leBytes 2 (tail.take 509).length ++ [if (tail.take 509).length < tail.length then 1#8 else 0#8, (s.lossOf l).cause] ++
          List.replicate 4 0#8 ++ (tail.take 509).flatMap fun e =>
            [BitVec.ofNat 8 (e.1 / 16), BitVec.ofNat 8 (e.1 % 16), if e.2.kept then 1#8 else 0#8, 0#8] ++
              leBytes 4 (s.heldRecords e.2)))) ∧
    (1 ≤ m.length → m.f 0 1 < 2 → (m.payload.drop 1).any (· ≠ 0#8) = false → m.src.mctp = false →
      let u := s.begun 0x3 hub page
      (s.rd (Reg.FWP_LINK_STATE 0 l) ≠ LinkSt.reattach →
        Serves (.resume hub page) 0x3 hub page s (u.answer m.src St.stateError [])) ∧
      (s.rd (Reg.FWP_LINK_STATE 0 l) = LinkSt.reattach →
        let dropped := (s.jobqsOf l).foldl (fun t e =>
          if m.f 0 1 = 1 ∨ e.2.kept = false then
            (t.setJobq e.1 (if e.2.kept then some { e.2 with postTaken := e.2.postTaken + t.posted e.2, ready := [] } else none)).sigHub
              l .job e.2.stageCredit.toNat (BitVec.ofNat 32 (t.posted e.2))
          else t) u
        Serves (.resume hub page) 0x3 hub page s (((dropped.wr (Reg.FWP_LINK_STATE 0 l) LinkSt.attached).setLossOf l
          { s.lossOf l with armed := false }).answer m.src St.ok [])))

/-- Ethernet ports and the classifier's fence (R333, R334, R335, R342, R345, R346): RETRAIN of an ENABLED port that is DOWN or UP starts
TRAIN_800; lanes lock only while its clocks and supplies stand; with every lane locked and aligned it is UP at rate 2, and on one pair at rate 1 with DEGRADED set; after
a timeout, or on a lost lane of a port at full rate, it tries a pair that is locked or goes DOWN; CLS_SYNC reads 0 and CLS_FENCE is
set and cleared.
What of it is the model's choice or reading, and no rule of the spec: log entry 77. -/
def Obligations.EthernetPorts : Prop :=
  ∀ (port : Fin 8) (lane : Fin 4) (hub : Fin 2) (who : Req) (s : State),
    let page := ethPage port
    let state := Reg.ETH_LINK_STATE port
    let lanes := Reg.ETH_LINK_LANES_OK port
    let lost := s.wr lanes (s.rd lanes &&& (15 - 2 ^ lane.val))
    let degrade := s.on (Reg.ETH_CFG_DEGRADE_EN port)
    let quiet := (s.reg (page.base + 0x1C)).getLsbD 16 = false ∧ (s.reg (page.base + 0x1C)).getLsbD 17 = false ∧
      (s.reg (page.base + 0x1C)).getLsbD 3 = false
    (s.st page = PS.enabled → s.pageGone page 0x44 = false → s.rd state = EthSt.down →
      ∃ t, exec (.ethRetrain port) s = .next t ∧ t.rd state = EthSt.train800 ∧ t.on (Reg.ETH_CTL_RETRAIN port) = false ∧
        (t.port port).tried = 0#2 ∧ t = { s with regs := t.regs, ports := t.ports }) ∧
    (s.st page = PS.enabled → s.pageGone page 0x44 = false → s.rd state = EthSt.up → quiet →
      ∃ t, exec (.ethRetrain port) s = .next t ∧ t.rd state = EthSt.train800 ∧ t.on (Reg.ETH_CTL_RETRAIN port) = false ∧
        t.rd (Reg.ETH_LINK_RATE port) = 0 ∧ (t.reg (page.base + 0x18)).getLsbD 16 = true) ∧
    (s.ethMayTrain port = false → exec (.laneLock port lane) s = .next s ∧ exec (.linkAlign port) s = .next s) ∧
    (s.ethMayTrain port = true → ∃ t, exec (.laneLock port lane) s = .next t ∧ t.rd lanes = s.rd lanes ||| 2 ^ lane.val ∧ t = { s with regs := t.regs }) ∧
    (s.rd state = EthSt.train800 →
      (s.ethMayTrain port = true → s.rd lanes = 15 → ∃ t, exec (.linkAlign port) s = .next t ∧ t.rd state = EthSt.up ∧ t.rd (Reg.ETH_LINK_RATE port) = 2 ∧
        t = { s with regs := t.regs }) ∧
      (s.rd lanes ≠ 15 → exec (.linkAlign port) s = .next s) ∧
      (degrade = true → s.pairLocked port 0 = true → exec (.trainTimeout port) s = .next (s.train400 port 0)) ∧
      (degrade = true → s.pairLocked port 0 = false → s.pairLocked port 1 = true →
        exec (.trainTimeout port) s = .next (s.train400 port 1)) ∧
      (degrade = false ∨ (s.pairLocked port 0 = false ∧ s.pairLocked port 1 = false) →
        ∃ t, exec (.trainTimeout port) s = .next t ∧ t.rd state = EthSt.down ∧ t = { s with regs := t.regs })) ∧
    (s.rd state = EthSt.train400 →
      (s.ethMayTrain port = true → s.pairLocked port (s.rd (Reg.ETH_LINK_PAIR port)) = true → quiet →
        ∃ t, exec (.linkAlign port) s = .next t ∧ t.rd state = EthSt.up ∧ t.rd (Reg.ETH_LINK_RATE port) = 1 ∧
          (t.reg (page.base + 0x18)).getLsbD 17 = true ∧ t.st page = s.st page) ∧
      ((s.port port).tried.getLsbD (1 - s.rd (Reg.ETH_LINK_PAIR port)) = false →
        s.pairLocked port (1 - s.rd (Reg.ETH_LINK_PAIR port)) = true → s.st page = PS.enabled →
        ∃ t, exec (.trainTimeout port) s = .next t ∧ t.rd state = EthSt.train400 ∧
          t.rd (Reg.ETH_LINK_PAIR port) = 1 - s.rd (Reg.ETH_LINK_PAIR port) ∧ t = { s with regs := t.regs, ports := t.ports })) ∧
    (s.rd state = EthSt.up → quiet →
      (s.rd (Reg.ETH_LINK_RATE port) = 2 → ∃ t, exec (.laneFail port lane) s = .next t ∧
        (t.reg (page.base + 0x18)).getLsbD 16 = true ∧ t.rd (Reg.ETH_LINK_RATE port) = 0 ∧
        (s.st page = PS.enabled → degrade = true → lost.pairLocked port 0 = true ∨ lost.pairLocked port 1 = true → t.rd state = EthSt.train400 ∧
          t.rd (Reg.ETH_LINK_PAIR port) = if lost.pairLocked port 0 then 0 else 1) ∧
        (degrade = false → t.rd state = EthSt.down)) ∧
      (s.rd (Reg.ETH_LINK_RATE port) ≠ 2 → lane.val / 2 = s.rd (Reg.ETH_LINK_PAIR port) →
        ∃ t, exec (.laneFail port lane) s = .next t ∧ t.rd state = EthSt.down ∧ (t.reg (page.base + 0x18)).getLsbD 16 = true) ∧
      (s.rd (Reg.ETH_LINK_RATE port) ≠ 2 → lane.val / 2 ≠ s.rd (Reg.ETH_LINK_PAIR port) →
        exec (.laneFail port lane) s = .next lost)) ∧
    (s.rd state ≠ EthSt.up → exec (.laneFail port lane) s = .next lost) ∧
    (s.st (clsPage hub) ≠ PS.fenced → s.st (clsPage hub) ≠ PS.resetting →
      (s.sramWriteHeld who = true → exec (.clsSync hub who) s = .next s) ∧
      (s.sramWriteHeld who = false → exec (.clsSync hub who) s = .next (s.out (.reply who St.ok (leBytes 4 0) false)))) ∧
    (s.st (clsPage hub) = PS.fenced → exec (.clsSync hub who) s = .next (s.out (.reply who St.unitAbsent [] false))) ∧
    (s.st (clsPage hub) ≠ PS.off → s.pageGone (clsPage hub) 0x58 = false → ∃ t, exec (.clsFence hub) s = .next t ∧ t.on (Reg.CLS_FENCE hub) = true ∧ t = { s with regs := t.regs }) ∧
    (∃ t, exec (.clsFenceClear hub) s = .next t ∧ t.on (Reg.CLS_FENCE hub) = false ∧ t = { s with regs := t.regs })

/-- Frames received (R333, R335, R336, R340, R342, R352): a frame of a port that is UP whose FCS or length is wrong, that is a PAUSE
frame, or that finds no room is counted and dropped; any other is counted, classified by its key and dropped, given to firmware,
handed to the SDT or delivered to its queue pair; a frame for a queue pair that is not there, or with no buffer or completion slot, is
counted; one delivered takes the posted buffer and a completion record.
What of it is the model's choice or reading, and no rule of the spec: log entries 13, 76, 100. -/
def Obligations.FramesReceived : Prop :=
  ∀ (port : Fin 8) (frame : List (BitVec 8)) (now ts : Nat) (overflow : Bool) (desc : HostRead) (parity : Option (Fin 16))
    (data record : HostWrite) (s : State),
    let h := port.val / 4
    let u := (s.hubNow h now).portNow port ts
    let n := frame.length
    let f := frame.take (n - 4)
    let fails := n < 4 ∨ frame.drop (n - 4) ≠ fcs f
    let size := n < 64 ∨ s.rd (Reg.ETH_CFG_MAX_FRAME port) < n
    let rx := exec (.frameRx port frame now ts overflow desc parity data record) s
    let counted := (u.step64 (Reg.ETH_RX_FRAMES_LO port)).step64 (Reg.ETH_RX_BYTES_LO port) n
    let p := parse f (s.rd (Reg.CLS_PARSE_SDT_PORT h)) (s.rd (Reg.CLS_PARSE_VXLAN_PORT h))
    let y := if p.pkt.malformed then counted.badFrame (clsPage h) port 0x18 f else counted
    let x := y.classify h (port.val % 4) (p.key f port) n now
    -- a descriptor read that times out waits for a free tag
    (desc ≠ .timeout ∨ (s.freeTag h 3).isSome = true) →
    ((s.rd (Reg.ETH_LINK_STATE port) ≠ EthSt.up → rx = .next s) ∧
    (s.rd (Reg.ETH_LINK_STATE port) = EthSt.up →
      (fails → rx = .next ((u.bump (Reg.ETH_RX_FCS_ERR port)).badFrame (ethPage port) port 0x78 f)) ∧
      (¬ fails → size → rx = .next ((u.bump (Reg.ETH_RX_LEN_ERR port)).badFrame (ethPage port) port 0x7C f)) ∧
      (¬ fails → ¬ size → be16 f 12 = 0x8808 → rx = .next (u.bump (Reg.ETH_RX_PAUSE port))) ∧
      (¬ fails → ¬ size → be16 f 12 ≠ 0x8808 → overflow = true → rx = .next (u.bump (Reg.ETH_RX_OVF port))) ∧
      (¬ fails → ¬ size → be16 f 12 ≠ 0x8808 → overflow = false →
        (s.st (clsPage h) ≠ PS.enabled → rx = .next counted) ∧
        (s.st (clsPage h) = PS.enabled →
          (x.2 = .drop → rx = .next x.1) ∧
          (∀ mark, x.2 = .fw mark → x.1.fwState (fwpKey h 2) ≠ Fw.running → rx = .next (if (x.1.clsOf h).fwq.length < 1024
            then x.1.modClsOf h fun c => { c with fwq := c.fwq ++ [⟨port, mark, f⟩] } else x.1.bump (Reg.CLS_FW_DROP h))) ∧
          -- a running processor has taken some of the frames before it
          (∀ mark, x.2 = .fw mark → x.1.fwState (fwpKey h 2) = Fw.running →
            ∃ v k, rx = .next v ∧ ((v.clsOf h).fwq = ((x.1.clsOf h).fwq.drop k) ++ [⟨port, mark, f⟩] ∨
              ((v.clsOf h).fwq = (x.1.clsOf h).fwq.drop k ∧ 1024 ≤ (v.clsOf h).fwq.length))) ∧
          (∀ mark, x.2 = .sdt mark → p.sdt = true → x.1.serving ⟨.sdt, h⟩ = true →
            rx = .next (x.1.modClsOf h fun c => { c with sdtq := c.sdtq ++ [⟨port, mark, f⟩] })) ∧
          (∀ mark, x.2 = .sdt mark → p.sdt = false →
            rx = .next ((x.1.bump (Reg.CLS_SDT_MISS h)).badFrame (clsPage h) port 0x60 f)) ∧
          (∀ q mark, x.2 = .nic q mark → rx = .next (x.1.nicDeliver h q mark port ts f p desc parity data record)))))) ∧
    (∀ (l q mark : Nat) (v : State), (v.nicqp (qpKey l q) = none →
        v.nicDeliver l q mark port ts f p desc parity data record = v.bump (Reg.NIC_RX_NOQP l)) ∧
      ∀ y, v.nicqp (qpKey l q) = some y →
        (v.qpRuns l y = false ∨ y.rxHead = y.rxTail ∨ y.room = false →
          v.nicDeliver l q mark port ts f p desc parity data record = v.bump (Reg.NIC_RX_NOBUF l)) ∧
        (v.qpRuns l y = true → y.rxHead ≠ y.rxTail → y.room = true →
          ∃ z, (v.nicDeliver l q mark port ts f p desc parity data record).nicqp (qpKey l q) = some z ∧
            z = { y with rxHead := BitVec.ofNat 16 ((y.rxHead.toNat + 1) % 2 ^ y.log2Rx), written := y.written + 1 }))

/-- Queue pairs (R297, R349, R350, R351, R353, R354, R391): NIC_QP_CREATE and NIC_QP_DESTROY make and end one; a doorbell in range moves its
index and a head releases written slots; one out of range stops the queue pair with bit 16, one for none is unsupported; the next send
descriptor is fetched, its frame checked, sealed where an SA says so, summed and offered to its lane, or its record carries the
status; the oldest finished send writes its record.
What of it is the model's choice or reading, and no rule of the spec: log entries 6, 13. -/
def Obligations.QueuePairs : Prop :=
  ∀ (hub : Fin 2) (page : Fin 64) (link : Fin 2) (qp : Fin 4096) (v : BitVec 16) (x : NicQp) (desc data : HostRead)
    (parity : Option (Fin 16)) (host : HostWrite) (e : NicSend) (rest : List NicSend) (s : State),
    let m := s.message hub page
    let l := m.src.link.val
    let q := m.f 0 2
    let k := qpKey link qp
    let tags := (desc ≠ .timeout ∧ data ≠ .timeout) ∨ (s.freeTag link 3).isSome = true
    let set (y : NicQp) : State := s.setNicqp k (some y)
    let stop := (set { x with error := true, status := St.badParam }).err (nicPage link) 16
    (∀ y, s.pf3Slice l (m.f 2 1) = some y → s.subqPart (m.f 36 2) = y.part → m.src.mctp = false → 64 ≤ m.length → q < 4096 →
      m.f 3 5 = 0 → (m.bytesAt 38 26).any (· ≠ 0#8) = false → (m.payload.drop 64).any (· ≠ 0#8) = false → m.f 8 8 % 4096 = 0 →
      m.f 16 8 % 4096 = 0 → m.f 24 8 % 4096 = 0 → m.f 32 1 % 16 ≠ 0 → m.f 32 1 / 16 ≠ 0 → 1 ≤ m.f 33 1 → m.f 33 1 ≤ 16 →
      (m.f 34 2 < 2048 ∨ m.f 34 2 = 0xFFFF) → m.f 36 2 < 16384 →
      let u := s.begun 0x310 hub page
      (s.nicqp (qpKey l q) = none → Serves (.nicQpCreate hub page) 0x310 hub page s
        (((u.setNicqp (qpKey l q) (some { NicQp.reset with
          slice := m.f 2 1, rxBase := BitVec.ofNat 64 (m.f 8 8), txBase := BitVec.ofNat 64 (m.f 16 8)
          cqBase := BitVec.ofNat 64 (m.f 24 8), log2Rx := m.f 32 1 % 16, log2Tx := m.f 32 1 / 16, log2Cq := m.f 33 1
          vector := BitVec.ofNat 16 (m.f 34 2), subq := m.f 36 2 })).countQps l).answer m.src St.ok [])) ∧
      (s.nicqp (qpKey l q) ≠ none → Serves (.nicQpCreate hub page) 0x310 hub page s (u.answer m.src St.stateError []))) ∧
    (m.src.mctp = false → 2 ≤ m.length → q < 4096 → (m.payload.drop 2).any (· ≠ 0#8) = false →
      let u := s.begun 0x311 hub page
      (s.nicqp (qpKey l q) ≠ none → Serves (.nicQpDestroy hub page) 0x311 hub page s
        ((u.endQps l fun e => e.1 = qpKey l q).answer m.src St.ok [])) ∧
      (s.nicqp (qpKey l q) = none → Serves (.nicQpDestroy hub page) 0x311 hub page s (u.answer m.src St.stateError []))) ∧
    -- no frame still queued is a send of a later queue pair of that number
    (s.nicqp (qpKey l q) ≠ none → ∀ f ∈ ((s.endQps l fun e => e.1 = qpKey l q).lanes).flatMap (fun e => e.2.frames), ∀ num, f.owner ≠ .nic (qpKey l q) num) ∧
    (s.endQps l fun e => e.1 = qpKey l q).nicqp (qpKey l q) = none ∧
    (s.fnServes link 3 = true → s.nicqp k = none →
      exec (.nqRxTail link qp v) s = .next (s.unsupported link) ∧ exec (.nqTxTail link qp v) s = .next (s.unsupported link) ∧
      exec (.nqCqHead link qp v) s = .next (s.unsupported link)) ∧
    (∀ y, s.fnServes link 3 = true → s.nicqp k = some x → s.slice x.slice = some y → y.suspended = false →
      exec (.nqRxTail link qp v) s = .next (if v.toNat < 2 ^ x.log2Rx then set { x with rxTail := v } else stop) ∧
      exec (.nqTxTail link qp v) s = .next (if v.toNat < 2 ^ x.log2Tx then set { x with txTail := v } else stop) ∧
      exec (.nqCqHead link qp v) s = .next (if v.toNat < 2 ^ x.log2Cq then
          set { x with
            cqHead := v
            released := min x.written (x.released + (v.toNat + 2 ^ x.log2Cq - x.cqHead.toNat) % 2 ^ x.log2Cq) }
        else stop)) ∧
    (∀ f num, tags → s.nicqp k = some x → x.wait = some (f, num) →
      exec (.nicTxFetch link qp desc data parity) s = .next (s.nicOffer link qp num f)) ∧
    (∀ y, tags → s.nicqp k = some x → x.wait = none → s.qpRuns link x = true → x.txHead ≠ x.txTail → x.room = true → s.slice x.slice = some y →
      let r := s.sliceRead x.slice (x.txBase.toNat + 32 * x.txHead.toNat) 32 desc
      let d := r.2.data
      let len := fieldAt d 8 4
      let flags := fieldAt d 12 1
      let most := r.1.rd (Reg.ETH_CFG_MAX_FRAME (4 * link.val + (r.1.qEntry link x.subq).home)) - 4
      let sent (u : State) (cookie : List (BitVec 8)) (n : Nat) (st : Option (BitVec 8)) : State := u.setNicqp k (some { x with
        fetched := x.fetched + 1, txHead := BitVec.ofNat 16 ((x.txHead.toNat + 1) % 2 ^ x.log2Tx)
        sends := x.sends ++ [{ slot := x.fetched, cookie := cookie, len := n, status := st }] })
      let fetch := exec (.nicTxFetch link qp desc data parity) s
      (r.2.status = St.ok → r.2.poison = true → fetch = .next (sent r.1 (List.replicate 8 0#8) 0 (some St.poisoned))) ∧
      (r.2.status = St.ok → r.2.poison = false → len < 60 ∨ most < len ∨ 4 ≤ flags →
        fetch = .next (sent (r.1.bump (Reg.NIC_TX_BAD link)) (take0 d 16 8) len (some St.badParam))) ∧
      (r.2.status = St.ok → r.2.poison = false → 60 ≤ len → len ≤ most → flags < 4 → fieldAt d 13 3 = 0 → fieldAt d 24 8 = 0 →
        let b := r.1.sliceRead x.slice (fieldAt d 0 8) len data
        let p := parse b.2.data (b.1.rd (Reg.CLS_PARSE_SDT_PORT link)) (b.1.rd (Reg.CLS_PARSE_VXLAN_PORT link))
        let z := b.1.espSeal link qp y.part b.2.data p (flags / 2 % 2 = 1) parity
        let g := if flags % 2 = 1 then fillIp z.2.1 p.pkt else z.2.1
        let g := if flags / 2 % 2 = 1 then fillL4 g p.pkt else g
        b.2.status = St.ok → b.2.poison = false →
        (z.2.2 = St.ok → fetch = .next ((sent z.1 (take0 d 16 8) len none).nicOffer link qp x.fetched (g ++ fcs g))) ∧
        (z.2.2 ≠ St.ok → fetch = .next (sent z.1 (take0 d 16 8) len (some z.2.2))))) ∧
    (∀ st, s.nicqp k = some x → x.sends = e :: rest → e.status = some st → s.qpRuns link x = true → x.room = true →
      exec (.nicTxDone link qp host) s =
        .next ((set { x with sends := rest }).nicRecord link qp (e.cookie ++ leBytes 2 e.len ++ [1#8, st]) host))

/-- Security associations (R434, R436, R439, R440, R441): NIC_SA_ADD gives a number its association, an outbound one in place of its queue
pair's other one, and NIC_SA_DEL takes it away unless an outbound queue pair still stands; a frame with no ESP is left alone; one whose
IV is exhausted is not sent; one that is sealed takes the next IV and carries the tag over its ciphertext; an inbound frame with no
association is counted, and one whose tag differs is not trusted.
What of it is the model's choice or reading, and no rule of the spec: log entries 13, 53. -/
def Obligations.SecurityAssociations : Prop :=
  ∀ (hub : Fin 2) (page : Fin 64) (y : Slice) (a : Sa) (k : KeySlot) (f : List (BitVec 8)) (p : Parsed) (l q n part : Nat) (s : State),
    let m := s.message hub page
    let link := m.src.link.val
    let inbound := decide (m.f 2 1 = 1)
    (s.pf3Slice link (m.f 3 1) = some y → s.keySlotIn y.part (m.f 6 2) = true → m.src.mctp = false → 32 ≤ m.length →
      (m.payload.drop 32).any (· ≠ 0#8) = false →
      m.f 0 2 < 4096 → m.f 2 1 ≤ 1 → m.f 4 2 < 4096 → (m.f 2 1 = 1 → m.f 4 2 = 0) →
      (m.f 2 1 = 0 → (m.bytesAt 16 16).any (· ≠ 0#8) = false) → s.keyUse (m.f 6 2) false = true → s.sa (qpKey link (m.f 0 2)) = none →
      let u := s.begun 0x318 hub page
      let w := if inbound then u else match u.saOut link (m.f 4 2) with
        | some (j, _) => u.setSa j none
        | none => u
      Serves (.nicSaAdd hub page) 0x318 hub page s (((w.setSa (qpKey link (m.f 0 2)) (some
        { inbound := inbound, slice := m.f 3 1, qp := m.f 4 2, keyslot := m.f 6 2, spi := m.bytesAt 8 4, salt := m.bytesAt 12 4
          dip := m.bytesAt 16 16, iv := 0#64 })).countSas link).answer m.src St.ok [])) ∧
    (m.src.mctp = false → 2 ≤ m.length → m.f 0 2 < 4096 → (m.payload.drop 2).any (· ≠ 0#8) = false →
      s.sa (qpKey link (m.f 0 2)) = some a →
      let u := s.begun 0x319 hub page
      (a.inbound = true ∨ s.nicqp (qpKey link a.qp) = none →
        Serves (.nicSaDel hub page) 0x319 hub page s (((u.setSa (qpKey link (m.f 0 2)) none).countSas link).answer m.src St.ok [])) ∧
      (a.inbound = false → s.nicqp (qpKey link a.qp) ≠ none →
        Serves (.nicSaDel hub page) 0x319 hub page s (u.answer m.src St.stateError []))) ∧
    (s.saOut l q = some (n, a) → p.pkt.proto ≠ 50 ∨ p.pkt.level = 0 ∨ p.frag = true →
      s.espSeal l q part f p false none = (s, f, St.ok)) ∧
    (s.saOut l q = some (n, a) → p.pkt.proto = 50 → p.pkt.level ≠ 0 → p.frag = false → take0 f p.pkt.l4 4 = a.spi →
      (a.iv = 0xFFFFFFFFFFFFFFFF#64 → s.espSeal l q part f p false none = (s, f, St.noResource)) ∧
      (a.iv ≠ 0xFFFFFFFFFFFFFFFF#64 → s.key a.keyslot = some k →
        let o := p.pkt.l4
        let len := f.length - (o + 32)
        let iv := beBytes 8 a.iv.toNat
        let ct := (Config.cipher k.alg.toNat true k.key (a.salt ++ iv) (take0 f o 8) (take0 f (o + 16) len)).take len
        let z := s.espSeal l q part f p false none
        z.2.2 = St.ok ∧ z.1.sa n = some { a with iv := a.iv + 1 } ∧ (∀ j, j ≠ n → z.1.sa j = s.sa j) ∧ z.1.mem = s.mem ∧
        z.2.1 = setAt (setAt (setAt f (o + 8) iv) (o + 16) ct) (f.length - 16)
          ((Config.cipherTag k.alg.toNat k.key (a.salt ++ iv) (take0 f o 8) ct).take 16))) ∧
    (∀ slice, p.pkt.proto = 50 → p.pkt.level ≠ 0 → p.frag = false → p.tunnel = false →
      (s.saIn l slice (take0 f p.pkt.l4 4) p.pkt.dip = none →
        s.espOpen l slice part f p none = (s.bump (Reg.CPH_ESP_NOSA l), f, St.notPermitted, false)) ∧
      (s.saIn l slice (take0 f p.pkt.l4 4) p.pkt.dip = some a → s.key a.keyslot = some k → p.pkt.l4 + 32 ≤ p.pkt.stop →
        let n := p.pkt.stop - (p.pkt.l4 + 32)
        let good := Config.cipherTag k.alg.toNat k.key (a.salt ++ take0 f (p.pkt.l4 + 8) 8) (take0 f p.pkt.l4 8)
          (take0 f (p.pkt.l4 + 16) n) = take0 f (p.pkt.l4 + 16 + n) 16
        (s.espOpen l slice part f p none).2.2 = (if good then St.ok else St.doNotTrust, false)))

/-- Egress scheduling and the cipher pipes (R320, R387, R390, R391, R393, R395, R397, R399, R428, R429, R435): a frame that is not
refused joins the end of its lane when queue and port have room, and waits with its sender when they have not; at a moment when a port
can send, the picked lane's first frame leaves, and lane, node and port pay for its bytes; COMMIT applies a shadow at the cycle's
boundary, or refuses it; the lowest idle pipe takes the next waiting operation of the class whose turn it is, and a pipe with two
parity errors is taken out.
What of it is the model's choice or reading, and no rule of the spec: log entries 3, 11, 76, 97, 100, 103. -/
def Obligations.EgressAndPipes : Prop :=
  ∀ (hub : Fin 2) (queue : Nat) (lport : Fin 4) (part : Fin 12) (frame : List (BitVec 8)) (port : Fin 8) (now ts : Nat)
    (nc lc : Child) (pipe : Fin 16) (op : PipeOp) (s : State),
    let h := port.val / 4
    let k := port.val % 4
    let f : Frame := { bytes := frame, owner := .other, part := part }
    let lk := laneKey queue (4 * hub.val + lport.val)
    let held := (s.lane lk).frames.foldl (fun n f => n + f.bytes.length) 0
    let full := (s.qEntry hub queue).buf * 4096 ≤ held ∨ 4 * 2 ^ 20 < s.bufferUsed (4 * hub.val + lport.val) + frame.length
    (s.st (tshPage hub) = PS.enabled → s.refuses hub queue lport part = false →
      (full → exec (.egressEnqueue hub queue (some lport) (some part) frame) s = .next s) ∧
      (¬ full → ∃ t, exec (.egressEnqueue hub queue (some lport) (some part) frame) s = .next t ∧
        (t.lane lk).frames = (s.lane lk).frames ++ [f] ∧ (∀ j, j ≠ lk → t.lane j = s.lane j) ∧
        ((s.lane lk).frames = [] → (t.lane lk).node = (s.qEntry hub queue).node) ∧ t = { s with lanes := t.lanes, nodes := t.nodes })) ∧
    (s.st (tshPage hub) = PS.enabled → s.refuses hub queue lport part = true →
      exec (.egressEnqueue hub queue (some lport) (some part) frame) s =
        .next (((s.bump (Reg.TSH_REFUSED hub)).err (tshPage hub) 18 Sev.corrected part).bucket (tshPage hub))) ∧
    (let u := (((s.hubNow h now).portNow port ts).moveLanes port).freshPort port now
     s.rd (Reg.ETH_LINK_STATE port) = 3 → s.serving (tshPage h) = true → (s.port port).busy ≤ ts →
     u.rd (Reg.TSH_PORT_PIR h k) = 0 ∨ 0 < (u.port port).bk.pLevel →
     pickChild (u.nodeChildren port ts) = some nc → u.nodeLane port ts nc.idx = some lc →
     let l := laneKey lc.idx port
     let n := nodeKey port nc.idx
     let sent := (u.lane l).frames.headD Frame.reset
     let d : Int := (((lc.len + 20) * 65536 : Nat) : Int)
     -- telemetry frames that waited for room are offered again behind it
     ∃ t : State, exec (.egressSelect port now ts) s = .next (t.offerHeld h) ∧ t.outs = .frame port sent.bytes :: s.outs ∧
       t.lane l = { u.lane l with
         frames := (u.lane l).frames.drop 1, s := lc.fin, bk := (u.lane l).bk.debit d } ∧
       t.node n = { u.node n with
         v := (u.lane l).s, s := nc.fin, bk := (u.node n).bk.debit d } ∧
       t.port port = { u.port port with
         v := (u.node n).s, bk := (u.port port).bk.debit d, busy := ts + u.wireClocks port lc.len } ∧
       (∀ j, j ≠ l → t.lane j = u.lane j) ∧ t.mem = s.mem) ∧
    -- a level falls below zero by no more than one frame
    (∀ (b : Buckets) (d : Int), 0 ≤ d → -d ≤ (b.debit d).cLevel ∨ (b.debit d).cLevel = b.cLevel) ∧
    (s.st (tshPage h) ≠ PS.off → s.pageGone (tshPage h) (0x10C + 0x80 * k) = false →
      ((s.port port).gclLen ≠ 0 →
        ∃ t, exec (.tshCommitGcl port) s = .next t ∧ t.on (Reg.TSH_COMMIT_GCL h k) = true ∧ t = { s with regs := t.regs }) ∧
      ((s.port port).wmap ≠ none →
        ∃ t, exec (.tshCommitWmap port) s = .next t ∧ t.on (Reg.TSH_COMMIT_WMAP h k) = true ∧ t = { s with regs := t.regs }) ∧
      -- with nothing in force it is applied at once
      ((s.port port).gclLen = 0 → gclBad (s.rd (Reg.TSH_GCL_LEN h k)) (s.shadowGcl h k (s.rd (Reg.TSH_GCL_LEN h k))) = false →
        ∃ t, exec (.tshCommitGcl port) s = .next t ∧ t.on (Reg.TSH_COMMIT_GCL h k) = false ∧
          (t.port port).gclLen = s.rd (Reg.TSH_GCL_LEN h k)) ∧
      ((s.port port).wmap = none → ∃ t, exec (.tshCommitWmap port) s = .next t ∧ t.on (Reg.TSH_COMMIT_WMAP h k) = false ∧
        ∀ w < 64, (t.port port).window w = natBits (s.reg (Reg.TSH_WMAP h k (w / 8)).addr).toNat (4 * (w % 8)) 4)) ∧
    (let len := s.rd (Reg.TSH_GCL_LEN h k)
     let es := s.shadowGcl h k len
     s.on (Reg.TSH_COMMIT_GCL h k) = true → (s.port port).gclLen = 0 →
     (gclBad len es = false → ∃ t, exec (.shadowApply port true ts) s = .next t ∧ t.on (Reg.TSH_COMMIT_GCL h k) = false ∧
       (t.port port).gclLen = len ∧ (t.port port).gclBase = s.rd64 (Reg.TSH_GCL_BASE_LO h k) ∧
       ∀ i < len, (t.port port).getGclDur i = s.rd (Reg.TSH_GCL_DURATION h k i) ∧
         (t.port port).getGclOpen i =
           BitVec.ofNat 64 (s.rd (Reg.TSH_GCL_OPEN_LO h k i) + s.rd (Reg.TSH_GCL_OPEN_HI h k i) * 2 ^ 32)) ∧
     (gclBad len es = true → exec (.shadowApply port true ts) s =
       .next (((s.portNow port ts).wr (Reg.TSH_COMMIT_GCL h k) 0).blockErr (tshPage h) 1))) ∧
    (s.on (Reg.TSH_COMMIT_WMAP h k) = true → (s.port port).wmap = none ∨ ts % 128000 = 0 →
      ∃ t, exec (.shadowApply port false ts) s = .next t ∧ t.on (Reg.TSH_COMMIT_WMAP h k) = false ∧
        ∀ w < 64, (t.port port).window w = natBits (s.reg (Reg.TSH_WMAP h k (w / 8)).addr).toNat (4 * (w % 8)) 4) ∧
    (∀ turn, s.serving (cphPage hub) = true → s.idlePipe hub now = some pipe.val →
      let c := s.cphOf hub
      let next (cls : Nat) := c.ops.find? fun o => o.cls = cls && s.pipeOpen hub now o
      ((List.range 4).map fun i => (c.turn + 1 + i) % 4).find? (fun i => (next i).isSome) = some turn → next turn = some op →
      ∃ t, exec (.cipherPipeOp hub now) s = .next t ∧ (t.cphOf hub).ops = c.ops.erase op ∧ (t.cphOf hub).turn = turn ∧
        (t.cphOf hub).getBusy pipe = now + op.clocks ∧ (∀ i, i ≠ pipe.val → (t.cphOf hub).getBusy i = c.getBusy i) ∧ op ∈ c.ops) ∧
    ((s.serving (cphPage hub) = false ∨ s.idlePipe hub now = none) → exec (.cipherPipeOp hub now) s = .next s) ∧
    (let ok := Reg.CPH_PIPE_OK hub
     (s.cphOf hub).parityTwice pipe = true → natBits (s.rd ok) pipe 1 = 1 → (s.reg ((cphPage hub).base + 0x1C)).getLsbD 18 = false →
     ∃ t, exec (.pipeLost hub pipe) s = .next t ∧ t.rd ok = s.rd ok - 2 ^ pipe.val ∧
       (t.reg ((cphPage hub).base + 0x18)).getLsbD 18 = true) ∧
    ((s.cphOf hub).parityTwice pipe = false → exec (.pipeLost hub pipe) s = .next s)

/-- SDT connections and their send rings (R357, R358, R359, R360, R365, R366, R368, R371, R380, R381, R382, R384): SDT_CONN_OPEN opens a
closed connection of a partition's range and SDT_CONN_CLOSE fails an open one and closes it, which ends with its records; a space key
is granted with a fresh tag and revoked; an entry that SUBMIT covers is taken, takes an MSN or its status, or waits at its beacon; the
oldest entry with an outcome gets its record, DONE and CREDIT.
What of it is the model's choice or reading, and no rule of the spec: log entries 53, 79, 94. -/
def Obligations.SdtConnections : Prop :=
  ∀ (hub : Fin 2) (page : Fin 64) (conn : Fin 65536) (path : Fin 256) (e : SMsg) (rest : List SMsg) (st : BitVec 8) (x : Slice)
    (bid : Nat) (v : BitVec 32) (s : State),
    let m := s.message hub page
    let c := s.conn conn
    let n := m.f 0 2
    let p := s.connPart n
    let h := s.partHub p
    let flags := m.f 8 1
    let sq := m.f 40 4
    let rq := m.f 44 4
    let id (i : Nat) : Nat := m.f (48 + 2 * i) 2
    let next (t : State) (i : Instr) : Prop := exec i s = .next t
    let out (f : SMsg → SMsg) (y : SMsg) : SMsg := if y.slot = e.slot then f y else y
    (let u := s.begun 0x410 hub page
     p ≠ 15 → s.absentPage (sdtPage h) = false → m.onLink h = true → s.keySlotIn p (m.f 10 2) = true → s.subqPart (m.f 14 2) = p →
     (∀ i < 5, s.beaconOfPart p (id i) = true) → 64 ≤ m.length → (m.payload.drop 64).any (· ≠ 0#8) = false →
     flags < 8 → (m.bytesAt 58 6).any (· ≠ 0#8) = false → (flags / 4 % 2 = 0 → m.f 12 2 = 0) →
     (flags / 2 % 2 = 0 → (m.bytesAt 20 12).any (· ≠ 0#8) = false) → m.f 38 2 ≠ 0 → sq < 2 ^ 24 → rq < 2 ^ 24 →
     natBits sq 20 4 ≤ 12 → natBits rq 20 4 ≤ 12 → s.sramHeld h p (sq % 2 ^ 20 * 64) (2 ^ natBits sq 20 4 * 96) = true →
     s.sramHeld h p (rq % 2 ^ 20 * 64) (2 ^ natBits rq 20 4 * 32) = true →
     (∀ k < 4, 4222 ≤ s.rd (Reg.ETH_CFG_MAX_FRAME (4 * h + k))) → s.keyUse (m.f 10 2) false = true →
     (s.conn n).state = .closed → (s.part p).state = .active →
     (∀ y ∈ s.conns, y.2.state = .opened → y.2.keyslot ≠ m.f 10 2) →
     ∃ t : State, Serves (.sdtConnOpen hub page) 0x410 hub page s (t.answer m.src St.ok []) ∧ (t.conn n).state = .opened ∧
       (t.conn n).part = p ∧ (t.conn n).keyslot = m.f 10 2 ∧ (t.conn n).npath = m.f 9 1 + 1 ∧ (t.conn n).subq = m.f 14 2 ∧
       (t.conn n).gen = BitVec.ofNat 16 (m.f 2 2) ∧ (t.conn n).msgs = [] ∧ (t.conn n).taken = 0 ∧
       (∀ i ≤ m.f 9 1, ((t.conn n).getPaths i).cwnd = max 1 (s.rd (Reg.SDT_CC_INIT h)) * 4096) ∧
       (∀ j, j ≠ n → t.conn j = s.conn j) ∧ t = { u with conns := t.conns, regs := t.regs }) ∧
    (p ≠ 15 → m.onLink h = true → 2 ≤ m.length → (m.payload.drop 2).any (· ≠ 0#8) = false →
      let u := s.begun 0x411 hub page
      ((s.conn n).state = .opened ∨ (s.conn n).state = .failed →
        Serves (.sdtConnClose hub page) 0x411 hub page s
          ((u.connFail n St.stateError true).modConn n fun c => { c with state := .closing, src := some m.src })) ∧
      ((s.conn n).state = .closed → Serves (.sdtConnClose hub page) 0x411 hub page s (u.answer m.src St.stateError []))) ∧
    (let settled := c.ctl = [] ∧ c.msgs = [] ∧ s.sdtPosted c = false ∧ (c.rmsgs = [] ∨ s.sdtCredit c = false)
     (c.state = .closing → settled ∨ s.serving (sdtPage c.hub) = false →
       ∃ t, next t (.sdtCloseDone conn) ∧ t.conn conn = Conn.reset ∧ (∀ j, j ≠ conn.val → t.conn j = s.conn j) ∧ t.mem = s.mem ∧
         t.outs = s.outs ∧ ∀ src, c.src = some src →
           let k := src.hub.val * 64 + src.page.val
           (s.mbx k).order = src.order → s.on (Reg.MBX_STAT_BUSY k) = true → (t.mbx k).reply = some (St.ok, [])) ∧
     (c.state ≠ .closing ∨ (¬ settled ∧ s.serving (sdtPage c.hub) = true) → next s (.sdtCloseDone conn))) ∧
    (let u := s.begun 0x418 hub page
     m.src.mctp = false → 16 ≤ m.length → (m.payload.drop 16).any (· ≠ 0#8) = false → (m.bytesAt 5 11).any (· ≠ 0#8) = false →
     n < 4096 → m.f 2 1 < 12 → (s.part (m.f 2 1)).state = .active → m.onLink (s.partHub (m.f 2 1)) = true →
     (m.f 3 1 = 0 ∧ m.f 4 1 = 0 ∨ m.f 3 1 = 1 ∧ s.slice (m.f 4 1) = some x ∧ x.part = m.f 2 1 ∧ x.func = 1 ∧ x.dying = none) →
     s.grantedKey n = none →
     Serves (.sdtKeyGrant hub page) 0x418 hub page s ((u.draw.setSkey n (some
       { granted := true, tag := u.drawTag 0#16, part := m.f 2 1, host := decide (m.f 3 1 = 1), slice := m.f 4 1 })).answer m.src St.ok
         (leBytes 4 (n * 65536 + (u.drawTag 0#16).toNat))) ∧
     u.drawTag 0#16 ≠ 0#16) ∧
    (let u := s.begun 0x419 hub page
     m.src.mctp = false → 2 ≤ m.length → (m.payload.drop 2).any (· ≠ 0#8) = false → n < 4096 →
     (∀ y, s.grantedKey n = some y →
       (m.onLink (s.partHub y.part) = true →
         Serves (.sdtKeyRevoke hub page) 0x419 hub page s ((u.revokeKey n).answer m.src St.ok [])) ∧
       (m.onLink (s.partHub y.part) = false →
         Serves (.sdtKeyRevoke hub page) 0x419 hub page s (u.answer m.src St.notPermitted [])) ∧
       (u.revokeKey n).grantedKey n = none ∧ (∀ j, j ≠ n → (u.revokeKey n).skey j = s.skey j) ∧
       ∀ z, (u.revokeKey n).skey n = some z → z.tag ≠ y.tag ∧ z.tag ≠ 0#16) ∧
     (s.grantedKey n = none → Serves (.sdtKeyRevoke hub page) 0x419 hub page s (u.answer m.src St.stateError []))) ∧
    (∃ t, next t (.sdtBaseReset conn path) ∧ (t.conn conn).getPaths path = { c.getPaths path with base := none } ∧
      (∀ q, q ≠ path.val → (t.conn conn).getPaths q = c.getPaths q) ∧ t = { s with conns := t.conns }) ∧
    -- an entry is learnt by watch
    (let w := s.learn (c.submitWatch conn)
     let r := w.state.readMem c.req (sramBase + c.hub * 2 ^ 26 + c.sqBase * 64 + 64 * (c.taken % 2 ^ c.log2Sq)) 64
     let b := r.2.data
     let took (y : SMsg) := next (r.1.setConn conn { c with taken := c.taken + 1, msgs := c.msgs ++ [y] }) (.sdtEntryTake conn)
     let entry : SMsg := { SMsg.reset with
       slot := c.taken, op := BitVec.ofNat 8 (fieldAt b 0 1), sent := decide (fieldAt b 1 1 % 2 = 1), len := fieldAt b 4 4
       laddr := BitVec.ofNat 64 (fieldAt b 8 8), key := BitVec.ofNat 32 (fieldAt b 16 4)
       raddr := BitVec.ofNat 64 (fieldAt b 24 8), tag := (b.drop 32).take 8, begun := false, status := none }
     c.state = .opened → s.serving (sdtPage c.hub) = true → c.halted = false → c.waiting = none →
     (∀ y ∈ c.msgs, y.begun = true) → (w.fired = false → next w.state (.sdtEntryTake conn)) ∧
     (w.fired = true → b.length = 64 → (s.part c.part).state ≠ .active → took { entry with begun := true, status := some St.stateError }) ∧
     (w.fired = true → b.length = 64 → (s.part c.part).state = .active → r.2.status = St.ok →
     (r.2.poison = true → took { entry with begun := true, status := some St.poisoned }) ∧
     (r.2.poison = false → entryBad b = true → took { entry with begun := true, status := some St.badParam }) ∧
     (r.2.poison = false → entryBad b = false → took entry))) ∧
    (let k := s.sourceStatus c.req e.laddr.toNat e.len
     c.fresh 1#8 = some e → (k ≠ St.ok → next (s.setConn conn { c with
       msgs := c.msgs.map (out fun y => { y with begun := true, status := some k }) }) (.sdtWrite conn)) ∧
     (k = St.ok → next (s.takeMsn conn e) (.sdtWrite conn))) ∧
    (c.fresh 2#8 = some e → next (s.takeMsn conn e) (.sdtFlush conn)) ∧
    (2048 ≤ c.unfinished ∨ 131072 ≤ s.sdtContexts c.hub → s.takeMsn conn e = s) ∧
    (c.unfinished < 2048 → s.sdtContexts c.hub < 131072 → 2 ^ 32 ≤ c.msn → s.takeMsn conn e = s.setConn conn { c with
      msgs := c.msgs.map (out fun y => { y with begun := true, status := some St.noResource }) }) ∧
    (c.unfinished < 2048 → s.sdtContexts c.hub < 131072 → c.msn < 2 ^ 32 → ∃ t, s.takeMsn conn e = t ∧ (t.conn conn).msn = c.msn + 1 ∧
      (t.conn conn).msgs = c.msgs.map (out fun y => { y with begun := true, msn := some (BitVec.ofNat 32 c.msn) })) ∧
    (c.waiting = none → c.fresh 3#8 = some e → s.beaconOfPart c.part e.laddr.toNat = false →
      next (s.setConn conn { c with
        msgs := c.msgs.map (out fun y => { y with begun := true, status := some St.notPermitted }) }) (.sdtWait conn)) ∧
    (c.waiting = none → c.fresh 3#8 = some e → s.beaconOfPart c.part e.laddr.toNat = true →
      ∃ t, next t (.sdtWait conn) ∧ (t.conn conn).waiting = some (e.laddr.toNat, BitVec.ofNat 32 e.len) ∧
        (t.conn conn).msgs = c.msgs.map (out fun y => { y with begun := true })) ∧
    (c.waiting = some (bid, v) →
      (s.waitAnswer c conn bid v = some 0 → ∃ t, next t (.sdtWaitFired conn) ∧ (t.conn conn).waiting = none ∧
        (t.conn conn).msgs = c.msgs.map (fun y => if y.op = 3#8 && y.begun && y.status.isNone then { y with status := some St.ok } else y) ∧
        (t.conn conn).halted = c.halted ∧ t = { s with conns := t.conns, answers := t.answers }) ∧
      (s.waitAnswer c conn bid v = some 3 → ∃ t, next t (.sdtWaitFired conn) ∧ (t.conn conn).waiting = none ∧
        (t.conn conn).msgs =
          c.msgs.map (fun y => if y.op = 3#8 && y.begun && y.status.isNone then { y with status := some St.unitAbsent } else y) ∧
        (t.conn conn).halted = true ∧ t = { s with conns := t.conns, answers := t.answers }) ∧
      (s.waitAnswer c conn bid v = none → next s (.sdtWaitFired conn))) ∧
    (c.msgs = e :: rest → e.status = some st → s.serving (sdtPage c.hub) = true →
      let a := sramBase + c.hub * 2 ^ 26 + c.sqBase * 64 + 64 * 2 ^ c.log2Sq + 32 * (e.slot % 2 ^ c.log2Sq)
      let w := (s.writeMem c.req a (e.tag ++ [st, e.op, 0#8, 0#8] ++ leBytes 4 (match e.msn with
        | some x => x.toNat
        | none => 0xFFFFFFFF) ++ List.replicate 16 0#8) false).1
      let t := (((w.modConn conn fun c => { c with msgs := rest, recorded := c.recorded + 1 }).sigHub c.hub .sdt c.bDone.toNat
        1#32).sigHub c.hub .sdt c.bCredit.toNat 1#32).sdtCount c.hub
      t.holdHit = [] → next t (.sdtSendRecord conn))

/-- SDT packets (R364, R369, R370, R371, R372, R373, R374, R375, R377, R378, R380, R383): the next packet that fits a path's window
goes to its lane, marked sent; one that a timeout finds unanswered is sent again or fails its connection; a DATA packet is placed, its
bit set and answered, a duplicate is answered again, one with another generation or a bad header is counted; an ACK ends its packet and
updates its path, or its message; a NACK ends its message, a CLOSE its connection; the next message in order is delivered.
What of it is the model's choice or reading, and no rule of the spec: log entries 6, 13, 78, 104. -/
def Obligations.SdtPackets : Prop :=
  ∀ (hub : Fin 2) (conn : Fin 65536) (now : Nat) (slice : Fin 256) (host : HostRead) (write : HostWrite) (r : Rx) (e : SMsg) (i : Nat)
    (path left : Nat) (pk : SPkt) (rm : RMsg) (s : State),
    let c := s.conn conn
    let h := c.hub
    let front := s.sdtFront hub = some r ∧ s.serving (sdtPage hub) = true ∧ s.cipherUp hub = true
    let popped := (s.sdtPop hub).hubNow hub now
    let n := r.hdr.conn
    let d := s.conn n
    let mine := r.ver = 1 ∧ r.hdr.flags < 16 ∧ d.state = .opened ∧ d.hub = hub.val ∧ r.hdr.gen = d.gen.toNat
    let heard := mine ∧ r.body.length = 16
    let dropped (u : State) : State := ((u.tagFail hub).bump (Reg.SDT_AUTH_DROP hub)).sdtPeer hub r 0x58
    let x := r.hdr
    let msn := BitVec.ofNat 32 x.msn
    let k := x.offset / 4096
    let rx (t : State) : Prop := exec (.sdtDataRx hub now none write) s = .next t
    let fits := x.offset % 4096 = 0 ∧ x.offset < x.mlen ∧ x.mlen ≤ 2 ^ 24
    let ack : SHdr := { SHdr.zero with
      typ := PT.ack, epath := r.path, msn := x.msn, offset := x.offset, mlen := x.mlen, key := x.key, raddr := x.raddr, ts := x.ts
      flags := if r.ce then 4 else 0 }
    (c.state = .opened → c.ctl = [] → s.serving (sdtPage h) = true → s.cipherUp h = true →
      s.mayServe h Engine.sdt.num c.part now 1 (s.sdtWaits h) = true →
      s.nextPath c = some (path, left) → s.pathPacket c path = some (e, i) →
      (host ≠ .timeout ∨ ∀ y, s.slice slice = some y → (s.freeTag (s.partHub y.part) y.func).isSome = true) →
      let hold (y : SMsg) : SMsg := if y.slot = e.slot
        then y.putPacket { y.packet i (e.size i) with path := path, lost := false, held := true } else y
      (s.pathFull c path (e.size i) = true → ∃ t, exec (.sdtPacketTx conn now slice host none) s = .next t ∧
        (t.conn conn).rrPath = path ∧ (t.conn conn).rrLeft = left ∧ (t.conn conn).msgs = c.msgs.map hold ∧ t.outs = s.outs ∧
        t.lanes = s.lanes) ∧
      (let u := s.served h Engine.sdt.num c.part now
      let src : State × LineSrc :=
        if e.size i = 0 then (u, ⟨[], false, St.ok⟩) else u.lineRead c.req (e.laddr.toNat + 4096 * i) (e.size i) slice host
      s.pathFull c path (e.size i) = false → src.2.status = St.ok → e.pkts.any (·.index = i) = false →
      let hdr : SHdr := { SHdr.zero with
        typ := if e.op = 2#8 then PT.flush else PT.data, flags := (if e.sent then 1 else 0) + (if src.2.poison then 8 else 0)
        conn := c.peerConn.toNat, gen := c.peerGen.toNat, msn := (e.msn.getD 0#32).toNat, offset := 4096 * i
        mlen := if e.op = 2#8 then 0 else e.len, key := e.key.toNat, raddr := e.raddr.toNat, ts := now % 2 ^ 32 }
      let w := src.1.pipeOp h Cls.sdtTx c.part c.keyslot (e.size i)
      let o := w.offer h c.subq (path % 4) { bytes := w.sdtFrame c path hdr src.2.data, owner := .sdt conn, part := c.part }
      (o.2 ≠ .refused → ∃ t, exec (.sdtPacketTx conn now slice host none) s = .next t ∧ t.lanes = o.1.lanes ∧
        (t.conn conn).rrPath = path ∧ (t.conn conn).rrLeft = left ∧ (t.conn conn).orderCtr = c.orderCtr + 1 ∧
        (t.conn conn).msgs = c.msgs.map (fun y =>
          if y.slot = e.slot then y.sentPkt i path (BitVec.ofNat 32 now) c.orderCtr (e.size i) false else y)) ∧
      -- a refused packet is a lost one
      (o.2 = .refused → ∃ t : State, exec (.sdtPacketTx conn now slice host none) s = .next (t.sdtGiveUp conn) ∧
        (t.conn conn).msgs = c.msgs.map (fun y =>
          if y.slot = e.slot then y.sentPkt i path (BitVec.ofNat 32 now) c.orderCtr (e.size i) true else y)))) ∧
    (c.state = .opened → c.msgs.find? (fun y => y.msn = some msn && y.status.isNone) = some e →
      e.pkts.find? (·.index = i) = some pk → pk.lost = false → pk.held = false → pk.acked = false →
      let age := (now + 2 ^ 32 - pk.ts.toNat) % 2 ^ 32
      let rto := max (max 1 (s.rd (Reg.SDT_TUNE_RTO_MIN h)) * 1250) (2 * (c.getPaths pk.path).srtt)
      let most := max 1 (s.rd (Reg.SDT_TUNE_RETRY_MAX h)) + 1
      (age < rto → exec (.sdtLossTimeout conn msn i now) s = .next s) ∧
      (rto ≤ age → ∃ t : State, exec (.sdtLossTimeout conn msn i now) s = .next (t.sdtGiveUp conn) ∧
        (t.conn conn).msgs = c.msgs.map (fun y => if y.msn = some msn then
          { y with pkts := y.pkts.map fun q => if q.index = i then { q with lost := true, acked := false } else q } else y) ∧
        t = { s with conns := t.conns, clocks := t.clocks } ∧
        (most ≤ pk.sends → t.sdtGiveUp conn = t.connFail conn St.timeout true) ∧
        ((∀ y ∈ t.conns, ∀ z ∈ y.2.msgs, ∀ q ∈ z.pkts, q.sends < most) → t.sdtGiveUp conn = t))) ∧
    (s.holdHit = [] → front → x.typ = PT.data → 16 ≤ r.body.length → r.body.length - 16 = (if fits then min 4096 (x.mlen - x.offset) else 0) →
      (r.ver ≠ 1 → rx (popped.sdtBadHdr hub r)) ∧
      (r.ver = 1 → x.flags < 16 → d.state ≠ .opened → rx (popped.sdtNoConn hub r)) ∧
      (mine → (msn - d.d).toNat < 2048 → fits →
        (∀ y, d.rmsgs.find? (·.msn = msn) = some y → y.mlen = x.mlen → y.flush = false → y.status = St.ok → y.getBits k = true →
          rx ((popped.bump (Reg.SDT_DUP hub)).sdtAnswer n r.path ack)) ∧
        (d.rmsgs.find? (·.msn = msn) = none → popped.sdtContexts hub < 131072 →
          let u := popped.pipeOp hub Cls.sdtRx d.part d.keyslot (r.body.length - 16)
          let plain := match u.key d.keyslot with
            | some y => (Config.cipher y.alg.toNat false y.key (x.nonce (!d.role)) (x.bytes.take 36)
                (r.body.take (r.body.length - 16))).take (r.body.length - 16)
            | none => []
          let w := u.place d x plain (8 ≤ x.flags) write
          let m : RMsg := { RMsg.reset with
            msn := msn, mlen := x.mlen, flush := false, sent := x.flags % 2 = 1, key := BitVec.ofNat 32 x.key
            raddr := BitVec.ofNat 64 x.raddr, hostSlice := u.hostSliceOf d x }
          let t := ((w.1.putRmsg n (m.setBits k true)).sdtCount hub).sdtAnswer n r.path ack
          -- a write that is refused fails its message
          let nack := ((((if w.2 = St.notPermitted then w.1.sdtPeer hub r 0x18 else w.1).putRmsg n { m with status := w.2 }).sdtCount
            hub).sdtAnswer n r.path { ack with typ := PT.nack, status := w.2, ts := 0, flags := 0 })
          let bad (v : State) := ((((v.tagFail hub).err (sdtPage hub) 16 Sev.contained d.part).bucket (sdtPage hub)).sdtPeer hub r
            0x18).connFail n St.doNotTrust true
          (w.2 = St.ok → t.holdHit = [] → (bad t).holdHit = [] → rx (if u.sdtTagOk d r then t else bad t)) ∧
          (w.2 ≠ St.ok → nack.holdHit = [] → (bad nack).holdHit = [] → rx (if u.sdtTagOk d r then nack else bad nack))))) ∧
    (let u := popped.pipeOp hub Cls.sdtRx d.part d.keyslot 0
     let own (i : Instr) (t : State) : Prop := exec i s = .next (if u.sdtTagOk d r then t else dropped u)
     front → heard →
     (x.typ = PT.ack → x.flags / 2 % 2 = 0 → d.flying msn k = true →
       let rtt := (now + 2 ^ 32 - x.ts) % 2 ^ 32
       let a := (d.answered msn k).setPaths x.epath ((d.getPaths x.epath).ack rtt now d.tdelay (s.rd (Reg.SDT_CC_BETA hub))
         (x.flags / 4 % 2 = 1))
       ∃ t : State, own (.sdtAckRx hub now) (t.sdtGiveUp n) ∧
         t.conn n = { a with
           msgs := a.msgs.map fun y =>
             if y.msn = some msn ∧ y.sent = true ∧ y.op = 1#8 ∧ y.nextPkt = y.packets ∧ y.pkts.all (fun z => z.acked) = true
             then { y with status := some St.ok } else y } ∧
         t = { u with conns := t.conns }) ∧
     (x.typ = PT.ack → x.flags / 2 % 2 = 0 → d.flying msn k = false → own (.sdtAckRx hub now) (u.sdtNotFlying hub r)) ∧
     (x.typ = PT.ack → x.flags / 2 % 2 = 1 → d.msgs.any (fun y => y.msn = some msn && y.status.isNone) = true →
       own (.sdtAckRx hub now) (u.modMsg n (fun y => y.msn = some msn) fun y => { y with status := some St.ok })) ∧
     (x.typ = PT.nack → d.wasSent msn k = false → own (.sdtNackRx hub now) (u.sdtNotFlying hub r)) ∧
     (x.typ = PT.nack → d.wasSent msn k = true →
       (x.status = St.stale → own (.sdtNackRx hub now) ((u.connFail n St.stale true).sdtCount hub)) ∧
       (x.status ≠ St.stale → own (.sdtNackRx hub now) (((u.modConn n (·.answered msn k)).modMsg n
         (fun y => y.msn = some msn && y.status.isNone) fun y => { y with status := some x.status }).sdtGiveUp n)))) ∧
    (let u := (s.sdtPop hub).pipeOp hub Cls.sdtRx d.part d.keyslot 0
     front → heard → x.typ = PT.close → exec (.sdtCloseRx hub) s = .next (if u.sdtTagOk d r
       then u.connFail n (if x.status = St.ok then St.unitAbsent else x.status) false else dropped u)) ∧
    (c.state = .opened → c.rmsgs.find? (fun y => y.msn = c.d && (y.complete || y.status ≠ St.ok)) = some rm →
      s.serving (sdtPage h) = true → s.sdtCredit c = true → rm.flush = false →
      (host ≠ .timeout ∨ ∀ y, s.slice ((c.hostSent.map (·.2)).getD 256) = some y → (s.freeTag (s.partHub y.part) y.func).isSome = true) →
      let toHost := if rm.sent = true ∧ rm.status = St.ok ∧ 0 < rm.mlen
        then rm.hostSlice.map fun k => (rm.raddr.toNat + rm.mlen - 1, k) else none
      let a := sramBase + h * 2 ^ 26 + c.rqBase * 64 + 32 * (c.delivered % 2 ^ c.log2Rq)
      let record := leBytes 4 rm.msn.toNat ++ leBytes 4 rm.mlen ++ [rm.status, BitVec.ofNat 8 (if rm.sent then 1 else 0), 0#8, 0#8] ++
        leBytes 4 rm.key.toNat ++ leBytes 6 rm.raddr.toNat ++ List.replicate 10 0#8
      let t := (((s.writeMem c.req a record false).1.modConn conn fun c => { c with
        rmsgs := c.rmsgs.filter fun y => y.msn ≠ rm.msn, d := rm.msn + 1, delivered := c.delivered + 1
        hostSent := if toHost.isSome then toHost else c.hostSent }).sigHub h .sdt
          c.bRdone.toNat 1#32).sdtCount h
      let u := t.sdtAnswer conn 0 { SHdr.zero with
        typ := PT.ack, msn := rm.msn.toNat, mlen := rm.mlen, key := rm.key.toNat, raddr := rm.raddr.toNat, flags := 2
        offset := 0xFFFFFFFF }
      (rm.status ≠ St.ok → t.holdHit = [] → exec (.sdtMsgDeliver conn host) s = .next t) ∧
      (rm.status = St.ok → u.holdHit = [] →
        exec (.sdtMsgDeliver conn host) s = .next u))

/-- The NVMe controllers (R402, R404, R405, R406, R407, R415, R418): a doorbell moves the index of a queue that stands and is an error
otherwise; CC.EN makes the admin queues, clearing it removes every queue, CC.SHN ends with the commands in flight; each admin command
takes its entry and posts its completion: queues are created and deleted with the checks of R402, features kept, logs and identities
written, Abort declined, requests for events held up to eight, queue numbers bound to slices with their namespace masks.
What of it is the model's choice or reading, and no rule of the spec: log entries 6, 72, 73, 99. -/
def Obligations.NvmeControllers : Prop :=
  ∀ (link : Fin 2) (c : AdminCmd) (cq : Bool) (qid : Fin 3072) (value : BitVec 16) (word cc aqa : BitVec 32) (asq acq : BitVec 64)
    (read : HostRead) (e : BitVec 32) (events : List (BitVec 32)) (x : Slice) (s : State),
    let l := link.val
    let v := s.nvme l
    let suspended (q : Nat) : Bool := match (s.nvSlice l q).bind s.slice with
      | some y => y.suspended
      | none => false
    let ring (cq : Bool) (q n : Nat) : State :=
      if s.fnServes l nvFn = false then s.notServed l nvFn true
      else if suspended q then s.unsupported l
      else if v.rdy = false then s
      else
        let y := if cq then v.getCqs q else v.getSqs q
        if y.size = 0 then s.badDoorbell l 0
        else if y.size ≤ n then s.badDoorbell l 1
        else if cq then s.setNvme l (v.setCqs q { y with head := n }) else s.setNvme l (v.setSqs q { y with tail := n })
    let admits := s.nvServes l = true ∧ s.adminRuns l = true ∧ s.sqWaits l 0 = true ∧ s.canPost l 0 = true
    let u := s.sqAdvance l 0
    let w := u.nvme l
    let posts (i : Instr) (t : State) (status dw0 : Nat) : Prop :=
      c.flags = 0#8 → admits → exec i s = .next (t.postCqe l 0 c.cid status dw0 c.writes.entry)
    let refused (i : Instr) : Prop :=
      c.flags ≠ 0#8 → admits → exec i s = .next (u.postCqe l 0 c.cid Nv.invalidField 0 c.writes.entry)
    let q := c.d10 0 16
    let size := c.d10 16 16
    let contiguous := c.d11 0 1 = 1
    let fid := c.d10 0 8
    let put (t : State) (d : List (BitVec 8)) (n : Nat) : State := t.toPrps l none c.prps 0 ((d ++ List.replicate (n - d.length) 0#8).take n) false
      c.writes.data
    let ends (t : State) : Nat := t.putEnds l none c.writes.data
    -- a fused command or one with SGLs is refused
    (refused (.createIoSq link c) ∧ refused (.createIoCq link c) ∧ refused (.deleteIoSq link c) ∧ refused (.deleteIoCq link c) ∧
      refused (.getLogPage link c) ∧ refused (.identify link c) ∧ refused (.nvmeAbort link c) ∧ refused (.setFeatures link c) ∧
      refused (.getFeatures link c) ∧ refused (.asynchronousEventRequest link c) ∧ refused (.qpBind link c)) ∧
    exec (.nvmeDoorbell link cq qid value) s = .next (ring cq qid value.toNat) ∧
    exec (.nvcIdb link word) s = .next (ring (word.getLsbD 31) (natBits word.toNat 16 15) (natBits word.toNat 0 16)) ∧
    (s.fnServes l nvFn = true → v.en = false → s.st ⟨.nvc, l⟩ = PS.enabled →
      ∃ t, exec (.nvmeCcEnSet link cc aqa asq acq) s = .next t ∧ (t.nvme l).en = true ∧ (t.nvme l).rdy = true ∧
        ((t.nvme l).getSqs 0).base = asq ∧ ((t.nvme l).getSqs 0).size = natBits aqa.toNat 0 12 + 1 ∧
        ((t.nvme l).getCqs 0).base = acq ∧ ((t.nvme l).getCqs 0).size = natBits aqa.toNat 16 12 + 1 ∧
        ((t.nvme l).getCqs 0).ien = true ∧ (∀ j, 0 < j → (t.nvme l).getSqs j = v.getSqs j) ∧
        (∀ j, j ≠ l → t.nvme j = s.nvme j) ∧ t = { s with nvmes := t.nvmes }) ∧
    (s.fnServes l nvFn = true → ∃ t, exec (.nvmeCcEnClear link) s = .next t ∧ (t.nvme l).en = false ∧ (t.nvme l).rdy = false ∧
      (∀ j, (t.nvme l).getSqs j = NvQ.reset ∧ (t.nvme l).getCqs j = NvQ.reset ∧ (t.nvme l).getBind j = v.getBind j) ∧
      (∀ j, j ≠ l → t.nvme j = s.nvme j) ∧ t = { s with nvmes := t.nvmes, regs := t.regs }) ∧
    (s.fnServes l nvFn = true → v.rdy = true → (∃ y ∈ v.cmds, y.sq < moverSq ∨ y.sq = shutdownSq) →
      ∃ t, exec (.nvmeCcShn link) s = .next t ∧ (t.nvme l).shn = true ∧ (t.nvme l).shst = 1#2 ∧ t = { s with nvmes := t.nvmes }) ∧
    (s.fnServes l nvFn = true → v.rdy = true → (∀ y ∈ v.cmds, moverSq ≤ y.sq ∧ y.sq ≠ shutdownSq) →
      -- with drives behind it, it ends when they have flushed
      ∃ t, exec (.nvmeCcShn link) s = .next t ∧ (if (s.nsOfLink l).flatMap (fun y => y.2.members) = []
        then (t.nvme l).shn = false ∧ (t.nvme l).shst = 2#2 else (t.nvme l).shn = true ∧ (t.nvme l).shst = 1#2)) ∧
    (let sq := Instr.createIoSq link c
     let to_ := c.d11 16 16
     (to_ = 0 ∨ (w.getCqs to_).size = 0 → posts sq u Nv.cqInvalid 0) ∧
     (to_ ≠ 0 → (w.getCqs to_).size ≠ 0 →
       (¬ (1 ≤ q ∧ q ≤ 16384) ∨ (w.getSqs q).size ≠ 0 → posts sq u Nv.qid 0) ∧
       (1 ≤ q → q ≤ 16384 → (w.getSqs q).size = 0 →
         (size = 0 → posts sq u Nv.qsize 0) ∧ (size ≠ 0 → ¬ contiguous → posts sq u Nv.invalidField 0) ∧
         (size ≠ 0 → contiguous → c.prp1.toNat % 4096 ≠ 0 → posts sq u Nv.prpOffset 0) ∧
         (size ≠ 0 → contiguous → c.prp1.toNat % 4096 = 0 → posts sq ((u.setNvme l (w.setSqs q { NvQ.reset with
           base := c.prp1, size := size + 1, cq := to_ })).showSqs l) Nv.ok 0)))) ∧
    (1 ≤ q → q ≤ 16384 → (w.getCqs q).size = 0 → size ≠ 0 → contiguous → c.prp1.toNat % 4096 = 0 →
      (c.d11 1 1 = 1 → 2048 ≤ c.d11 16 16 → posts (.createIoCq link c) u Nv.vector 0) ∧
      (c.d11 1 1 = 0 ∨ c.d11 16 16 < 2048 → posts (.createIoCq link c) (u.setNvme l (w.setCqs q { NvQ.reset with
        base := c.prp1, size := size + 1, vector := BitVec.ofNat 16 (c.d11 16 16), ien := decide (c.d11 1 1 = 1) })) Nv.ok 0)) ∧
    (q ≠ 0 → (w.getSqs q).size ≠ 0 → posts (.deleteIoSq link c)
      (((u.dropSqCmds l q).modNvme l fun y => y.setSqs q NvQ.reset).showSqs l) Nv.ok 0) ∧
    (q = 0 ∨ (w.getSqs q).size = 0 → posts (.deleteIoSq link c) u Nv.qid 0) ∧
    (q ≠ 0 → (w.getCqs q).size ≠ 0 →
      ((∃ y ∈ w.sqs, y.2.size ≠ 0 ∧ y.2.cq = q) → posts (.deleteIoCq link c) u Nv.qDeletion 0) ∧
      ((∀ y ∈ w.sqs, y.2.size = 0 ∨ y.2.cq ≠ q) →
        posts (.deleteIoCq link c) (u.setNvme l (w.setCqs q NvQ.reset)) Nv.ok 0)) ∧
    (let n := (c.d10 16 16 + c.d11 0 16 * 65536 + 1) * 4
     (fid = 4 → posts (.getLogPage link c)
       (put (u.setNvme l { w with changed := [] }) (w.changed.flatMap fun y => leBytes 4 y) n) (ends (u.setNvme l { w with changed := [] })) 0) ∧
     (fid = 2 → c.nsid ≠ 0#32 → c.nsid ≠ 0xFFFFFFFF#32 → posts (.getLogPage link c) u Nv.invalidField 0) ∧
     (fid ≠ 1 → fid ≠ 2 → fid ≠ 4 → posts (.getLogPage link c) u Nv.logPage 0)) ∧
    ((fid = 1 → posts (.identify link c) (put u.draw (u.identifyCtrl l) 4096) (ends u.draw) 0) ∧
      (fid = 0 → c.nsid.toNat = 0 ∨ 1024 < c.nsid.toNat → posts (.identify link c) u Nv.invalidNs 0) ∧
      (fid = 2 → c.nsid.toNat < 0xFFFFFFFE → posts (.identify link c)
        (put u (((u.nsOfLink l).filter fun y => c.nsid.toNat < y.1).flatMap fun y => leBytes 4 y.1) 4096) (ends u) 0) ∧
      (3 < fid → posts (.identify link c) u Nv.invalidField 0)) ∧
    posts (.nvmeAbort link c) u Nv.ok 1 ∧
    ((fid = 8 ∨ fid = 9 ∨ fid = 11 → posts (.setFeatures link c) (u.modNvme l fun y => y.setFeats (featKey fid c.cdw11) c.cdw11) Nv.ok 0 ∧
        posts (.getFeatures link c) u Nv.ok (w.getFeats (featKey fid c.cdw11)).toNat) ∧
      (fid = 7 → posts (.setFeatures link c) u Nv.ok 0x3FFF3FFF ∧ posts (.getFeatures link c) u Nv.ok 0x3FFF3FFF) ∧
      (fid = 1 ∨ fid = 6 → posts (.setFeatures link c) u Nv.notChangeable 0) ∧ (fid = 6 → posts (.getFeatures link c) u Nv.ok 1)) ∧
    ((8 ≤ w.aers.length → posts (.asynchronousEventRequest link c) u Nv.aerLimit 0) ∧
      (w.aers.length < 8 → w.events = e :: events →
        posts (.asynchronousEventRequest link c) (u.setNvme l { w with events := events }) Nv.ok e.toNat) ∧
      (w.aers.length < 8 → w.events = [] → c.flags = 0#8 → admits →
        exec (.asynchronousEventRequest link c) s = .next (u.setNvme l { w with aers := w.aers ++ [(c.cid, c.writes.entry)] }))) ∧
    (let k := c.d11 0 8
     1 ≤ q → q ≤ 16384 →
     (((w.getSqs q).size ≠ 0 ∨ (w.getCqs q).size ≠ 0) → posts (.qpBind link c) u Nv.sequence 0) ∧
     ((w.getSqs q).size = 0 → (w.getCqs q).size = 0 →
       (c.d11 31 1 = 1 →
         posts (.qpBind link c) (u.setNvme l ((w.setBind q 0).setMasks q (BitVec.allOnes 1024))) Nv.ok 0) ∧
       (c.d11 31 1 = 0 → s.slice k = some x → x.func = 2 → s.partHub x.part = l → x.dying = none →
         posts (.qpBind link c) (u.setNvme l ((w.setBind q (k + 1)).setMasks q (s.partNs x.part))) Nv.ok 0) ∧
       (c.d11 31 1 = 0 → s.slice k = none → posts (.qpBind link c) u Nv.invalidField 0)) ∧
     -- the namespace mask is read from the host
     let r := u.fromPrps l none c.prps 128 read
     let map := BitVec.ofNat 1024 (leNat r.2.data)
     let mask := posts (.nsMask link c read)
     (read ≠ .timeout ∨ (s.freeTag l nvFn).isSome = true) → (c.flags = 0#8 → (r.2.status ≠ St.ok ∨ r.2.poison = true) → mask r.1 Nv.transfer 0) ∧
     (r.2.status = St.ok → r.2.poison = false →
       ((r.1.nvme l).getBind q = 0 → mask (r.1.setNvme l ((r.1.nvme l).setMasks q map)) Nv.ok 0) ∧
       (∀ j, (r.1.nvme l).getBind q = j + 1 → r.1.slice j = some x →
         (map &&& ~~~ r.1.partNs x.part = 0#1024 → mask (r.1.setNvme l ((r.1.nvme l).setMasks q map)) Nv.ok 0) ∧
         (map &&& ~~~ r.1.partNs x.part ≠ 0#1024 → mask r.1 Nv.invalidField 0))))

/-- I/O commands and the SSDs (R407, R408, R410, R411, R413, R414, R417, R420, R421): a command is fetched with its lock entries, or
completed with its refusal, or stalls; it starts when no earlier lock conflicts; on a volatile namespace it acts on tier 2 at once, on a
persistent one it goes to its members run by run; a completion takes its member away and after the last one the command ends; a
timeout aborts, and the second resets the SSD.
What of it is the model's choice or reading, and no rule of the spec: log entries 6, 13, 74, 101, 104. -/
def Obligations.StorageCommands : Prop :=
  ∀ (link : Fin 2) (sq : Fin 16385) (q : IoCmd) (num now : Nat) (data : List (BitVec 8)) (bad : List Nat) (host : HostRead) (c : NvCmd) (n : Ns)
    (port : Fin 16) (cid : Nat) (e : SsdCmd) (status : BitVec 15) (s : State),
    let l := link.val
    let v := s.nvme l
    let entry := ioEntry sq n q
    let fetches := s.nvServes l = true ∧ s.sqWaits l sq = true ∧ s.canPost l sq = true
    let ready (op : BitVec 8) := s.readyIo l num op = some (c, n)
    let members (op : BitVec 8) (u : State) : State := (n.runs c.slba c.nlb).foldl (fun u r =>
      u.sendMember l c.num (n.place r.1).2.1 op r.1 (n.place r.1).2.2 r.2 []) u
    let tags := host ≠ .timeout ∨ (s.freeTag l nvFn).isSome = true
    -- the data of a write or a comparison, fetched from the host
    let r := s.fromPrps l (s.nvSlice l c.sq) c.prp (c.nlb * n.bs) host
    let zeros (k : Nat) : List (BitVec 8) := List.replicate (k * n.bs) 0#8
    let stored (x : State × BitVec 8) : State := x.1.endCmd l c (if x.2 = St.ok then Nv.ok else Nv.writeFault)
    let read (u : State) := (u.pipeBlocks n c.nlb).getVolatile c.nsid n c.slba c.nlb
    let clean (u : State) := (read u).bad = [] ∧ (read u).status = St.ok
    (fetches → ∀ st, s.ioRefusal l sq q = some st → 0 < sq.val →
      let u := if st = Nv.nsNotReady + Nv.dnr then s.bump (Reg.NVC_NOT_READY l) else s
      exec (.nvmeCmdFetch link sq q) s = .next ((u.draw.sqAdvance l sq).postCqe l sq q.cid st 0 q.writes.entry)) ∧
    (fetches → s.ioRefusal l sq q = none → s.ns q.nsid.toNat = some n →
      (v.locksHeld + entry.locks.length ≤ lockMax →
        ∃ t, exec (.nvmeCmdFetch link sq q) s = .next t ∧ (t.nvme l).cmds = v.cmds ++ [{ entry with num := v.fetched }] ∧
          (t.nvme l).fetched = v.fetched + 1 ∧ (t.nvme l).stalled = false ∧ t = { s with nvmes := t.nvmes, regs := t.regs }) ∧
      (lockMax < v.locksHeld + entry.locks.length → v.stalled = false →
        exec (.nvmeCmdFetch link sq q) s =
          .next ((s.modNvme l fun v => { v with stalled := true }).bump (Reg.NVC_LOCK_STALL l)))) ∧
    (v.cmds.find? (fun c => c.num = num) = some c → c.started = false → c.dead = false → c.sq < moverSq →
      (v.free c = true → s.mayServe l Engine.storage.num (s.cmdPart c) now 1 (s.storageWaits l) = true →
        exec (.nvmeCmdStart link num now) s = .next ((s.served l Engine.storage.num (s.cmdPart c) now).modNvme l fun v => { v with
          cmds := v.cmds.map fun x => if x.num = num then { x with started := true } else x })) ∧
      (v.free c = false → exec (.nvmeCmdStart link num now) s = .next s)) ∧
    (ready Io.flush → n.volatile = true → exec (.nvmeFlush link num) s = .next (s.endCmd l c Nv.ok)) ∧
    (ready Io.flush → n.volatile = false → exec (.nvmeFlush link num) s =
      .next (n.members.foldl (fun u m => u.sendMember l c.num m Io.flush 0 0 0 []) s)) ∧
    -- a write whose data the host marks poisoned writes the named blocks, or all, as marked
    (ready Io.write → tags →
      (r.2.status ≠ St.ok → (r.1.endCmd l c Nv.transfer).holdHit = [] →
        exec (.nvmeWrite link num host bad none) s = .next (r.1.endCmd l c Nv.transfer)) ∧
      (r.2.status = St.ok → r.2.poison = false → (r.1.ioWrite l c n r.2.data [] none).holdHit = [] →
        exec (.nvmeWrite link num host bad none) s = .next (r.1.ioWrite l c n r.2.data [] none)) ∧
      (r.2.status = St.ok → r.2.poison = true → bad ≠ [] → (∀ i ∈ bad, i < c.nlb) →
        (r.1.ioWrite l c n r.2.data bad none).holdHit = [] →
        exec (.nvmeWrite link num host bad none) s = .next (r.1.ioWrite l c n r.2.data bad none))) ∧
    (ready Io.zeroes → (s.ioWrite l c n (zeros c.nlb) [] none).holdHit = [] →
      exec (.writeZeroes link num none) s = .next (s.ioWrite l c n (zeros c.nlb) [] none)) ∧
    (∀ u : State, let w := (if bad = [] then u else u.bump (Reg.NVC_POISON l)).pipeBlocks n c.nlb
      (n.volatile = true → u.ioWrite l c n data bad none = stored (w.putVolatile c.nsid n c.slba data bad)) ∧
      (n.volatile = false → u.ioWrite l c n data bad none = (n.runs c.slba c.nlb).foldl (fun t r =>
        (alikeRuns bad (r.1 - c.slba) r.2).foldl (fun t k =>
          let p := n.place (c.slba + k.1)
          if bad.contains k.1 then t.sendMember l c.num p.2.1 Io.uncorrectable (c.slba + k.1) p.2.2 k.2 []
          else t.sendMember l c.num p.2.1 Io.write (c.slba + k.1) p.2.2 k.2
            (t.xtsBlocks c.nsid n true (c.slba + k.1) ((data.drop (k.1 * n.bs)).take (k.2 * n.bs))) c.fua) t)
        (w.modCmd l c.num fun c => { c with fails := [] }))) ∧
    (ready Io.read → n.volatile = true →
      (clean s → let t := (read s).state.toHost l c n.bs 0 (read s).data []
        exec (.nvmeRead link num none) s = .next (t.endCmd l c (t.putEnds l (t.nvSlice l c.sq) c.writes.data))) ∧
      ((read s).bad ≠ [] →
        exec (.nvmeRead link num none) s = .next ((((read s).state.bump (Reg.NVC_POISON l)).toHost l c n.bs 0 (read s).data
          (read s).bad).endCmd l c Nv.unrecovered))) ∧
    (ready Io.read → n.volatile = false → exec (.nvmeRead link num none) s = .next (members Io.read s)) ∧
    (ready Io.compare → tags → r.2.status ≠ St.ok ∨ r.2.poison = true →
      exec (.compare link num host none) s = .next (r.1.endCmd l c Nv.transfer)) ∧
    (ready Io.compare → tags → r.2.status = St.ok → r.2.poison = false → n.volatile = true → clean r.1 →
      exec (.compare link num host none) s =
        .next ((read r.1).state.endCmd l c (if (read r.1).data = r.2.data then Nv.ok else Nv.compare))) ∧
    (ready Io.compare → tags → r.2.status = St.ok → r.2.poison = false → n.volatile = false → exec (.compare link num host none) s =
      .next (members Io.read (r.1.modCmd l c.num fun c => { c with data := r.2.data }))) ∧
    (ready Io.dsm → c.ranges = [] → (s.endCmd l c Nv.ok).holdHit = [] →
      exec (.datasetManagement link num none) s = .next (s.endCmd l c Nv.ok)) ∧
    (∀ a k, ready Io.dsm → c.ranges = [(a, k)] → n.volatile = true →
      let t := stored ((s.pipeBlocks n k).putVolatile c.nsid n a (zeros k) [])
      t.holdHit = [] → exec (.datasetManagement link num none) s = .next t) ∧
    (ready Io.dsm → c.ranges ≠ [] → n.volatile = false → s.holdHit = [] → exec (.datasetManagement link num none) s =
      .next (c.ranges.foldl (fun u g => (n.runs g.1 g.2).foldl (fun u r =>
        u.sendMember l c.num (n.place r.1).2.1 Io.dsm r.1 (n.place r.1).2.2 r.2 []) u) s)) ∧
    (let f := fun y : SsdCmd => y.cid = cid
     let done (d : List (BitVec 8)) := exec (.ssdCmdComplete port cid status d none) s
     ((s.slot port).cmds.find? f = none → done data = .next (s.ssdViolation port)) ∧
     ((s.slot port).cmds.find? f = some e → (s.nvme e.link).cmds.find? (fun c => c.num = e.num) = some c → s.ns c.nsid = some n →
       let u := s.dropSsd port cid
       let plain := u.xtsBlocks c.nsid n false e.lba (exactly (e.nlb * n.bs) data)
       let w := u.pipeBlocks n e.nlb
       let all := List.range e.nlb
       (e.opc ≠ Io.read ∨ (status ≠ 0#15 ∧ status.toNat % Nv.dnr ≠ Nv.unrecovered) →
         done data = .next (u.memberDone port e status.toNat)) ∧
       (e.opc = Io.read → status = 0#15 → c.opc ≠ Io.compare →
         let t := w.toHost e.link c n.bs (e.lba - c.slba) plain []
         done data = .next (t.memberDone port e (t.readEnds e.link c []))) ∧
       -- an unrecovered read gives its blocks to the host marked
       (e.opc = Io.read → status ≠ 0#15 → status.toNat % Nv.dnr = Nv.unrecovered → c.opc ≠ Io.compare → e.nlb ≠ 0 →
         done data = .next (((w.bump (Reg.NVC_POISON e.link)).toHost e.link c n.bs (e.lba - c.slba) plain all).memberDone port e
           status.toNat)) ∧
       (e.opc = Io.read → status = 0#15 → c.opc = Io.compare →
         done data = .next (w.memberDone port e (if plain = (c.data.drop ((e.lba - c.slba) * n.bs)).take plain.length then Nv.ok
           else Nv.compare)))) ∧
     ((s.slot port).cmds.find? f = some e →
       let u := (s.bump (Reg.PRP_TIMEOUTS port)).partner ⟨.prp, port⟩ 1 port 0x58 []
       (e.aborted = true → exec (.ssdCmdTimeout port cid) s = .next (u.ssdReset port)) ∧
       (e.aborted = false → exec (.ssdCmdTimeout port cid) s = .next ((u.modSlot port fun x => { x with
         cmds := x.cmds.map fun y => if y.cid = cid then { y with aborted := true } else y }).out
           (.ssd port 0x08#8 0#32 cid 0 false []))) ∧
       exec (.ssdViolation port (.undefinedStatus cid)) s = .next ((s.ssdViolation port).undefinedEnds port cid))) ∧
    exec (.ssdViolation port .unknownCid) s = .next (s.ssdViolation port) ∧
    exec (.ssdViolation port .badDma) s = .next ((s.ssdViolation port).out (.rootUr port)) ∧
    exec (.ssdViolation port .malformedTlp) s = .next ((s.ssdViolation port).out (.rootAer port)) ∧
    exec (.ssdCstsCfs port) s = .next ((s.partner ⟨.prp, port⟩ 1 port 0x50 []).ssdReset port)

/-- SSD slots and namespaces (R409, R410, R422, R423, R424): a level stable for three samples is accepted and an accepted press kept; a
slot is powered when its module is present, links after its timer and is ACTIVE when its SSD is accepted, else in FAULT; a press or an
eject of an ACTIVE slot on which nothing depends takes it off; a removal ends its commands and puts what depends on it offline;
NS_CREATE makes a namespace and NS_DELETE removes one when nothing of it is in flight.
What of it is the model's choice or reading, and no rule of the spec: log entries 53, 74, 75, 101. -/
def Obligations.SlotsAndNamespaces : Prop :=
  ∀ (port : Fin 16) (levels : BitVec 2) (found : SlotFound) (linkDown : Bool) (hub : Fin 2) (page : Fin 64) (n : Ns) (s : State),
    let x := s.slot port
    let st := s.slotSt port
    let gives (i : Instr) (k : Nat) (y : Slot) (o : List Out) : Prop := ∃ t, exec i s = .next t ∧ t.slotSt port = k ∧ t.slot port = y ∧
      (∀ j, j ≠ port.val → t.slot j = s.slot j) ∧ t = { s with regs := t.regs, slots := t.slots, outs := o ++ s.outs }
    let into (i : Instr) (k : Nat) (y : Slot) : Prop := gives i k y []
    let ctl := s.st ⟨.prp, port⟩ ≠ PS.off ∧ s.pageGone ⟨.prp, port⟩ 0x44 = false
    let on : Slot := { x with pwrEn := true, pwrLed := .blink, perst := true }
    let off : Slot := { x with pwrEn := false, pwrLed := .off, perst := true }
    let m := s.message hub page
    let size := m.f 8 8
    let bs := if m.f 3 1 / 2 % 2 = 1 then 512 else 4096
    (s.fwState (fwpKey (port / 8) 1) = Fw.running →
      let same := if x.raw = levels then x.same + 1 else 1
      ∃ t, exec (.slotSample port levels) s = .next t ∧ (t.slot port).raw = levels ∧ (t.slot port).same = min same 3 ∧
        (t.slot port).inputs = (if 3 ≤ same then levels else x.inputs) ∧
        (t.slot port).button = (x.button || (decide (3 ≤ same) && x.inputs.getLsbD 1 && !levels.getLsbD 1)) ∧
        (t.slot port).cmds = x.cmds ∧ (∀ j, j ≠ port.val → t.slot j = s.slot j) ∧ t = { s with slots := t.slots }) ∧
    (st = SlotSt.empty → x.present = true → into (.presenceDetect port) SlotSt.powerOn on) ∧
    (ctl → st = SlotSt.off → x.present = true → into (.prpCtlPower port) SlotSt.powerOn on) ∧
    (st = SlotSt.powerOn → into (.slotPowerTimer port) SlotSt.linking { x with perst := false }) ∧
    (st ≠ SlotSt.powerOn → exec (.slotPowerTimer port) s = .next s) ∧
    (st = SlotSt.linking → (found.link && found.ready && found.accepted) = false →
      into (.slotLinkResult port found) SlotSt.fault { x with pwrEn := false, attnLed := .on }) ∧
    (st = SlotSt.linking → found.link = true → found.ready = true → found.accepted = true → s.nss = [] →
      ∃ t, exec (.slotLinkResult port found) s = .next t ∧ t.slotSt port = SlotSt.active ∧
        t.slot port = { x with pwrLed := .on, serial := found.serial, nguids := found.nguids, cmds := [], resetting := false } ∧
        t = { s with regs := t.regs, slots := t.slots }) ∧
    (x.button = true → st = SlotSt.active → s.dependents port = [] →
      into (.buttonPress port) SlotSt.ejectWait { x with button := false, pwrLed := .blink }) ∧
    (x.button = true → st = SlotSt.active → s.dependents port ≠ [] →
      exec (.buttonPress port) s = .next (((s.modSlot port fun y => { y with button := false }).modSlot port fun y => { y with
        attnLed := .blink, blinkMs := 3000 }).err ⟨.prp, port⟩ 16)) ∧
    (x.button = true → st = SlotSt.ejectWait → into (.buttonPress port) SlotSt.active { x with button := false, pwrLed := .on }) ∧
    -- a slot goes off with the shutdown of its SSD
    (st = SlotSt.ejectWait → gives (.ejectTimeout port) SlotSt.off off [.ssdShutdown port]) ∧
    (ctl → st = SlotSt.ejectWait → gives (.prpCtlEject port) SlotSt.off off [.ssdShutdown port]) ∧
    (ctl → st = SlotSt.active → s.dependents port = [] → gives (.prpCtlEject port) SlotSt.off off [.ssdShutdown port]) ∧
    (ctl → st = SlotSt.active → s.dependents port ≠ [] → exec (.prpCtlEject port) s = .next s) ∧
    (x.present = false → st = SlotSt.active ∨ st = SlotSt.linking ∨ st = SlotSt.ejectWait →
      exec (.surpriseRemoval port linkDown) s = .next ((s.surprise port).toSlot port SlotSt.empty fun y => { y with
        attnLed := .off, pwrLed := .off })) ∧
    (x.present = true → linkDown = true → st = SlotSt.active ∨ st = SlotSt.linking ∨ st = SlotSt.ejectWait →
      exec (.surpriseRemoval port linkDown) s = .next ((s.surprise port).toSlot port SlotSt.fault fun y => { y with attnLed := .on })) ∧
    (x.present = false → st = SlotSt.fault ∨ st = SlotSt.off →
      into (.surpriseRemoval port linkDown) SlotSt.empty { x with attnLed := .off, pwrLed := .off }) ∧
    (x.resetting = true →
      exec (.ssdNotReady port) s = .next ((s.surprise port).toSlot port SlotSt.fault fun y => { y with attnLed := .on })) ∧
    (let u := s.begun 0x510 hub page
     let nsid := m.f 0 2
     let p := m.f 2 1
     let a := m.f 16 8
     32 ≤ m.length → (m.payload.drop 32).any (· ≠ 0#8) = false → m.f 6 1 = 0 → m.f 3 1 < 4 → m.f 3 1 % 2 = 1 → m.f 7 1 = 0 →
     m.f 24 8 = 0 → 1 ≤ nsid → nsid ≤ 1024 → p < 12 → (s.part p).state = .active → m.onLink (s.partHub p) = true →
     s.keySlotIn p (m.f 4 2) = true → s.keyUse (m.f 4 2) true = true → a % 65536 = 0 → a < 2 ^ 48 → size ≠ 0 →
     size * bs % 65536 = 0 → (∀ i < size * bs, ∃ y, s.tgt (a + i) = .t2 y ∧ s.unitPart (80 + y) = p) → s.ns nsid = none →
     let y : Ns := { Ns.reset with
       part := p, volatile := true, lbaf := decide (m.f 3 1 / 2 % 2 = 1), keyslot := m.f 4 2, size := size, t2Base := BitVec.ofNat 48 a
       members := [], ssds := [], atom := atomOf bs [] }
     Serves (.nsCreate hub page []) 0x510 hub page s ((((((u.setNs nsid (some y)).showNs).pipeBlocks y size).putVolatile nsid y 0
       (List.replicate (size * bs) 0#8) []).1.nsChanged (s.partHub p) nsid).answer m.src St.ok [])) ∧
    (∀ backing : List Backing,
     let u := s.begun 0x510 hub page
     let nsid := m.f 0 2
     let p := m.f 2 1
     let nm := m.f 6 1
     let ms := (List.range nm).map m.member
     32 + 16 * nm ≤ m.length → (m.payload.drop (32 + 16 * nm)).any (· ≠ 0#8) = false → 1 ≤ nm → nm ≤ 8 → m.f 3 1 = 0 ∨ m.f 3 1 = 2 →
     m.f 7 1 = 0 → m.f 24 8 = 0 → (∀ i < nm, m.f (33 + 16 * i) 3 = 0) → 1 ≤ nsid → nsid ≤ 1024 → p < 12 →
     (s.part p).state = .active → m.onLink (s.partHub p) = true → s.keySlotIn p (m.f 4 2) = true → s.keyUse (m.f 4 2) true = true →
     m.f 16 8 = 0 → size ≠ 0 → size * bs % (65536 * nm) = 0 →
     (∀ y ∈ ms, y.port < 16 ∧ y.port / 8 = s.partHub p ∧ s.slotSt y.port = SlotSt.active ∧
       ∃ b, backing.find? (fun b => b.port = y.port && b.nsid = y.nsid) = some b ∧ b.lbaf = decide (m.f 3 1 = 2) ∧
         b.uncorrectable = true ∧ y.start + size / nm ≤ b.blocks) →
     (∀ i j, j < i → i < nm → let y := m.member i; let z := m.member j;
       y.port ≠ z.port ∨ y.nsid ≠ z.nsid ∨ z.start + size / nm ≤ y.start ∨ y.start + size / nm ≤ z.start) →
     s.ns nsid = none →
     Serves (.nsCreate hub page backing) 0x510 hub page s ((((u.setNs nsid (some { Ns.reset with
       part := p, volatile := false, lbaf := decide (m.f 3 1 = 2), keyslot := m.f 4 2, size := size, t2Base := 0#48
       members := ms, ssds := ms.map s.ssdOf
       atom := atomOf bs (ms.map fun y => match backing.find? (fun b => b.port = y.port && b.nsid = y.nsid) with
         | some b => b.atom
         | none => 0) })).showNs).nsChanged (s.partHub p) nsid).answer m.src
         St.ok [])) ∧
    (let u := s.begun 0x511 hub page
     let nsid := m.f 0 2
     let k := hub.val * 64 + page.val
     s.ns nsid = some n → m.onLink (s.partHub n.part) = true → 2 ≤ m.length → (m.payload.drop 2).any (· ≠ 0#8) = false → n.dying = none →
     ((∀ c ∈ (s.nvme (s.partHub n.part)).cmds, c.nsid ≠ nsid) →
       Serves (.nsDelete hub page) 0x511 hub page s (((((u.setNs nsid (some { n with dying := some m.src })).setNs nsid
         none).showNs).nsChanged (s.partHub n.part) nsid).answer m.src St.ok [])) ∧
     ((∃ c ∈ (s.nvme (s.partHub n.part)).cmds, c.nsid = nsid) →
       Serves (.nsDelete hub page) 0x511 hub page s (u.setNs nsid (some { n with dying := some m.src }))) ∧
     ((s.mbx k).started = true → m.opcode = 0x511 → s.mbxWaits k = true →
       exec (.nsDelete hub page) s = .next (s.nsSettle (fieldAt m.bytes 16 2))))

/-- Keys, the owner and debug access (R433, R434, R450, R452): KEY_LOAD clears the key in the request page and fills a free slot of the
partition; KEY_ZERO empties one that nothing names; the owner record is written when there is none, or by the owner's signature over a
nonce; a nonce goes when used or after its time; a right password or owner's signature opens the scope's ports and clears the failures, a
wrong one doubles the wait; DBG_LOCK closes the ports.
What of it is the model's choice or reading, and no rule of the spec: log entries 13, 52, 53. -/
def Obligations.KeysOwnerAndDebug : Prop :=
  ∀ (hub : Fin 2) (page : Fin 64) (r : OwnerSet) (scope : BitVec 8) (pw pub nonce sig owner : List (BitVec 8)) (elapsed i : Nat)
    (s : State),
    let m := s.message hub page
    let k := m.f 0 2
    let p := m.f 2 1
    let alg := m.f 3 1 % 8
    let used := if alg = 1 then 64 else if alg = 2 then 16 else 32
    let key := m.bytesAt 8 64 ++ List.replicate (64 - (m.bytesAt 8 64).length) 0#8
    let holder := m.src.mctp = false ∧ k < 8192 ∧ p < 12 ∧ s.keySlotIn p k = true ∧ m.onLink (s.partHub p) = true
    let scopes := Reg.SEC_STATE_DEBUG_SCOPE 0
    let fails := Reg.SEC_DBG_FAILS 0
    let wait := Reg.SEC_DBG_WAIT 0
    (let u := s.begun 0x610 hub page
     let n := m.src.hub.val * 64 + m.src.page.val
     let buf := s.rd (Reg.MBX_BUF_LO n) * 4096 + s.rd (Reg.MBX_BUF_HI n) * 2 ^ 32
     let w := (u.hostWrite (u.fnId m.src.link 0) (buf + 24) (List.replicate 64 0#8)).modMbx n fun b => { b with held := b.held.take 24 }
     -- the key in the request's buffer is cleared, while the function is a bus master
     s.fnMaster (s.rd (Reg.MBX_STAT_LINK (hub.val * 64 + page.val))) 0 = true → holder → 72 ≤ m.length → (m.payload.drop 72).any (· ≠ 0#8) = false → alg < 4 → m.f 3 1 < 16 →
     m.f 4 4 = 0 → allZero (key.drop used) = true → (alg = 1 ∨ alg = 3 → key.take (used / 2) ≠ (key.drop (used / 2)).take (used / 2)) →
     (s.part p).state = .active →
     (s.key k = none → Serves (.keyLoad hub page) 0x610 hub page s (((w.setKey k (some
       { alg := BitVec.ofNat 3 alg, hardened := decide (m.f 3 1 / 8 % 2 = 1), key := key.take used })).countKeys
         (s.partHub p)).answer m.src St.ok [])) ∧
     (s.key k ≠ none → Serves (.keyLoad hub page) 0x610 hub page s (w.answer m.src St.stateError []))) ∧
    (let u := s.begun 0x611 hub page
     holder → 3 ≤ m.length → (m.payload.drop 3).any (· ≠ 0#8) = false → (s.part p).state ≠ .free →
     (s.keyNamed k = false → Serves (.keyZero hub page) 0x611 hub page s
       (((u.setKey k none).countKeys (s.partHub p)).answer m.src St.ok [])) ∧
     (s.keyNamed k = true → Serves (.keyZero hub page) 0x611 hub page s (u.answer m.src St.stateError []))) ∧
    (let u := s.begun 0x618 hub page
     let hash := if allZero r.pwHash then none else some r.pwHash
     let record (v : State) (key : Option (List (BitVec 8))) (salt : List (BitVec 8)) (h : Option (List (BitVec 8))) : State :=
       { v with sec := { v.sec with ownerKey := key, salt := salt, pwHash := h } }.showOwner
     r.keyHash.length = 32 → r.salt.length = 16 → r.pwHash.length = 32 →
     (s.sec.ownerKey = none → Serves (.ownerSet hub page r) 0x618 hub page s
       ((record u (some r.keyHash) r.salt hash).answer m.src St.ok [])) ∧
     (s.sec.ownerKey = some owner → r.signed = none → Serves (.ownerSet hub page r) 0x618 hub page s (u.answer m.src St.authFail [])) ∧
     (s.sec.ownerKey = some owner → r.signed = some (pub, nonce, sig) →
       let w := (u.useNonce nonce).1
       let good := (s.sec.nonces.any fun x => x.value = nonce) = true ∧ sm3 pub = owner ∧
         Config.sm2Verify pub (r.keyHash ++ r.salt ++ r.pwHash ++ nonce) sig = true
       Serves (.ownerSet hub page r) 0x618 hub page s
         (if good then
           (if allZero r.keyHash then record w none [] none else record w (some r.keyHash) r.salt hash).answer m.src St.ok []
         else w.answer m.src St.authFail []))) ∧
    (let u := s.begun 0x620 hub page
     let n : List (BitVec 8) := (List.range 32).map fun i => BitVec.ofNat 8 (u.free i)
     Serves (.dbgChallenge hub page) 0x620 hub page s
       (({ u with sec := { u.sec with nonces := u.sec.nonces ++ [({ value := n } : Nonce)] } }.draw).answer m.src St.ok n)) ∧
    (∃ t, exec (.nonceExpiry i) s = .next t ∧ t.sec.nonces = s.sec.nonces.eraseIdx i ∧ t = { s with sec := t.sec }) ∧
    (s.sec.ownerKey = some owner → s.sec.pwHash ≠ none → 8 ≤ pw.length → pw.length ≤ 64 → scope.toNat < 4 →
      (∀ q < 12, (s.part q).state = .free) → s.rd wait ≤ elapsed →
      let right := s.sec.pwHash = some (sm3 (s.sec.salt ++ pw))
      (right → ∃ t : State, Serves (.dbgUnlock hub page scope (.password pw) elapsed) 0x621 hub page s (t.answer m.src St.ok []) ∧
        t.rd scopes = s.rd scopes ||| scope.toNat ∧ t.rd fails = 0 ∧ t.rd wait = 0 ∧
        (t.reg (secPage.base + 0x18)).getLsbD 17 = true ∧ t.sec = s.sec ∧ t.parts = s.parts) ∧
      (¬ right → ∃ t : State,
        Serves (.dbgUnlock hub page scope (.password pw) elapsed) 0x621 hub page s (t.answer m.src St.authFail []) ∧
        t.rd scopes = s.rd scopes ∧ t.rd fails = min (s.rd fails + 1) (2 ^ fails.len - 1) ∧
        t.rd wait = min (2 ^ (t.rd fails - 1)) 4096 ∧ (t.reg (secPage.base + 0x18)).getLsbD 18 = true ∧ t.sec = s.sec)) ∧
    (s.sec.ownerKey = none →
      Serves (.dbgUnlock hub page scope (.password pw) elapsed) 0x621 hub page s ((s.begun 0x621 hub page).answer m.src St.notPermitted [])) ∧
    (Serves (.dbgLock hub page) 0x622 hub page s (((s.begun 0x622 hub page).wr scopes 0).answer m.src St.ok []))

/-- Attestation (R446, R448, R449): GET_VERSION begins a connection anew and ends its sessions; a request before the steps it rests on is
unexpected; the certificates, their digest and the measurements are given, and what needs the device's identity is an error without it; a
fifth session finds the device busy; a session's own requests are answered under it alone; a stream is keyed and put into use.
What of it is the model's choice or reading, and no rule of the spec: log entries 13, 51. -/
def Obligations.Attestation : Prop :=
  ∀ (via : SpdmVia) (index : Option (Fin 12)) (nonce exchange : List (BitVec 8)) (req : BitVec 16) (id offset len : Nat)
    (link stream : Fin 2) (op : IdeOp) (s : State),
    let steps := s.spdmSteps via
    let answers (i : Instr) (t : State) (r : SpdmResp) : Prop := exec i s = .next (t.spdmSays via r)
    let negotiated := steps &&& 7#3 = 7#3
    let mine (done : Bool) := s.sec.sessions.any fun x => x.id = id && x.conn = via.conn && x.done == done
    let is := match index with
      | some i => [i.val]
      | none => (List.range 11).map (· + 1)
    let values := (is.filter (· ≠ 0)).map fun i => (i, s.measurement i)
    s.spdmUp via = true →
    (answers (.getVersion via) ((s.setSteps via 1#3).setSessions (s.sec.sessions.filter fun x => x.conn ≠ via.conn)) .version) ∧
    (steps &&& 1#3 = 1#3 → answers (.getCapabilities via) (s.setSteps via (steps ||| 2#3)) .capabilities) ∧
    (steps &&& 3#3 = 3#3 → answers (.negotiateAlgorithms via) (s.setSteps via (steps ||| 4#3)) .algorithms) ∧
    (steps &&& 1#3 ≠ 1#3 → answers (.getCapabilities via) s (.error .unexpected)) ∧
    (¬ negotiated → answers (.getDigests via) s (.error .unexpected) ∧ answers (.challenge via nonce) s (.error .unexpected) ∧
      answers (.keyExchange via req exchange) s (.error .unexpected) ∧ answers (.heartbeat via id) s (.error .unexpected)) ∧
    (negotiated →
      answers (.getDigests via) s (.digests (sm3 Config.certificates)) ∧
      (s.hasIdentity = true →
        let part := (Config.certificates.drop offset).take len
        answers (.getCertificate via offset len) s (.certificate part (Config.certificates.length - offset - part.length)) ∧
        answers (.challenge via nonce) s (.challengeAuth (s.spdmSign 1 nonce)) ∧
        answers (.getMeasurements via index true nonce) s (.measurements values (s.spdmSign 2 (nonce ++ values.flatMap (·.2)))) ∧
        (s.sec.sessions.length < 4 →
          let n := req.toNat + s.free 0 % 65536 * 65536
          answers (.keyExchange via req exchange)
            ((s.setSessions (s.sec.sessions ++ [({ id := n, conn := via.conn, done := false } : SpdmSess)])).draw)
            (.keyExchange n (s.spdmSign 3 exchange))) ∧
        (4 ≤ s.sec.sessions.length → answers (.keyExchange via req exchange) s (.error .busy))) ∧
      (s.hasIdentity = false → answers (.getCertificate via offset len) s (.error .unspecified) ∧
        answers (.challenge via nonce) s (.error .unspecified) ∧ answers (.keyExchange via req exchange) s (.error .unspecified)) ∧
      answers (.getMeasurements via index false nonce) s (.measurements values []) ∧
      (mine false = true → answers (.finish via id) (s.setSessions (s.sec.sessions.map fun x =>
        if x.id = id ∧ x.conn = via.conn then { x with done := true } else x)) (.finish id)) ∧
      (mine false = false → answers (.finish via id) s (.error .invalidSession)) ∧
      (mine true = true → answers (.heartbeat via id) s (.heartbeat id) ∧ answers (.keyUpdate via id) s (.keyUpdate id) ∧
        answers (.endSession via id) (s.setSessions (s.sec.sessions.filter fun x => !(x.id = id && x.conn = via.conn))) (.endSession id) ∧
        (via = .doe link → ∃ t, answers (.vendorDefinedRequest via id op stream) t (.vendor op stream) ∧
          t.sec.getIdeKeys (2 * link.val + stream.val) = (match op with
            | .query => s.sec.getIdeKeys (2 * link.val + stream.val)
            | .keyProg => 1#2
            | .setGo => if s.sec.getIdeKeys (2 * link.val + stream.val) = 1#2 then 2#2
              else s.sec.getIdeKeys (2 * link.val + stream.val)
            | .setStop => 0#2) ∧ t = { s with sec := t.sec })) ∧
      (mine true = false → answers (.heartbeat via id) s (.error .invalidSession) ∧ answers (.keyUpdate via id) s (.error .invalidSession) ∧
        answers (.endSession via id) s (.error .invalidSession))) ∧
    (via = .mctp → answers (.vendorDefinedRequest via id op stream) s (.error .unsupported)) ∧
    (∀ h, s.sec.ownerKey = some h → s.measurement 9 = h) ∧ s.measurement 1 = Config.romDigest

/-- Firmware images and processors (R443, R455, R457, R471, R472, R473, R477, R504, R515): FW_UPDATE writes a chunk of a slot no processor
runs, FW_COMMIT verifies the five images of a slot, FW_ACTIVATE restarts from a verified slot, or waits for an emergency's end, FW_CONFIRM
keeps it; a watchdog, a fault or RESTART restarts a processor, the fourth fault in 60 s leaves it FAILED; a restart ends RUNNING when its
image verifies; the standby takes over from a failed Lamplighter; CORE_LOAD replaces the images of a paused partition.
What of it is the model's choice or reading, and no rule of the spec: log entries 31, 36, 37, 54, 90. -/
def Obligations.FirmwareProcessors : Prop :=
  ∀ (hub : Fin 2) (page : Fin 64) (index : Fin 16) (now : Nat) (s : State),
    let m := s.message hub page
    let slot := m.f 0 1
    let k := fwpKey hub index
    let p : Page := ⟨.fwp, k⟩
    let x := s.fwslot slot
    let alive := s.fwState k = Fw.running ∨ s.fwState k = Fw.booting
    let pend := Reg.FWP_ACT_PENDING 0
    let zeros (n : Nat) := (m.payload.drop n).any (· ≠ 0#8) = false
    let state := Reg.FWP_RUN_STATE k
    let recent := (s.fwp k).faults.filter fun t => now < t + 60000
    (let u := s.begun 0x10 hub page
     let off := m.f 4 4
     let data := m.payload.drop 8
     8 ≤ m.length → slot < 2 → m.f 1 3 = 0 → off + data.length ≤ slotRoom →
     (s.slotNamed slot = false →
       (off = 0 → Serves (.fwUpdate hub page) 0x10 hub page s
         ((u.setFwslot slot { x with state := .empty, bytes := data }).answer m.src St.ok [])) ∧
       (off ≠ 0 → off = x.bytes.length → Serves (.fwUpdate hub page) 0x10 hub page s
         ((u.setFwslot slot { x with bytes := x.bytes ++ data }).answer m.src St.ok [])) ∧
       (off ≠ 0 → off ≠ x.bytes.length → Serves (.fwUpdate hub page) 0x10 hub page s (u.answer m.src St.badParam []))) ∧
     (s.slotNamed slot = true → off = 0 → Serves (.fwUpdate hub page) 0x10 hub page s (u.answer m.src St.stateError []))) ∧
    (let u := s.begun 0x11 hub page
     let r := [1, 2, 3, 4, 5].foldl (fun (a : State × Bool) t =>
       ((a.1.checkImage slot t).1, a.2 && (a.1.checkImage slot t).2)) (u, true)
     1 ≤ m.length → zeros 1 → slot < 2 →
     (x.state = .empty → Serves (.fwCommit hub page) 0x11 hub page s
       ((r.1.modFwslot slot fun y => { y with state := if r.2 then .trial else .bad }).answer m.src
         (if r.2 then St.ok else St.authFail) [])) ∧
     (x.state ≠ .empty → Serves (.fwCommit hub page) 0x11 hub page s (u.answer m.src St.stateError []))) ∧
    (let u := s.begun 0x12 hub page
     let mask := m.f 1 1
     2 ≤ m.length → zeros 2 → slot < 2 → mask < 32 → x.state = .trial ∨ x.state = .valid →
     (mask = 0 → Serves (.fwActivate hub page) 0x12 hub page s (({ u with actRun := false }.wr pend 0).answer m.src St.ok [])) ∧
     (mask ≠ 0 → s.pwr.emerg = false → Serves (.fwActivate hub page) 0x12 hub page s ((u.activate slot mask).answer m.src St.ok [])) ∧
     (mask ≠ 0 → s.pwr.emerg = true → Serves (.fwActivate hub page) 0x12 hub page s
       (({ u with actSlot := slot, actRun := false }.wr pend mask).answer m.src St.deferred []))) ∧
    (let u := s.begun 0x13 hub page
     1 ≤ m.length → zeros 1 → slot < 2 →
     (x.state = .trial ∨ x.state = .tried → Serves (.fwConfirm hub page) 0x13 hub page s
       ((u.setFwslot slot { x with state := .valid }).answer m.src St.ok [])) ∧
     (x.state ≠ .trial → x.state ≠ .tried → Serves (.fwConfirm hub page) 0x13 hub page s (u.answer m.src St.stateError []))) ∧
    (k ∈ allProcs → alive →
      ∃ t, exec (.fwpWatchdog hub index) s = .next t ∧ t.rd state = Fw.restarting ∧
        t.rd (Reg.FWP_RUN_RESTARTS k) = min (s.rd (Reg.FWP_RUN_RESTARTS k) + 1) (2 ^ (Reg.FWP_RUN_RESTARTS k).len - 1) ∧
        t.mem = s.mem ∧ t.cores = s.cores ∧ t.fwslots = s.fwslots) ∧
    (¬ alive → exec (.fwpWatchdog hub index) s = .next s ∧ exec (.fwpFault hub index now) s = .next s) ∧
    (alive →
      let u := (((s.modFwp k fun x => { x with faults := now :: recent }).err p 16).bucket p).restartFw k
      (recent.length < 3 → exec (.fwpFault hub index now) s = .next u) ∧
      (3 ≤ recent.length →
        let v := u.wr state Fw.failed
        exec (.fwpFault hub index now) s =
          .next (if v.fwState 0 = Fw.failed ∧ v.fwState 16 = Fw.failed then v.fatal else v))) ∧
    (s.st p ≠ PS.off → s.pageGone p 0x44 = false → exec (.fwpCtlRestart hub index) s = .next ((s.wr (Reg.FWP_CTL_RESTART k) 1).restartFw k)) ∧
    (s.fwState k = Fw.restarting →
      let from_ := s.rd (Reg.FWP_RUN_SLOT k)
      let r := s.checkImage from_ (k % 16 + 1)
      exec (.fwpRestartDone hub index) s =
        .next (if r.2 then ((r.1.runFw k from_).wr (Reg.FWP_CTL_RESTART k) 0).actProgress else r.1)) ∧
    (s.fwState k ≠ Fw.restarting → exec (.fwpRestartDone hub index) s = .next s) ∧
    (s.fwState 0 = Fw.failed → s.fwState 16 = Fw.held →
      let u := (s.wr (Reg.FWP_RUN_STATE 16) Fw.running).bbAdd 0x000B Sev.corrected none 0xFF (leBytes 2 s.journalPages.length)
      exec .lamplighterTakeover s = .next (s.journalPages.foldl (fun t j => t.mbxReply j) u)) ∧
    (s.fwState 0 ≠ Fw.failed → exec .lamplighterTakeover s = .next s) ∧
    (let u := s.begun 0x30 hub page
     let gcs := u.clustersOf slot
     let ranges := u.loadRanges slot (m.f 8 8) (m.f 16 8) (m.f 24 8) gcs.length
     let r := u.readManifest (m.f 8 8) (m.f 16 8)
     let c := r.1.checkPlaced r.2.1
     let w := (c.1.writeTables c.2.1 (m.f 24 8) gcs).reloadCores gcs
     let t := if !r.2.2 then r.1.answer m.src St.authFail []
       else w.answer m.src St.ok (leBytes 2 (w.countRun gcs .paused) ++ leBytes 2 (w.countRun gcs .bootFailed))
     32 ≤ m.length → zeros 32 → slot < 12 → m.f 1 7 = 0 → (s.part slot).state = .active →
     (∀ e ∈ ranges, u.rangeAbsent e.1 e.2 = false) →
     ((∃ e ∈ ranges, u.rangeHeld slot e.1 e.2 = false) → (u.answer m.src St.notPermitted []).holdHit = [] →
       Serves (.coreLoad hub page) 0x30 hub page s (u.answer m.src St.notPermitted [])) ∧
     ((∀ e ∈ ranges, u.rangeHeld slot e.1 e.2 = true) →
       natBits (s.reg (Reg.DIS_PAUSED (s.part slot).link).addr).toNat slot 1 = 1 → (∀ gc ∈ gcs, (s.cluster gc).wq = []) → t.holdHit = [] →
       Serves (.coreLoad hub page) 0x30 hub page s t))

/-- Faults in service (R22, R212, R215, R488, R489, R508, R509, R510, R512, R513, R514, R520, R525): a failed core's page is fenced, the
ledger and the map are written and a spare takes its number; CORE_RETIRE asks for that; a failed cluster is fenced and written in the
ledger; a link retrains, shown at both ends, and returns with what it has left or FAILED; a lost memory unit is out of service;
EVT_READ gives records of the ring from a number on; a record joins the buffer and a page of four is programmed into both flashes.
What of it is the model's choice or reading, and no rule of the spec: log entries 9, 31, 63, 64, 65, 104. -/
def Obligations.FaultsAndSpares : Prop :=
  ∀ (gc : Fin 160) (slot : Fin 18) (hub : Fin 2) (page : Fin 64) (d2d : Fin 42) (i : Fin 2) (link : Fin 17) (width : Fin 3)
    (spares : Fin 9) (unit : Fin 112) (channels : BitVec 8) (typ : BitVec 16) (sev : BitVec 2) (src : Page) (part : Fin 16)
    (payload : List (BitVec 8)) (fail : BitVec 2) (lc n : Nat) (s : State),
    let k := slotKey gc slot
    let p : Page := ⟨.cor, k⟩
    let cl : Page := ⟨.clu, gc⟩
    let m := s.message hub page
    (s.absentPage p = false → exec (.coreFail gc slot) s = .next (s.coreFail gc slot)) ∧
    (s.absentPage p = true → exec (.coreFail gc slot) s = .next s) ∧
    (s.lcOf gc slot = some lc → s.st p = PS.enabled → ∃ t, s.coreFail gc slot = t ∧ t.st p = PS.fenced ∧
      (∀ j, (s.fencePage p).spareOf gc = some j → t.slotOf lc = some j ∧
        t.on (Reg.COR_PAUSE_REQ (slotKey gc j)) = true) ∧
      ((s.fencePage p).spareOf gc = none → t.slotOf lc = none) ∧
      (s.bru.ledger.length < ledgerMax → ∃ e ∈ t.bru.ledger, e.kind = 0x01#8 ∧ e.location = BitVec.ofNat 64 (gc.val + slot.val * 256))) ∧
    (let u := s.begun 0x41 hub page
     let c := m.f 0 2
     let q := s.clusterPart (c / 16)
     c < 2560 → s.clusterGone (c / 16) = false → s.slotOf c = some n → s.absentPage ⟨.cor, slotKey (c / 16) n⟩ = false →
     2 ≤ m.length → (m.payload.drop 2).any (· ≠ 0#8) = false →
     (q < 12 → m.onLink (s.partHub q) = true → Serves (.coreRetire hub page) 0x41 hub page s
       ((u.coreFail (c / 16) n).answer m.src St.ok [])) ∧
     (q < 12 → m.onLink (s.partHub q) = false → Serves (.coreRetire hub page) 0x41 hub page s (u.answer m.src St.notPermitted []))) ∧
    (s.st cl = PS.enabled → s.absentPage cl = false → ∃ t, exec (.clusterFail gc) s = .next t ∧ t.st cl = PS.fenced ∧
      (s.bru.ledger.length < ledgerMax → ∃ e ∈ t.bru.ledger, e.kind = 0x02#8 ∧ e.location = BitVec.ofNat 64 gc.val) ∧
      (∀ q, q / 18 ≠ gc.val → t.core q = s.core q)) ∧
    (s.absentPage cl = true → exec (.clusterFail gc) s = .next s) ∧
    (linkAt d2d i = some n → s.st ⟨.d2d, d2d⟩ ≠ PS.off → s.pageGone ⟨.d2d, d2d⟩ 0x48 = false →
      let w := s.d2dWord n
      let f := Reg.D2D_CTL_RETRAIN d2d
      (w.state = D2d.up ∨ w.state = D2d.failed → exec (.d2dRetrain d2d i) s =
        .next (((s.wr f (s.rd f ||| 2 ^ i.val)).setD2d n { w with state := D2d.retraining }).showLinks)) ∧
      (w.state ≠ D2d.up → w.state ≠ D2d.failed → exec (.d2dRetrain d2d i) s = .next s)) ∧
    (∀ (j : Fin 17) (w : D2dWord), w.state < 8 → w.width < 4 → w.spares < 16 →
      let e := linkEnds j
      let t := s.setD2d j w
      t.d2dWord j = w ∧ t.rd (Reg.D2D_LINK_STATE e.2.1 e.2.2) = w.state ∧ t.rd (Reg.D2D_LINK_WIDTH e.2.1 e.2.2) = w.width) ∧
    (s.d2dState link = D2d.up →
      let t := (s.d2dTrained link (s.d2dWord link) (if width.val = 0 then ⟨D2d.failed, 0, 0⟩ else ⟨D2d.up, width, spares⟩)).clearRetrain link
      exec (.d2dLaneLoss link width spares) s = .next (if t.hubsCut ∧ t.bru.fatal = false then t.fatal else t)) ∧
    (s.d2dState link ≠ D2d.up → exec (.d2dLaneLoss link width spares) s = .next s) ∧
    (let u := unit.val
     let f := unitChannels u
     let lost := { s.wr f (s.rd f &&& (255 - channels.toNat)) with bru := { s.bru with memBad := s.bru.memBad ||| (1#112 <<< u) } }
     let t := lost.showMem.unitLostRecord u
     s.bru.memDone.getLsbD u = true → s.bru.memBad.getLsbD u = false →
     (s.bru.started = true → u < 80 → exec (.memoryUnitLost unit channels) s =
       .next (t.err ⟨.hmc, u / 4⟩ 16 Sev.contained (s.unitPart u))) ∧
     (s.bru.started = true → 80 ≤ u → exec (.memoryUnitLost unit channels) s =
       .next ((t.wr (Reg.LPC_PKG_LOST ((u - 80) / 4) (u % 4)) 1).err ⟨.lpc, (u - 80) / 4⟩ (16 + u % 4) Sev.contained (s.unitPart u))) ∧
     -- before START it degrades the step that runs
     (s.bru.started = false → exec (.memoryUnitLost unit channels) s =
       .next ({ t with bru := { t.bru with stepDegraded := t.bru.stepDegraded ||| t.bru.running } }.err ⟨.bru, 0⟩ 17)) ∧
     t.bru.memBad.getLsbD u = true) ∧
    (s.bru.memBad.getLsbD unit = true → exec (.memoryUnitLost unit channels) s = .next s) ∧
    (let u := s.begun 0x40 hub page
     let first := match s.bbx.ring.reverse with
       | r :: _ => r.seq.toNat
       | [] => s.rd (Reg.BBX_SEQ 0)
     let rs := s.bbx.ring.reverse.filter fun r => max (m.f 0 4) first ≤ r.seq.toNat
     4 ≤ m.length → (m.payload.drop 4).any (· ≠ 0#8) = false →
     Serves (.evtRead hub page) 0x40 hub page s (u.answer m.src St.ok (leBytes 4 first ++
       [BitVec.ofNat 8 (rs.take 63).length, if 63 < rs.length then 1#8 else 0#8] ++ List.replicate 10 0#8 ++
       (rs.take 63).flatMap BbRec.bytes))) ∧
    (src.inst < src.blk.count → s.bbx.buffer.length < 96 → ∃ t r, exec (.bbxRecord typ sev (some src) part payload) s = .next t ∧
      t.bbx.buffer = s.bbx.buffer ++ [r] ∧ t.bbx.ring = (r :: s.bbx.ring).take 4096 ∧
      r.seq = BitVec.ofNat 32 (s.rd (Reg.BBX_SEQ 0)) ∧ r.typ = typ ∧ r.sev = sev ∧ r.payload = payload.take 36 ∧
      t.rd (Reg.BBX_SEQ 0) = (s.rd (Reg.BBX_SEQ 0) + 1) % 2 ^ 32 ∧ t.mem = s.mem ∧ t.cores = s.cores) ∧
    (s.bbx.buffer ≠ [] → s.bbx.suspended = false ∨ s.bbx.flushLeft ≠ 0 → ∃ t, exec (.bbxPageProgram fail) s = .next t ∧
      (fail = 0#2 → t.bbx.buffer = s.bbx.buffer.drop 4 ∧
        t.bbx.flash = (s.bbx.buffer.take 4 :: s.bbx.flash).take ringPages ∧
        t.rd (Reg.BBX_PTR 0) = (s.rd (Reg.BBX_PTR 0) + 4) % 524288 ∧ t = { s with bbx := t.bbx, regs := t.regs }) ∧
      (fail = 3#2 → t.bbx.flash = s.bbx.flash)) ∧
    (s.bbx.buffer = [] ∨ (s.bbx.suspended = true ∧ s.bbx.flushLeft = 0) → exec (.bbxPageProgram fail) s = .next s)

/-- Lantern (R532, R533, R534, R535, R536, R539, R542, R543, R544, R545, R546): SNAP_SETUP configures a partition, or removes its set-up,
SNAP_TAKE is accepted and waits for its cut, SNAP_ABORT stops it; RELEASE follows STEP; a background cut arms the homes when its step has
come, a quiescent one pauses the partition first; the next granule is copied, urgent ones first, and its holds end; with nothing left the
manifest is written and DONE grows; a pre-warning may start a snapshot; a restore writes the latest whole step back.
What of it is the model's choice or reading, and no rule of the spec: log entries 6, 66, 67, 68, 69, 70, 94. -/
def Obligations.LanternSnapshots : Prop :=
  ∀ (hub : Fin 2) (page : Fin 64) (part : Fin 12) (bucket : HostRead) (hold now a : Nat) (manifests : List HostRead)
    (granules : List (Nat × HostRead)) (s : State),
    let m := s.message hub page
    let q := m.f 0 1
    let l := s.partHub q
    let zeros (n : Nat) := (m.payload.drop n).any (· ≠ 0#8) = false
    let up := q < 12 ∧ s.serving (snpPage l) = true ∧ m.onLink l = true
    let p := part.val
    let h := s.partHub p
    let x := s.snap p
    let serving := s.serving (snpPage h) = true
    (let u := s.begun 0x50 hub page
     let y : Snap := { Snap.reset with cfg := m.bytesAt 0 60 }
     let own (b : Nat) := s.beaconOfPart q b = true
     up → 60 ≤ m.length → zeros 60 → (s.part q).state = .active → s.snapRuns q = false →
     ((m.payload.drop 1).all (· = 0#8) = true → Serves (.snapSetup hub page) 0x50 hub page s
       ((((u.disarmStep q).setSnap q Snap.reset).setSnapSt q SnapSt.none).answer m.src St.ok [])) ∧
     ((m.payload.drop 1).all (· = 0#8) = false → own y.done → (y.steps = true → own y.step ∧ own y.release) → y.c 1 1 < 8 →
       y.c 3 1 < 0x40 → y.c 3 1 &&& 0x28 = 0 → y.c 4 2 < 2 ^ 15 → y.c 6 2 < 2 ^ 15 → y.c 8 2 < 2 ^ 15 → y.c 12 4 = 0 → y.c 33 7 = 0 →
       y.c 2 1 ≤ 15 → y.c 10 2 ≠ 0 → y.c 16 8 % 65536 = 0 → y.c 24 8 % 4096 = 0 → (y.dedup = false → y.c 24 8 = 0) → y.c 32 1 ≤ 24 →
       let w := u.disarmStep q
       Serves (.snapSetup hub page) 0x50 hub page s ((((w.setSnap q { y with
         setup := true, take := (w.snap q).take, warned := (w.snap q).warned, stepSeen := if y.steps then w.beacon y.step else 0#32 }).setSnapSt q
           SnapSt.idle).armStep q).answer m.src St.ok []))) ∧
    (let u := s.begun 0x51 hub page
     let mode := m.f 1 1
     let scope := m.f 2 1
     up → 44 ≤ m.length → zeros 44 → mode ≤ 1 → scope ≠ 0 → scope < 64 → m.f 3 1 < 2 → (mode = 1 → scope &&& 0x28 = 0) →
     (mode = 1 → (s.snap q).steps = true) → m.f 8 4 < m.f 12 4 → m.f 24 8 % 4096 = 0 → (s.snap q).setup = true → (s.part q).state = .active →
     (s.snapRuns q = false → Serves (.snapTake hub page) 0x51 hub page s
       (((u.modSnap q fun z => { z with take := m.bytesAt 0 44 }).snapBegin q (BitVec.ofNat 8 mode) (BitVec.ofNat 8 scope)
         false).answer m.src St.ok [])) ∧
     (s.snapRuns q = true → Serves (.snapTake hub page) 0x51 hub page s (u.answer m.src St.stateError []))) ∧
    (let u := s.begun 0x52 hub page
     up → 1 ≤ m.length → zeros 1 →
     (s.snapRuns q = true → Serves (.snapAbort hub page) 0x52 hub page s ((u.snapFail q St.stateError).answer m.src St.ok [])) ∧
     (s.snapRuns q = false → Serves (.snapAbort hub page) 0x52 hub page s (u.answer m.src St.stateError []))) ∧
    -- steps and cuts are learnt by watch
    (x.setup = true → x.steps = true → s.cutReached p = false → serving →
      let w := s.learn (s.stepWatch p)
      (w.fired = false → exec (.snapStepAdvance part) s = .next w.state) ∧
      (w.fired = true → exec (.snapStepAdvance part) s = .next (w.state.followStep p w.value))) ∧
    (∀ v, v ≠ x.stepSeen → let t := s.followStep p v
      (t.snap p).stepSeen = v ∧ (∀ j, t.hubSum j = (s.sigHub h .lantern x.release (v - x.stepSeen)).hubSum j) ∧
      (t.snap p).pendingG = x.pendingG) ∧
    (s.snapSt p = SnapSt.waitCut → serving →
      (let w := s.learn (s.cutWatch p);
        (x.mode = 1#8 → w.fired = true → exec (.snapCut part) s = .next ((w.state.cut p w.value).followStep p w.value)) ∧
        (x.mode = 1#8 → w.fired = false → exec (.snapCut part) s = .next w.state)) ∧
      (x.mode = 0#8 → (s.reg (Reg.DIS_PAUSE h).addr).getLsbD p = false → exec (.snapCut part) s =
        .next (((s.setReg (Reg.DIS_PAUSE h).addr (s.reg (Reg.DIS_PAUSE h).addr ||| (1#32 <<< p))).modSnap p fun z =>
          { z with pausedBy := true }).syncPause h p)) ∧
      (x.mode = 0#8 → (s.reg (Reg.DIS_PAUSE h).addr).getLsbD p = true → (s.reg (Reg.DIS_PAUSED h).addr).getLsbD p = true →
        let t := if x.steps then s.cut p (s.beacon x.step) else (s.cut p (BitVec.ofNat 32 (s.free 0))).draw
        exec (.snapCut part) s = .next (if (t.snap p).items.isEmpty then t.unpauseOwn p else t))) ∧
    (∀ step, let t := s.cut p step
      (t.snap p).pendingG = s.armGranules p x.scope ∧ (t.snap p).items = s.snapItems p x.scope ∧ t.snapSt p = SnapSt.copying ∧
      t.rd (Reg.SNP_STEP h p) = step.toNat) ∧
    (s.snapSt p = SnapSt.copying → serving →
      (s.mayServe h Engine.lantern.num p now 1 s.snapCopies = true → bucket ≠ .timeout ∨ (s.freeTag h 0).isSome = true →
      let g := (s.served h Engine.lantern.num p now).granule p a
      let chosen := x.urgent.head? = some (a / 65536) ∧ a % 65536 = 0 ∨ x.urgent = [] ∧ x.items.head? = some a ∨
        x.urgent = [] ∧ x.items = [] ∧ x.pendingG.head? = some (a / 65536) ∧ a % 65536 = 0
      let w := g.1.storeGranule p a g.2 bucket
      (g.2.lost = true → chosen →
        exec (.snapGranuleCopy part now bucket hold) s = .next (g.1.snapFail p St.unitAbsent)) ∧
      (g.2.lost = false → w.2 ≠ St.ok → chosen →
        exec (.snapGranuleCopy part now bucket hold) s = .next (w.1.snapFail p w.2)) ∧
      (g.2.lost = false → w.2 = St.ok → x.urgent = [] → x.items.head? = some a →
        let u := w.1.modSnap p fun z => { z with items := z.items.drop 1 }
        exec (.snapGranuleCopy part now bucket hold) s = .next (if (u.snap p).items.isEmpty then u.unpauseOwn p else u)) ∧
      (g.2.lost = false → w.2 = St.ok → a % 65536 = 0 →
        (x.urgent.head? = some (a / 65536) ∨ (x.urgent = [] ∧ x.items = [] ∧ x.pendingG.head? = some (a / 65536))) →
        let u := w.1.wr (Reg.SNP_HOLD_MAX h) (min (max (w.1.rd (Reg.SNP_HOLD_MAX h)) hold) 0xFFFFFFFF)
        exec (.snapGranuleCopy part now bucket hold) s = .next ((u.modSnap p fun z =>
          { z with pendingG := z.pendingG.erase (a / 65536) }).release p fun n => n = a / 65536))) ∧
      (x.urgent = [] → x.items = [] → x.pendingG = [] → exec (.snapGranuleCopy part now bucket hold) s = .next s ∧
        (s.lanternHost h = true → 128 ≤ x.area.2.1 → exec (.snapComplete part) s =
          .next ((s.hostPut h none (x.area.1 + 128) (x.entries.flatMap id) false).snapEnd p St.ok)) ∧
        (s.lanternHost h = true → x.area.2.1 < 128 → exec (.snapComplete part) s = .next (s.snapFail p St.noResource)) ∧
        (s.lanternHost h = false → exec (.snapComplete part) s = .next (s.snapFail p St.masterDisabled)))) ∧
    (serving → x.warned = 0 → exec (.snapPrewarning part now) s = .next s) ∧
    (let u := (s.modSnap p fun z => { z with warned := z.warned - 1 }).bump (Reg.SNP_WARN h p)
     let starts (half : Bool) := exec (.snapPrewarning part now) s = .next ((u.modSnap p fun z => { z with
       autoHalf := half, lastAuto := some now }).snapBegin p 1#8 (BitVec.ofNat 8 (x.c 3 1 % 64)) true)
     serving → x.warned ≠ 0 →
     (x.setup = true → x.autoOn = true → x.steps = true → s.snapSt p = SnapSt.idle → x.c 3 1 % 64 ≠ 0 →
       (x.lastAuto = none → starts false) ∧
       (∀ t, x.lastAuto = some t → t + x.c 10 2 ≤ now → starts (!x.autoHalf)) ∧
       (∀ t, x.lastAuto = some t → now < t + x.c 10 2 → exec (.snapPrewarning part now) s = .next u)) ∧
     (x.setup = false → exec (.snapPrewarning part now) s = .next u)) ∧
    (let u := s.begun 0x53 hub page
     let n := m.f 1 1
     -- what the host answered to the reads of the manifests and the granules
     let a := u.lanternReads l (manifests.take n)
     let b := a.1.lanternReads l (granules.map (·.2))
     let data (slot : Nat) : List (BitVec 8) := match ((granules.map (·.1)).zip b.2).find? (fun g => g.1 = slot) with
       | some g => (g.2 ++ List.replicate 65536 0#8).take 65536
       | none => []
     let kept := a.2.filter Man.ok
     ((manifests ++ granules.map (·.2)).contains .timeout = false ∨
       (s.freeTag (s.partHub (fieldAt (s.mbx (hub.val * 64 + page.val)).held 16 1)) 0).isSome = true) →
     up → 1 ≤ n → 8 + 8 * n ≤ m.length → zeros (8 + 8 * n) → m.f 2 2 = 0 → (s.part q).state = .active →
     (s.reg (Reg.DIS_PAUSED l).addr).getLsbD q = true → s.snapRuns q = false → (s.snap q).setup = true → s.lanternHost l = true →
     (kept = [] → Serves (.snapRestore hub page manifests granules) 0x53 hub page s
       ((b.1.snapStatus q St.badParam).answer m.src St.badParam [])) ∧
     (∀ man, kept = [man] →
       let es := Man.entries man
       let r := es.foldl (fun t e => t.restoreEntry q e (data (Ent.slot e))) b.1
       let w := ((r.wr (Reg.SNP_STEP l q) (Man.step man).toNat).wr (Reg.SNP_DONE_GRAN l q) es.length).wr (Reg.SNP_TOTAL_GRAN l q) es.length
       fieldAt man 32 4 = 0 → fieldAt man 36 4 = 1 → m.f 4 4 = 0 → (∀ e ∈ es, b.1.entryHeld q e = true) →
       ((∃ e ∈ es, b.1.entryGone q e = true) → Serves (.snapRestore hub page manifests granules) 0x53 hub page s
         ((b.1.snapStatus q St.unitAbsent).answer m.src St.unitAbsent [])) ∧
       ((∀ e ∈ es, b.1.entryGone q e = false) → (∀ e ∈ es, Ent.stored e = true → sm3 (data (Ent.slot e)) = Ent.digest e) →
         Serves (.snapRestore hub page manifests granules) 0x53 hub page s ((w.snapStatus q St.ok).answer m.src St.ok
           (leBytes 4 (Man.step man).toNat ++ leBytes 4 0 ++ leBytes 4 es.length)))))

/-- The functions of a host link (R284, R289, R300, R305, R306, R307, R310, R325, R474): clearing or setting Bus Master Enable stalls or
resumes a function's engines, an FLR abandons its tags and gives its state its reset values but for the RID, D3hot stalls it, PERST
resets all four and takes the link down, from where it trains, comes up with its width, speed and mode, and goes down with bit 20;
configuration writes set their fields once the link is ready; another RID suspends the slices that named the old one.
What of it is the model's choice or reading, and no rule of the spec: log entries 56, 57, 58, 99. -/
def Obligations.EndpointFunctions : Prop :=
  ∀ (link : Fin 2) (fn : Fin 4) (width : Fin 5) (speed : Fin 6) (flit on : Bool) (v : BitVec 4) (n : Nat) (rid : BitVec 16) (slice : Nat)
    (w3 : BitVec 3) (g : Fin 2) (field : CfgField) (upset : Nat) (parity : Bool) (host : Fin 256) (tag : Fin 16384) (off : Nat) (more : Fin 64)
    (x : Slice) (s : State),
    let l := link.val
    let k := s.link l
    let f := k.getFns fn
    let up := k.up = true ∧ k.configReady = true
    let set (g : Fn → Fn) : State := s.modLink l fun y => y.setFns fn (g (y.getFns fn))
    let quiet := (s.reg ((pcePage l).base + 0x1C)).getLsbD 20 = false
    (exec (.bmeSet link fn) s = .next (((set fun y => { y with bme := true }).showStall l fn).flushFn l fn)) ∧
    -- what waited for the function goes out: its vectors, and the log mirrors behind PF0
    (∀ u : State, u.flushFn l fn = if fn = 0 then (u.flushPba l 0).flushMirrors l else u.flushPba l fn) ∧
    (2 ≤ fn.val → exec (.bmeClear link fn) s = .next ((set fun y => { y with bme := false }).showStall l fn)) ∧
    (fn.val < 2 → exec (.bmeClear link fn) s = .next (((set fun y => { y with bme := false }).showStall l fn).driverLoss l Loss.bme)) ∧
    (∀ (q : Nat) (y : NicQp), (set fun z => { z with bme := false }).nicqp q = some y → q / 4096 = l → y.error = false → fn = 3 →
      ((set fun z => { z with bme := false }).showStall l 3).nicqp q = some { y with status := St.masterDisabled }) ∧
    (∃ t, exec (.flr link fn) s = .next t ∧ (t.link l).getFns fn = { Fn.reset with rid := f.rid } ∧
      (∀ g : Fin 4, g ≠ fn → (t.link l).getFns g = k.getFns g) ∧
      (∀ y ∈ (t.link l).tags, y.fn = fn.val → y.quar = true) ∧ (fn = 3 → ∀ q y, t.nicqp q = some y → q / 4096 ≠ l) ∧
      (fn = 2 → (t.nvme l).en = false ∧ (t.nvme l).rdy = false) ∧ t.mem = s.mem ∧ t.cores = s.cores) ∧
    (exec (.d3hotEntry link fn) s = .next ((set fun y => { y with d3 := true }).showStall l fn)) ∧
    (exec (.d3hotExit link fn) s = .next (((set fun y => { y with d3 := false }).showStall l fn).flushFn l fn)) ∧
    (∃ t, exec (.perstAssert link) s = .next t ∧ t.pins.perst.getLsbD l = true ∧ (t.link l).up = false ∧
      (t.link l).training = false ∧ t.rd (Reg.PCE_LINK_UP l) = 0 ∧ t.rd (Reg.PCE_LINK_WIDTH l) = 0 ∧
      (∀ g : Fin 4, (t.link l).getFns g = { Fn.reset with rid := (k.getFns g).rid }) ∧ t.mem = s.mem ∧ t.cores = s.cores) ∧
    (∃ t, exec (.perstRelease link) s = .next t ∧ t.pins.perst.getLsbD l = false ∧
      (t.link l).training = (s.pins.refclk.getLsbD (1 + l) && !s.pins.lostGroups.getLsbD 15) ∧
      t = { s with pins := t.pins, links := t.links }) ∧
    (k.training = true → s.linkMayTrain l = true →
      ∃ t, exec (.pcieLinkUp link width speed flit) s = .next t ∧ (t.link l).up = true ∧ (t.link l).training = false ∧
        t.on (Reg.PCE_LINK_UP l) = true ∧ t.rd (Reg.PCE_LINK_WIDTH l) = 2 ^ width.val ∧ t.rd (Reg.PCE_LINK_SPEED l) = speed.val + 1 ∧
        t.on (Reg.PCE_LINK_FLIT l) = flit ∧ t.pins.wake = false) ∧
    (k.training = false → exec (.pcieLinkUp link width speed flit) s = .next s) ∧
    (k.up = true → ∃ t, exec (.pcieLinkDown link) s = .next t ∧ (t.link l).up = false ∧ t.rd (Reg.PCE_LINK_UP l) = 0 ∧
      (t.reg ((pcePage l).base + 0x18)).getLsbD 20 = true ∧ (quiet → t.st (pcePage l) = s.st (pcePage l))) ∧
    (k.up = false → exec (.pcieLinkDown link) s = .next s) ∧
    (up →
      (s.bru.started = true → s.on (Reg.PCE_CTL_FORCE_A l) = false → v ∈ [0b0001#4, 0b0010#4, 0b0101#4] →
        ∃ t, exec (.configurationWrite link (.ctoRange v)) s = .next t ∧ (t.link l).ctoRange = v ∧
          t.rd (Reg.PCE_CTO l) = (if v = 0b0001#4 then 80 else if v = 0b0010#4 then 8000 else 50000) ∧
          t = { s with links := t.links, regs := t.regs }) ∧
      (fn ≠ 0 → exec (.configurationWrite link (.msixEnable fn on)) s = .next ((set fun y => { y with msixEn := on }).flushPba l fn)) ∧
      exec (.configurationWrite link (.msixEnable 0 on)) s =
        .next (((s.modLink l fun y => y.setFns 0 { y.getFns 0 with msixEn := on }).flushPba l 0).updateInta l) ∧
      exec (.configurationWrite link (.maxPayload fn w3)) s = .next (if w3.toNat ≤ 2 then set fun y => { y with mps := w3 } else s) ∧
      exec (.configurationWrite link (.maxReadRequest fn w3)) s = .next (if w3.toNat ≤ 5 then set fun y => { y with mrrs := w3 } else s) ∧
      exec (.configurationWrite link (.tag10 fn on)) s = .next (set fun y => { y with tag10 := on }) ∧
      exec (.configurationWrite link (.tag14 fn on)) s = .next (set fun y => { y with tag14 := on }) ∧
      exec (.configurationWrite link (.ecrc fn on flit)) s = .next (set fun y => { y with ecrcGen := on, ecrcChk := flit }) ∧
      exec (.configurationWrite link (.aspm fn on)) s = .next (set fun y => { y with aspmL1 := on }) ∧
      (∃ t, exec (.configurationWrite link (.ideStream g on)) s = .next t ∧ (t.link l).ideEn.getLsbD g = on ∧
        (∀ j : Fin 2, j ≠ g → (t.link l).ideEn.getLsbD j = k.ideEn.getLsbD j) ∧ t = { s with links := t.links }) ∧
      (exec (.memoryRead (.config link fn field) upset parity host tag) s = .next (s.out (.config link fn (s.cfgRead l fn field)))) ∧
      exec (.configurationWrite link (.interruptDisable on)) s = .next ((s.modLink l fun y => { y with intDis := on }).updateInta l) ∧
      exec (.configurationWrite link (.pmeEnable on)) s = .next (s.modLink l fun y => { y with pmeEn := on }) ∧
      exec (.configurationWrite link .pmeStatusClear) s = .next (s.modLink l fun y => { y with pmeStatus := false }) ∧
      exec (.configurationWrite link .retrainLink) s = .next (s.linkDown l) ∧
      (fn ≠ 0 → exec (.configurationWrite link (.atsEnable fn on)) s = .next (set fun y => { y with atsEn := on }))) ∧
    -- a read of a function's BAR0 answers what stands there, and an unsupported request elsewhere
    (let reads (t : State) := exec (.memoryRead (.function link fn off more) upset parity host tag) s = .next t
     (fn = 0 → reads (s.memRead (.host link) (regBase + off) (more.val + 1) 0 false 0 0)) ∧
     (fn ≠ 0 → s.fnServes l fn = false → reads (s.notServed l fn false)) ∧
     (∀ b, fn ≠ 0 → s.fnServes l fn = true → s.fnRead l fn off (more.val + 1) = some b →
       reads ((s.reply (.host link) off St.ok b false).draw)) ∧
     (fn ≠ 0 → s.fnServes l fn = true → s.fnRead l fn off (more.val + 1) = none → reads (s.fnUnimplemented l off (more.val + 1) false)) ∧
     (∀ (v : Fin 2048) (j : Fin 4), fn ≠ 0 → more.val = 3 →
       off = (if fn = 1 then 0x100000 else if fn = 2 then 0x8000 else 0x80000) + 16 * v.val + 4 * j.val →
       s.fnRead l fn off 4 = some (leBytes 4 (f.tableWord (4 * v.val + j.val))))) ∧
    (s.cfgRead l fn .vendorId = 0x1F6B ∧ s.cfgRead l fn .deviceId = 0x3220 + fn ∧ s.cfgRead l fn .maxPayload = f.mps.toNat ∧
      s.cfgRead l fn .busMaster = (if f.bme then 1 else 0) ∧ s.cfgRead l fn .powerState = (if f.d3 then 3 else 0) ∧
      s.cfgRead l fn .subsystemVendorId = s.bru.boardSub.toNat % 2 ^ 16) ∧
    (up → let lo := if g = 0 then 30 else 36; let hi := if g = 0 then 40 else 41
      (lo ≤ n → n ≤ hi → exec (.configurationWrite link (.bar2Size g n)) s = .next (s.modLink l fun y => y.setBar2Log2 g n)) ∧
      (n < lo ∨ hi < n → exec (.configurationWrite link (.bar2Size g n)) s = .next s)) ∧
    (k.configReady = false → exec (.configurationWrite link (.pmeEnable on)) s = .next s) ∧
    (let r := (rid &&& 0xFFF8#16) ||| BitVec.ofNat 16 fn
     s.slice slice = some x → s.partHub x.part = l → x.func = fn.val →
     ∃ t, exec (.ridChange link fn rid) s = .next t ∧ ((t.link l).getFns fn).rid = r ∧
       (x.rid ≠ r → t.slice slice = some { x with suspended := true }) ∧ (x.rid = r → t.slice slice = some x) ∧
       t = { s with links := t.links, slices := t.slices })

/-- Power, heat and telemetry (R472, R550, R552, R553, R554, R555, R556, R557, R558, R559, R563, R566): a sample shows the hottest
sensor; a thermal tick lowers a hot die's limit, or raises a cool one's after ten; an alert holds every die at point 0 and starts an
emergency, which ends when no condition is left; a droop halves a cluster's clock and is counted; a die goes to its point in force;
energy is charged to the partitions; a period emits its records; a capture shows
both counts; the terminus answers for its sensors.
What of it is the model's choice or reading, and no rule of the spec: log entries 7, 8, 46, 47, 48, 49, 50, 105. -/
def Obligations.PowerAndTelemetry : Prop :=
  ∀ (gc : Fin 160) (die : Fin 10) (k : Fin 20) (hub : Fin 2) (part : Fin 12) (rail : Fin 12) (temp : BitVec 16)
    (now measured static counted handle : Nat) (e : Energy) (count ca cb : BitVec 48) (pairs : List (BitVec 48 × BitVec 48))
    (receiver : Option (BitVec 8)) (sensor : PldmSensor) (s : State),
    let d := die.val
    let x := s.pwr.getDies d
    let dg := dieOfGc gc
    let h := hub.val
    let p := part.val
    let running := s.powerUp = true
    (∃ t, exec (.sensorSample (.stack k) temp now) s = .next t ∧ t.rd (Reg.PWR_HBM_TEMP 0 k) = temp.toNat ∧
      t.rd (Reg.PWR_HBM_TEMP 1 k) = temp.toNat ∧
      t.pwr.stackHalf.getLsbD k = atLimit (tempOf temp) stackLimit ∧ (∀ j, t.pwr.getDies j = s.pwr.getDies j) ∧
      t = { s with regs := t.regs, pwr := t.pwr, outs := t.outs }) ∧
    (∃ t, exec (.sensorSample (.hub hub ⟨0, by decide⟩) temp now) s = .next t ∧
      t.rd (Reg.PWR_HUB_TEMP hub) = (hottest (temp :: ((List.range 32).drop 1).map fun j => s.pwr.getHubTemps (32 * h + j))).toNat ∧
      t = { s with regs := t.regs, pwr := t.pwr }) ∧
    (running → ∃ y : DieP, exec (.thermalLimitTick die) s = .next ((s.modDie d fun _ => y).updatePoint d) ∧
      (atLimit (s.dieHot d) s.tThrottle = true → y = { x with thermLimit := x.thermLimit - 1, coolMs := 0 }) ∧
      (atLimit (s.dieHot d) s.tThrottle = false → atLimit (s.dieHot d) (s.tThrottle - 12) = true → y = { x with coolMs := 0 }) ∧
      (atLimit (s.dieHot d) s.tThrottle = false → atLimit (s.dieHot d) (s.tThrottle - 12) = false →
        (x.coolMs < 9 → y = { x with coolMs := x.coolMs + 1 }) ∧
        (9 ≤ x.coolMs → y = { x with thermLimit := min 6 (x.thermLimit + 1), coolMs := 0 }))) ∧
    (s.pins.thermAlert = false → s.pins.romDone = true → ∃ t, exec .thermAlertN s = .next t ∧ t.pins.thermAlert = true ∧
      (t.pwr.getDies d).hold = true ∧ t.pwr.emerg = true ∧ t.rd (Reg.PWR_DIE_STAT_POINT 0 d) = 0 ∧ t.mem = s.mem ∧ t.cores = s.cores) ∧
    (s.pins.thermAlert = false → s.pins.romDone = false →
      exec .thermAlertN s = .next { s with pins := { s.pins with thermAlert := true } }) ∧
    (∃ t, exec .thermAlertRelease s = .next t ∧ t.pins.thermAlert = false ∧ t.pwr.pmEmerg.getLsbD 0 = false ∧
      (x.hold = true → atLimit (s.dieHot d) tripOff = false → (t.pwr.getDies d).hold = false)) ∧
    (∃ t, exec (.droopDetect gc) s = .next t ∧ (t.pwr.getDies dg).stretch = (s.pwr.getDies dg).stretch ||| (1#16 <<< (gc.val % 16)) ∧
      t.rd (Reg.PWR_DIE_DROOP 0 dg) = min (s.rd (Reg.PWR_DIE_DROOP 0 dg) + 1) (2 ^ 32 - 1) ∧
      t = { s with regs := t.regs, pwr := t.pwr }) ∧
    (∃ t, exec (.droopRecover gc) s = .next t ∧ (t.pwr.getDies dg).stretch.getLsbD (gc.val % 16) = false ∧
      (∀ j, j ≠ dg → t.pwr.getDies j = s.pwr.getDies j) ∧ t = { s with pwr := t.pwr }) ∧
    (let q := s.rd (Reg.PWR_DIE_STAT_POINT 0 d)
     ∃ t, exec (.dvfsSwitch die) s = .next t ∧ t.rd (Reg.PWR_DIE_CLK_MV 0 d) = pointMv q ∧ t.rd (Reg.PWR_DIE_CLK_MHZ 0 d) = pointMhz q ∧
       (s.rd (Reg.PWR_DIE_CLK_MV 0 d) ≠ pointMv q → t.outs = .avs d (pointMv q) :: s.outs) ∧
       t = { s with regs := t.regs, outs := t.outs }) ∧
    (s.pwr.pmEmerg ≠ 0#4 → s.pwr.emerg = false → exec .emergencyStart s = .next (s.emergSet true)) ∧
    (s.pwr.pmEmerg = 0#4 ∨ s.pwr.emerg = true → exec .emergencyStart s = .next s) ∧
    (s.pwr.pmEmerg = 0#4 → s.pwr.emerg = true → exec .emergencyEnd s = .next (s.emergSet false).runPending) ∧
    (s.pwr.pmEmerg ≠ 0#4 → exec .emergencyEnd s = .next s) ∧
    (running → ∃ t, exec (.estimatorScale rail measured static counted) s = .next t ∧
      t.pwr.getScale rail = (if counted = 0 then s.pwr.getScale rail else max 512 (min 2048 ((measured - static) * 1024 / counted))) ∧
      t.pwr.getStatics rail = (if counted = 0 then 0 else static * 1024 / counted) ∧ (∀ j, j ≠ rail.val → t.pwr.getScale j = s.pwr.getScale j) ∧ t = { s with pwr := t.pwr }) ∧
    (∃ t, exec (.energyAccumulate e) s = .next t ∧
      (let cl := e.clusters.map fun y => (y.1, s.railEnergy (dieOfGc y.1) y.2)
       let uj := sumOf cl (fun g => s.clusterPart g.val = p) + sumOf e.units (fun u => s.unitPart u.val = p) +
         sumOf (e.engines.map fun y => (y.1.2, s.railEnergy (10 + y.1.1) y.2)) (fun q => q.val = p)
       t.rd64 (Reg.TEL_P_ENERGY_LO h p) = (s.rd64 (Reg.TEL_P_ENERGY_LO h p) + uj) % 2 ^ 64 ∧
       t.rd (Reg.TEL_P_MW h p) = uj % 2 ^ 32) ∧ t = { s with regs := t.regs, pwr := t.pwr }) ∧
    (running → (s.part p).state = .active → (s.part p).pcap = 0#16 →
      ∃ t, exec (.dutyUpdate part) s = .next t ∧ t.rd (Reg.TEL_P_CAP_DUTY h p) = 16 ∧ t.on (Reg.TEL_P_CAP_UNMET h p) = false) ∧
    (s.serving (telPage h) = false → exec (.telPeriod hub count pairs) s = .next s) ∧
    (running → s.serving (telPage h) = true → (∀ q < 12, (s.part q).state ≠ .active) → s.on (Reg.TEL_CFG_RING_EN h) = false → s.on (Reg.TEL_CFG_UDP_EN h) = false →
      ∃ t, exec (.telPeriod hub count pairs) s = .next t ∧ t.clockOf 0 = count ∧
        (t.tel h).seq = (s.tel h).seq + BitVec.ofNat 32 (20 + min 20 pairs.length) ∧ t = { s with clocks := t.clocks, tels := t.tels }) ∧
    (∀ typ domain c payload, s.serving (telPage h) = true → s.on (Reg.TEL_CFG_RING_EN h) = true → s.fnMaster h 0 = true →
      let head := s.rd (Reg.TEL_RING_HEAD h)
      (head + 2 ^ 32 - s.rd (Reg.TEL_RING_TAIL h)) % 2 ^ 32 < s.ringSize h →
      (s.emit h typ domain c payload).rd (Reg.TEL_RING_HEAD h) = (head + 1) % 2 ^ 32 ∧
      (s.emit h typ domain c payload).hostMem = (s.hostWrite (s.fnId h 0) (s.rd (Reg.TEL_RING_BASE_LO h) * 4096 +
        s.rd (Reg.TEL_RING_BASE_HI h) * 2 ^ 32 + 64 * (head % s.ringSize h)) (telBytes (s.tel h).seq.toNat typ domain c payload)).hostMem) ∧
    (s.st (telPage h) ≠ PS.off → s.pageGone (telPage h) 0x60 = false →
      (s.on (Reg.TEL_PAIR_CTL_GO h) = false → ∃ t, exec (.telPairGo hub) s = .next t ∧ t.on (Reg.TEL_PAIR_CTL_GO h) = true ∧
        t.on (Reg.TEL_PAIR_STAT_VALID h) = false ∧ t = { s with regs := t.regs }) ∧
      (s.on (Reg.TEL_PAIR_CTL_GO h) = true → exec (.telPairGo hub) s = .next (s.ignoreWrite (telPage h) 0x60))) ∧
    (s.on (Reg.TEL_PAIR_CTL_GO h) = true → ∃ t, exec (.pairCaptureDone hub ca cb) s = .next t ∧
      t.on (Reg.TEL_PAIR_CTL_GO h) = false ∧ t.on (Reg.TEL_PAIR_STAT_VALID h) = true ∧
      (let runs := s.domainRuns (s.rd (Reg.TEL_PAIR_DOM_A h)) && s.domainRuns (s.rd (Reg.TEL_PAIR_DOM_B h))
       t.rd (Reg.TEL_PAIR_STAT_STATUS h) = (if runs then St.ok else St.unitAbsent).toNat ∧
       t.rd (Reg.TEL_PAIR_COUNT_A_LO h) + t.rd (Reg.TEL_PAIR_COUNT_A_HI h) * 2 ^ 32 = (if runs then ca.toNat else 0) ∧
       t.rd (Reg.TEL_PAIR_COUNT_B_LO h) + t.rd (Reg.TEL_PAIR_COUNT_B_HI h) * 2 ^ 32 = (if runs then cb.toNat else 0)) ∧
      t = { s with regs := t.regs, clocks := t.clocks }) ∧
    (running → exec .gettid s = .next (s.out (.pldm (.tid (s.tel 0).tid))) ∧
      exec (.seteventreceiver false receiver) s = .next ((s.modTel 0 fun y => { y with receiver := receiver }).out (.pldm .receiverSet)) ∧
      exec (.seteventreceiver true receiver) s = .next (s.out (.pldm .invalid)) ∧
      exec .getpdrrepositoryinfo s = .next (s.out (.pldm (.repository 45))) ∧
      (1 ≤ handle → handle ≤ 10 → exec (.getpdr handle) s = .next (s.out (.pldm (.pdr handle (.die (Fin.ofNat 10 (handle - 1))))))) ∧
      (45 < handle → exec (.getpdr handle) s = .next (s.out (.pldm .invalid))) ∧
      exec (.getsensorreading sensor) s = .next (s.out (.pldm (.reading sensor (s.pldmValue sensor)))))

/-- Device power above and below its limit (R560): each millisecond above PWR_LIMIT lowers by one point the die with the highest point,
the lowest-numbered of several; once the power is 5 % below, the die lowered last is raised. -/
def Obligations.PowerLimit : Prop :=
  ∀ (watts : BitVec 16) (s : State), s.powerUp = true →
    let point (d : Nat) : Nat := s.rd (Reg.PWR_DIE_STAT_POINT 0 d)
    let w := watts.toNat
    let limit := s.rd (Reg.PWR_LIMIT 0)
    (limit < w → ∃ j t, j < 10 ∧ (∀ d < 10, point d ≤ point j) ∧ (∀ d < j, point d < point j) ∧
      exec (.powerLimitTick watts) s = .next t ∧ t.rd (Reg.PWR_DEV_WATTS 0) = w ∧ (∀ d, d ≠ j → t.pwr.getDies d = s.pwr.getDies d) ∧
      (∀ d < 10, d ≠ j → t.rd (Reg.PWR_DIE_STAT_POINT 0 d) = point d) ∧
      (0 < point j → (t.pwr.getDies j).devLimit = point j - 1 ∧ t.pwr.lowered = j :: s.pwr.lowered ∧
        ((s.pwr.getDies j).hold = false → s.pwr.emerg = false → point j ≤ (s.pwr.getDies j).thermLimit →
          point j ≤ min 6 (s.rd (Reg.PWR_DIE_REQ_POINT 0 j)) → t.rd (Reg.PWR_DIE_STAT_POINT 0 j) = point j - 1)) ∧
      t = { s with regs := t.regs, pwr := t.pwr }) ∧
    (∀ j rest, w * 100 ≤ limit * 95 → s.pwr.lowered = j :: rest → ∃ t, exec (.powerLimitTick watts) s = .next t ∧
      t.pwr.lowered = rest ∧ (∀ d, d ≠ j → t.pwr.getDies d = s.pwr.getDies d) ∧
      ((s.pwr.getDies j).devLimit < 6 → (s.pwr.getDies j).devLimit < (t.pwr.getDies j).devLimit) ∧
      t = { s with regs := t.regs, pwr := t.pwr }) ∧
    (w ≤ limit → limit * 95 < w * 100 ∨ s.pwr.lowered = [] → ∃ t, exec (.powerLimitTick watts) s = .next t ∧
      (∀ d, t.pwr.getDies d = s.pwr.getDies d) ∧ t.pwr.lowered = s.pwr.lowered ∧ t = { s with regs := t.regs, pwr := t.pwr })

/-- Resets and bring-up (R57, R470, R478, R480, R481, R482, R483, R485, R488, R490, R494, R495, R496, R499, R526, R572, R574,
R579): a cold reset leaves the reset state with the ledger and flash kept and epochs 0; a warm one keeps the record and steps the epochs;
ROM_CHECK answers in BRU_STATUS; an accepted step begins; a unit that trained is usable; a step finishes once its
units have; a supply or a clock that is lost takes its part of the device with it.
What of it is the model's choice or reading, and no rule of the spec: log entries 8, 32, 33, 34, 37, 38, 40, 41, 43, 44. -/
def Obligations.Bringup : Prop :=
  ∀ (ok fallback : Bool) (f : RomFound) (i : Fin 16) (clk : Fin 5) (found : SelfFound) (step : Fin 12) (n : Fin 17) (u : Fin 80)
    (v : Fin 32) (ch : BitVec 8) (ch2 : BitVec 2) (s : State),
    let cold (t : State) : Prop := t.pins.porst = true ∧ t.pins.romDone = false ∧ t.pins.lostGroups = 0#16 ∧
      t.bru = { Bru.reset with ledger := s.bru.ledger } ∧ t.bbx.flash = s.bbx.flash ∧
      t = { State.reset with
        pins := t.pins, bru := t.bru, sec := t.sec, bbx := t.bbx, fwslots := s.fwslots, hostMem := s.hostMem, outs := s.outs
        clean := t.clean, freeCtr := s.freeCtr, fetchPtr := s.fetchPtr, pending := s.pending }
    let begins (c : Instr) (k : Nat) (p : State → Prop) : Prop :=
      s.stepAllowed k = true → ∃ t, exec c s = .next t ∧ t.bru.running.getLsbD k = true ∧ t.bru.accepted.getLsbD k = true ∧
        t.rd (Reg.BRU_STEP 0) = k ∧ t.on (Reg.BRU_STATUS_BUSY 0) = true ∧ t.on (Reg.BRU_STATUS_VALID 0) = false ∧ p t
    let aoKept := SMap.keep (fun k => alwaysOnKey 0 ≤ k) s.clean
    let opens (t : State) (p : Page) : Prop := s.st p = PS.disabled → p.blk ≠ .eth → s.badCfg p = false → t.st p = PS.enabling ∨ t.st p = PS.enabled
    (∃ t, exec (.powerUp ok) s = .next t ∧ cold t ∧ t.pins.pwrOk = 0#16 ∧ t.pins.pfail = false ∧ t.clean = [] ∧ t.sec.seed = if ok then some Config.pufSeed else none) ∧
    (∃ t, exec .porstN s = .next t ∧ cold t ∧ t.clean = aoKept ∧
      t.pins.resetCause = (if s.bbx.suspended then 3#4 else if s.bru.fatal then 5#4 else 1#4)) ∧
    (s.pins.porst = true → exec .wrstN s = .next { s with pins := { s.pins with wrst := true } }) ∧
    (s.pins.porst = false → ∃ t, exec .wrstN s = .next t ∧ t.pins.wrst = true ∧ t.pins.romDone = false ∧
      t.bru = { Bru.reset with ledger := s.bru.ledger, record := s.bru.record } ∧
      t.rd (Reg.BRU_CFG_FORCE_FULL 0) = s.rd (Reg.BRU_CFG_FORCE_FULL 0) ∧ t.pins.lostGroups = s.pins.lostGroups ∧
      (∀ p ∈ allPages, p.inactive = false → t.rd (Reg.STATE_EPOCH p) = (s.rd (Reg.STATE_EPOCH p) + 1) % 256) ∧
      t = { State.reset with
        regs := t.regs, pins := t.pins, bru := t.bru, sec := t.sec, bbx := t.bbx, fwslots := s.fwslots, hostMem := s.hostMem
        outs := s.outs, clean := aoKept, freeCtr := s.freeCtr, fetchPtr := s.fetchPtr, pending := s.pending }) ∧
    (s.pins.pwrOk ≠ 0xFFFF#16 → exec (.romCheck f) s = .next s) ∧
    (s.pins.porst = true ∨ s.pins.wrst = true → s.pins.pwrOk = 0xFFFF#16 → s.pins.refclk.getLsbD 0 = true →
      let slot := ((s.romOpen f).bootSlot).2
      ∃ t, exec (.romCheck f) s = .next t ∧ t.pins.porst = false ∧ t.pins.wrst = false ∧ t.pins.romDone = true ∧
        t.rd (Reg.BRU_STATUS_STEP 0) = 1 ∧ t.on (Reg.BRU_STATUS_VALID 0) = true ∧ t.rd (Reg.BRU_STATUS_SEQ 0) = 1 ∧
        t.bru.finished.getLsbD 1 = true ∧
        t.rd (Reg.BRU_STATUS_RESULT 0) = (if slot = none then St.authFail else St.ok).toNat ∧
        (slot = none → t.bru.noImage = true) ∧ (∀ k, slot = some k → t.bru.slotBooted = k)) ∧
    (s.pins.romDone = false ∨ s.bbx.suspended = true → exec .pfailN s = .next { s with pins := { s.pins with pfail := true } }) ∧
    (s.pins.romDone = true → s.bbx.suspended = false → ∃ t, exec .pfailN s = .next t ∧ t.pins.pfail = true ∧ t.bbx.suspended = true ∧
      t.pwr.pmEmerg.getLsbD 2 = true ∧ t.pwr.emerg = true ∧ t.mem = s.mem ∧ t.cores = s.cores) ∧
    (s.bbx.suspended = false → exec .pfailRelease s = .next { s with pins := { s.pins with pfail := false } }) ∧
    (s.bbx.suspended = true → ∃ t, exec .pfailRelease s = .next t ∧ t.pins = { s.pins with pfail := false } ∧
      t.bbx = { s.bbx with suspended := false, pfLost := 0#32 } ∧ t.pwr.pmEmerg.getLsbD 2 = false ∧
      t = { s with pins := t.pins, bbx := t.bbx, pwr := t.pwr }) ∧
    (s.pins.romDone = false →
      exec (.pwrOkDeassert i) s = .next { s with pins := { s.pins with pwrOk := s.pins.pwrOk &&& ~~~(1#16 <<< i.val) } }) ∧
    (s.pins.romDone = true → ∃ t, exec (.pwrOkDeassert i) s = .next t ∧ t.pins.pwrOk.getLsbD i = false ∧
      (i.val < 2 → t.pins.porst = true ∧ t.pins.romDone = false ∧ t.mem = [] ∧ t.cores = []) ∧
      (2 ≤ i.val → t.pins.lostGroups.getLsbD i = true ∧ t.pins.porst = s.pins.porst ∧ t.pins.romDone = true) ∧
      (i.val = 13 → s.bru.memDone.getLsbD u = true → t.bru.memBad.getLsbD u = true) ∧
      (i.val = 14 → s.bru.memDone.getLsbD (80 + v.val) = true → t.bru.memBad.getLsbD (80 + v.val) = true)) ∧
    (∃ t, exec (.pwrOkAssert i) s = .next t ∧ t.pins.pwrOk = s.pins.pwrOk ||| (1#16 <<< i.val) ∧
      t.pins.riseOrder = (if s.pins.riseOrder.contains i.val then s.pins.riseOrder else s.pins.riseOrder ++ [i.val]) ∧
      t = { s with pins := { s.pins with pwrOk := t.pins.pwrOk, riseOrder := t.pins.riseOrder } }) ∧
    (∃ t, exec (.refclkStop clk) s = .next t ∧ t.pins.refclk.getLsbD clk = false ∧
      (clk.val = 0 → t.pins.porst = (s.pins.porst || s.pins.romDone)) ∧
      (clk.val = 1 ∨ clk.val = 2 → (t.link (clk.val - 1)).up = false ∧ (t.link (clk.val - 1)).training = false) ∧
      (clk.val = 3 ∨ clk.val = 4 → ∀ p < 4, t.rd (Reg.ETH_LINK_STATE ((clk.val - 3) * 4 + p)) = EthSt.down)) ∧
    (∃ t, exec (.refclkRestart clk) s = .next t ∧ t.pins = { s.pins with refclk := s.pins.refclk ||| (1#5 <<< clk.val) } ∧
      t = { s with pins := t.pins, links := t.links }) ∧
    begins .trainD2d 2 (fun t => ∀ k < 17, s.d2dWord k ≠ ⟨D2d.up, 2, 0⟩ → t.d2dState k = D2d.training) ∧
    begins .trainHbm 3 (fun t => ∀ k < 20, opens t ⟨.hmc, k⟩) ∧
    begins .trainLpddr 4 (fun t => ∀ k < 8, opens t ⟨.lpc, k⟩) ∧
    begins .trainEth 5 (fun _ => True) ∧
    begins .trainSsd 6 (fun _ => True) ∧
    begins (.selfTest found) 7 (fun t =>
      t.bru.failedSlots = (if s.bru.fast then s.bru.record.failedSlots else found.slots.map fun x => slotKey x.1 x.2) ∧
      t.bru.failedClusters = (if s.bru.fast then s.bru.record.failedClusters else found.clusters.map fun g => g.val) ∧
      t.bru.rows = (if s.bru.fast then s.bru.record.rows else found.rows.map fun l => l.toNat) ∧
      t.bru.hubArray = (if s.bru.fast then s.bru.hubArray else found.hubArray)) ∧
    begins .buildMap 8 (fun t => t.bru.mapBuilt = true ∧
      t.bru.t2Mapped.getLsbD v = (s.bru.memDone.getLsbD (80 + v.val) && !s.bru.memBad.getLsbD (80 + v.val))) ∧
    begins .memFill 9 (fun t => natBits (s.rd (Reg.BRU_CFG_FILL 0)) 0 1 = 1 → s.unitAbsent u = false →
      ∀ k, t.region k = u → (s.retiredIn u).contains (k / 4096) = false → t.byteAt k = 0 ∧ t.isClean k = true) ∧
    begins .loadFw 10 (fun t => s.inTiers (s.bruAddr (Reg.BRU_FW_MANIFEST_LO 0) (Reg.BRU_FW_MANIFEST_HI 0)) 1 = false →
      t.bru.getResult 10 = St.badParam) ∧
    begins .start 11 (fun t =>
      let failed := (List.range 17).any fun k => s.d2dState k = D2d.failed
      ((failed || s.bru.hubArray) = true → t.bru.startRefused = true ∧ t.bru.getResult 11 = St.unitAbsent) ∧
      ((failed || s.bru.hubArray) = false → t.bru.started = true ∧
        t.rd (Reg.BRU_CFG_FORCE_FULL 0) = 0 ∧ t.rd (Reg.FWP_LINK_STATE 0 0) = LinkSt.attached ∧
        t.rd (Reg.FWP_LINK_STATE 0 1) = LinkSt.attached)) ∧
    ((s.d2dWord n).state ≠ D2d.training → (s.d2dWord n).state ≠ D2d.retraining →
      exec (.unitTrained (.link n ⟨2, by decide⟩ ⟨0, by decide⟩) fallback) s = .next s) ∧
    (s.bru.fast = false → s.groupLost (.link n ⟨2, by decide⟩ ⟨0, by decide⟩) = false →
      (s.d2dWord n).state = D2d.training ∨ (s.d2dWord n).state = D2d.retraining →
      ∃ t, exec (.unitTrained (.link n ⟨2, by decide⟩ ⟨0, by decide⟩) fallback) s = .next t ∧ t.d2dState n = D2d.up) ∧
    (s.bru.fast = false → s.groupLost (.hbm u ch false) = false → s.bru.memDone.getLsbD u = false → s.st (ctrlPage u) = PS.enabled →
      ∃ t, exec (.unitTrained (.hbm u ch false) fallback) s = .next t ∧ t.bru.memDone.getLsbD u = true ∧
        t.bru.memBad.getLsbD u = decide (ch ≠ 255#8) ∧ t.rd (unitChannels u) = ch.toNat) ∧
    (s.bru.fast = false → s.groupLost (.package v ch2) = false → s.bru.memDone.getLsbD (80 + v.val) = false →
      s.st (ctrlPage (80 + v.val)) = PS.enabled →
      ∃ t, exec (.unitTrained (.package v ch2) fallback) s = .next t ∧ t.bru.memDone.getLsbD (80 + v.val) = true ∧
        t.bru.memBad.getLsbD (80 + v.val) = decide (ch2 ≠ 3#2)) ∧
    (s.running step = false ∨ s.unitsDone step = false → exec (.bruStepFinish step) s = .next s) ∧
    (s.running step = true → s.unitsDone step = true → ∃ t, exec (.bruStepFinish step) s = .next t ∧
      t.running step = false ∧ t.finished step = true ∧ t.rd (Reg.BRU_STATUS_STEP 0) = step.val ∧
      t.bru.record = (if step.val = 11 ∧ s.bru.startRefused = false then s.retain else s.bru.record) ∧
      t.on (Reg.BRU_STATUS_VALID 0) = true ∧ t.rd (Reg.BRU_STATUS_RESULT 0) = (s.unitsSay step).1.toNat ∧
      t.on (Reg.BRU_STATUS_DEGRADED 0) = (s.unitsSay step).2 ∧
      t.rd (Reg.BRU_STATUS_SEQ 0) = (s.rd (Reg.BRU_STATUS_SEQ 0) + 1) % 256)

/-- A step that is not accepted (R484): the command, or the write of its number to BRU_STEP, has no effect but its record in IGN_WRITE and
ERR_STAT.IGNORED_WRITE; BRU_STATUS and what bring-up holds are as before. A step that runs already is one that is not accepted. -/
def Obligations.RefusedSteps : Prop :=
  ∀ (k : Nat) (found : SelfFound) (aux : RegAux) (s : State),
    let u := s.ignoreWrite bruPage 0x40
    let steps : List (Nat × Instr) := [(2, .trainD2d), (3, .trainHbm), (4, .trainLpddr), (5, .trainEth), (6, .trainSsd),
      (7, .selfTest found), (8, .buildMap), (9, .memFill), (10, .loadFw), (11, .start)]
    (s.running k = true → s.stepAllowed k = false) ∧
    (s.stepAllowed k = false →
      (∀ c, (k, c) ∈ steps → exec c s = .next u) ∧ s.stepWrite k aux = u ∧
      u.rd (Reg.IGN_WRITE_COUNT bruPage) = min (s.rd (Reg.IGN_WRITE_COUNT bruPage) + 1) 65535 ∧
      u.rd (Reg.IGN_WRITE_OFFSET bruPage) = 0x40 ∧ (u.reg (bruPage.base + 0x18)).getLsbD 0 = true ∧
      u.reg (bruPage.base + 0x44) = s.reg (bruPage.base + 0x44) ∧ u.bru = s.bru ∧ u.mem = s.mem ∧ u.cores = s.cores ∧
      u.beacons = s.beacons)

/-- The state after reset (R57, R142, R172, R176, R480): registers and memory in canonical form, PORST_N asserted, every page OFF in epoch
0, every beacon 0, no command waiting; every core HELD at address 0 with its scalar registers
zero.
What of it is the model's choice or reading, and no rule of the spec: log entry 2. -/
def Obligations.ResetState : Prop :=
  State.reset.Canonical ∧ State.reset.pins.porst = true ∧ State.reset.pending = [] ∧
    (∀ p : Page, p.exists? = true → State.reset.st p = PS.off ∧ State.reset.rd (Reg.STATE_EPOCH p) = 0 ∧ State.reset.on (Reg.CTRL_ENABLE p) = false) ∧
    (∀ id, State.reset.beacon id = 0) ∧
    (∀ k, (State.reset.core k).run = .held ∧ (State.reset.core k).pc = 0 ∧ (∀ r, (State.reset.core k).sr r = 0))

/-- No command touches the queue: whatever command completes, in a state whose registers and memory are in canonical form, the commands
that wait are those that waited before (the queue is the model's own, log entry 1). -/
def Obligations.CommandsLeaveTheQueue : Prop :=
  ∀ (c : Instr) (s t : State), s.Canonical → exec c s = .next t → t.pending = s.pending

/-- Every step keeps registers and memory in canonical form: each lists its addresses rising, with no word or byte equal to what an
address that is not listed reads as, so that equal contents are equal data.
What of it is the model's choice or reading, and no rule of the spec: log entries 1, 5. -/
def Obligations.StepKeepsCanonical : Prop :=
  ∀ s t : State, s.Canonical → step s = .next t → t.Canonical

/-- What ends a partition's and a tile's work always completes (R106, R107, R115, R116, R311, R315, R318, R330): with its operation at the
head of the queue, or done, or its partition in the state the rule names, each of these ten commands leaves a next state with the
effect of its own. An MMA starts, with CLR once no other runs, and ends with its signal unless it met an escape
fault; MDRAIN and MCLR start when no MMA runs, a drain ends with its signal and MCLR leaves the
tile clear; a partition is created from FREE, is ACTIVE once its clusters are reset, takes its WEIGHT and PCAP, is destroyed from ACTIVE, and ends
FREE.
What of it is the model's choice or reading, and no rule of the spec: log entry 53. -/
def Obligations.EnginesAndPartitionsComplete : Prop :=
  ∀ (gc : Fin 160) (slot : Fin 18) (o : MOp) (rest : List MOp) (hub : Fin 2) (page : Fin 64) (part : Fin 12) (s : State),
    let p := slotKey gc slot
    let c := s.core p
    let ctl := Ctl.ofWord o.w2
    let d := Drain.ofWord o.w0
    let m := s.message hub page
    let n := m.f 0 1
    let x := m.shape
    let q := part.val
    let idle : Prop := ∀ e ∈ c.mrun, e.kind ≠ .mma
    let sum (t : State) (id k : Nat) : Prop := (t.cluster gc).getTable id = (s.cluster gc).getTable id + BitVec.ofNat 32 k
    (c.mqueue = o :: rest → o.kind = .mma → ctl.clr = false ∨ idle →
      ∃ t, exec (.mmaStart gc slot) s = .next t ∧ (t.core p).mqueue = rest ∧ (t.core p).mrun = c.mrun ++ [o] ∧
        (t.core p).tile.fresh = false ∧ (ctl.clr = true → ∀ k, (t.core p).tile.getP k = 0 ∧ (t.core p).tile.getQ k = 0)) ∧
    (c.mrun = o :: rest → o.kind = .mma → (s.mmaTile p o).2 = false →
      ∃ t, exec (.mmaDone gc slot []) s = .next t ∧ (t.core p).mqueue = c.mqueue ∧ (t.core p).mrun = rest ∧
        (t.core p).run = c.run ∧ sum t ctl.beacon ctl.sigN) ∧
    (c.mqueue = o :: rest → o.kind = .mdrain → idle →
      ∃ t, exec (.mdrainStart gc slot []) s = .next t ∧ (t.core p).mqueue = rest ∧ (t.core p).tile = c.tile ∧
        ∃ e, (t.core p).mrun = c.mrun ++ [e] ∧ e.kind = .mdrain ∧ e.w0 = o.w0 ∧ e.poison = c.tile.poison ∧ t.mem = s.mem) ∧
    (c.mrun = o :: rest → o.kind = .mdrain →
      ∃ t, exec (.mdrainDone gc slot) s = .next t ∧ (t.core p).mrun.length = rest.length ∧ (t.core p).run = c.run ∧
        sum t d.beacon d.sigN) ∧
    (c.mqueue = o :: rest → o.kind = .mclr → idle →
      ∃ t, exec (.mclrStart gc slot) s = .next t ∧ (t.core p).mqueue = rest ∧ (t.core p).mrun = c.mrun ∧
        (t.core p).tile = c.tile.clear) ∧
    (s.serves 0x210 hub page = true → 64 ≤ m.length → n < 12 → m.f 1 1 < 4 → m.f 3 1 = 0 → m.f 6 2 = 0 → m.f 38 2 = 0 → m.f 58 6 = 0 →
      (m.payload.drop 64).any (· ≠ 0#8) = false → x.clusters ≠ 0#160 → x.weight ≠ 0#8 → x.rangesOk = true →
      (x.strict = true → x.strictShape = true) → s.shapeAbsent x = false → (s.part n).state = .free →
      (∀ r < 12, r ≠ n → (s.part r).state = .free ∨ x.clash (s.part r) = false) →
      ∃ t, exec (.partCreate hub page) s = .next t ∧ t.part n = { x with state := .creating, src := some m.src } ∧
        ∀ r, r ≠ n → t.part r = s.part r) ∧
    ((s.part q).state = .creating → (∀ gc ∈ s.clustersOf q, s.st ⟨.clu, gc⟩ ≠ PS.resetting) →
      ∃ t, exec (.partCreateDone part) s = .next t ∧ (t.part q).state = .active ∧ (t.part q).clusters = (s.part q).clusters) ∧
    (s.serves 0x212 hub page = true → 6 ≤ m.length → n < 12 → m.f 2 1 ≠ 0 → m.f 1 1 = 0 → m.f 3 1 = 0 →
      (m.payload.drop 6).any (· ≠ 0#8) = false → (s.part n).state = .active →
      ∃ t, exec (.partSetQos hub page) s = .next t ∧
        t.part n = { s.part n with weight := BitVec.ofNat 8 (m.f 2 1), pcap := BitVec.ofNat 16 (m.f 4 2) } ∧
        ∀ r, r ≠ n → t.part r = s.part r) ∧
    (s.serves 0x211 hub page = true → 1 ≤ m.length → n < 12 → (m.payload.drop 1).any (· ≠ 0#8) = false →
      (s.part n).state = .active → (∀ e ∈ s.slices, ∀ k, e.2 = some k → k.part ≠ n) →
      ∃ t, exec (.partDestroy hub page) s = .next t ∧ t.part n = { s.part n with state := .destroying, src := some m.src } ∧
        ∀ r, r ≠ n → t.part r = s.part r) ∧
    ((s.part q).state = .destroying → (∀ gc ∈ s.clustersOf q, s.st ⟨.clu, gc⟩ ≠ PS.resetting) →
      ∃ t, exec (.partDestroyDone part) s = .next t ∧ t.part q = Part.reset ∧ ∀ r, r ≠ q → t.part r = s.part r)
end

