-- ==== Sys2Proof/Laws/SMap.lean ====
section
/-! SUPPORT. Laws of keyed collections: reading after writing, and every operation keeps the canonical form. -/
namespace Sys2Proof.Machine

variable {α : Type}

theorem SMap.get_ins_self (d : Nat → α) (m : List (Nat × α)) (k : Nat) (x : α) : SMap.get d (SMap.ins m k x) k = x := by
  induction m with
  | nil => simp [SMap.ins, SMap.get]
  | cons p m ih =>
    obtain ⟨j, v⟩ := p
    unfold SMap.ins
    split
    · simp [SMap.get]
    · split
      · simp [SMap.get]
      · next h1 h2 => simp [SMap.get, h1, ih]

theorem SMap.get_ins_ne (d : Nat → α) (m : List (Nat × α)) {k j : Nat} (x : α) (h : j ≠ k) :
    SMap.get d (SMap.ins m k x) j = SMap.get d m j := by
  induction m with
  | nil => simp [SMap.ins, SMap.get, h]
  | cons p m ih =>
    obtain ⟨i, v⟩ := p
    unfold SMap.ins
    split
    · next e => subst e; simp [SMap.get, h]
    · split
      · simp [SMap.get, h]
      · simp only [SMap.get, ih]

theorem SMap.get_del_self (d : Nat → α) (m : List (Nat × α)) (k : Nat) : SMap.get d (SMap.del m k) k = d k := by
  induction m with
  | nil => rfl
  | cons p m ih =>
    obtain ⟨j, v⟩ := p
    simp only [SMap.del, List.filter_cons] at ih ⊢
    split
    · next h =>
      have hj : k ≠ j := fun e => by simp [e] at h
      simp [SMap.get, hj, ih]
    · exact ih

theorem SMap.get_del_ne (d : Nat → α) (m : List (Nat × α)) {k j : Nat} (h : j ≠ k) :
    SMap.get d (SMap.del m k) j = SMap.get d m j := by
  induction m with
  | nil => rfl
  | cons p m ih =>
    obtain ⟨i, v⟩ := p
    simp only [SMap.del, List.filter_cons] at ih ⊢
    split
    · simp only [SMap.get, ih]
    · next hi =>
      have e : i = k := by simpa using hi
      subst e
      simp [SMap.get, h, ih]

/-- Every key of the collection lies above k. -/
def SMap.above (k : Nat) (m : List (Nat × α)) : Prop := ∀ p ∈ m, k < p.1

theorem SMap.rising_cons {p : Nat × α} {m : List (Nat × α)} :
    SMap.rising (p :: m) = true ↔ SMap.above p.1 m ∧ SMap.rising m = true := by
  induction m generalizing p with
  | nil => simp [SMap.rising, SMap.above]
  | cons q m ih =>
    simp only [SMap.rising, Bool.and_eq_true, decide_eq_true_eq, ih (p := q)]
    constructor
    · rintro ⟨h, ha, hr⟩
      refine ⟨?_, ha, hr⟩
      intro r hr'
      rcases List.mem_cons.1 hr' with rfl | hr'
      · exact h
      · exact Nat.lt_trans h (ha r hr')
    · rintro ⟨h, ha, hr⟩
      exact ⟨h q (List.mem_cons_self ..), ha, hr⟩

theorem SMap.above_ins {i k : Nat} {m : List (Nat × α)} (x : α) (h : SMap.above i m) (hk : i < k) :
    SMap.above i (SMap.ins m k x) := by
  induction m with
  | nil =>
    intro q hq
    rcases List.mem_cons.1 hq with rfl | hq
    · exact hk
    · cases hq
  | cons p m ih =>
    have h2 : SMap.above i m := fun q hq => h q (List.mem_cons_of_mem _ hq)
    have h1 := h p (List.mem_cons_self ..)
    obtain ⟨j, v⟩ := p
    unfold SMap.ins
    split
    · intro q hq
      rcases List.mem_cons.1 hq with rfl | hq
      · exact hk
      · exact h2 q hq
    · split
      · intro q hq
        rcases List.mem_cons.1 hq with rfl | hq
        · exact hk
        · exact h q hq
      · intro q hq
        rcases List.mem_cons.1 hq with rfl | hq
        · exact h1
        · exact ih h2 q hq

theorem SMap.rising_ins {k : Nat} {m : List (Nat × α)} (x : α) (h : SMap.rising m = true) :
    SMap.rising (SMap.ins m k x) = true := by
  induction m with
  | nil => rfl
  | cons p m ih =>
    obtain ⟨ha, hr⟩ := SMap.rising_cons.1 h
    obtain ⟨j, v⟩ := p
    unfold SMap.ins
    split
    · next e => subst e; exact SMap.rising_cons.2 ⟨ha, hr⟩
    · split
      · next h1 h2 =>
        refine SMap.rising_cons.2 ⟨?_, h⟩
        intro q hq
        rcases List.mem_cons.1 hq with rfl | hq
        · exact h2
        · exact Nat.lt_trans h2 (ha q hq)
      · next h1 h2 => exact SMap.rising_cons.2 ⟨SMap.above_ins x ha (by omega), ih hr⟩

theorem SMap.rising_filterMap {β : Type} {m : List (Nat × α)} (f : Nat × α → Option (Nat × β))
    (hf : ∀ p q, f p = some q → q.1 = p.1) (h : SMap.rising m = true) : SMap.rising (m.filterMap f) = true := by
  induction m with
  | nil => rfl
  | cons p m ih =>
    obtain ⟨ha, hr⟩ := SMap.rising_cons.1 h
    simp only [List.filterMap_cons]
    split
    · exact ih hr
    · next q hq =>
      refine SMap.rising_cons.2 ⟨?_, ih hr⟩
      intro r hr'
      obtain ⟨a, ha', hfa⟩ := List.mem_filterMap.1 hr'
      rw [hf p q hq, hf a r hfa]
      exact ha a ha'

theorem SMap.rising_filter {m : List (Nat × α)} (f : Nat → Bool) (h : SMap.rising m = true) :
    SMap.rising (m.filter fun p => f p.1) = true := by
  have : m.filter (fun p => f p.1) = m.filterMap fun p => if f p.1 then some p else none := by
    rw [← List.filterMap_eq_filter]; rfl
  rw [this]
  refine SMap.rising_filterMap _ ?_ h
  intro p q hq
  split at hq
  · cases hq; rfl
  · cases hq

theorem SMap.rising_del {m : List (Nat × α)} {k : Nat} (h : SMap.rising m = true) : SMap.rising (SMap.del m k) = true :=
  SMap.rising_filter (fun j => j != k) h

theorem SMap.mem_del {m : List (Nat × α)} {k : Nat} {p : Nat × α} (h : p ∈ SMap.del m k) : p ∈ m := (List.mem_filter.1 h).1

theorem SMap.mem_ins {k : Nat} {m : List (Nat × α)} {x : α} {p : Nat × α} (h : p ∈ SMap.ins m k x) : p = (k, x) ∨ p ∈ m := by
  induction m with
  | nil => exact Or.inl (by simpa [SMap.ins] using h)
  | cons q m ih =>
    obtain ⟨j, v⟩ := q
    unfold SMap.ins at h
    split at h
    · rcases List.mem_cons.1 h with rfl | h
      · exact Or.inl rfl
      · exact Or.inr (List.mem_cons_of_mem _ h)
    · split at h
      · rcases List.mem_cons.1 h with rfl | h
        · exact Or.inl rfl
        · exact Or.inr h
      · rcases List.mem_cons.1 h with rfl | h
        · exact Or.inr (List.mem_cons_self ..)
        · rcases ih h with h | h
          · exact Or.inl h
          · exact Or.inr (List.mem_cons_of_mem _ h)

variable [DecidableEq α]

theorem SMap.wf_iff {d : Nat → α} {m : List (Nat × α)} :
    SMap.wf d m = true ↔ SMap.rising m = true ∧ ∀ p ∈ m, p.2 ≠ d p.1 := by
  simp [SMap.wf, List.all_eq_true]

/-- The empty collection is canonical. -/
theorem SMap.wf_nil (d : Nat → α) : SMap.wf d [] = true := rfl

/-- Setting a key keeps the canonical form. -/
theorem SMap.wf_set {d : Nat → α} {m : List (Nat × α)} (k : Nat) (x : α) (h : SMap.wf d m = true) :
    SMap.wf d (SMap.set d m k x) = true := by
  obtain ⟨hr, hv⟩ := SMap.wf_iff.1 h
  unfold SMap.set
  split
  · exact SMap.wf_iff.2 ⟨SMap.rising_del hr, fun p hp => hv p (SMap.mem_del hp)⟩
  · next hx =>
    refine SMap.wf_iff.2 ⟨SMap.rising_ins x hr, fun p hp => ?_⟩
    rcases SMap.mem_ins hp with rfl | hp
    · exact hx
    · exact hv p hp

/-- Removing a key keeps the canonical form. -/
theorem SMap.wf_del {d : Nat → α} {m : List (Nat × α)} (k : Nat) (h : SMap.wf d m = true) : SMap.wf d (SMap.del m k) = true := by
  obtain ⟨hr, hv⟩ := SMap.wf_iff.1 h
  exact SMap.wf_iff.2 ⟨SMap.rising_del hr, fun p hp => hv p (SMap.mem_del hp)⟩

/-- A key reads what was set. -/
@[simp] theorem SMap.get_set_self (d : Nat → α) (m : List (Nat × α)) (k : Nat) (x : α) : SMap.get d (SMap.set d m k x) k = x := by
  unfold SMap.set
  split
  · next e => rw [SMap.get_del_self d m k, e]
  · exact SMap.get_ins_self d m k x

/-- Every other key reads as before. -/
theorem SMap.get_set_ne (d : Nat → α) (m : List (Nat × α)) {k j : Nat} (x : α) (hj : j ≠ k) :
    SMap.get d (SMap.set d m k x) j = SMap.get d m j := by
  unfold SMap.set
  split
  · exact SMap.get_del_ne d m hj
  · exact SMap.get_ins_ne d m x hj

/-- Changing every value keeps the canonical form. -/
theorem SMap.wf_mapVals {d : Nat → α} {m : List (Nat × α)} (f : Nat → α → α) (h : SMap.wf d m = true) :
    SMap.wf d (SMap.mapVals d f m) = true := by
  obtain ⟨hr, _⟩ := SMap.wf_iff.1 h
  refine SMap.wf_iff.2 ⟨SMap.rising_filterMap _ ?_ hr, ?_⟩
  · intro p q hq
    split at hq
    · cases hq
    · cases hq; rfl
  · intro p hp
    obtain ⟨a, _, ha⟩ := List.mem_filterMap.1 hp
    split at ha
    · cases ha
    · next hne => cases ha; exact hne

/-- Keeping some entries keeps the canonical form. -/
theorem SMap.wf_keep {d : Nat → α} {m : List (Nat × α)} (f : Nat → Bool) (h : SMap.wf d m = true) :
    SMap.wf d (SMap.keep f m) = true := by
  obtain ⟨hr, hv⟩ := SMap.wf_iff.1 h
  exact SMap.wf_iff.2 ⟨SMap.rising_filter f hr, fun p hp => hv p (List.mem_filter.1 hp).1⟩

end Sys2Proof.Machine
end

