-- ==== Sys2Proof/Laws/Canon.lean ====
section
/-! SUPPORT. The invariant that every operation keeps: the queue stays as it is, and the registers and memory stay in canonical
form. Here its closure under the shapes that meanings are built of; the files CanonX.lean hold one lemma for each function of
Machine/X.lean, which the next ones cite instead of unfolding it. -/
namespace Sys2Proof.Machine
open Sys2Proof

/-- An answer that, where it is a next state, keeps the invariant. -/
def CanonRes (q : List Instr) (r : Res) : Prop := ∀ t, r = .next t → Canon q t

/-- An optional state that keeps the invariant. -/
def CanonOpt (q : List Instr) (r : Option State) : Prop := ∀ t, r = some t → Canon q t


theorem canon_mk' {q : List Instr} {s t : State} (h : Canon q s) (hp : t.pending = s.pending) (hr : t.regs = s.regs)
    (hm : t.mem = s.mem) : Canon q t := by
  obtain ⟨h1, h2, h3⟩ := h
  exact ⟨hp.trans h1, hr ▸ h2, hm ▸ h3⟩

theorem canon_ite {q : List Instr} {c : Prop} [Decidable c] {s t : State} (h1 : Canon q s) (h2 : Canon q t) :
    Canon q (if c then s else t) := by split <;> assumption

theorem canon_foldl {α : Type} {q : List Instr} (l : List α) (f : State → α → State) (s : State) (h : Canon q s)
    (hf : ∀ s x, Canon q s → Canon q (f s x)) : Canon q (l.foldl f s) := by
  induction l generalizing s with
  | nil => exact h
  | cons x l ih => exact ih _ (hf s x h)

theorem canon_next {q : List Instr} {t : State} (h : Canon q t) : CanonRes q (.next t) := by
  intro u hu; cases hu; exact h

theorem canon_refused {q : List Instr} {r : Refusal} : CanonRes q (.refused r) := by
  intro u hu; cases hu

theorem canonRes_ite {q : List Instr} {c : Prop} [Decidable c] {s t : Res} (h1 : CanonRes q s) (h2 : CanonRes q t) :
    CanonRes q (if c then s else t) := by split <;> assumption
/-- A choice between two states, kept whole. -/
def pick (c : Prop) [Decidable c] (s t : State) : State := if c then s else t

theorem pick_eq (c : Prop) [Decidable c] (s t : State) : (if c then s else t) = pick c s t := rfl
theorem canon_pick {q : List Instr} {c : Prop} [Decidable c] {s t : State} (h1 : Canon q s) (h2 : Canon q t) :
    Canon q (pick c s t) := canon_ite h1 h2
def pickRes (c : Prop) [Decidable c] (s t : Res) : Res := if c then s else t

theorem pickRes_eq (c : Prop) [Decidable c] (s t : Res) : (if c then s else t) = pickRes c s t := rfl

theorem canon_pickRes {q : List Instr} {c : Prop} [Decidable c] {s t : Res} (h1 : CanonRes q s) (h2 : CanonRes q t) :
    CanonRes q (pickRes c s t) := canonRes_ite h1 h2

theorem canon_foldl1 {α β : Type} {q : List Instr} (l : List α) (f : State × β → α → State × β) (s : State × β) (h : Canon q s.1)
    (hf : ∀ s x, Canon q s.1 → Canon q (f s x).1) : Canon q (l.foldl f s).1 := by
  induction l generalizing s with
  | nil => exact h
  | cons x l ih => exact ih _ (hf s x h)

theorem canon_foldlD {α : Type} {q : List Instr} (l : List α) (f : Decoded → α → Decoded) (s : Decoded) (h : Canon q s.state)
    (hf : ∀ s x, Canon q s.state → Canon q (f s x).state) : Canon q (l.foldl f s).state := by
  induction l generalizing s with
  | nil => exact h
  | cons x l ih => exact ih _ (hf s x h)

theorem canon_foldlW {α : Type} {q : List Instr} (l : List α) (f : Written → α → Written) (s : Written) (h : Canon q s.state)
    (hf : ∀ s x, Canon q s.state → Canon q (f s x).state) : Canon q (l.foldl f s).state := by
  induction l generalizing s with
  | nil => exact h
  | cons x l ih => exact ih _ (hf s x h)

theorem canon_foldlB {α : Type} {q : List Instr} (l : List α) (f : Blks → α → Blks) (s : Blks) (h : Canon q s.state)
    (hf : ∀ s x, Canon q s.state → Canon q (f s x).state) : Canon q (l.foldl f s).state := by
  induction l generalizing s with
  | nil => exact h
  | cons x l ih => exact ih _ (hf s x h)

theorem canon_fst {β : Type} {q : List Instr} {t : State} {b : β} (h : Canon q t) : Canon q (t, b).1 := h

theorem canon_via {β : Type} {q : List Instr} {x y : State × β} (h : Canon q y.1) (e : x = y) : Canon q x.1 := e ▸ h

theorem canon_ite1 {β : Type} {q : List Instr} {c : Prop} [Decidable c] {x a b : State × β} (e : x = if c then a else b)
    (ha : Canon q a.1) (hb : Canon q b.1) : Canon q x.1 := by
  subst e; split <;> assumption

theorem canon_upd {q : List Instr} {t : State} (h : Canon q t) (pins_ : Pins) (clean_ : List (Nat × Bool)) (filled_ : List (Nat × Bool)) (chk_ : List (Nat × BitVec 64)) (raws_ : List (Nat × Option (BitVec 512))) (t2keys_ : List (Nat × BitVec 256)) (cores_ : List (Nat × Core)) (clusters_ : List (Nat × Cluster)) (beacons_ : List (Nat × BitVec 32)) (signals_ : List Sig) (hubTable_ : List (Nat × BitVec 32)) (doorbells_ : List (Nat × BitVec 16)) (turns_ : List (Nat × Turn)) (answers_ : List (Nat × Option WatchAnswer)) (replies_ : List Reply) (dis_ : List (Nat × Dis)) (mov_ : List (Nat × Ring)) (pfx_ : List (Nat × Ring)) (filters_ : List (Nat × Filter)) (patrols_ : List (Nat × Patrol)) (sramPos_ : List (Nat × Nat)) (parts_ : List (Nat × Part)) (slices_ : List (Nat × Option Slice)) (links_ : List (Nat × Link)) (jobqs_ : List (Nat × Option JobQ)) (cls_ : List (Nat × Cls)) (ports_ : List (Nat × Port)) (lanes_ : List (Nat × Lane)) (nodes_ : List (Nat × Node)) (nicqps_ : List (Nat × Option NicQp)) (sas_ : List (Nat × Option Sa)) (conns_ : List (Nat × Conn)) (skeys_ : List (Nat × Option SpaceKey)) (nvmes_ : List (Nat × Nvme)) (nss_ : List (Nat × Option Ns)) (slots_ : List (Nat × Slot)) (keys_ : List (Nat × Option KeySlot)) (cph_ : List (Nat × Cph)) (sec_ : Sec) (mbxs_ : List (Nat × Mbx)) (mbxOrder_ : Nat) (fwps_ : List (Nat × Fwp)) (fwslots_ : List (Nat × FwSlot)) (journal_ : List (Nat × BitVec 16)) (actSlot_ : Nat) (actRun_ : Bool) (loss_ : List (Nat × LossState)) (bru_ : Bru) (bbx_ : Bbx) (snaps_ : List (Nat × Snap)) (pwr_ : Pwr) (tels_ : List (Nat × Tel)) (clocks_ : List (Nat × BitVec 48)) (hostMem_ : List Host.Cell) (outs_ : List Out) (freeCtr_ : Nat) (holdHit_ : List Nat) (fetchPtr_ : Nat) :
    Canon q ⟨pins_, t.regs, t.mem, clean_, filled_, chk_, raws_, t2keys_, cores_, clusters_, beacons_, signals_, hubTable_, doorbells_, turns_, answers_, replies_, dis_, mov_, pfx_, filters_, patrols_, sramPos_, parts_, slices_, links_, jobqs_, cls_, ports_, lanes_, nodes_, nicqps_, sas_, conns_, skeys_, nvmes_, nss_, slots_, keys_, cph_, sec_, mbxs_, mbxOrder_, fwps_, fwslots_, journal_, actSlot_, actRun_, loss_, bru_, bbx_, snaps_, pwr_, tels_, clocks_, hostMem_, outs_, freeCtr_, holdHit_, fetchPtr_, t.pending⟩ := h

theorem canon_opt {q : List Instr} {o : Option State} {s : State} (h : CanonOpt q o) (e : o = some s) : Canon q s := h s e
theorem canon_dels {pq : List Instr} {s : State} (regs : List (Nat × BitVec 32)) (h_s : Canon pq s) (h : Registers.wf regs = true) :
    Canon pq { s with regs := regs } := ⟨h_s.1, h, h_s.2.2⟩
theorem registers_wf_del {m : List (Nat × BitVec 32)} (k : Nat) (h : Registers.wf m = true) : Registers.wf (SMap.del m k) = true :=
  SMap.wf_del k h
theorem registers_wf_mapVals {m : List (Nat × BitVec 32)} (f : Nat → BitVec 32 → BitVec 32) (h : Registers.wf m = true) :
    Registers.wf (SMap.mapVals regReset f m) = true := SMap.wf_mapVals f h
theorem memory_wf_keep {m : List Host.Cell} (f : Nat → Bool) (h : Memory.wf m = true) : Memory.wf (SMap.keep f m) = true :=
  SMap.wf_keep f h

end Sys2Proof.Machine
end

