-- ==== Sys2Proof/Laws/CanonAccess.lean ====
section
/-! SUPPORT. Every function of Machine/Access.lean keeps the queue and the canonical form of registers and memory. -/
set_option linter.unusedSimpArgs false
namespace Sys2Proof.Machine
open Sys2Proof

theorem State.setFilterOf_canon {pq : List Instr} (s : State) (k : Nat) (x : Filter) (h_s : Canon pq s) :
    Canon pq (State.setFilterOf s k x) := by
  unfold State.setFilterOf; (try simp only [pick_eq, pickRes_eq]); grind (ematch := 40) (gen := 60) (splits := 20) -lia -linarith -ring -ac -order -mbtc -funCC [canon_pick, canon_pickRes, canon_next, canon_refused, canon_foldl, canon_foldl1, canon_foldlD, canon_upd]

theorem State.modFilterOf_canon {pq : List Instr} (s : State) (k : Nat) (f : Filter → Filter) (h_s : Canon pq s) :
    Canon pq (State.modFilterOf s k f) := by
  unfold State.modFilterOf; (try simp only [pick_eq, pickRes_eq]); grind (ematch := 40) (gen := 60) (splits := 20) -lia -linarith -ring -ac -order -mbtc -funCC [State.setFilterOf_canon, canon_pick, canon_pickRes, canon_next, canon_refused, canon_foldl, canon_foldl1, canon_foldlD]

theorem State.setSnap_canon {pq : List Instr} (s : State) (k : Nat) (x : Snap) (h_s : Canon pq s) :
    Canon pq (State.setSnap s k x) := by
  unfold State.setSnap; (try simp only [pick_eq, pickRes_eq]); grind (ematch := 40) (gen := 60) (splits := 20) -lia -linarith -ring -ac -order -mbtc -funCC [canon_pick, canon_pickRes, canon_next, canon_refused, canon_foldl, canon_foldl1, canon_foldlD, canon_upd]

theorem State.modSnap_canon {pq : List Instr} (s : State) (k : Nat) (f : Snap → Snap) (h_s : Canon pq s) :
    Canon pq (State.modSnap s k f) := by
  unfold State.modSnap; (try simp only [pick_eq, pickRes_eq]); grind (ematch := 40) (gen := 60) (splits := 20) -lia -linarith -ring -ac -order -mbtc -funCC [State.setSnap_canon, canon_pick, canon_pickRes, canon_next, canon_refused, canon_foldl, canon_foldl1, canon_foldlD]

theorem State.setLink_canon {pq : List Instr} (s : State) (k : Nat) (x : Link) (h_s : Canon pq s) :
    Canon pq (State.setLink s k x) := by
  unfold State.setLink; (try simp only [pick_eq, pickRes_eq]); grind (ematch := 40) (gen := 60) (splits := 20) -lia -linarith -ring -ac -order -mbtc -funCC [canon_pick, canon_pickRes, canon_next, canon_refused, canon_foldl, canon_foldl1, canon_foldlD, canon_upd]

theorem State.modLink_canon {pq : List Instr} (s : State) (k : Nat) (f : Link → Link) (h_s : Canon pq s) :
    Canon pq (State.modLink s k f) := by
  unfold State.modLink; (try simp only [pick_eq, pickRes_eq]); grind (ematch := 40) (gen := 60) (splits := 20) -lia -linarith -ring -ac -order -mbtc -funCC [State.setLink_canon, canon_pick, canon_pickRes, canon_next, canon_refused, canon_foldl, canon_foldl1, canon_foldlD]

theorem State.setCluster_canon {pq : List Instr} (s : State) (k : Nat) (x : Cluster) (h_s : Canon pq s) :
    Canon pq (State.setCluster s k x) := by
  unfold State.setCluster; (try simp only [pick_eq, pickRes_eq]); grind (ematch := 40) (gen := 60) (splits := 20) -lia -linarith -ring -ac -order -mbtc -funCC [canon_pick, canon_pickRes, canon_next, canon_refused, canon_foldl, canon_foldl1, canon_foldlD, canon_upd]

theorem State.modCluster_canon {pq : List Instr} (s : State) (k : Nat) (f : Cluster → Cluster) (h_s : Canon pq s) :
    Canon pq (State.modCluster s k f) := by
  unfold State.modCluster; (try simp only [pick_eq, pickRes_eq]); grind (ematch := 40) (gen := 60) (splits := 20) -lia -linarith -ring -ac -order -mbtc -funCC [State.setCluster_canon, canon_pick, canon_pickRes, canon_next, canon_refused, canon_foldl, canon_foldl1, canon_foldlD]

theorem State.setCore_canon {pq : List Instr} (s : State) (k : Nat) (x : Core) (h_s : Canon pq s) :
    Canon pq (State.setCore s k x) := by
  unfold State.setCore; (try simp only [pick_eq, pickRes_eq]); grind (ematch := 40) (gen := 60) (splits := 20) -lia -linarith -ring -ac -order -mbtc -funCC [canon_pick, canon_pickRes, canon_next, canon_refused, canon_foldl, canon_foldl1, canon_foldlD, canon_upd]

theorem State.modCore_canon {pq : List Instr} (s : State) (k : Nat) (f : Core → Core) (h_s : Canon pq s) :
    Canon pq (State.modCore s k f) := by
  unfold State.modCore; (try simp only [pick_eq, pickRes_eq]); grind (ematch := 40) (gen := 60) (splits := 20) -lia -linarith -ring -ac -order -mbtc -funCC [State.setCore_canon, canon_pick, canon_pickRes, canon_next, canon_refused, canon_foldl, canon_foldl1, canon_foldlD]

theorem State.setDisOf_canon {pq : List Instr} (s : State) (k : Nat) (x : Dis) (h_s : Canon pq s) :
    Canon pq (State.setDisOf s k x) := by
  unfold State.setDisOf; (try simp only [pick_eq, pickRes_eq]); grind (ematch := 40) (gen := 60) (splits := 20) -lia -linarith -ring -ac -order -mbtc -funCC [canon_pick, canon_pickRes, canon_next, canon_refused, canon_foldl, canon_foldl1, canon_foldlD, canon_upd]

theorem State.modDisOf_canon {pq : List Instr} (s : State) (k : Nat) (f : Dis → Dis) (h_s : Canon pq s) :
    Canon pq (State.modDisOf s k f) := by
  unfold State.modDisOf; (try simp only [pick_eq, pickRes_eq]); grind (ematch := 40) (gen := 60) (splits := 20) -lia -linarith -ring -ac -order -mbtc -funCC [State.setDisOf_canon, canon_pick, canon_pickRes, canon_next, canon_refused, canon_foldl, canon_foldl1, canon_foldlD]

theorem State.setAnswered_canon {pq : List Instr} (s : State) (k : Nat) (x : Option WatchAnswer) (h_s : Canon pq s) :
    Canon pq (State.setAnswered s k x) := by
  unfold State.setAnswered; (try simp only [pick_eq, pickRes_eq]); grind (ematch := 40) (gen := 60) (splits := 20) -lia -linarith -ring -ac -order -mbtc -funCC [canon_pick, canon_pickRes, canon_next, canon_refused, canon_foldl, canon_foldl1, canon_foldlD, canon_upd]

theorem State.setChkOf_canon {pq : List Instr} (s : State) (k : Nat) (x : BitVec 64) (h_s : Canon pq s) :
    Canon pq (State.setChkOf s k x) := by
  unfold State.setChkOf; (try simp only [pick_eq, pickRes_eq]); grind (ematch := 40) (gen := 60) (splits := 20) -lia -linarith -ring -ac -order -mbtc -funCC [canon_pick, canon_pickRes, canon_next, canon_refused, canon_foldl, canon_foldl1, canon_foldlD, canon_upd]

theorem State.setRawLine_canon {pq : List Instr} (s : State) (k : Nat) (x : Option (BitVec 512)) (h_s : Canon pq s) :
    Canon pq (State.setRawLine s k x) := by
  unfold State.setRawLine; (try simp only [pick_eq, pickRes_eq]); grind (ematch := 40) (gen := 60) (splits := 20) -lia -linarith -ring -ac -order -mbtc -funCC [canon_pick, canon_pickRes, canon_next, canon_refused, canon_foldl, canon_foldl1, canon_foldlD, canon_upd]

theorem State.setPatrol_canon {pq : List Instr} (s : State) (k : Nat) (x : Patrol) (h_s : Canon pq s) :
    Canon pq (State.setPatrol s k x) := by
  unfold State.setPatrol; (try simp only [pick_eq, pickRes_eq]); grind (ematch := 40) (gen := 60) (splits := 20) -lia -linarith -ring -ac -order -mbtc -funCC [canon_pick, canon_pickRes, canon_next, canon_refused, canon_foldl, canon_foldl1, canon_foldlD, canon_upd]

theorem State.modPatrol_canon {pq : List Instr} (s : State) (k : Nat) (f : Patrol → Patrol) (h_s : Canon pq s) :
    Canon pq (State.modPatrol s k f) := by
  unfold State.modPatrol; (try simp only [pick_eq, pickRes_eq]); grind (ematch := 40) (gen := 60) (splits := 20) -lia -linarith -ring -ac -order -mbtc -funCC [State.setPatrol_canon, canon_pick, canon_pickRes, canon_next, canon_refused, canon_foldl, canon_foldl1, canon_foldlD]

theorem State.setNvme_canon {pq : List Instr} (s : State) (k : Nat) (x : Nvme) (h_s : Canon pq s) :
    Canon pq (State.setNvme s k x) := by
  unfold State.setNvme; (try simp only [pick_eq, pickRes_eq]); grind (ematch := 40) (gen := 60) (splits := 20) -lia -linarith -ring -ac -order -mbtc -funCC [canon_pick, canon_pickRes, canon_next, canon_refused, canon_foldl, canon_foldl1, canon_foldlD, canon_upd]

theorem State.setMovRing_canon {pq : List Instr} (s : State) (k : Nat) (x : Ring) (h_s : Canon pq s) :
    Canon pq (State.setMovRing s k x) := by
  unfold State.setMovRing; (try simp only [pick_eq, pickRes_eq]); grind (ematch := 40) (gen := 60) (splits := 20) -lia -linarith -ring -ac -order -mbtc -funCC [canon_pick, canon_pickRes, canon_next, canon_refused, canon_foldl, canon_foldl1, canon_foldlD, canon_upd]

theorem State.modMovRing_canon {pq : List Instr} (s : State) (k : Nat) (f : Ring → Ring) (h_s : Canon pq s) :
    Canon pq (State.modMovRing s k f) := by
  unfold State.modMovRing; (try simp only [pick_eq, pickRes_eq]); grind (ematch := 40) (gen := 60) (splits := 20) -lia -linarith -ring -ac -order -mbtc -funCC [State.setMovRing_canon, canon_pick, canon_pickRes, canon_next, canon_refused, canon_foldl, canon_foldl1, canon_foldlD]

theorem State.setPfxRing_canon {pq : List Instr} (s : State) (k : Nat) (x : Ring) (h_s : Canon pq s) :
    Canon pq (State.setPfxRing s k x) := by
  unfold State.setPfxRing; (try simp only [pick_eq, pickRes_eq]); grind (ematch := 40) (gen := 60) (splits := 20) -lia -linarith -ring -ac -order -mbtc -funCC [canon_pick, canon_pickRes, canon_next, canon_refused, canon_foldl, canon_foldl1, canon_foldlD, canon_upd]

theorem State.modPfxRing_canon {pq : List Instr} (s : State) (k : Nat) (f : Ring → Ring) (h_s : Canon pq s) :
    Canon pq (State.modPfxRing s k f) := by
  unfold State.modPfxRing; (try simp only [pick_eq, pickRes_eq]); grind (ematch := 40) (gen := 60) (splits := 20) -lia -linarith -ring -ac -order -mbtc -funCC [State.setPfxRing_canon, canon_pick, canon_pickRes, canon_next, canon_refused, canon_foldl, canon_foldl1, canon_foldlD]

theorem State.setCphOf_canon {pq : List Instr} (s : State) (k : Nat) (x : Cph) (h_s : Canon pq s) :
    Canon pq (State.setCphOf s k x) := by
  unfold State.setCphOf; (try simp only [pick_eq, pickRes_eq]); grind (ematch := 40) (gen := 60) (splits := 20) -lia -linarith -ring -ac -order -mbtc -funCC [canon_pick, canon_pickRes, canon_next, canon_refused, canon_foldl, canon_foldl1, canon_foldlD, canon_upd]

theorem State.modCphOf_canon {pq : List Instr} (s : State) (k : Nat) (f : Cph → Cph) (h_s : Canon pq s) :
    Canon pq (State.modCphOf s k f) := by
  unfold State.modCphOf; (try simp only [pick_eq, pickRes_eq]); grind (ematch := 40) (gen := 60) (splits := 20) -lia -linarith -ring -ac -order -mbtc -funCC [State.setCphOf_canon, canon_pick, canon_pickRes, canon_next, canon_refused, canon_foldl, canon_foldl1, canon_foldlD]

theorem State.setFwp_canon {pq : List Instr} (s : State) (k : Nat) (x : Fwp) (h_s : Canon pq s) :
    Canon pq (State.setFwp s k x) := by
  unfold State.setFwp; (try simp only [pick_eq, pickRes_eq]); grind (ematch := 40) (gen := 60) (splits := 20) -lia -linarith -ring -ac -order -mbtc -funCC [canon_pick, canon_pickRes, canon_next, canon_refused, canon_foldl, canon_foldl1, canon_foldlD, canon_upd]

theorem State.modFwp_canon {pq : List Instr} (s : State) (k : Nat) (f : Fwp → Fwp) (h_s : Canon pq s) :
    Canon pq (State.modFwp s k f) := by
  unfold State.modFwp; (try simp only [pick_eq, pickRes_eq]); grind (ematch := 40) (gen := 60) (splits := 20) -lia -linarith -ring -ac -order -mbtc -funCC [State.setFwp_canon, canon_pick, canon_pickRes, canon_next, canon_refused, canon_foldl, canon_foldl1, canon_foldlD]

theorem State.setBeacon_canon {pq : List Instr} (s : State) (k : Nat) (x : BitVec 32) (h_s : Canon pq s) :
    Canon pq (State.setBeacon s k x) := by
  unfold State.setBeacon; (try simp only [pick_eq, pickRes_eq]); grind (ematch := 40) (gen := 60) (splits := 20) -lia -linarith -ring -ac -order -mbtc -funCC [canon_pick, canon_pickRes, canon_next, canon_refused, canon_foldl, canon_foldl1, canon_foldlD, canon_upd]

theorem State.setFwslot_canon {pq : List Instr} (s : State) (k : Nat) (x : FwSlot) (h_s : Canon pq s) :
    Canon pq (State.setFwslot s k x) := by
  unfold State.setFwslot; (try simp only [pick_eq, pickRes_eq]); grind (ematch := 40) (gen := 60) (splits := 20) -lia -linarith -ring -ac -order -mbtc -funCC [canon_pick, canon_pickRes, canon_next, canon_refused, canon_foldl, canon_foldl1, canon_foldlD, canon_upd]

theorem State.modFwslot_canon {pq : List Instr} (s : State) (k : Nat) (f : FwSlot → FwSlot) (h_s : Canon pq s) :
    Canon pq (State.modFwslot s k f) := by
  unfold State.modFwslot; (try simp only [pick_eq, pickRes_eq]); grind (ematch := 40) (gen := 60) (splits := 20) -lia -linarith -ring -ac -order -mbtc -funCC [State.setFwslot_canon, canon_pick, canon_pickRes, canon_next, canon_refused, canon_foldl, canon_foldl1, canon_foldlD]

theorem State.setSlice_canon {pq : List Instr} (s : State) (k : Nat) (x : Option Slice) (h_s : Canon pq s) :
    Canon pq (State.setSlice s k x) := by
  unfold State.setSlice; (try simp only [pick_eq, pickRes_eq]); grind (ematch := 40) (gen := 60) (splits := 20) -lia -linarith -ring -ac -order -mbtc -funCC [canon_pick, canon_pickRes, canon_next, canon_refused, canon_foldl, canon_foldl1, canon_foldlD, canon_upd]

theorem State.setPort_canon {pq : List Instr} (s : State) (k : Nat) (x : Port) (h_s : Canon pq s) :
    Canon pq (State.setPort s k x) := by
  unfold State.setPort; (try simp only [pick_eq, pickRes_eq]); grind (ematch := 40) (gen := 60) (splits := 20) -lia -linarith -ring -ac -order -mbtc -funCC [canon_pick, canon_pickRes, canon_next, canon_refused, canon_foldl, canon_foldl1, canon_foldlD, canon_upd]

theorem State.modPort_canon {pq : List Instr} (s : State) (k : Nat) (f : Port → Port) (h_s : Canon pq s) :
    Canon pq (State.modPort s k f) := by
  unfold State.modPort; (try simp only [pick_eq, pickRes_eq]); grind (ematch := 40) (gen := 60) (splits := 20) -lia -linarith -ring -ac -order -mbtc -funCC [State.setPort_canon, canon_pick, canon_pickRes, canon_next, canon_refused, canon_foldl, canon_foldl1, canon_foldlD]

theorem State.setMbx_canon {pq : List Instr} (s : State) (k : Nat) (x : Mbx) (h_s : Canon pq s) :
    Canon pq (State.setMbx s k x) := by
  unfold State.setMbx; (try simp only [pick_eq, pickRes_eq]); grind (ematch := 40) (gen := 60) (splits := 20) -lia -linarith -ring -ac -order -mbtc -funCC [canon_pick, canon_pickRes, canon_next, canon_refused, canon_foldl, canon_foldl1, canon_foldlD, canon_upd]

theorem State.modMbx_canon {pq : List Instr} (s : State) (k : Nat) (f : Mbx → Mbx) (h_s : Canon pq s) :
    Canon pq (State.modMbx s k f) := by
  unfold State.modMbx; (try simp only [pick_eq, pickRes_eq]); grind (ematch := 40) (gen := 60) (splits := 20) -lia -linarith -ring -ac -order -mbtc -funCC [State.setMbx_canon, canon_pick, canon_pickRes, canon_next, canon_refused, canon_foldl, canon_foldl1, canon_foldlD]

theorem State.setSlot_canon {pq : List Instr} (s : State) (k : Nat) (x : Slot) (h_s : Canon pq s) :
    Canon pq (State.setSlot s k x) := by
  unfold State.setSlot; (try simp only [pick_eq, pickRes_eq]); grind (ematch := 40) (gen := 60) (splits := 20) -lia -linarith -ring -ac -order -mbtc -funCC [canon_pick, canon_pickRes, canon_next, canon_refused, canon_foldl, canon_foldl1, canon_foldlD, canon_upd]

theorem State.modSlot_canon {pq : List Instr} (s : State) (k : Nat) (f : Slot → Slot) (h_s : Canon pq s) :
    Canon pq (State.modSlot s k f) := by
  unfold State.modSlot; (try simp only [pick_eq, pickRes_eq]); grind (ematch := 40) (gen := 60) (splits := 20) -lia -linarith -ring -ac -order -mbtc -funCC [State.setSlot_canon, canon_pick, canon_pickRes, canon_next, canon_refused, canon_foldl, canon_foldl1, canon_foldlD]

theorem State.setFilledRegion_canon {pq : List Instr} (s : State) (k : Nat) (x : Bool) (h_s : Canon pq s) :
    Canon pq (State.setFilledRegion s k x) := by
  unfold State.setFilledRegion; (try simp only [pick_eq, pickRes_eq]); grind (ematch := 40) (gen := 60) (splits := 20) -lia -linarith -ring -ac -order -mbtc -funCC [canon_pick, canon_pickRes, canon_next, canon_refused, canon_foldl, canon_foldl1, canon_foldlD, canon_upd]

theorem State.setLossOf_canon {pq : List Instr} (s : State) (k : Nat) (x : LossState) (h_s : Canon pq s) :
    Canon pq (State.setLossOf s k x) := by
  unfold State.setLossOf; (try simp only [pick_eq, pickRes_eq]); grind (ematch := 40) (gen := 60) (splits := 20) -lia -linarith -ring -ac -order -mbtc -funCC [canon_pick, canon_pickRes, canon_next, canon_refused, canon_foldl, canon_foldl1, canon_foldlD, canon_upd]

theorem State.modLossOf_canon {pq : List Instr} (s : State) (k : Nat) (f : LossState → LossState) (h_s : Canon pq s) :
    Canon pq (s.modLossOf k f) := h_s

theorem State.setConn_canon {pq : List Instr} (s : State) (k : Nat) (x : Conn) (h_s : Canon pq s) :
    Canon pq (State.setConn s k x) := by
  unfold State.setConn; (try simp only [pick_eq, pickRes_eq]); grind (ematch := 40) (gen := 60) (splits := 20) -lia -linarith -ring -ac -order -mbtc -funCC [canon_pick, canon_pickRes, canon_next, canon_refused, canon_foldl, canon_foldl1, canon_foldlD, canon_upd]

theorem State.setNode_canon {pq : List Instr} (s : State) (k : Nat) (x : Node) (h_s : Canon pq s) :
    Canon pq (State.setNode s k x) := by
  unfold State.setNode; (try simp only [pick_eq, pickRes_eq]); grind (ematch := 40) (gen := 60) (splits := 20) -lia -linarith -ring -ac -order -mbtc -funCC [canon_pick, canon_pickRes, canon_next, canon_refused, canon_foldl, canon_foldl1, canon_foldlD, canon_upd]

theorem State.modNode_canon {pq : List Instr} (s : State) (k : Nat) (f : Node → Node) (h_s : Canon pq s) :
    Canon pq (State.modNode s k f) := by
  unfold State.modNode; (try simp only [pick_eq, pickRes_eq]); grind (ematch := 40) (gen := 60) (splits := 20) -lia -linarith -ring -ac -order -mbtc -funCC [State.setNode_canon, canon_pick, canon_pickRes, canon_next, canon_refused, canon_foldl, canon_foldl1, canon_foldlD]

theorem State.setLane_canon {pq : List Instr} (s : State) (k : Nat) (x : Lane) (h_s : Canon pq s) :
    Canon pq (State.setLane s k x) := by
  unfold State.setLane; (try simp only [pick_eq, pickRes_eq]); grind (ematch := 40) (gen := 60) (splits := 20) -lia -linarith -ring -ac -order -mbtc -funCC [canon_pick, canon_pickRes, canon_next, canon_refused, canon_foldl, canon_foldl1, canon_foldlD, canon_upd]

theorem State.modLane_canon {pq : List Instr} (s : State) (k : Nat) (f : Lane → Lane) (h_s : Canon pq s) :
    Canon pq (State.modLane s k f) := by
  unfold State.modLane; (try simp only [pick_eq, pickRes_eq]); grind (ematch := 40) (gen := 60) (splits := 20) -lia -linarith -ring -ac -order -mbtc -funCC [State.setLane_canon, canon_pick, canon_pickRes, canon_next, canon_refused, canon_foldl, canon_foldl1, canon_foldlD]

theorem State.modConn_canon {pq : List Instr} (s : State) (k : Nat) (f : Conn → Conn) (h_s : Canon pq s) :
    Canon pq (State.modConn s k f) := by
  unfold State.modConn; (try simp only [pick_eq, pickRes_eq]); grind (ematch := 40) (gen := 60) (splits := 20) -lia -linarith -ring -ac -order -mbtc -funCC [State.setConn_canon, canon_pick, canon_pickRes, canon_next, canon_refused, canon_foldl, canon_foldl1, canon_foldlD]

theorem State.modNvme_canon {pq : List Instr} (s : State) (k : Nat) (f : Nvme → Nvme) (h_s : Canon pq s) :
    Canon pq (State.modNvme s k f) := by
  unfold State.modNvme; (try simp only [pick_eq, pickRes_eq]); grind (ematch := 40) (gen := 60) (splits := 20) -lia -linarith -ring -ac -order -mbtc -funCC [State.setNvme_canon, canon_pick, canon_pickRes, canon_next, canon_refused, canon_foldl, canon_foldl1, canon_foldlD]

theorem State.setNs_canon {pq : List Instr} (s : State) (k : Nat) (x : Option Ns) (h_s : Canon pq s) :
    Canon pq (State.setNs s k x) := by
  unfold State.setNs; (try simp only [pick_eq, pickRes_eq]); grind (ematch := 40) (gen := 60) (splits := 20) -lia -linarith -ring -ac -order -mbtc -funCC [canon_pick, canon_pickRes, canon_next, canon_refused, canon_foldl, canon_foldl1, canon_foldlD, canon_upd]

theorem State.setSkey_canon {pq : List Instr} (s : State) (k : Nat) (x : Option SpaceKey) (h_s : Canon pq s) :
    Canon pq (State.setSkey s k x) := by
  unfold State.setSkey; (try simp only [pick_eq, pickRes_eq]); grind (ematch := 40) (gen := 60) (splits := 20) -lia -linarith -ring -ac -order -mbtc -funCC [canon_pick, canon_pickRes, canon_next, canon_refused, canon_foldl, canon_foldl1, canon_foldlD, canon_upd]

theorem State.setTel_canon {pq : List Instr} (s : State) (k : Nat) (x : Tel) (h_s : Canon pq s) :
    Canon pq (State.setTel s k x) := by
  unfold State.setTel; (try simp only [pick_eq, pickRes_eq]); grind (ematch := 40) (gen := 60) (splits := 20) -lia -linarith -ring -ac -order -mbtc -funCC [canon_pick, canon_pickRes, canon_next, canon_refused, canon_foldl, canon_foldl1, canon_foldlD, canon_upd]

theorem State.modTel_canon {pq : List Instr} (s : State) (k : Nat) (f : Tel → Tel) (h_s : Canon pq s) :
    Canon pq (State.modTel s k f) := by
  unfold State.modTel; (try simp only [pick_eq, pickRes_eq]); grind (ematch := 40) (gen := 60) (splits := 20) -lia -linarith -ring -ac -order -mbtc -funCC [State.setTel_canon, canon_pick, canon_pickRes, canon_next, canon_refused, canon_foldl, canon_foldl1, canon_foldlD]

theorem State.setSa_canon {pq : List Instr} (s : State) (k : Nat) (x : Option Sa) (h_s : Canon pq s) :
    Canon pq (State.setSa s k x) := by
  unfold State.setSa; (try simp only [pick_eq, pickRes_eq]); grind (ematch := 40) (gen := 60) (splits := 20) -lia -linarith -ring -ac -order -mbtc -funCC [canon_pick, canon_pickRes, canon_next, canon_refused, canon_foldl, canon_foldl1, canon_foldlD, canon_upd]

theorem State.setHubSum_canon {pq : List Instr} (s : State) (k : Nat) (x : BitVec 32) (h_s : Canon pq s) :
    Canon pq (State.setHubSum s k x) := by
  unfold State.setHubSum; (try simp only [pick_eq, pickRes_eq]); grind (ematch := 40) (gen := 60) (splits := 20) -lia -linarith -ring -ac -order -mbtc -funCC [canon_pick, canon_pickRes, canon_next, canon_refused, canon_foldl, canon_foldl1, canon_foldlD, canon_upd]

theorem State.modHubSum_canon {pq : List Instr} (s : State) (k : Nat) (f : BitVec 32 → BitVec 32) (h_s : Canon pq s) :
    Canon pq (State.modHubSum s k f) := by
  unfold State.modHubSum; (try simp only [pick_eq, pickRes_eq]); grind (ematch := 40) (gen := 60) (splits := 20) -lia -linarith -ring -ac -order -mbtc -funCC [State.setHubSum_canon, canon_pick, canon_pickRes, canon_next, canon_refused, canon_foldl, canon_foldl1, canon_foldlD]

theorem State.setNicqp_canon {pq : List Instr} (s : State) (k : Nat) (x : Option NicQp) (h_s : Canon pq s) :
    Canon pq (State.setNicqp s k x) := by
  unfold State.setNicqp; (try simp only [pick_eq, pickRes_eq]); grind (ematch := 40) (gen := 60) (splits := 20) -lia -linarith -ring -ac -order -mbtc -funCC [canon_pick, canon_pickRes, canon_next, canon_refused, canon_foldl, canon_foldl1, canon_foldlD, canon_upd]

theorem State.modNicqp_canon {pq : List Instr} (s : State) (k : Nat) (f : Option NicQp → Option NicQp) (h_s : Canon pq s) :
    Canon pq (State.modNicqp s k f) := by
  unfold State.modNicqp; (try simp only [pick_eq, pickRes_eq]); grind (ematch := 40) (gen := 60) (splits := 20) -lia -linarith -ring -ac -order -mbtc -funCC [State.setNicqp_canon, canon_pick, canon_pickRes, canon_next, canon_refused, canon_foldl, canon_foldl1, canon_foldlD]

theorem State.setClockOf_canon {pq : List Instr} (s : State) (k : Nat) (x : BitVec 48) (h_s : Canon pq s) :
    Canon pq (State.setClockOf s k x) := by
  unfold State.setClockOf; (try simp only [pick_eq, pickRes_eq]); grind (ematch := 40) (gen := 60) (splits := 20) -lia -linarith -ring -ac -order -mbtc -funCC [canon_pick, canon_pickRes, canon_next, canon_refused, canon_foldl, canon_foldl1, canon_foldlD, canon_upd]

theorem State.setClsOf_canon {pq : List Instr} (s : State) (k : Nat) (x : Cls) (h_s : Canon pq s) :
    Canon pq (State.setClsOf s k x) := by
  unfold State.setClsOf; (try simp only [pick_eq, pickRes_eq]); grind (ematch := 40) (gen := 60) (splits := 20) -lia -linarith -ring -ac -order -mbtc -funCC [canon_pick, canon_pickRes, canon_next, canon_refused, canon_foldl, canon_foldl1, canon_foldlD, canon_upd]

theorem State.setJournalAt_canon {pq : List Instr} (s : State) (k : Nat) (x : BitVec 16) (h_s : Canon pq s) :
    Canon pq (State.setJournalAt s k x) := by
  unfold State.setJournalAt; (try simp only [pick_eq, pickRes_eq]); grind (ematch := 40) (gen := 60) (splits := 20) -lia -linarith -ring -ac -order -mbtc -funCC [canon_pick, canon_pickRes, canon_next, canon_refused, canon_foldl, canon_foldl1, canon_foldlD, canon_upd]

theorem State.setT2key_canon {pq : List Instr} (s : State) (k : Nat) (x : BitVec 256) (h_s : Canon pq s) :
    Canon pq (State.setT2key s k x) := by
  unfold State.setT2key; (try simp only [pick_eq, pickRes_eq]); grind (ematch := 40) (gen := 60) (splits := 20) -lia -linarith -ring -ac -order -mbtc -funCC [canon_pick, canon_pickRes, canon_next, canon_refused, canon_foldl, canon_foldl1, canon_foldlD, canon_upd]

theorem State.modBeacon_canon {pq : List Instr} (s : State) (k : Nat) (f : BitVec 32 → BitVec 32) (h_s : Canon pq s) :
    Canon pq (State.modBeacon s k f) := by
  unfold State.modBeacon; (try simp only [pick_eq, pickRes_eq]); grind (ematch := 40) (gen := 60) (splits := 20) -lia -linarith -ring -ac -order -mbtc -funCC [State.setBeacon_canon, canon_pick, canon_pickRes, canon_next, canon_refused, canon_foldl, canon_foldl1, canon_foldlD]

theorem State.modChkOf_canon {pq : List Instr} (s : State) (k : Nat) (f : BitVec 64 → BitVec 64) (h_s : Canon pq s) :
    Canon pq (State.modChkOf s k f) := by
  unfold State.modChkOf; (try simp only [pick_eq, pickRes_eq]); grind (ematch := 40) (gen := 60) (splits := 20) -lia -linarith -ring -ac -order -mbtc -funCC [State.setChkOf_canon, canon_pick, canon_pickRes, canon_next, canon_refused, canon_foldl, canon_foldl1, canon_foldlD]

theorem State.modClockOf_canon {pq : List Instr} (s : State) (k : Nat) (f : BitVec 48 → BitVec 48) (h_s : Canon pq s) :
    Canon pq (State.modClockOf s k f) := by
  unfold State.modClockOf; (try simp only [pick_eq, pickRes_eq]); grind (ematch := 40) (gen := 60) (splits := 20) -lia -linarith -ring -ac -order -mbtc -funCC [State.setClockOf_canon, canon_pick, canon_pickRes, canon_next, canon_refused, canon_foldl, canon_foldl1, canon_foldlD]

theorem State.modClsOf_canon {pq : List Instr} (s : State) (k : Nat) (f : Cls → Cls) (h_s : Canon pq s) :
    Canon pq (State.modClsOf s k f) := by
  unfold State.modClsOf; (try simp only [pick_eq, pickRes_eq]); grind (ematch := 40) (gen := 60) (splits := 20) -lia -linarith -ring -ac -order -mbtc -funCC [State.setClsOf_canon, canon_pick, canon_pickRes, canon_next, canon_refused, canon_foldl, canon_foldl1, canon_foldlD]

theorem State.modFilledRegion_canon {pq : List Instr} (s : State) (k : Nat) (f : Bool → Bool) (h_s : Canon pq s) :
    Canon pq (State.modFilledRegion s k f) := by
  unfold State.modFilledRegion; (try simp only [pick_eq, pickRes_eq]); grind (ematch := 40) (gen := 60) (splits := 20) -lia -linarith -ring -ac -order -mbtc -funCC [State.setFilledRegion_canon, canon_pick, canon_pickRes, canon_next, canon_refused, canon_foldl, canon_foldl1, canon_foldlD]

theorem State.setJobq_canon {pq : List Instr} (s : State) (k : Nat) (x : Option JobQ) (h_s : Canon pq s) :
    Canon pq (State.setJobq s k x) := by
  unfold State.setJobq; (try simp only [pick_eq, pickRes_eq]); grind (ematch := 40) (gen := 60) (splits := 20) -lia -linarith -ring -ac -order -mbtc -funCC [canon_pick, canon_pickRes, canon_next, canon_refused, canon_foldl, canon_foldl1, canon_foldlD, canon_upd]

theorem State.modJobq_canon {pq : List Instr} (s : State) (k : Nat) (f : Option JobQ → Option JobQ) (h_s : Canon pq s) :
    Canon pq (State.modJobq s k f) := by
  unfold State.modJobq; (try simp only [pick_eq, pickRes_eq]); grind (ematch := 40) (gen := 60) (splits := 20) -lia -linarith -ring -ac -order -mbtc -funCC [State.setJobq_canon, canon_pick, canon_pickRes, canon_next, canon_refused, canon_foldl, canon_foldl1, canon_foldlD]

theorem State.modJournalAt_canon {pq : List Instr} (s : State) (k : Nat) (f : BitVec 16 → BitVec 16) (h_s : Canon pq s) :
    Canon pq (State.modJournalAt s k f) := by
  unfold State.modJournalAt; (try simp only [pick_eq, pickRes_eq]); grind (ematch := 40) (gen := 60) (splits := 20) -lia -linarith -ring -ac -order -mbtc -funCC [State.setJournalAt_canon, canon_pick, canon_pickRes, canon_next, canon_refused, canon_foldl, canon_foldl1, canon_foldlD]

theorem State.setKey_canon {pq : List Instr} (s : State) (k : Nat) (x : Option KeySlot) (h_s : Canon pq s) :
    Canon pq (State.setKey s k x) := by
  unfold State.setKey; (try simp only [pick_eq, pickRes_eq]); grind (ematch := 40) (gen := 60) (splits := 20) -lia -linarith -ring -ac -order -mbtc -funCC [canon_pick, canon_pickRes, canon_next, canon_refused, canon_foldl, canon_foldl1, canon_foldlD, canon_upd]

theorem State.modKey_canon {pq : List Instr} (s : State) (k : Nat) (f : Option KeySlot → Option KeySlot) (h_s : Canon pq s) :
    Canon pq (State.modKey s k f) := by
  unfold State.modKey; (try simp only [pick_eq, pickRes_eq]); grind (ematch := 40) (gen := 60) (splits := 20) -lia -linarith -ring -ac -order -mbtc -funCC [State.setKey_canon, canon_pick, canon_pickRes, canon_next, canon_refused, canon_foldl, canon_foldl1, canon_foldlD]

theorem State.modNs_canon {pq : List Instr} (s : State) (k : Nat) (f : Option Ns → Option Ns) (h_s : Canon pq s) :
    Canon pq (State.modNs s k f) := by
  unfold State.modNs; (try simp only [pick_eq, pickRes_eq]); grind (ematch := 40) (gen := 60) (splits := 20) -lia -linarith -ring -ac -order -mbtc -funCC [State.setNs_canon, canon_pick, canon_pickRes, canon_next, canon_refused, canon_foldl, canon_foldl1, canon_foldlD]

theorem State.setPart_canon {pq : List Instr} (s : State) (k : Nat) (x : Part) (h_s : Canon pq s) :
    Canon pq (State.setPart s k x) := by
  unfold State.setPart; (try simp only [pick_eq, pickRes_eq]); grind (ematch := 40) (gen := 60) (splits := 20) -lia -linarith -ring -ac -order -mbtc -funCC [canon_pick, canon_pickRes, canon_next, canon_refused, canon_foldl, canon_foldl1, canon_foldlD, canon_upd]

theorem State.modPart_canon {pq : List Instr} (s : State) (k : Nat) (f : Part → Part) (h_s : Canon pq s) :
    Canon pq (State.modPart s k f) := by
  unfold State.modPart; (try simp only [pick_eq, pickRes_eq]); grind (ematch := 40) (gen := 60) (splits := 20) -lia -linarith -ring -ac -order -mbtc -funCC [State.setPart_canon, canon_pick, canon_pickRes, canon_next, canon_refused, canon_foldl, canon_foldl1, canon_foldlD]

theorem State.modRawLine_canon {pq : List Instr} (s : State) (k : Nat) (f : Option (BitVec 512) → Option (BitVec 512)) (h_s : Canon pq s) :
    Canon pq (State.modRawLine s k f) := by
  unfold State.modRawLine; (try simp only [pick_eq, pickRes_eq]); grind (ematch := 40) (gen := 60) (splits := 20) -lia -linarith -ring -ac -order -mbtc -funCC [State.setRawLine_canon, canon_pick, canon_pickRes, canon_next, canon_refused, canon_foldl, canon_foldl1, canon_foldlD]

theorem State.modSa_canon {pq : List Instr} (s : State) (k : Nat) (f : Option Sa → Option Sa) (h_s : Canon pq s) :
    Canon pq (State.modSa s k f) := by
  unfold State.modSa; (try simp only [pick_eq, pickRes_eq]); grind (ematch := 40) (gen := 60) (splits := 20) -lia -linarith -ring -ac -order -mbtc -funCC [State.setSa_canon, canon_pick, canon_pickRes, canon_next, canon_refused, canon_foldl, canon_foldl1, canon_foldlD]

theorem State.modSkey_canon {pq : List Instr} (s : State) (k : Nat) (f : Option SpaceKey → Option SpaceKey) (h_s : Canon pq s) :
    Canon pq (State.modSkey s k f) := by
  unfold State.modSkey; (try simp only [pick_eq, pickRes_eq]); grind (ematch := 40) (gen := 60) (splits := 20) -lia -linarith -ring -ac -order -mbtc -funCC [State.setSkey_canon, canon_pick, canon_pickRes, canon_next, canon_refused, canon_foldl, canon_foldl1, canon_foldlD]

theorem State.modSlice_canon {pq : List Instr} (s : State) (k : Nat) (f : Option Slice → Option Slice) (h_s : Canon pq s) :
    Canon pq (State.modSlice s k f) := by
  unfold State.modSlice; (try simp only [pick_eq, pickRes_eq]); grind (ematch := 40) (gen := 60) (splits := 20) -lia -linarith -ring -ac -order -mbtc -funCC [State.setSlice_canon, canon_pick, canon_pickRes, canon_next, canon_refused, canon_foldl, canon_foldl1, canon_foldlD]

theorem State.setSramPosOf_canon {pq : List Instr} (s : State) (k : Nat) (x : Nat) (h_s : Canon pq s) :
    Canon pq (State.setSramPosOf s k x) := by
  unfold State.setSramPosOf; (try simp only [pick_eq, pickRes_eq]); grind (ematch := 40) (gen := 60) (splits := 20) -lia -linarith -ring -ac -order -mbtc -funCC [canon_pick, canon_pickRes, canon_next, canon_refused, canon_foldl, canon_foldl1, canon_foldlD, canon_upd]

theorem State.modSramPosOf_canon {pq : List Instr} (s : State) (k : Nat) (f : Nat → Nat) (h_s : Canon pq s) :
    Canon pq (State.modSramPosOf s k f) := by
  unfold State.modSramPosOf; (try simp only [pick_eq, pickRes_eq]); grind (ematch := 40) (gen := 60) (splits := 20) -lia -linarith -ring -ac -order -mbtc -funCC [State.setSramPosOf_canon, canon_pick, canon_pickRes, canon_next, canon_refused, canon_foldl, canon_foldl1, canon_foldlD]

theorem State.modT2key_canon {pq : List Instr} (s : State) (k : Nat) (f : BitVec 256 → BitVec 256) (h_s : Canon pq s) :
    Canon pq (State.modT2key s k f) := by
  unfold State.modT2key; (try simp only [pick_eq, pickRes_eq]); grind (ematch := 40) (gen := 60) (splits := 20) -lia -linarith -ring -ac -order -mbtc -funCC [State.setT2key_canon, canon_pick, canon_pickRes, canon_next, canon_refused, canon_foldl, canon_foldl1, canon_foldlD]

theorem State.setTurnOf_canon {pq : List Instr} (s : State) (k : Nat) (x : Turn) (h_s : Canon pq s) :
    Canon pq (State.setTurnOf s k x) := by
  unfold State.setTurnOf; (try simp only [pick_eq, pickRes_eq]); grind (ematch := 40) (gen := 60) (splits := 20) -lia -linarith -ring -ac -order -mbtc -funCC [canon_pick, canon_pickRes, canon_next, canon_refused, canon_foldl, canon_foldl1, canon_foldlD, canon_upd]

theorem State.setDoorbellOf_canon {pq : List Instr} (s : State) (k : Nat) (x : BitVec 16) (h_s : Canon pq s) :
    Canon pq (State.setDoorbellOf s k x) := by
  unfold State.setDoorbellOf; (try simp only [pick_eq, pickRes_eq]); grind (ematch := 40) (gen := 60) (splits := 20) -lia -linarith -ring -ac -order -mbtc -funCC [canon_pick, canon_pickRes, canon_next, canon_refused, canon_foldl, canon_foldl1, canon_foldlD, canon_upd]

end Sys2Proof.Machine
end

