-- ==== Sys2Proof/Laws/CanonFlags.lean ====
section
/-! SUPPORT. Every function of Machine/Flags.lean keeps the queue and the canonical form of registers and memory. -/
set_option linter.unusedSimpArgs false
namespace Sys2Proof.Machine
open Sys2Proof

theorem State.setReg_canon {pq : List Instr} (s : State) (a : Nat) (v : BitVec 32) (h_s : Canon pq s) : Canon pq (State.setReg s a v) :=
  ⟨h_s.1, SMap.wf_set _ _ h_s.2.1, h_s.2.2⟩

theorem State.wr_canon {pq : List Instr} (s : State) (f : Fld) (v : Nat) (h_s : Canon pq s) :
    Canon pq (State.wr s f v) := by
  unfold State.wr; (try simp only [pick_eq, pickRes_eq]); grind (ematch := 40) (gen := 60) (splits := 20) -lia -linarith -ring -ac -order -mbtc -funCC [State.setReg_canon, canon_pick, canon_pickRes, canon_next, canon_refused, canon_foldl, canon_foldl1, canon_foldlD]

theorem State.bump_canon {pq : List Instr} (s : State) (f : Fld) (n : optParam Nat 1) (h_s : Canon pq s) :
    Canon pq (State.bump s f n) := by
  unfold State.bump; (try simp only [pick_eq, pickRes_eq]); grind (ematch := 40) (gen := 60) (splits := 20) -lia -linarith -ring -ac -order -mbtc -funCC [State.wr_canon, canon_pick, canon_pickRes, canon_next, canon_refused, canon_foldl, canon_foldl1, canon_foldlD]

theorem State.wr64_canon {pq : List Instr} (s : State) (lo : Fld) (v : Nat) (h_s : Canon pq s) :
    Canon pq (State.wr64 s lo v) := by
  unfold State.wr64; (try simp only [pick_eq, pickRes_eq]); grind (ematch := 40) (gen := 60) (splits := 20) -lia -linarith -ring -ac -order -mbtc -funCC [State.setReg_canon, canon_pick, canon_pickRes, canon_next, canon_refused, canon_foldl, canon_foldl1, canon_foldlD]

theorem State.step64_canon {pq : List Instr} (s : State) (lo : Fld) (n : optParam Nat 1) (h_s : Canon pq s) :
    Canon pq (State.step64 s lo n) := by
  unfold State.step64; (try simp only [pick_eq, pickRes_eq]); grind (ematch := 40) (gen := 60) (splits := 20) -lia -linarith -ring -ac -order -mbtc -funCC [State.wr64_canon, canon_pick, canon_pickRes, canon_next, canon_refused, canon_foldl, canon_foldl1, canon_foldlD]

theorem State.draw_canon {pq : List Instr} (s : State) (h_s : Canon pq s) :
    Canon pq (State.draw s) := by
  unfold State.draw; (try simp only [pick_eq, pickRes_eq]); grind (ematch := 40) (gen := 60) (splits := 20) -lia -linarith -ring -ac -order -mbtc -funCC [canon_pick, canon_pickRes, canon_next, canon_refused, canon_foldl, canon_foldl1, canon_foldlD, canon_upd]

theorem State.step1_canon {pq : List Instr} (s : State) (f : Fld) (n : optParam Nat 1) (h_s : Canon pq s) :
    Canon pq (State.step1 s f n) := by
  unfold State.step1; (try simp only [pick_eq, pickRes_eq]); grind (ematch := 40) (gen := 60) (splits := 20) -lia -linarith -ring -ac -order -mbtc -funCC [State.wr_canon, canon_pick, canon_pickRes, canon_next, canon_refused, canon_foldl, canon_foldl1, canon_foldlD]

theorem State.preWarn_canon {pq : List Instr} (s : State) (qs : List Nat) (h_s : Canon pq s) :
    Canon pq (State.preWarn s qs) := by
  unfold State.preWarn; (try simp only [pick_eq, pickRes_eq]); grind (ematch := 40) (gen := 60) (splits := 20) -lia -linarith -ring -ac -order -mbtc -funCC [State.modSnap_canon, canon_pick, canon_pickRes, canon_next, canon_refused, canon_foldl, canon_foldl1, canon_foldlD]

theorem State.updateHalf_canon {pq : List Instr} (s : State) (p : Page) (h_s : Canon pq s) :
    Canon pq (State.updateHalf s p) := by
  unfold State.updateHalf; (try simp only [pick_eq, pickRes_eq]); grind (ematch := 40) (gen := 60) (splits := 20) -lia -linarith -ring -ac -order -mbtc -funCC [State.wr_canon, State.preWarn_canon, canon_pick, canon_pickRes, canon_next, canon_refused, canon_foldl, canon_foldl1, canon_foldlD]

theorem State.out_canon {pq : List Instr} (s : State) (o : Out) (h_s : Canon pq s) :
    Canon pq (State.out s o) := by
  unfold State.out; (try simp only [pick_eq, pickRes_eq]); grind (ematch := 40) (gen := 60) (splits := 20) -lia -linarith -ring -ac -order -mbtc -funCC [canon_pick, canon_pickRes, canon_next, canon_refused, canon_foldl, canon_foldl1, canon_foldlD, canon_upd]

theorem State.pmeAlert_canon {pq : List Instr} (s : State) (l : Nat) (h_s : Canon pq s) :
    Canon pq (State.pmeAlert s l) := by
  unfold State.pmeAlert; (try simp only [pick_eq, pickRes_eq]); grind (ematch := 40) (gen := 60) (splits := 20) -lia -linarith -ring -ac -order -mbtc -funCC [State.modLink_canon, State.out_canon, canon_pick, canon_pickRes, canon_next, canon_refused, canon_foldl, canon_foldl1, canon_foldlD, canon_upd]

theorem State.updateInta_canon {pq : List Instr} (s : State) (l : Nat) (h_s : Canon pq s) :
    Canon pq (State.updateInta s l) := by
  unfold State.updateInta; (try simp only [pick_eq, pickRes_eq]); grind (ematch := 40) (gen := 60) (splits := 20) -lia -linarith -ring -ac -order -mbtc -funCC [State.out_canon, State.wr_canon, State.modLink_canon, canon_pick, canon_pickRes, canon_next, canon_refused, canon_foldl, canon_foldl1, canon_foldlD]

theorem State.setPba_canon {pq : List Instr} (s : State) (l : Nat) (f : Nat) (v : Nat) (b : Bool) (h_s : Canon pq s) :
    Canon pq (State.setPba s l f v b) := by
  unfold State.setPba; (try simp only [pick_eq, pickRes_eq]); grind (ematch := 40) (gen := 60) (splits := 20) -lia -linarith -ring -ac -order -mbtc -funCC [State.setReg_canon, State.modLink_canon, canon_pick, canon_pickRes, canon_next, canon_refused, canon_foldl, canon_foldl1, canon_foldlD]

theorem State.vector_canon {pq : List Instr} (s : State) (l : Nat) (f : Nat) (v : Nat) (h_s : Canon pq s) :
    Canon pq (State.vector s l f v) := by
  unfold State.vector; (try simp only [pick_eq, pickRes_eq]); grind (ematch := 40) (gen := 60) (splits := 20) -lia -linarith -ring -ac -order -mbtc -funCC [State.updateInta_canon, State.wr_canon, State.modLink_canon, State.setPba_canon, State.out_canon, canon_pick, canon_pickRes, canon_next, canon_refused, canon_foldl, canon_foldl1, canon_foldlD]

theorem State.bbPut_canon {pq : List Instr} (s : State) (typ : Nat) (sev : BitVec 2) (src : Option Page) (part : Nat) (payload : Bytes) (h_s : Canon pq s) :
    Canon pq (State.bbPut s typ sev src part payload) := by
  unfold State.bbPut; (try simp only [pick_eq, pickRes_eq]); grind (ematch := 40) (gen := 60) (splits := 20) -lia -linarith -ring -ac -order -mbtc -funCC [State.draw_canon, State.wr_canon, State.vector_canon, canon_pick, canon_pickRes, canon_next, canon_refused, canon_foldl, canon_foldl1, canon_foldlD, canon_upd]

theorem State.fenceBare_canon {pq : List Instr} (s : State) (p : Page) (h_s : Canon pq s) :
    Canon pq (State.fenceBare s p) := by
  unfold State.fenceBare; (try simp only [pick_eq, pickRes_eq]); grind (ematch := 40) (gen := 60) (splits := 20) -lia -linarith -ring -ac -order -mbtc -funCC [State.wr_canon, canon_pick, canon_pickRes, canon_next, canon_refused, canon_foldl, canon_foldl1, canon_foldlD]

theorem State.bbxBit_canon {pq : List Instr} (s : State) (n : Nat) (h_s : Canon pq s) :
    Canon pq (State.bbxBit s n) := by
  unfold State.bbxBit; grind (ematch := 40) (gen := 60) (splits := 20) -lia -linarith -ring -ac -order -mbtc -funCC [State.setReg_canon, State.pmeAlert_canon, State.out_canon, State.bump_canon, State.bbPut_canon, State.fenceBare_canon, canon_pick, canon_pickRes, canon_next, canon_refused, canon_foldl, canon_foldl1, canon_foldlD]

theorem State.bbDrop_canon {pq : List Instr} (s : State) (h_s : Canon pq s) :
    Canon pq (State.bbDrop s) := by
  unfold State.bbDrop; (try simp only [pick_eq, pickRes_eq]); grind (ematch := 40) (gen := 60) (splits := 20) -lia -linarith -ring -ac -order -mbtc -funCC [State.updateHalf_canon, State.bump_canon, State.bbxBit_canon, canon_pick, canon_pickRes, canon_next, canon_refused, canon_foldl, canon_foldl1, canon_foldlD]

theorem State.bbAdd_canon {pq : List Instr} (s : State) (typ : Nat) (sev : BitVec 2) (src : Option Page) (part : Nat) (payload : Bytes) (h_s : Canon pq s) :
    Canon pq (State.bbAdd s typ sev src part payload) := by
  unfold State.bbAdd; (try simp only [pick_eq, pickRes_eq]); grind (ematch := 40) (gen := 60) (splits := 20) -lia -linarith -ring -ac -order -mbtc -funCC [State.bbDrop_canon, State.bbPut_canon, canon_pick, canon_pickRes, canon_next, canon_refused, canon_foldl, canon_foldl1, canon_foldlD]

theorem State.errBit_canon {pq : List Instr} (s : State) (p : Page) (n : Nat) (sev : BitVec 2) (part : Nat) (h_s : Canon pq s) :
    Canon pq (State.errBit s p n sev part) := by
  unfold State.errBit; (try simp only [pick_eq, pickRes_eq]); grind (ematch := 40) (gen := 60) (splits := 20) -lia -linarith -ring -ac -order -mbtc -funCC [State.setReg_canon, State.pmeAlert_canon, State.bbAdd_canon, State.out_canon, canon_pick, canon_pickRes, canon_next, canon_refused, canon_foldl, canon_foldl1, canon_foldlD]

theorem State.stopCluster_canon {pq : List Instr} (s : State) (p : Page) (h_s : Canon pq s) :
    Canon pq (State.stopCluster s p) := by
  unfold State.stopCluster; (try simp only [pick_eq, pickRes_eq]); grind (ematch := 40) (gen := 60) (splits := 20) -lia -linarith -ring -ac -order -mbtc -funCC [canon_pick, canon_pickRes, canon_next, canon_refused, canon_foldl, canon_foldl1, canon_foldlD, canon_upd]

theorem State.dropLines_canon {pq : List Instr} (s : State) (gc : Nat) (f : Line → Bool) (h_s : Canon pq s) :
    Canon pq (State.dropLines s gc f) := by
  unfold State.dropLines; (try simp only [pick_eq, pickRes_eq]); grind (ematch := 40) (gen := 60) (splits := 20) -lia -linarith -ring -ac -order -mbtc -funCC [State.modCluster_canon, State.bump_canon, canon_pick, canon_pickRes, canon_next, canon_refused, canon_foldl, canon_foldl1, canon_foldlD]

theorem State.errBare_canon {pq : List Instr} (s : State) (p : Page) (n : Nat) (sev : BitVec 2) (part : Nat) (h_s : Canon pq s) :
    Canon pq (State.errBare s p n sev part) := by
  unfold State.errBare; (try simp only [pick_eq, pickRes_eq]); grind (ematch := 40) (gen := 60) (splits := 20) -lia -linarith -ring -ac -order -mbtc -funCC [State.fenceBare_canon, State.errBit_canon, canon_pick, canon_pickRes, canon_next, canon_refused, canon_foldl, canon_foldl1, canon_foldlD]

theorem State.loseQueue_canon {pq : List Instr} (s : State) (gc : Nat) (h_s : Canon pq s) :
    Canon pq (State.loseQueue s gc) := by
  unfold State.loseQueue; (try simp only [pick_eq, pickRes_eq]); grind (ematch := 40) (gen := 60) (splits := 20) -lia -linarith -ring -ac -order -mbtc -funCC [State.modCluster_canon, State.modDisOf_canon, State.errBare_canon, State.bump_canon, canon_pick, canon_pickRes, canon_next, canon_refused, canon_foldl, canon_foldl1, canon_foldlD]

theorem State.watchAnswer_canon {pq : List Instr} (s : State) (w : Watch) (code : Nat) (v : BitVec 32) (h_s : Canon pq s) :
    Canon pq (State.watchAnswer s w code v) := by
  unfold State.watchAnswer; (try simp only [pick_eq, pickRes_eq]); grind (ematch := 40) (gen := 60) (splits := 20) -lia -linarith -ring -ac -order -mbtc -funCC [State.setAnswered_canon, State.out_canon, canon_pick, canon_pickRes, canon_next, canon_refused, canon_foldl, canon_foldl1, canon_foldlD]

theorem State.dropWatches_canon {pq : List Instr} (s : State) (gc : Nat) (h_s : Canon pq s) :
    Canon pq (State.dropWatches s gc) := by
  unfold State.dropWatches; (try simp only [pick_eq, pickRes_eq]); grind (ematch := 40) (gen := 60) (splits := 20) -lia -linarith -ring -ac -order -mbtc -funCC [State.watchAnswer_canon, State.modCluster_canon, canon_pick, canon_pickRes, canon_next, canon_refused, canon_foldl, canon_foldl1, canon_foldlD]

theorem State.failConns_canon {pq : List Instr} (s : State) (h : Nat) (h_s : Canon pq s) :
    Canon pq (State.failConns s h) := by
  unfold State.failConns; (try simp only [pick_eq, pickRes_eq]); grind (ematch := 40) (gen := 60) (splits := 20) -lia -linarith -ring -ac -order -mbtc -funCC [State.errBit_canon, canon_pick, canon_pickRes, canon_next, canon_refused, canon_foldl, canon_foldl1, canon_foldlD, canon_upd]

theorem State.bucketBare_canon {pq : List Instr} (s : State) (p : Page) (h_s : Canon pq s) :
    Canon pq (State.bucketBare s p) := by
  unfold State.bucketBare; (try simp only [pick_eq, pickRes_eq]); grind (ematch := 40) (gen := 60) (splits := 20) -lia -linarith -ring -ac -order -mbtc -funCC [State.updateHalf_canon, State.bump_canon, State.errBare_canon, canon_pick, canon_pickRes, canon_next, canon_refused, canon_foldl, canon_foldl1, canon_foldlD]

theorem State.ethLeave_canon {pq : List Instr} (s : State) (port : Nat) (h_s : Canon pq s) :
    Canon pq (State.ethLeave s port) := by
  unfold State.ethLeave; (try simp only [pick_eq, pickRes_eq]); grind (ematch := 40) (gen := 60) (splits := 20) -lia -linarith -ring -ac -order -mbtc -funCC [State.wr_canon, State.bucketBare_canon, State.errBare_canon, canon_pick, canon_pickRes, canon_next, canon_refused, canon_foldl, canon_foldl1, canon_foldlD]

theorem State.leaveService_canon {pq : List Instr} (s : State) (p : Page) (h_s : Canon pq s) :
    Canon pq (State.leaveService s p) := by
  unfold State.leaveService; (try simp only [pick_eq, pickRes_eq]); grind (ematch := 40) (gen := 60) (splits := 20) -lia -linarith -ring -ac -order -mbtc -funCC [State.modCluster_canon, State.dropLines_canon, State.modCore_canon, State.loseQueue_canon, State.dropWatches_canon, State.bump_canon, State.failConns_canon, State.ethLeave_canon, canon_pick, canon_pickRes, canon_next, canon_refused, canon_foldl, canon_foldl1, canon_foldlD]

theorem State.fencePage_canon {pq : List Instr} (s : State) (p : Page) (h_s : Canon pq s) :
    Canon pq (State.fencePage s p) := by
  unfold State.fencePage; (try simp only [pick_eq, pickRes_eq]); grind (ematch := 40) (gen := 60) (splits := 20) -lia -linarith -ring -ac -order -mbtc -funCC [State.stopCluster_canon, State.leaveService_canon, State.wr_canon, canon_pick, canon_pickRes, canon_next, canon_refused, canon_foldl, canon_foldl1, canon_foldlD]

theorem State.err_canon {pq : List Instr} (s : State) (p : Page) (n : Nat) (sev : optParam (BitVec 2) 0#2) (part : optParam Nat 255) (h_s : Canon pq s) :
    Canon pq (State.err s p n sev part) := by
  unfold State.err; (try simp only [pick_eq, pickRes_eq]); grind (ematch := 40) (gen := 60) (splits := 20) -lia -linarith -ring -ac -order -mbtc -funCC [State.errBit_canon, State.fencePage_canon, canon_pick, canon_pickRes, canon_next, canon_refused, canon_foldl, canon_foldl1, canon_foldlD]

theorem State.bucket_canon {pq : List Instr} (s : State) (p : Page) (h_s : Canon pq s) :
    Canon pq (State.bucket s p) := by
  unfold State.bucket; (try simp only [pick_eq, pickRes_eq]); grind (ematch := 40) (gen := 60) (splits := 20) -lia -linarith -ring -ac -order -mbtc -funCC [State.updateHalf_canon, State.bump_canon, State.err_canon, canon_pick, canon_pickRes, canon_next, canon_refused, canon_foldl, canon_foldl1, canon_foldlD]

theorem State.blockErr_canon {pq : List Instr} (s : State) (p : Page) (b : Nat) (h_s : Canon pq s) :
    Canon pq (State.blockErr s p b) := by
  unfold State.blockErr; (try simp only [pick_eq, pickRes_eq]); grind (ematch := 40) (gen := 60) (splits := 20) -lia -linarith -ring -ac -order -mbtc -funCC [State.err_canon, State.bucket_canon, canon_pick, canon_pickRes, canon_next, canon_refused, canon_foldl, canon_foldl1, canon_foldlD]

theorem State.partner_canon {pq : List Instr} (s : State) (p : Page) (kind : Nat) (num : Nat) (off : Nat) (header : Bytes) (h_s : Canon pq s) :
    Canon pq (State.partner s p kind num off header) := by
  unfold State.partner; (try simp only [pick_eq, pickRes_eq]); grind (ematch := 40) (gen := 60) (splits := 20) -lia -linarith -ring -ac -order -mbtc -funCC [State.bbAdd_canon, canon_pick, canon_pickRes, canon_next, canon_refused, canon_foldl, canon_foldl1, canon_foldlD]

theorem State.ignoreWrite_canon {pq : List Instr} (s : State) (p : Page) (off : Nat) (h_s : Canon pq s) :
    Canon pq (State.ignoreWrite s p off) := by
  unfold State.ignoreWrite; (try simp only [pick_eq, pickRes_eq]); grind (ematch := 40) (gen := 60) (splits := 20) -lia -linarith -ring -ac -order -mbtc -funCC [State.wr_canon, State.bump_canon, State.err_canon, canon_pick, canon_pickRes, canon_next, canon_refused, canon_foldl, canon_foldl1, canon_foldlD]

end Sys2Proof.Machine
end

