-- ==== Sys2Proof/Laws/CanonOperands.lean ====
section
/-! SUPPORT. Every function of Machine/Operands.lean keeps the queue and the canonical form of registers and memory. -/
set_option linter.unusedSimpArgs false
namespace Sys2Proof.Machine
open Sys2Proof

theorem State.unfilter_canon {pq : List Instr} (s : State) (u : Nat) (h_s : Canon pq s) :
    Canon pq (State.unfilter s u) := by
  unfold State.unfilter; (try simp only [pick_eq, pickRes_eq]); grind (ematch := 40) (gen := 60) (splits := 20) -lia -linarith -ring -ac -order -mbtc -funCC [State.modFilterOf_canon, canon_pick, canon_pickRes, canon_next, canon_refused, canon_foldl, canon_foldl1, canon_foldlD]

theorem State.clearChk_canon {pq : List Instr} (s : State) (u : Nat) (h_s : Canon pq s) :
    Canon pq (State.clearChk s u) := by
  unfold State.clearChk; grind (ematch := 40) (gen := 60) (splits := 20) -lia -linarith -ring -ac -order -mbtc -funCC [State.setChkOf_canon, State.setRawLine_canon, canon_pick, canon_pickRes, canon_next, canon_refused, canon_foldl, canon_foldl1, canon_foldlD]

theorem State.freshUnit_canon {pq : List Instr} (s : State) (u : Nat) (h_s : Canon pq s) :
    Canon pq (State.freshUnit s u) := by
  unfold State.freshUnit; (try simp only [pick_eq, pickRes_eq]); grind (ematch := 40) (gen := 60) (splits := 20) -lia -linarith -ring -ac -order -mbtc -funCC [State.unfilter_canon, State.clearChk_canon, canon_pick, canon_pickRes, canon_next, canon_refused, canon_foldl, canon_foldl1, canon_foldlD]

theorem State.setClean_canon {pq : List Instr} (s : State) (u : Nat) (b : Bool) (h_s : Canon pq s) :
    Canon pq (State.setClean s u b) := by
  unfold State.setClean; (try simp only [pick_eq, pickRes_eq]); grind (ematch := 40) (gen := 60) (splits := 20) -lia -linarith -ring -ac -order -mbtc -funCC [canon_pick, canon_pickRes, canon_next, canon_refused, canon_foldl, canon_foldl1, canon_foldlD, canon_upd]

theorem State.setByte_canon {pq : List Instr} (s : State) k b (h_s : Canon pq s) : Canon pq (s.setByte k b) :=
  ⟨h_s.1, h_s.2.1, SMap.wf_set _ _ h_s.2.2⟩

theorem State.putBytes_canon {pq : List Instr} (s : State) (k : Nat) (bs : Bytes) (h_s : Canon pq s) : Canon pq (State.putBytes s k bs) := by
  induction bs generalizing s k with
  | nil => exact h_s
  | cons b bs ih => exact ih _ _ (State.setByte_canon _ _ _ h_s)

theorem State.poisonUnit_canon {pq : List Instr} (s : State) (u : Nat) (h_s : Canon pq s) :
    Canon pq (State.poisonUnit s u) := by
  unfold State.poisonUnit; (try simp only [pick_eq, pickRes_eq]); grind (ematch := 40) (gen := 60) (splits := 20) -lia -linarith -ring -ac -order -mbtc -funCC [State.setClean_canon, State.putBytes_canon, canon_pick, canon_pickRes, canon_next, canon_refused, canon_foldl, canon_foldl1, canon_foldlD]

theorem State.writeHome_canon {pq : List Instr} (s : State) (k : Nat) (bs : Bytes) (mark : Bool) (h_s : Canon pq s) :
    Canon pq (State.writeHome s k bs mark) := by
  unfold State.writeHome; (try simp only [pick_eq, pickRes_eq]); grind (ematch := 40) (gen := 60) (splits := 20) -lia -linarith -ring -ac -order -mbtc -funCC [State.freshUnit_canon, State.poisonUnit_canon, State.setClean_canon, State.putBytes_canon, State.clearChk_canon, canon_pick, canon_pickRes, canon_next, canon_refused, canon_foldl, canon_foldl1, canon_foldlD]

theorem State.setRegion_canon {pq : List Instr} (s : State) (r : Nat) (filled : Bool) (h_s : Canon pq s) :
    Canon pq (State.setRegion s r filled) := by
  refine canon_foldl _ _ _ (State.modFilterOf_canon _ _ _ (State.setFilledRegion_canon _ _ _ ?_))
    fun t u h => State.setClean_canon _ _ _ h
  exact ⟨h_s.1, h_s.2.1, memory_wf_keep (fun k => s.region k != r || (s.retiredIn r).contains (k / 4096)) h_s.2.2⟩

end Sys2Proof.Machine
end

