-- ==== Sys2Proof/Laws/CanonProtection.lean ====
section
/-! SUPPORT. Every function of Machine/Protection.lean keeps the queue and the canonical form of registers and memory. -/
set_option linter.unusedSimpArgs false
namespace Sys2Proof.Machine
open Sys2Proof

theorem State.testRead_canon {pq : List Instr} (s : State) (c : TestCtl) (u : Nat) (upset : Nat) (h_s : Canon pq s) :
    Canon pq (State.testRead s c u upset) := by
  unfold State.testRead; (try simp only [pick_eq, pickRes_eq]); grind (ematch := 40) (gen := 60) (splits := 20) -lia -linarith -ring -ac -order -mbtc -funCC [State.setReg_canon, canon_pick, canon_pickRes, canon_next, canon_refused, canon_foldl, canon_foldl1, canon_foldlD]

theorem State.lastErr_canon {pq : List Instr} (s : State) (a : Nat) (ue : Bool) (scrub : Bool) (symbols : Nat) (h_s : Canon pq s) :
    Canon pq (State.lastErr s a ue scrub symbols) := by
  unfold State.lastErr; (try simp only [pick_eq, pickRes_eq]); grind (ematch := 40) (gen := 60) (splits := 20) -lia -linarith -ring -ac -order -mbtc -funCC [State.setReg_canon, canon_pick, canon_pickRes, canon_next, canon_refused, canon_foldl, canon_foldl1, canon_foldlD]

theorem State.countCorrection_canon {pq : List Instr} (s : State) (u : Nat) (symbols : Nat) (scrub : Bool) (h_s : Canon pq s) :
    Canon pq (State.countCorrection s u symbols scrub) := by
  unfold State.countCorrection; (try simp only [pick_eq, pickRes_eq]); grind (ematch := 40) (gen := 60) (splits := 20) -lia -linarith -ring -ac -order -mbtc -funCC [State.modFilterOf_canon, State.bump_canon, State.bucket_canon, State.lastErr_canon, canon_pick, canon_pickRes, canon_next, canon_refused, canon_foldl, canon_foldl1, canon_foldlD]

theorem State.noteDue_canon {pq : List Instr} (s : State) (a : Nat) (h_s : Canon pq s) :
    Canon pq (State.noteDue s a) := by
  unfold State.noteDue; (try simp only [pick_eq, pickRes_eq]); grind (ematch := 40) (gen := 60) (splits := 20) -lia -linarith -ring -ac -order -mbtc -funCC [State.modPatrol_canon, canon_pick, canon_pickRes, canon_next, canon_refused, canon_foldl, canon_foldl1, canon_foldlD]

theorem State.countUncorrectable_canon {pq : List Instr} (s : State) (u : Nat) (scrub : Bool) (h_s : Canon pq s) :
    Canon pq (State.countUncorrectable s u scrub) := by
  unfold State.countUncorrectable; (try simp only [pick_eq, pickRes_eq]); grind (ematch := 40) (gen := 60) (splits := 20) -lia -linarith -ring -ac -order -mbtc -funCC [State.freshUnit_canon, State.poisonUnit_canon, State.lastErr_canon, State.err_canon, State.bump_canon, State.noteDue_canon, State.bbAdd_canon, canon_pick, canon_pickRes, canon_next, canon_refused, canon_foldl, canon_foldl1, canon_foldlD]

theorem State.decodeUnit_canon {pq : List Instr} (s : State) (u : Nat) (upset : Nat) (scrub : Bool) (h_s : Canon pq s) :
    Canon pq (State.decodeUnit s u upset scrub).state := by
  unfold State.decodeUnit; (try simp only [pick_eq, pickRes_eq]); grind (ematch := 40) (gen := 60) (splits := 20) -lia -linarith -ring -ac -order -mbtc -funCC [State.countCorrection_canon, State.draw_canon, State.countUncorrectable_canon, canon_pick, canon_pickRes, canon_next, canon_refused, canon_foldl, canon_foldl1, canon_foldlD]

theorem State.testWrite_canon {pq : List Instr} (s : State) (c : TestCtl) (u : Nat) (h_s : Canon pq s) :
    Canon pq (State.testWrite s c u) := by
  unfold State.testWrite; grind (ematch := 40) (gen := 60) (splits := 20) -lia -linarith -ring -ac -order -mbtc -funCC [State.setReg_canon, State.poisonUnit_canon, State.setChkOf_canon, State.setRawLine_canon, State.putBytes_canon, canon_pick, canon_pickRes, canon_next, canon_refused, canon_foldl, canon_foldl1, canon_foldlD]

theorem State.ledgerAppend_canon {pq : List Instr} (s : State) (kind : BitVec 8) (location : Nat) (seq : Nat) (src : Option Page) (h_s : Canon pq s) :
    Canon pq (State.ledgerAppend s kind location seq src) := by
  unfold State.ledgerAppend; (try simp only [pick_eq, pickRes_eq]); grind (ematch := 40) (gen := 60) (splits := 20) -lia -linarith -ring -ac -order -mbtc -funCC [State.bbAdd_canon, State.wr_canon, canon_pick, canon_pickRes, canon_next, canon_refused, canon_foldl, canon_foldl1, canon_foldlD, canon_upd]

end Sys2Proof.Machine
end

