-- ==== Sys2Proof/Laws/CanonOps.lean ====
section
/-! SUPPORT. Every function of Machine/Ops.lean keeps the queue and the canonical form of registers and memory. -/
set_option linter.unusedSimpArgs false
namespace Sys2Proof.Machine
open Sys2Proof

theorem State.countAbsent_canon {pq : List Instr} (s : State) (a : Nat) (st : BitVec 8) (h_s : Canon pq s) :
    Canon pq (State.countAbsent s a st) := by
  unfold State.countAbsent; (try simp only [pick_eq, pickRes_eq]); grind (ematch := 40) (gen := 60) (splits := 20) -lia -linarith -ring -ac -order -mbtc -funCC [State.bump_canon, canon_pick, canon_pickRes, canon_next, canon_refused, canon_foldl, canon_foldl1, canon_foldlD]

theorem State.checkLine_canon {pq : List Instr} (s : State) (u : Nat) (h_s : Canon pq s) :
    Canon pq (State.checkLine s u) := by
  unfold State.checkLine; (try simp only [pick_eq, pickRes_eq]); grind (ematch := 40) (gen := 60) (splits := 20) -lia -linarith -ring -ac -order -mbtc -funCC [State.draw_canon, State.step1_canon, canon_pick, canon_pickRes, canon_next, canon_refused, canon_foldl, canon_foldl1, canon_foldlD]

theorem State.countRead_canon {pq : List Instr} (s : State) (t : Tgt) (h_s : Canon pq s) :
    Canon pq (State.countRead s t) := by
  unfold State.countRead; (try simp only [pick_eq, pickRes_eq]); grind (ematch := 40) (gen := 60) (splits := 20) -lia -linarith -ring -ac -order -mbtc -funCC [State.step64_canon, State.checkLine_canon, State.step1_canon, canon_pick, canon_pickRes, canon_next, canon_refused, canon_foldl, canon_foldl1, canon_foldlD]

theorem State.loadAt_canon {pq : List Instr} (s : State) (a : Nat) (n : Nat) (upset : Nat) (h_s : Canon pq s) :
    Canon pq (State.loadAt s a n upset).1 := by
  unfold State.loadAt; (try simp only [pick_eq, pickRes_eq]); grind (ematch := 40) (gen := 60) (splits := 20) -lia -linarith -ring -ac -order -mbtc -funCC [State.countRead_canon, State.draw_canon, State.testRead_canon, State.decodeUnit_canon, canon_pick, canon_pickRes, canon_next, canon_refused, canon_foldl, canon_foldl1, canon_foldlD]

theorem State.readMem_canon {pq : List Instr} (s : State) (r : Req) (a : Nat) (n : Nat) (h_s : Canon pq s) :
    Canon pq (State.readMem s r a n).1 := by
  unfold State.readMem; (try simp only [pick_eq, pickRes_eq]); grind (ematch := 40) (gen := 60) (splits := 20) -lia -linarith -ring -ac -order -mbtc -funCC [State.countAbsent_canon, State.loadAt_canon, canon_pick, canon_pickRes, canon_next, canon_refused, canon_foldl, canon_foldl1, canon_foldlD]

theorem State.countWrite_canon {pq : List Instr} (s : State) (t : Tgt) (partialLine : Bool) (h_s : Canon pq s) :
    Canon pq (State.countWrite s t partialLine) := by
  unfold State.countWrite; (try simp only [pick_eq, pickRes_eq]); grind (ematch := 40) (gen := 60) (splits := 20) -lia -linarith -ring -ac -order -mbtc -funCC [State.step64_canon, State.step1_canon, State.checkLine_canon, canon_pick, canon_pickRes, canon_next, canon_refused, canon_foldl, canon_foldl1, canon_foldlD]

theorem State.storeRuns_canon {pq : List Instr} (s : State) (a : Nat) (runs : List Run) (h_s : Canon pq s) :
    Canon pq (State.storeRuns s a runs) := by
  unfold State.storeRuns; (try simp only [pick_eq, pickRes_eq]); grind (ematch := 40) (gen := 60) (splits := 20) -lia -linarith -ring -ac -order -mbtc -funCC [State.decodeUnit_canon, State.writeHome_canon, State.testWrite_canon, State.countWrite_canon, canon_pick, canon_pickRes, canon_next, canon_refused, canon_foldl, canon_foldl1, canon_foldlD, canon_upd]

theorem State.storeAt_canon {pq : List Instr} (s : State) (a : Nat) (bs : Bytes) (mark : Bool) (h_s : Canon pq s) :
    Canon pq (State.storeAt s a bs mark) := by
  unfold State.storeAt; (try simp only [pick_eq, pickRes_eq]); grind (ematch := 40) (gen := 60) (splits := 20) -lia -linarith -ring -ac -order -mbtc -funCC [State.storeRuns_canon, canon_pick, canon_pickRes, canon_next, canon_refused, canon_foldl, canon_foldl1, canon_foldlD]

theorem State.writeMem_canon {pq : List Instr} (s : State) (r : Req) (a : Nat) (bs : Bytes) (mark : Bool) (h_s : Canon pq s) :
    Canon pq (State.writeMem s r a bs mark).1 := by
  unfold State.writeMem; (try simp only [pick_eq, pickRes_eq]); grind (ematch := 40) (gen := 60) (splits := 20) -lia -linarith -ring -ac -order -mbtc -funCC [State.countAbsent_canon, State.storeAt_canon, canon_pick, canon_pickRes, canon_next, canon_refused, canon_foldl, canon_foldl1, canon_foldlD]

theorem State.dmemWrite_canon {pq : List Instr} (s : State) (p : Nat) (off : Nat) (bs : Bytes) (mark : Bool) (h_s : Canon pq s) :
    Canon pq (State.dmemWrite s p off bs mark) := by
  unfold State.dmemWrite; (try simp only [pick_eq, pickRes_eq]); grind (ematch := 40) (gen := 60) (splits := 20) -lia -linarith -ring -ac -order -mbtc -funCC [State.writeHome_canon, canon_pick, canon_pickRes, canon_next, canon_refused, canon_foldl, canon_foldl1, canon_foldlD]

theorem State.modChan_canon {pq : List Instr} (s : State) (p : Nat) (ch : Nat) (f : Chan → Chan) (h_s : Canon pq s) :
    Canon pq (State.modChan s p ch f) := by
  unfold State.modChan; (try simp only [pick_eq, pickRes_eq]); grind (ematch := 40) (gen := 60) (splits := 20) -lia -linarith -ring -ac -order -mbtc -funCC [State.modCore_canon, canon_pick, canon_pickRes, canon_next, canon_refused, canon_foldl, canon_foldl1, canon_foldlD]

theorem State.unwait_canon {pq : List Instr} (s : State) (gc : Nat) (slot : Nat) (ch : Nat) (h_s : Canon pq s) :
    Canon pq (State.unwait s gc slot ch) := by
  unfold State.unwait; (try simp only [pick_eq, pickRes_eq]); grind (ematch := 40) (gen := 60) (splits := 20) -lia -linarith -ring -ac -order -mbtc -funCC [State.modCluster_canon, canon_pick, canon_pickRes, canon_next, canon_refused, canon_foldl, canon_foldl1, canon_foldlD]

theorem State.fireWatches_canon {pq : List Instr} (s : State) (id : Nat) (h_s : Canon pq s) :
    Canon pq (State.fireWatches s id) := by
  unfold State.fireWatches; (try simp only [pick_eq, pickRes_eq]); grind (ematch := 40) (gen := 60) (splits := 20) -lia -linarith -ring -ac -order -mbtc -funCC [State.watchAnswer_canon, State.modCluster_canon, canon_pick, canon_pickRes, canon_next, canon_refused, canon_foldl, canon_foldl1, canon_foldlD]

theorem State.beaconSet_canon {pq : List Instr} (s : State) (id : Nat) (v : BitVec 32) (h_s : Canon pq s) :
    Canon pq (State.beaconSet s id v) := by
  unfold State.beaconSet; (try simp only [pick_eq, pickRes_eq]); grind (ematch := 40) (gen := 60) (splits := 20) -lia -linarith -ring -ac -order -mbtc -funCC [State.fireWatches_canon, State.setBeacon_canon, canon_pick, canon_pickRes, canon_next, canon_refused, canon_foldl, canon_foldl1, canon_foldlD]

theorem State.beaconAdd_canon {pq : List Instr} (s : State) (id : Nat) (n : BitVec 32) (h_s : Canon pq s) :
    Canon pq (State.beaconAdd s id n) := by
  unfold State.beaconAdd; (try simp only [pick_eq, pickRes_eq]); grind (ematch := 40) (gen := 60) (splits := 20) -lia -linarith -ring -ac -order -mbtc -funCC [State.beaconSet_canon, canon_pick, canon_pickRes, canon_next, canon_refused, canon_foldl, canon_foldl1, canon_foldlD]

theorem State.sigCluster_canon {pq : List Instr} (s : State) (gc : Nat) (id : Nat) (n : BitVec 32) (h_s : Canon pq s) :
    Canon pq (State.sigCluster s gc id n) := by
  unfold State.sigCluster; grind (ematch := 40) (gen := 60) (splits := 20) -lia -linarith -ring -ac -order -mbtc -funCC [State.modCluster_canon, canon_pick, canon_pickRes, canon_next, canon_refused, canon_foldl, canon_foldl1, canon_foldlD]

theorem State.hostWrite_canon {pq : List Instr} (s : State) (w : HostId) (k : Nat) (bs : Bytes) (h_s : Canon pq s) :
    Canon pq (State.hostWrite s w k bs) := by
  induction bs generalizing s k with
  | nil => exact h_s
  | cons b bs ih => exact ih _ _ h_s

theorem State.logBitmap_canon {pq : List Instr} (s : State) (x : Slice) (a : Nat) (n : Nat) (logFail : Bool) (h_s : Canon pq s) :
    Canon pq (State.logBitmap s x a n logFail) := by
  unfold State.logBitmap; (try simp only [pick_eq, pickRes_eq]); grind (ematch := 40) (gen := 60) (splits := 20) -lia -linarith -ring -ac -order -mbtc -funCC [State.draw_canon, State.hostWrite_canon, canon_pick, canon_pickRes, canon_next, canon_refused, canon_foldl, canon_foldl1, canon_foldlD]

theorem State.atsUse_canon {pq : List Instr} (s : State) (w : HostId) (a : Nat) (h_s : Canon pq s) :
    Canon pq (State.atsUse s w a) := by
  unfold State.atsUse; (try simp only [pick_eq, pickRes_eq]); grind (ematch := 40) (gen := 60) (splits := 20) -lia -linarith -ring -ac -order -mbtc -funCC [State.draw_canon, State.modLink_canon, canon_pick, canon_pickRes, canon_next, canon_refused, canon_foldl, canon_foldl1, canon_foldlD]

theorem State.hostPut_canon {pq : List Instr} (s : State) (link : Nat) (slice : Option Nat) (a : Nat) (bs : Bytes) (mark : Bool) (how : optParam HostWrite HostWrite.done) (fn : optParam Nat 0) (h_s : Canon pq s) :
    Canon pq (State.hostPut s link slice a bs mark how fn) := by
  unfold State.hostPut; (try simp only [pick_eq, pickRes_eq]); grind (ematch := 40) (gen := 60) (splits := 20) -lia -linarith -ring -ac -order -mbtc -funCC [State.out_canon, State.setSlice_canon, State.logBitmap_canon, State.hostWrite_canon, State.atsUse_canon, canon_pick, canon_pickRes, canon_next, canon_refused, canon_foldl, canon_foldl1, canon_foldlD]

theorem State.armWatch_canon {pq : List Instr} (s : State) (w : Watch) (h_s : Canon pq s) :
    Canon pq (State.armWatch s w) := by
  unfold State.armWatch; (try simp only [pick_eq, pickRes_eq]); grind (ematch := 40) (gen := 60) (splits := 20) -lia -linarith -ring -ac -order -mbtc -funCC [State.watchAnswer_canon, State.bucket_canon, State.err_canon, State.modCluster_canon, State.wr_canon, canon_pick, canon_pickRes, canon_next, canon_refused, canon_foldl, canon_foldl1, canon_foldlD]

theorem State.disarmWatch_canon {pq : List Instr} (s : State) (gc : Nat) (hub : Nat) (e : Engine) (tag : BitVec 16) (h_s : Canon pq s) :
    Canon pq (State.disarmWatch s gc hub e tag) := by
  unfold State.disarmWatch; (try simp only [pick_eq, pickRes_eq]); grind (ematch := 40) (gen := 60) (splits := 20) -lia -linarith -ring -ac -order -mbtc -funCC [State.watchAnswer_canon, State.modCluster_canon, canon_pick, canon_pickRes, canon_next, canon_refused, canon_foldl, canon_foldl1, canon_foldlD]

theorem State.poisonRx_canon {pq : List Instr} (s : State) (l : Nat) (h_s : Canon pq s) :
    Canon pq (State.poisonRx s l) := by
  unfold State.poisonRx; (try simp only [pick_eq, pickRes_eq]); grind (ematch := 40) (gen := 60) (splits := 20) -lia -linarith -ring -ac -order -mbtc -funCC [State.bucket_canon, State.err_canon, State.out_canon, canon_pick, canon_pickRes, canon_next, canon_refused, canon_foldl, canon_foldl1, canon_foldlD]

theorem State.showHeld_canon {pq : List Instr} (s : State) (p : Nat) (h_s : Canon pq s) :
    Canon pq (State.showHeld s p) := by
  unfold State.showHeld; (try simp only [pick_eq, pickRes_eq]); grind (ematch := 40) (gen := 60) (splits := 20) -lia -linarith -ring -ac -order -mbtc -funCC [State.wr_canon, canon_pick, canon_pickRes, canon_next, canon_refused, canon_foldl, canon_foldl1, canon_foldlD]

theorem State.hold_canon {pq : List Instr} (s : State) (p : Nat) (w : HeldWrite) (h_s : Canon pq s) :
    Canon pq (State.hold s p w) := by
  unfold State.hold; (try simp only [pick_eq, pickRes_eq]); grind (ematch := 40) (gen := 60) (splits := 20) -lia -linarith -ring -ac -order -mbtc -funCC [State.bump_canon, State.modSnap_canon, State.err_canon, State.showHeld_canon, canon_pick, canon_pickRes, canon_next, canon_refused, canon_foldl, canon_foldl1, canon_foldlD]

theorem withPage_canon {pq : List Instr} (p : Page) (off : Nat) (s : State) (f : State → Res) (h_s : Canon pq s)
    (hf : ∀ s, Canon pq s → CanonRes pq (f s)) : CanonRes pq (withPage p off s f) := by
  unfold withPage
  split
  · exact canon_next (State.ignoreWrite_canon _ _ _ h_s)
  · split
    · split
      · exact canon_next h_s
      · exact canon_next (State.bump_canon _ _ _ h_s)
    · exact hf _ h_s

theorem waitTag_canon {pq : List Instr} (s : State) (l : Nat) (fn : Nat) (reads : List HostRead) (r : Res) (h_s : Canon pq s) (h_r : CanonRes pq r) :
    CanonRes pq (waitTag s l fn reads r) := by
  unfold waitTag; (try simp only [pick_eq, pickRes_eq]); grind (ematch := 40) (gen := 60) (splits := 20) -lia -linarith -ring -ac -order -mbtc -funCC [canon_pick, canon_pickRes, canon_next, canon_refused, canon_foldl, canon_foldl1, canon_foldlD]

theorem State.hostTimeout_canon {pq : List Instr} (s : State) (w : HostId) (tag : Nat) (h_s : Canon pq s) :
    Canon pq (State.hostTimeout s w tag) := by
  unfold State.hostTimeout; (try simp only [pick_eq, pickRes_eq]); grind (ematch := 40) (gen := 60) (splits := 20) -lia -linarith -ring -ac -order -mbtc -funCC [State.err_canon, State.bump_canon, State.out_canon, State.bucket_canon, State.modLink_canon, canon_pick, canon_pickRes, canon_next, canon_refused, canon_foldl, canon_foldl1, canon_foldlD]

theorem State.hostReadEnd_canon {pq : List Instr} (s : State) (w : HostId) (n : Nat) (h : HostRead) (h_s : Canon pq s) :
    Canon pq (State.hostReadEnd s w n h).1 := by
  unfold State.hostReadEnd; (try simp only [pick_eq, pickRes_eq]); grind (ematch := 40) (gen := 60) (splits := 20) -lia -linarith -ring -ac -order -mbtc -funCC [State.poisonRx_canon, State.hostTimeout_canon, canon_pick, canon_pickRes, canon_next, canon_refused, canon_foldl, canon_foldl1, canon_foldlD]

theorem State.holdChannels_canon {pq : List Instr} (s : State) (gc : Nat) (slot : Nat) (on : Bool) (h_s : Canon pq s) :
    Canon pq (State.holdChannels s gc slot on) := by
  unfold State.holdChannels; (try simp only [pick_eq, pickRes_eq]); grind (ematch := 40) (gen := 60) (splits := 20) -lia -linarith -ring -ac -order -mbtc -funCC [State.modChan_canon, State.unwait_canon, State.modCluster_canon, canon_pick, canon_pickRes, canon_next, canon_refused, canon_foldl, canon_foldl1, canon_foldlD]

theorem State.land_canon {pq : List Instr} (s : State) (p : Nat) (l : Landing) (h_s : Canon pq s) :
    Canon pq (State.land s p l) := by
  unfold State.land; (try simp only [pick_eq, pickRes_eq]); grind (ematch := 40) (gen := 60) (splits := 20) -lia -linarith -ring -ac -order -mbtc -funCC [State.modCore_canon, State.setCore_canon, State.sigCluster_canon, canon_pick, canon_pickRes, canon_next, canon_refused, canon_foldl, canon_foldl1, canon_foldlD]

theorem State.landDue_canon {pq : List Instr} (s : State) (p : Nat) (t : Nat) (h_s : Canon pq s) :
    Canon pq (State.landDue s p t) := by
  unfold State.landDue; (try simp only [pick_eq, pickRes_eq]); grind (ematch := 40) (gen := 60) (splits := 20) -lia -linarith -ring -ac -order -mbtc -funCC [State.modCore_canon, State.land_canon, canon_pick, canon_pickRes, canon_next, canon_refused, canon_foldl, canon_foldl1, canon_foldlD]

theorem State.landAll_canon {pq : List Instr} (s : State) (p : Nat) (h_s : Canon pq s) :
    Canon pq (State.landAll s p) := by
  unfold State.landAll; (try simp only [pick_eq, pickRes_eq]); grind (ematch := 40) (gen := 60) (splits := 20) -lia -linarith -ring -ac -order -mbtc -funCC [State.landDue_canon, canon_pick, canon_pickRes, canon_next, canon_refused, canon_foldl, canon_foldl1, canon_foldlD]

theorem State.sigHub_canon {pq : List Instr} (s : State) (hub : Nat) (e : Engine) (id : Nat) (n : BitVec 32) (h_s : Canon pq s) :
    Canon pq (State.sigHub s hub e id n) := by
  unfold State.sigHub; grind (ematch := 40) (gen := 60) (splits := 20) -lia -linarith -ring -ac -order -mbtc -funCC [State.modHubSum_canon, canon_pick, canon_pickRes, canon_next, canon_refused, canon_foldl, canon_foldl1, canon_foldlD]

theorem State.sliceRead_canon {pq : List Instr} (s : State) (k : Nat) (a : Nat) (n : Nat) (h : HostRead) (h_s : Canon pq s) :
    Canon pq (State.sliceRead s k a n h).1 := by
  unfold State.sliceRead; (try simp only [pick_eq, pickRes_eq]); grind (ematch := 40) (gen := 60) (splits := 20) -lia -linarith -ring -ac -order -mbtc -funCC [State.hostReadEnd_canon, State.atsUse_canon, canon_pick, canon_pickRes, canon_next, canon_refused, canon_foldl, canon_foldl1, canon_foldlD]

theorem State.lineRead_canon {pq : List Instr} (s : State) (r : Req) (a : Nat) (n : Nat) (slice : Nat) (host : HostRead) (h_s : Canon pq s) :
    Canon pq (State.lineRead s r a n slice host).1 := by
  unfold State.lineRead; (try simp only [pick_eq, pickRes_eq]); grind (ematch := 40) (gen := 60) (splits := 20) -lia -linarith -ring -ac -order -mbtc -funCC [State.sliceRead_canon, State.readMem_canon, canon_pick, canon_pickRes, canon_next, canon_refused, canon_foldl, canon_foldl1, canon_foldlD]

theorem State.lineWrite_canon {pq : List Instr} (s : State) (r : Req) (a : Nat) (bs : Bytes) (mark : Bool) (slice : Nat) (host : HostWrite) (h_s : Canon pq s) :
    Canon pq (State.lineWrite s r a bs mark slice host).1 := by
  unfold State.lineWrite; (try simp only [pick_eq, pickRes_eq]); grind (ematch := 40) (gen := 60) (splits := 20) -lia -linarith -ring -ac -order -mbtc -funCC [State.hostPut_canon, State.writeMem_canon, canon_pick, canon_pickRes, canon_next, canon_refused, canon_foldl, canon_foldl1, canon_foldlD]

theorem State.takeTrap_canon {pq : List Instr} (s : State) (p : Nat) (cause : BitVec 4) (pc : BitVec 16) (unit : BitVec 3) (async : Bool) (h_s : Canon pq s) :
    Canon pq (State.takeTrap s p cause pc unit async) := by
  unfold State.takeTrap; (try simp only [pick_eq, pickRes_eq]); grind (ematch := 40) (gen := 60) (splits := 20) -lia -linarith -ring -ac -order -mbtc -funCC [State.landAll_canon, State.holdChannels_canon, State.modCore_canon, State.err_canon, canon_pick, canon_pickRes, canon_next, canon_refused, canon_foldl, canon_foldl1, canon_foldlD]

theorem State.learn_canon {pq : List Instr} (s : State) (w : Watch) (h_s : Canon pq s) :
    Canon pq (State.learn s w).state := by
  unfold State.learn; (try simp only [pick_eq, pickRes_eq]); grind (ematch := 40) (gen := 60) (splits := 20) -lia -linarith -ring -ac -order -mbtc -funCC [State.setAnswered_canon, State.armWatch_canon, canon_pick, canon_pickRes, canon_next, canon_refused, canon_foldl, canon_foldl1, canon_foldlD]

theorem orHeld_canon {pq : List Instr} (s : State) (r : Res) (h_s : Canon pq s) (h_r : CanonRes pq r) : CanonRes pq (orHeld s r) := by
  cases r with
  | fault _ => exact h_r
  | refused _ => exact h_r
  | next t =>
    have ht := h_r t rfl
    unfold orHeld
    grind (ematch := 40) (gen := 60) [State.hold_canon, canon_next, canon_foldl]

theorem waitSliceTag_canon {pq : List Instr} (s : State) (slice : Nat) (reads : List HostRead) (r : Res) (h_s : Canon pq s) (h_r : CanonRes pq r) :
    CanonRes pq (waitSliceTag s slice reads r) := by
  unfold waitSliceTag; (try simp only [pick_eq, pickRes_eq]); grind (ematch := 40) (gen := 60) (splits := 20) -lia -linarith -ring -ac -order -mbtc -funCC [waitTag_canon, canon_pick, canon_pickRes, canon_next, canon_refused, canon_foldl, canon_foldl1, canon_foldlD]

end Sys2Proof.Machine
end

