-- ==== Sys2Proof/Laws/CanonGather.lean ====
section
/-! SUPPORT. Every function of Machine/Gather.lean keeps the queue and the canonical form of registers and memory. -/
set_option linter.unusedSimpArgs false
namespace Sys2Proof.Machine
open Sys2Proof

theorem State.ackFence_canon {pq : List Instr} (s : State) (part : Nat) (slot : Nat) (gc : Nat) (h_s : Canon pq s) :
    Canon pq (State.ackFence s part slot gc) := by
  unfold State.ackFence; (try simp only [pick_eq, pickRes_eq]); grind (ematch := 40) (gen := 60) (splits := 20) -lia -linarith -ring -ac -order -mbtc -funCC [State.modMovRing_canon, canon_pick, canon_pickRes, canon_next, canon_refused, canon_foldl, canon_foldl1, canon_foldlD]

theorem State.settleFences_canon {pq : List Instr} (s : State) (gc : Nat) (h_s : Canon pq s) :
    Canon pq (State.settleFences s gc) := by
  unfold State.settleFences; (try simp only [pick_eq, pickRes_eq]); grind (ematch := 40) (gen := 60) (splits := 20) -lia -linarith -ring -ac -order -mbtc -funCC [State.ackFence_canon, State.modCluster_canon, canon_pick, canon_pickRes, canon_next, canon_refused, canon_foldl, canon_foldl1, canon_foldlD]

theorem State.gatherComplete_canon {pq : List Instr} (s : State) (gc : Fin 160) (page : Nat) (line : Nat) (host : HostSide) (h_s : Canon pq s) :
    Canon pq (State.gatherComplete s gc page line host) := by
  unfold State.gatherComplete; (try simp only [pick_eq, pickRes_eq]); grind (ematch := 40) (gen := 60) (splits := 20) -lia -linarith -ring -ac -order -mbtc -funCC [State.lineRead_canon, State.lineWrite_canon, State.settleFences_canon, State.modCluster_canon, canon_pick, canon_pickRes, canon_next, canon_refused, canon_foldl, canon_foldl1, canon_foldlD]

theorem State.pgEntry_canon {pq : List Instr} (s : State) (gc : Fin 160) (c : PgCmd) (i : Nat) (host : HostSide) (h_s : Canon pq s) :
    Canon pq (State.pgEntry s gc c i host).1 := by
  unfold State.pgEntry; (try simp only [pick_eq, pickRes_eq]); grind (ematch := 40) (gen := 60) (splits := 20) -lia -linarith -ring -ac -order -mbtc -funCC [State.lineRead_canon, canon_pick, canon_pickRes, canon_next, canon_refused, canon_foldl, canon_foldl1, canon_foldlD]

theorem State.gatherStart_canon {pq : List Instr} (s : State) (gc : Fin 160) (host : HostSide) (h_s : Canon pq s) :
    Canon pq (State.gatherStart s gc host) := by
  unfold State.gatherStart; (try simp only [pick_eq, pickRes_eq]); grind (ematch := 40) (gen := 60) (splits := 20) -lia -linarith -ring -ac -order -mbtc -funCC [State.pgEntry_canon, State.settleFences_canon, State.modCluster_canon, canon_pick, canon_pickRes, canon_next, canon_refused, canon_foldl, canon_foldl1, canon_foldlD]

theorem execPageFence_canon {pq : List Instr} (gc : Fin 160) (part : Fin 12) (slot : Nat) (s : State) (h_s : Canon pq s) :
    CanonRes pq (execPageFence gc part slot s) := by
  unfold execPageFence; (try simp only [pick_eq, pickRes_eq]); grind (ematch := 40) (gen := 60) (splits := 20) -lia -linarith -ring -ac -order -mbtc -funCC [State.settleFences_canon, State.modCluster_canon, canon_pick, canon_pickRes, canon_next, canon_refused, canon_foldl, canon_foldl1, canon_foldlD]

theorem execPageGatherDone_canon {pq : List Instr} (gc : Fin 160) (slice : Fin 256) (host : HostWrite) (s : State) (h_s : Canon pq s) :
    CanonRes pq (execPageGatherDone gc slice host s) := by
  unfold execPageGatherDone; (try simp only [pick_eq, pickRes_eq]); grind (ematch := 40) (gen := 60) (splits := 20) -lia -linarith -ring -ac -order -mbtc -funCC [orHeld_canon, State.lineWrite_canon, State.sigCluster_canon, State.settleFences_canon, State.modCluster_canon, State.step1_canon, canon_pick, canon_pickRes, canon_next, canon_refused, canon_foldl, canon_foldl1, canon_foldlD]

theorem execPageGatherTake_canon {pq : List Instr} (gc : Fin 160) (s : State) (h_s : Canon pq s) :
    CanonRes pq (execPageGatherTake gc s) := by
  unfold execPageGatherTake; (try simp only [pick_eq, pickRes_eq]); grind (ematch := 40) (gen := 60) (splits := 20) -lia -linarith -ring -ac -order -mbtc -funCC [State.readMem_canon, State.modCluster_canon, canon_pick, canon_pickRes, canon_next, canon_refused, canon_foldl, canon_foldl1, canon_foldlD]

end Sys2Proof.Machine
end

