-- ==== Sys2Proof/Laws/CanonShares.lean ====
section
/-! SUPPORT. Every function of Machine/Shares.lean keeps the queue and the canonical form of registers and memory. -/
set_option linter.unusedSimpArgs false
namespace Sys2Proof.Machine
open Sys2Proof

theorem State.hubNow_canon {pq : List Instr} (s : State) (h : Nat) (now : Nat) (h_s : Canon pq s) :
    Canon pq (State.hubNow s h now) := by
  unfold State.hubNow; (try simp only [pick_eq, pickRes_eq]); grind (ematch := 40) (gen := 60) (splits := 20) -lia -linarith -ring -ac -order -mbtc -funCC [State.setClockOf_canon, canon_pick, canon_pickRes, canon_next, canon_refused, canon_foldl, canon_foldl1, canon_foldlD]

theorem State.served_canon {pq : List Instr} (s : State) (hub : Nat) (e : Nat) (p : Nat) (now : Nat) (h_s : Canon pq s) :
    Canon pq (State.served s hub e p now) := by
  unfold State.served; (try simp only [pick_eq, pickRes_eq]); grind (ematch := 40) (gen := 60) (splits := 20) -lia -linarith -ring -ac -order -mbtc -funCC [State.hubNow_canon, State.setTurnOf_canon, canon_pick, canon_pickRes, canon_next, canon_refused, canon_foldl, canon_foldl1, canon_foldlD]

end Sys2Proof.Machine
end

