-- ==== Sys2Proof/Laws/CanonMoves.lean ====
section
/-! SUPPORT. Every function of Machine/Moves.lean keeps the queue and the canonical form of registers and memory. -/
set_option linter.unusedSimpArgs false
namespace Sys2Proof.Machine
open Sys2Proof

theorem State.xstop_canon {pq : List Instr} (s : State) (gc : Nat) (slot : Nat) (ch : Nat) (h_s : Canon pq s) :
    Canon pq (State.xstop s gc slot ch) := by
  unfold State.xstop; grind (ematch := 40) (gen := 60) (splits := 20) -lia -linarith -ring -ac -order -mbtc -funCC [State.modChan_canon, State.unwait_canon, canon_pick, canon_pickRes, canon_next, canon_refused, canon_foldl, canon_foldl1, canon_foldlD]

theorem State.lineSource_canon {pq : List Instr} (s : State) (r : Req) (o : XOp) (off : Nat) (n : Nat) (host : HostSide) (h_s : Canon pq s) :
    Canon pq (State.lineSource s r o off n host).1 := by
  unfold State.lineSource; (try simp only [pick_eq, pickRes_eq]); grind (ematch := 40) (gen := 60) (splits := 20) -lia -linarith -ring -ac -order -mbtc -funCC [State.lineRead_canon, State.draw_canon, canon_pick, canon_pickRes, canon_next, canon_refused, canon_foldl, canon_foldl1, canon_foldlD]

theorem State.lineComplete_canon {pq : List Instr} (s : State) (gc : Fin 160) (slot : Fin 18) (ch : Fin 4) (off : Nat) (host : HostSide) (h_s : Canon pq s) :
    Canon pq (State.lineComplete s gc slot ch off host) := by
  unfold State.lineComplete; (try simp only [pick_eq, pickRes_eq]); grind (ematch := 40) (gen := 60) (splits := 20) -lia -linarith -ring -ac -order -mbtc -funCC [State.modCluster_canon, State.lineSource_canon, State.lineWrite_canon, State.modChan_canon, canon_pick, canon_pickRes, canon_next, canon_refused, canon_foldl, canon_foldl1, canon_foldlD]

theorem State.xSignal_canon {pq : List Instr} (s : State) (gc : Nat) (o : XOp) (h_s : Canon pq s) :
    Canon pq (State.xSignal s gc o) := by
  unfold State.xSignal; (try simp only [pick_eq, pickRes_eq]); grind (ematch := 40) (gen := 60) (splits := 20) -lia -linarith -ring -ac -order -mbtc -funCC [State.sigCluster_canon, canon_pick, canon_pickRes, canon_next, canon_refused, canon_foldl, canon_foldl1, canon_foldlD]

theorem execLineComplete_canon {pq : List Instr} (gc : Fin 160) (line : LineId) (host : HostSide) (s : State) (h_s : Canon pq s) :
    CanonRes pq (execLineComplete gc line host s) := by
  unfold execLineComplete; (try simp only [pick_eq, pickRes_eq]); grind (ematch := 40) (gen := 60) (splits := 20) -lia -linarith -ring -ac -order -mbtc -funCC [waitSliceTag_canon, orHeld_canon, State.lineComplete_canon, State.gatherComplete_canon, canon_pick, canon_pickRes, canon_next, canon_refused, canon_foldl, canon_foldl1, canon_foldlD]

theorem execLineStart_canon {pq : List Instr} (gc : Fin 160) (host : HostSide) (s : State) (h_s : Canon pq s) :
    CanonRes pq (execLineStart gc host s) := by
  unfold execLineStart; (try simp only [pick_eq, pickRes_eq]); grind (ematch := 40) (gen := 60) (splits := 20) -lia -linarith -ring -ac -order -mbtc -funCC [waitSliceTag_canon, State.modCluster_canon, State.gatherStart_canon, State.modChan_canon, canon_pick, canon_pickRes, canon_next, canon_refused, canon_foldl, canon_foldl1, canon_foldlD]

theorem execWpullTake_canon {pq : List Instr} (gc : Fin 160) (host : HostWrite) (s : State) (h_s : Canon pq s) :
    CanonRes pq (execWpullTake gc host s) := by
  unfold execWpullTake; (try simp only [pick_eq, pickRes_eq]); grind (ematch := 40) (gen := 60) (splits := 20) -lia -linarith -ring -ac -order -mbtc -funCC [orHeld_canon, State.modCluster_canon, State.lineWrite_canon, State.modChan_canon, State.xSignal_canon, canon_pick, canon_pickRes, canon_next, canon_refused, canon_foldl, canon_foldl1, canon_foldlD]

theorem execXOpComplete_canon {pq : List Instr} (gc : Fin 160) (slot : Fin 18) (ch : Fin 4) (s : State) (h_s : Canon pq s) :
    CanonRes pq (execXOpComplete gc slot ch s) := by
  unfold execXOpComplete; (try simp only [pick_eq, pickRes_eq]); grind (ematch := 40) (gen := 60) (splits := 20) -lia -linarith -ring -ac -order -mbtc -funCC [State.modChan_canon, State.xSignal_canon, canon_pick, canon_pickRes, canon_next, canon_refused, canon_foldl, canon_foldl1, canon_foldlD]

theorem execXOpStart_canon {pq : List Instr} (gc : Fin 160) (slot : Fin 18) (ch : Fin 4) (s : State) (h_s : Canon pq s) :
    CanonRes pq (execXOpStart gc slot ch s) := by
  unfold execXOpStart; (try simp only [pick_eq, pickRes_eq]); grind (ematch := 40) (gen := 60) (splits := 20) -lia -linarith -ring -ac -order -mbtc -funCC [State.modChan_canon, State.modCluster_canon, canon_pick, canon_pickRes, canon_next, canon_refused, canon_foldl, canon_foldl1, canon_foldlD]

end Sys2Proof.Machine
end

