-- ==== Sys2Proof/Laws/CanonBeacons.lean ====
section
/-! SUPPORT. Every function of Machine/Beacons.lean keeps the queue and the canonical form of registers and memory. -/
set_option linter.unusedSimpArgs false
namespace Sys2Proof.Machine
open Sys2Proof

theorem State.disarmTag_canon {pq : List Instr} (s : State) (hub : Nat) (e : Engine) (tag : BitVec 16) (h_s : Canon pq s) :
    Canon pq (State.disarmTag s hub e tag) := by
  unfold State.disarmTag; (try simp only [pick_eq, pickRes_eq]); grind (ematch := 40) (gen := 60) (splits := 20) -lia -linarith -ring -ac -order -mbtc -funCC [State.setAnswered_canon, State.disarmWatch_canon, canon_pick, canon_pickRes, canon_next, canon_refused, canon_foldl, canon_foldl1, canon_foldlD]

theorem State.badDesc_canon {pq : List Instr} (s : State) (hub : Nat) (ring : Nat) (slice : Nat) (status : BitVec 8) (part : Nat) (h_s : Canon pq s) :
    Canon pq (State.badDesc s hub ring slice status part) := by
  unfold State.badDesc; (try simp only [pick_eq, pickRes_eq]); grind (ematch := 40) (gen := 60) (splits := 20) -lia -linarith -ring -ac -order -mbtc -funCC [State.bump_canon, State.wr_canon, State.err_canon, canon_pick, canon_pickRes, canon_next, canon_refused, canon_foldl, canon_foldl1, canon_foldlD]

theorem State.bcnDropped_canon {pq : List Instr} (s : State) (src gc : Nat) (h_s : Canon pq s) : CanonOpt pq (s.bcnDropped src gc) := by
  unfold State.bcnDropped
  intro t ht
  obtain ⟨n, _, rfl⟩ := Option.map_eq_some_iff.1 ht
  exact State.bump_canon _ _ _ h_s

theorem State.checkRing_canon {pq : List Instr} (s : State) (hub : Nat) (r : Nat) (h_s : Canon pq s) :
    Canon pq (State.checkRing s hub r) := by
  unfold State.checkRing; (try simp only [pick_eq, pickRes_eq]); grind (ematch := 40) (gen := 60) (splits := 20) -lia -linarith -ring -ac -order -mbtc -funCC [State.modDisOf_canon, State.wr_canon, State.draw_canon, canon_pick, canon_pickRes, canon_next, canon_refused, canon_foldl, canon_foldl1, canon_foldlD]

theorem State.checkRings_canon {pq : List Instr} (s : State) (hub : Nat) (h_s : Canon pq s) :
    Canon pq (State.checkRings s hub) := by
  unfold State.checkRings; (try simp only [pick_eq, pickRes_eq]); grind (ematch := 40) (gen := 60) (splits := 20) -lia -linarith -ring -ac -order -mbtc -funCC [State.checkRing_canon, State.modDisOf_canon, canon_pick, canon_pickRes, canon_next, canon_refused, canon_foldl, canon_foldl1, canon_foldlD]

theorem State.syncPause_canon {pq : List Instr} (s : State) (hub : Nat) (p : Nat) (h_s : Canon pq s) :
    Canon pq (State.syncPause s hub p) := by
  unfold State.syncPause; (try simp only [pick_eq, pickRes_eq]); grind (ematch := 40) (gen := 60) (splits := 20) -lia -linarith -ring -ac -order -mbtc -funCC [State.modCluster_canon, State.setReg_canon, canon_pick, canon_pickRes, canon_next, canon_refused, canon_foldl, canon_foldl1, canon_foldlD]

theorem State.disarmAll_canon {pq : List Instr} (s : State) (hub : Nat) (e : Engine) (h_s : Canon pq s) :
    Canon pq (State.disarmAll s hub e) := by
  unfold State.disarmAll; (try simp only [pick_eq, pickRes_eq]); grind (ematch := 40) (gen := 60) (splits := 20) -lia -linarith -ring -ac -order -mbtc -funCC [State.disarmWatch_canon, canon_pick, canon_pickRes, canon_next, canon_refused, canon_foldl, canon_foldl1, canon_foldlD, canon_upd]

theorem State.holdDesc_canon {pq : List Instr} (s : State) (hub : Nat) (src : Nat) (part : Nat) (d : Bytes) (h_s : Canon pq s) :
    Canon pq (State.holdDesc s hub src part d) := by
  unfold State.holdDesc; (try simp only [pick_eq, pickRes_eq]); grind (ematch := 40) (gen := 60) (splits := 20) -lia -linarith -ring -ac -order -mbtc -funCC [State.modDisOf_canon, canon_pick, canon_pickRes, canon_next, canon_refused, canon_foldl, canon_foldl1, canon_foldlD]

theorem State.refuseJob_canon {pq : List Instr} (s : State) (key : Nat) (d : Bytes) (status : BitVec 8) (h_s : Canon pq s) :
    Canon pq (State.refuseJob s key d status) := by
  unfold State.refuseJob; (try simp only [pick_eq, pickRes_eq]); grind (ematch := 40) (gen := 60) (splits := 20) -lia -linarith -ring -ac -order -mbtc -funCC [State.setJobq_canon, canon_pick, canon_pickRes, canon_next, canon_refused, canon_foldl, canon_foldl1, canon_foldlD]

theorem State.refuseDesc_canon {pq : List Instr} (s : State) (hub : Nat) (src : Nat) (part : Nat) (d : Bytes) (status : BitVec 8) (h_s : Canon pq s) :
    Canon pq (State.refuseDesc s hub src part d status) := by
  unfold State.refuseDesc; (try simp only [pick_eq, pickRes_eq]); grind (ematch := 40) (gen := 60) (splits := 20) -lia -linarith -ring -ac -order -mbtc -funCC [State.badDesc_canon, State.refuseJob_canon, canon_pick, canon_pickRes, canon_next, canon_refused, canon_foldl, canon_foldl1, canon_foldlD]

theorem State.writeBackAll_canon {pq : List Instr} (s : State) (p : Nat) (h_s : Canon pq s) :
    Canon pq (State.writeBackAll s p) := by
  unfold State.writeBackAll; (try simp only [pick_eq, pickRes_eq]); grind (ematch := 40) (gen := 60) (splits := 20) -lia -linarith -ring -ac -order -mbtc -funCC [State.modChan_canon, canon_pick, canon_pickRes, canon_next, canon_refused, canon_foldl, canon_foldl1, canon_foldlD]

theorem execBcnAddWrite_canon {pq : List Instr} (r : Req) (id : Fin 20480) (n : BitVec 32) (s : State) (h_s : Canon pq s) :
    CanonRes pq (execBcnAddWrite r id n s) := by
  unfold execBcnAddWrite; (try simp only [pick_eq, pickRes_eq]); grind (ematch := 40) (gen := 60) (splits := 20) -lia -linarith -ring -ac -order -mbtc -funCC [State.out_canon, State.beaconAdd_canon, canon_pick, canon_pickRes, canon_next, canon_refused, canon_foldl, canon_foldl1, canon_foldlD]

theorem execBcnValueWrite_canon {pq : List Instr} (r : Req) (id : Fin 20480) (v : BitVec 32) (s : State) (h_s : Canon pq s) :
    CanonRes pq (execBcnValueWrite r id v s) := by
  unfold execBcnValueWrite; (try simp only [pick_eq, pickRes_eq]); grind (ematch := 40) (gen := 60) (splits := 20) -lia -linarith -ring -ac -order -mbtc -funCC [State.out_canon, State.beaconSet_canon, canon_pick, canon_pickRes, canon_next, canon_refused, canon_foldl, canon_foldl1, canon_foldlD]

theorem execClusterPauseDone_canon {pq : List Instr} (gc : Fin 160) (s : State) (h_s : Canon pq s) :
    CanonRes pq (execClusterPauseDone gc s) := by
  unfold execClusterPauseDone; (try simp only [pick_eq, pickRes_eq]); grind (ematch := 40) (gen := 60) (splits := 20) -lia -linarith -ring -ac -order -mbtc -funCC [State.setCluster_canon, State.syncPause_canon, State.setReg_canon, canon_pick, canon_pickRes, canon_next, canon_refused, canon_foldl, canon_foldl1, canon_foldlD]

theorem execCorePause_canon {pq : List Instr} (gc : Fin 160) (slot : Fin 18) (s : State) (h_s : Canon pq s) :
    CanonRes pq (execCorePause gc slot s) := by
  unfold execCorePause; (try simp only [pick_eq, pickRes_eq]); grind (ematch := 40) (gen := 60) (splits := 20) -lia -linarith -ring -ac -order -mbtc -funCC [State.holdChannels_canon, State.modCore_canon, State.landAll_canon, State.writeBackAll_canon, canon_pick, canon_pickRes, canon_next, canon_refused, canon_foldl, canon_foldl1, canon_foldlD]

theorem execCoreUnpause_canon {pq : List Instr} (gc : Fin 160) (slot : Fin 18) (s : State) (h_s : Canon pq s) :
    CanonRes pq (execCoreUnpause gc slot s) := by
  unfold execCoreUnpause; (try simp only [pick_eq, pickRes_eq]); grind (ematch := 40) (gen := 60) (splits := 20) -lia -linarith -ring -ac -order -mbtc -funCC [State.holdChannels_canon, State.modCore_canon, State.modCluster_canon, State.syncPause_canon, State.setReg_canon, canon_pick, canon_pickRes, canon_next, canon_refused, canon_foldl, canon_foldl1, canon_foldlD]

theorem execDescriptorPlace_canon {pq : List Instr} (hub : Fin 2) (part : Fin 12) (now : Nat) (s : State) (h_s : Canon pq s) :
    CanonRes pq (execDescriptorPlace hub part now s) := by
  unfold execDescriptorPlace; (try simp only [pick_eq, pickRes_eq]); grind (ematch := 40) (gen := 60) (splits := 20) -lia -linarith -ring -ac -order -mbtc -funCC [State.served_canon, State.modDisOf_canon, State.refuseDesc_canon, State.modPart_canon, State.modCluster_canon, canon_pick, canon_pickRes, canon_next, canon_refused, canon_foldl, canon_foldl1, canon_foldlD]

theorem execDisRingTake_canon {pq : List Instr} (hub : Fin 2) (ring : Fin 48) (s : State) (h_s : Canon pq s) :
    CanonRes pq (execDisRingTake hub ring s) := by
  unfold execDisRingTake; (try simp only [pick_eq, pickRes_eq]); grind (ematch := 40) (gen := 60) (splits := 20) -lia -linarith -ring -ac -order -mbtc -funCC [State.checkRing_canon, State.learn_canon, State.readMem_canon, State.step1_canon, State.sigHub_canon, State.holdDesc_canon, State.refuseDesc_canon, canon_pick, canon_pickRes, canon_next, canon_refused, canon_foldl, canon_foldl1, canon_foldlD]

theorem execDisarm_canon {pq : List Instr} (hub : Fin 2) (engine : Engine) (gc : Fin 160) (tag : BitVec 16) (s : State) (h_s : Canon pq s) :
    CanonRes pq (execDisarm hub engine gc tag s) := by
  unfold execDisarm; (try simp only [pick_eq, pickRes_eq]); grind (ematch := 40) (gen := 60) (splits := 20) -lia -linarith -ring -ac -order -mbtc -funCC [State.disarmWatch_canon, canon_pick, canon_pickRes, canon_next, canon_refused, canon_foldl, canon_foldl1, canon_foldlD]

theorem execGateRelease_canon {pq : List Instr} (hub : Fin 2) (src : Nat) (s : State) (h_s : Canon pq s) :
    CanonRes pq (execGateRelease hub src s) := by
  unfold execGateRelease; (try simp only [pick_eq, pickRes_eq]); grind (ematch := 40) (gen := 60) (splits := 20) -lia -linarith -ring -ac -order -mbtc -funCC [State.learn_canon, State.modDisOf_canon, canon_pick, canon_pickRes, canon_next, canon_refused, canon_foldl, canon_foldl1, canon_foldlD]

theorem execPartitionPause_canon {pq : List Instr} (hub : Fin 2) (part : Fin 12) (s : State) (h_s : Canon pq s) :
    CanonRes pq (execPartitionPause hub part s) := by
  unfold execPartitionPause; (try simp only [pick_eq, pickRes_eq]); grind (ematch := 40) (gen := 60) (splits := 20) -lia -linarith -ring -ac -order -mbtc -funCC [withPage_canon, State.syncPause_canon, State.setReg_canon, canon_pick, canon_pickRes, canon_next, canon_refused, canon_foldl, canon_foldl1, canon_foldlD]

theorem execPartitionResume_canon {pq : List Instr} (hub : Fin 2) (part : Fin 12) (s : State) (h_s : Canon pq s) :
    CanonRes pq (execPartitionResume hub part s) := by
  unfold execPartitionResume; (try simp only [pick_eq, pickRes_eq]); grind (ematch := 40) (gen := 60) (splits := 20) -lia -linarith -ring -ac -order -mbtc -funCC [withPage_canon, State.syncPause_canon, State.setReg_canon, canon_pick, canon_pickRes, canon_next, canon_refused, canon_foldl, canon_foldl1, canon_foldlD]

theorem execSignalArrive_canon {pq : List Instr} (n : Nat) (s : State) (h_s : Canon pq s) : CanonRes pq (execSignalArrive n s) := by
  unfold execSignalArrive
  split
  · exact canon_next h_s
  · next g _ =>
    extract_lets s1 src
    have h1 : Canon pq s1 := h_s
    clear_value s1 src
    split
    · next t ht => exact canon_next (State.bcnDropped_canon _ _ _ h1 t ht)
    · split
      · split
        · exact canon_next (State.bump_canon _ _ _ h1)
        · exact canon_next (State.bucket_canon _ _ (State.bump_canon _ _ _ h1))
      · exact canon_next (State.beaconAdd_canon _ _ _ h1)

theorem execSignalSend_canon {pq : List Instr} (src : SigSrc) (id : Fin 20480) (s : State) (h_s : Canon pq s) :
    CanonRes pq (execSignalSend src id s) := by
  generalize hF : @execSignalSend = F; delta execSignalSend at hF; subst hF; grind (ematch := 40) (gen := 60) (splits := 20) -lia -linarith -ring -ac -order -mbtc -funCC [State.modCluster_canon, State.setHubSum_canon, canon_pick, canon_pickRes, canon_next, canon_refused, canon_foldl, canon_foldl1, canon_foldlD, canon_upd]

theorem execWatchArm_canon {pq : List Instr} (hub : Fin 2) (engine : Engine) (id : Fin 20480) (target : BitVec 32) (tag : BitVec 16)
    (s : State) (h_s : Canon pq s) : CanonRes pq (execWatchArm hub engine id target tag s) := by
  unfold execWatchArm
  split
  · next t ht => exact canon_next (State.bcnDropped_canon _ _ _ h_s t ht)
  · exact canon_next (State.armWatch_canon _ _ h_s)

theorem execWorkCreditReturn_canon {pq : List Instr} (gc : Fin 160) (s : State) (h_s : Canon pq s) :
    CanonRes pq (execWorkCreditReturn gc s) := by
  unfold execWorkCreditReturn; (try simp only [pick_eq, pickRes_eq]); grind (ematch := 40) (gen := 60) (splits := 20) -lia -linarith -ring -ac -order -mbtc -funCC [State.setCluster_canon, State.modDisOf_canon, canon_pick, canon_pickRes, canon_next, canon_refused, canon_foldl, canon_foldl1, canon_foldlD]

end Sys2Proof.Machine
end

