-- ==== Sys2Proof/Laws/CanonBlocks.lean ====
section
/-! SUPPORT. Every function of Machine/Blocks.lean keeps the queue and the canonical form of registers and memory. -/
set_option linter.unusedSimpArgs false
namespace Sys2Proof.Machine
open Sys2Proof

theorem State.lockDrop_canon {pq : List Instr} (s : State) (link : Nat) (num : Nat) (h_s : Canon pq s) :
    Canon pq (State.lockDrop s link num) := by
  unfold State.lockDrop; (try simp only [pick_eq, pickRes_eq]); grind (ematch := 40) (gen := 60) (splits := 20) -lia -linarith -ring -ac -order -mbtc -funCC [State.wr_canon, State.setNvme_canon, canon_pick, canon_pickRes, canon_next, canon_refused, canon_foldl, canon_foldl1, canon_foldlD]

theorem State.lockTake_canon {pq : List Instr} (s : State) (link : Nat) (c : NvCmd) (h_s : Canon pq s) :
    Canon pq (State.lockTake s link c) := by
  unfold State.lockTake; (try simp only [pick_eq, pickRes_eq]); grind (ematch := 40) (gen := 60) (splits := 20) -lia -linarith -ring -ac -order -mbtc -funCC [State.wr_canon, State.setNvme_canon, canon_pick, canon_pickRes, canon_next, canon_refused, canon_foldl, canon_foldl1, canon_foldlD]

end Sys2Proof.Machine
end

