-- ==== Sys2Proof/Laws/CanonEgress.lean ====
section
/-! SUPPORT. Every function of Machine/Egress.lean keeps the queue and the canonical form of registers and memory. -/
set_option linter.unusedSimpArgs false
namespace Sys2Proof.Machine
open Sys2Proof

theorem State.applyGcl_canon {pq : List Instr} (s : State) (port : Nat) (h_s : Canon pq s) :
    Canon pq (State.applyGcl s port) := by
  unfold State.applyGcl; (try simp only [pick_eq, pickRes_eq]); grind (ematch := 40) (gen := 60) (splits := 20) -lia -linarith -ring -ac -order -mbtc -funCC [State.wr_canon, State.blockErr_canon, State.modPort_canon, canon_pick, canon_pickRes, canon_next, canon_refused, canon_foldl, canon_foldl1, canon_foldlD]

theorem State.applyWmap_canon {pq : List Instr} (s : State) (port : Nat) (h_s : Canon pq s) :
    Canon pq (State.applyWmap s port) := by
  unfold State.applyWmap; (try simp only [pick_eq, pickRes_eq]); grind (ematch := 40) (gen := 60) (splits := 20) -lia -linarith -ring -ac -order -mbtc -funCC [State.modPort_canon, State.wr_canon, canon_pick, canon_pickRes, canon_next, canon_refused, canon_foldl, canon_foldl1, canon_foldlD]

theorem execTshCommitGcl_canon {pq : List Instr} (port : Fin 8) (s : State) (h_s : Canon pq s) :
    CanonRes pq (execTshCommitGcl port s) := by
  unfold execTshCommitGcl; (try simp only [pick_eq, pickRes_eq]); grind (ematch := 40) (gen := 60) (splits := 20) -lia -linarith -ring -ac -order -mbtc -funCC [withPage_canon, State.wr_canon, State.applyGcl_canon, canon_pick, canon_pickRes, canon_next, canon_refused, canon_foldl, canon_foldl1, canon_foldlD]

theorem execTshCommitWmap_canon {pq : List Instr} (port : Fin 8) (s : State) (h_s : Canon pq s) :
    CanonRes pq (execTshCommitWmap port s) := by
  unfold execTshCommitWmap; (try simp only [pick_eq, pickRes_eq]); grind (ematch := 40) (gen := 60) (splits := 20) -lia -linarith -ring -ac -order -mbtc -funCC [withPage_canon, State.wr_canon, State.applyWmap_canon, canon_pick, canon_pickRes, canon_next, canon_refused, canon_foldl, canon_foldl1, canon_foldlD]

theorem State.joinNode_canon {pq : List Instr} (s : State) (q : Nat) (port : Nat) (n : Nat) (h_s : Canon pq s) :
    Canon pq (State.joinNode s q port n) := by
  unfold State.joinNode; (try simp only [pick_eq, pickRes_eq]); grind (ematch := 40) (gen := 60) (splits := 20) -lia -linarith -ring -ac -order -mbtc -funCC [State.modNode_canon, State.modLane_canon, canon_pick, canon_pickRes, canon_next, canon_refused, canon_foldl, canon_foldl1, canon_foldlD]

theorem State.offer_canon {pq : List Instr} (s : State) (h : Nat) (q : Nat) (k : Nat) (f : Frame) (h_s : Canon pq s) :
    Canon pq (State.offer s h q k f).1 := by
  unfold State.offer; (try simp only [pick_eq, pickRes_eq]); grind (ematch := 40) (gen := 60) (splits := 20) -lia -linarith -ring -ac -order -mbtc -funCC [State.bucket_canon, State.err_canon, State.bump_canon, State.joinNode_canon, State.modLane_canon, canon_pick, canon_pickRes, canon_next, canon_refused, canon_foldl, canon_foldl1, canon_foldlD]

theorem State.offerHeld_canon {pq : List Instr} (s : State) (h : Nat) (h_s : Canon pq s) :
    Canon pq (State.offerHeld s h) := by
  unfold State.offerHeld; (try simp only [pick_eq, pickRes_eq]); grind (ematch := 40) (gen := 60) (splits := 20) -lia -linarith -ring -ac -order -mbtc -funCC [State.offer_canon, State.modTel_canon, canon_pick, canon_pickRes, canon_next, canon_refused, canon_foldl, canon_foldl1, canon_foldlD]

theorem State.frameLeft_canon {pq : List Instr} (s : State) (f : Frame) (h_s : Canon pq s) :
    Canon pq (State.frameLeft s f) := by
  unfold State.frameLeft; (try simp only [pick_eq, pickRes_eq]); grind (ematch := 40) (gen := 60) (splits := 20) -lia -linarith -ring -ac -order -mbtc -funCC [State.modNicqp_canon, canon_pick, canon_pickRes, canon_next, canon_refused, canon_foldl, canon_foldl1, canon_foldlD]

theorem State.freshPort_canon {pq : List Instr} (s : State) (port : Nat) (now : Nat) (h_s : Canon pq s) :
    Canon pq (State.freshPort s port now) := by
  unfold State.freshPort; (try simp only [pick_eq, pickRes_eq]); grind (ematch := 40) (gen := 60) (splits := 20) -lia -linarith -ring -ac -order -mbtc -funCC [State.modLane_canon, State.modNode_canon, State.modPort_canon, canon_pick, canon_pickRes, canon_next, canon_refused, canon_foldl, canon_foldl1, canon_foldlD]

theorem State.moveLanes_canon {pq : List Instr} (s : State) (port : Nat) (h_s : Canon pq s) :
    Canon pq (State.moveLanes s port) := by
  unfold State.moveLanes; (try simp only [pick_eq, pickRes_eq]); grind (ematch := 40) (gen := 60) (splits := 20) -lia -linarith -ring -ac -order -mbtc -funCC [State.joinNode_canon, canon_pick, canon_pickRes, canon_next, canon_refused, canon_foldl, canon_foldl1, canon_foldlD]

theorem State.portNow_canon {pq : List Instr} (s : State) (port : Nat) (ts : Nat) (h_s : Canon pq s) :
    Canon pq (State.portNow s port ts) := by
  unfold State.portNow; (try simp only [pick_eq, pickRes_eq]); grind (ematch := 40) (gen := 60) (splits := 20) -lia -linarith -ring -ac -order -mbtc -funCC [State.wr64_canon, canon_pick, canon_pickRes, canon_next, canon_refused, canon_foldl, canon_foldl1, canon_foldlD]

theorem execEgressEnqueue_canon {pq : List Instr} (hub : Fin 2) (queue : Nat) (port : Option (Fin 4)) (part : Option (Fin 12)) (frame : List (BitVec 8)) (s : State) (h_s : Canon pq s) :
    CanonRes pq (execEgressEnqueue hub queue port part frame s) := by
  unfold execEgressEnqueue; (try simp only [pick_eq, pickRes_eq]); grind (ematch := 40) (gen := 60) (splits := 20) -lia -linarith -ring -ac -order -mbtc -funCC [State.offer_canon, canon_pick, canon_pickRes, canon_next, canon_refused, canon_foldl, canon_foldl1, canon_foldlD]

theorem execEgressSelect_canon {pq : List Instr} (port : Fin 8) (now : Nat) (ts : Nat) (s : State) (h_s : Canon pq s) :
    CanonRes pq (execEgressSelect port now ts s) := by
  unfold execEgressSelect; (try simp only [pick_eq, pickRes_eq]); grind (ematch := 40) (gen := 60) (splits := 20) -lia -linarith -ring -ac -order -mbtc -funCC [State.freshPort_canon, State.moveLanes_canon, State.portNow_canon, State.hubNow_canon, State.modLane_canon, State.modNode_canon, State.modPort_canon, State.step64_canon, State.draw_canon, State.offerHeld_canon, State.frameLeft_canon, State.out_canon, canon_pick, canon_pickRes, canon_next, canon_refused, canon_foldl, canon_foldl1, canon_foldlD]

theorem execShadowApply_canon {pq : List Instr} (port : Fin 8) (gcl : Bool) (ts : Nat) (s : State) (h_s : Canon pq s) :
    CanonRes pq (execShadowApply port gcl ts s) := by
  unfold execShadowApply; (try dsimp only); with_reducible repeat' first | assumption | exact canon_refused | apply canon_next | apply State.portNow_canon | apply State.applyGcl_canon | apply State.applyWmap_canon | apply canon_foldl | apply canon_foldl1 | intro _ _ _ | split

end Sys2Proof.Machine
end

