-- ==== Sys2Proof/Laws/CanonCipher.lean ====
section
/-! SUPPORT. Every function of Machine/Cipher.lean keeps the queue and the canonical form of registers and memory. -/
set_option linter.unusedSimpArgs false
namespace Sys2Proof.Machine
open Sys2Proof

theorem State.pipeOp_canon {pq : List Instr} (s : State) (h : Nat) (cls : Nat) (part : Nat) (keyslot : Nat) (n : Nat) (h_s : Canon pq s) :
    Canon pq (State.pipeOp s h cls part keyslot n) := by
  unfold State.pipeOp; (try simp only [pick_eq, pickRes_eq]); grind (ematch := 40) (gen := 60) (splits := 20) -lia -linarith -ring -ac -order -mbtc -funCC [State.modCphOf_canon, canon_pick, canon_pickRes, canon_next, canon_refused, canon_foldl, canon_foldl1, canon_foldlD]

theorem State.pipeBlocks_canon {pq : List Instr} (s : State) (ns : Ns) (count : Nat) (h_s : Canon pq s) :
    Canon pq (State.pipeBlocks s ns count) := by
  unfold State.pipeBlocks; (try simp only [pick_eq, pickRes_eq]); grind (ematch := 40) (gen := 60) (splits := 20) -lia -linarith -ring -ac -order -mbtc -funCC [State.pipeOp_canon, canon_pick, canon_pickRes, canon_next, canon_refused, canon_foldl, canon_foldl1, canon_foldlD]

theorem State.countKeys_canon {pq : List Instr} (s : State) (h : Nat) (h_s : Canon pq s) :
    Canon pq (State.countKeys s h) := by
  unfold State.countKeys; (try simp only [pick_eq, pickRes_eq]); grind (ematch := 40) (gen := 60) (splits := 20) -lia -linarith -ring -ac -order -mbtc -funCC [State.wr_canon, canon_pick, canon_pickRes, canon_next, canon_refused, canon_foldl, canon_foldl1, canon_foldlD]

theorem State.pipeParity_canon {pq : List Instr} (s : State) (h : Nat) (pipe : Nat) (h_s : Canon pq s) :
    Canon pq (State.pipeParity s h pipe) := by
  unfold State.pipeParity; (try simp only [pick_eq, pickRes_eq]); grind (ematch := 40) (gen := 60) (splits := 20) -lia -linarith -ring -ac -order -mbtc -funCC [State.bucket_canon, State.err_canon, State.bump_canon, State.modCphOf_canon, canon_pick, canon_pickRes, canon_next, canon_refused, canon_foldl, canon_foldl1, canon_foldlD]

theorem State.tagFail_canon {pq : List Instr} (s : State) (h : Nat) (h_s : Canon pq s) :
    Canon pq (State.tagFail s h) := by
  unfold State.tagFail; (try simp only [pick_eq, pickRes_eq]); grind (ematch := 40) (gen := 60) (splits := 20) -lia -linarith -ring -ac -order -mbtc -funCC [State.bucket_canon, State.err_canon, State.bump_canon, canon_pick, canon_pickRes, canon_next, canon_refused, canon_foldl, canon_foldl1, canon_foldlD]

theorem execCipherPipeOp_canon {pq : List Instr} (hub : Fin 2) (now : Nat) (s : State) (h_s : Canon pq s) :
    CanonRes pq (execCipherPipeOp hub now s) := by
  unfold execCipherPipeOp; (try simp only [pick_eq, pickRes_eq]); grind (ematch := 40) (gen := 60) (splits := 20) -lia -linarith -ring -ac -order -mbtc -funCC [State.modCphOf_canon, State.served_canon, canon_pick, canon_pickRes, canon_next, canon_refused, canon_foldl, canon_foldl1, canon_foldlD]

theorem execPipeLost_canon {pq : List Instr} (hub : Fin 2) (pipe : Fin 16) (s : State) (h_s : Canon pq s) :
    CanonRes pq (execPipeLost hub pipe s) := by
  unfold execPipeLost; (try simp only [pick_eq, pickRes_eq]); grind (ematch := 40) (gen := 60) (splits := 20) -lia -linarith -ring -ac -order -mbtc -funCC [State.wr_canon, State.bbAdd_canon, State.err_canon, canon_pick, canon_pickRes, canon_next, canon_refused, canon_foldl, canon_foldl1, canon_foldlD]

end Sys2Proof.Machine
end

