-- ==== Sys2Proof/Laws/CanonEthernet.lean ====
section
/-! SUPPORT. Every function of Machine/Ethernet.lean keeps the queue and the canonical form of registers and memory. -/
set_option linter.unusedSimpArgs false
namespace Sys2Proof.Machine
open Sys2Proof

theorem State.leaveUp_canon {pq : List Instr} (s : State) (port : Nat) (h_s : Canon pq s) :
    Canon pq (State.leaveUp s port) := by
  unfold State.leaveUp; (try simp only [pick_eq, pickRes_eq]); grind (ematch := 40) (gen := 60) (splits := 20) -lia -linarith -ring -ac -order -mbtc -funCC [State.blockErr_canon, State.wr_canon, canon_pick, canon_pickRes, canon_next, canon_refused, canon_foldl, canon_foldl1, canon_foldlD]

theorem State.ethDown_canon {pq : List Instr} (s : State) (port : Nat) (h_s : Canon pq s) :
    Canon pq (State.ethDown s port) := by
  unfold State.ethDown; (try simp only [pick_eq, pickRes_eq]); grind (ematch := 40) (gen := 60) (splits := 20) -lia -linarith -ring -ac -order -mbtc -funCC [State.wr_canon, State.leaveUp_canon, canon_pick, canon_pickRes, canon_next, canon_refused, canon_foldl, canon_foldl1, canon_foldlD]

theorem State.train400_canon {pq : List Instr} (s : State) (port : Nat) (pair : Nat) (h_s : Canon pq s) :
    Canon pq (State.train400 s port pair) := by
  unfold State.train400; (try simp only [pick_eq, pickRes_eq]); grind (ematch := 40) (gen := 60) (splits := 20) -lia -linarith -ring -ac -order -mbtc -funCC [State.ethDown_canon, State.modPort_canon, State.wr_canon, canon_pick, canon_pickRes, canon_next, canon_refused, canon_foldl, canon_foldl1, canon_foldlD]

theorem State.after800_canon {pq : List Instr} (s : State) (port : Nat) (h_s : Canon pq s) :
    Canon pq (State.after800 s port) := by
  unfold State.after800; (try simp only [pick_eq, pickRes_eq]); grind (ematch := 40) (gen := 60) (splits := 20) -lia -linarith -ring -ac -order -mbtc -funCC [State.train400_canon, State.ethDown_canon, canon_pick, canon_pickRes, canon_next, canon_refused, canon_foldl, canon_foldl1, canon_foldlD]

theorem State.train800_canon {pq : List Instr} (s : State) (port : Nat) (h_s : Canon pq s) :
    Canon pq (State.train800 s port) := by
  unfold State.train800; (try simp only [pick_eq, pickRes_eq]); grind (ematch := 40) (gen := 60) (splits := 20) -lia -linarith -ring -ac -order -mbtc -funCC [State.leaveUp_canon, State.ethDown_canon, State.wr_canon, State.modPort_canon, canon_pick, canon_pickRes, canon_next, canon_refused, canon_foldl, canon_foldl1, canon_foldlD]

theorem execEthRetrain_canon {pq : List Instr} (port : Fin 8) (s : State) (h_s : Canon pq s) :
    CanonRes pq (execEthRetrain port s) := by
  unfold execEthRetrain
  refine withPage_canon _ _ _ _ h_s fun s h => ?_
  have h1 := State.wr_canon _ (Reg.ETH_CTL_RETRAIN port) 1 h
  simp only [pickRes_eq]
  exact canon_pickRes (canon_next (State.train800_canon _ _ h1)) (canon_next h1)

theorem execClsFence_canon {pq : List Instr} (hub : Fin 2) (s : State) (h_s : Canon pq s) :
    CanonRes pq (execClsFence hub s) := by
  unfold execClsFence; (try simp only [pick_eq, pickRes_eq]); grind (ematch := 40) (gen := 60) (splits := 20) -lia -linarith -ring -ac -order -mbtc -funCC [withPage_canon, State.wr_canon, canon_pick, canon_pickRes, canon_next, canon_refused, canon_foldl, canon_foldl1, canon_foldlD]

theorem State.hubPut_canon {pq : List Instr} (s : State) (h : Nat) (off : Nat) (bs : Bytes) (h_s : Canon pq s) :
    Canon pq (State.hubPut s h off bs) := by
  unfold State.hubPut; (try simp only [pick_eq, pickRes_eq]); grind (ematch := 40) (gen := 60) (splits := 20) -lia -linarith -ring -ac -order -mbtc -funCC [State.writeHome_canon, canon_pick, canon_pickRes, canon_next, canon_refused, canon_foldl, canon_foldl1, canon_foldlD]

theorem State.police_canon {pq : List Instr} (s : State) (h : Nat) (i : Nat) (len : Nat) (now : Nat) (h_s : Canon pq s) :
    Canon pq (State.police s h i len now).1 := by
  unfold State.police; (try simp only [pick_eq, pickRes_eq]); grind (ematch := 40) (gen := 60) (splits := 20) -lia -linarith -ring -ac -order -mbtc -funCC [State.bucket_canon, State.err_canon, State.bump_canon, State.hubPut_canon, canon_pick, canon_pickRes, canon_next, canon_refused, canon_foldl, canon_foldl1, canon_foldlD]

theorem State.classify_canon {pq : List Instr} (s : State) (h k : Nat) (key : Bytes) (len now : Nat) (h_s : Canon pq s) :
    Canon pq (State.classify s h k key len now).1 := by
  unfold State.classify
  split
  · exact State.bucket_canon _ _ (State.err_canon _ _ _ _ _ (State.bump_canon _ _ _ h_s))
  · next l _ =>
    have h1 := fun off bs => State.hubPut_canon s h off bs h_s
    dsimp only
    split
    · exact State.police_canon _ _ _ _ _ (h1 _ _)
    · exact h1 _ _

theorem execClsFenceClear_canon {pq : List Instr} (hub : Fin 2) (s : State) (h_s : Canon pq s) :
    CanonRes pq (execClsFenceClear hub s) := by
  unfold execClsFenceClear; (try simp only [pick_eq, pickRes_eq]); grind (ematch := 40) (gen := 60) (splits := 20) -lia -linarith -ring -ac -order -mbtc -funCC [State.wr_canon, canon_pick, canon_pickRes, canon_next, canon_refused, canon_foldl, canon_foldl1, canon_foldlD]

theorem execClsSync_canon {pq : List Instr} (hub : Fin 2) (who : Req) (s : State) (h_s : Canon pq s) :
    CanonRes pq (execClsSync hub who s) := by
  unfold execClsSync; (try simp only [pick_eq, pickRes_eq]); grind (ematch := 40) (gen := 60) (splits := 20) -lia -linarith -ring -ac -order -mbtc -funCC [State.out_canon, canon_pick, canon_pickRes, canon_next, canon_refused, canon_foldl, canon_foldl1, canon_foldlD]

theorem execLaneFail_canon {pq : List Instr} (port : Fin 8) (lane : Fin 4) (s : State) (h_s : Canon pq s) :
    CanonRes pq (execLaneFail port lane s) := by
  have h1 := fun v => State.wr_canon s (Reg.ETH_LINK_LANES_OK port) v h_s
  unfold execLaneFail
  extract_lets f t
  have h2 : Canon pq t := h1 _
  clear_value t
  split
  · exact canon_next h2
  · split
    · exact canon_next (State.after800_canon _ _ (State.modPort_canon _ _ _ (State.leaveUp_canon _ _ h2)))
    · split
      · exact canon_next (State.ethDown_canon _ _ h2)
      · exact canon_next h2

theorem execLaneLock_canon {pq : List Instr} (port : Fin 8) (lane : Fin 4) (s : State) (h_s : Canon pq s) :
    CanonRes pq (execLaneLock port lane s) := by
  unfold execLaneLock; (try simp only [pick_eq, pickRes_eq]); grind (ematch := 40) (gen := 60) (splits := 20) -lia -linarith -ring -ac -order -mbtc -funCC [State.wr_canon, canon_pick, canon_pickRes, canon_next, canon_refused, canon_foldl, canon_foldl1, canon_foldlD]

theorem execLinkAlign_canon {pq : List Instr} (port : Fin 8) (s : State) (h_s : Canon pq s) :
    CanonRes pq (execLinkAlign port s) := by
  unfold execLinkAlign; (try simp only [pick_eq, pickRes_eq]); grind (ematch := 40) (gen := 60) (splits := 20) -lia -linarith -ring -ac -order -mbtc -funCC [State.wr_canon, State.err_canon, canon_pick, canon_pickRes, canon_next, canon_refused, canon_foldl, canon_foldl1, canon_foldlD]

theorem execTrainTimeout_canon {pq : List Instr} (port : Fin 8) (s : State) (h_s : Canon pq s) :
    CanonRes pq (execTrainTimeout port s) := by
  unfold execTrainTimeout; (try simp only [pick_eq, pickRes_eq]); grind (ematch := 40) (gen := 60) (splits := 20) -lia -linarith -ring -ac -order -mbtc -funCC [State.after800_canon, State.train400_canon, State.ethDown_canon, canon_pick, canon_pickRes, canon_next, canon_refused, canon_foldl, canon_foldl1, canon_foldlD]

end Sys2Proof.Machine
end

