-- ==== Sys2Proof/Laws/CanonMailbox.lean ====
section
/-! SUPPORT. Every function of Machine/Mailbox.lean keeps the queue and the canonical form of registers and memory. -/
set_option linter.unusedSimpArgs false
namespace Sys2Proof.Machine
open Sys2Proof

theorem State.mirrorFlush_canon {pq : List Instr} (s : State) (k : Nat) (h_s : Canon pq s) :
    Canon pq (State.mirrorFlush s k) := by
  unfold State.mirrorFlush; (try simp only [pick_eq, pickRes_eq]); grind (ematch := 40) (gen := 60) (splits := 20) -lia -linarith -ring -ac -order -mbtc -funCC [State.bump_canon, State.modFwp_canon, State.hostWrite_canon, canon_pick, canon_pickRes, canon_next, canon_refused, canon_foldl, canon_foldl1, canon_foldlD]

theorem State.fwLog_canon {pq : List Instr} (s : State) (k : Nat) (level : Nat) (h_s : Canon pq s) :
    Canon pq (State.fwLog s k level) := by
  unfold State.fwLog; (try simp only [pick_eq, pickRes_eq]); grind (ematch := 40) (gen := 60) (splits := 20) -lia -linarith -ring -ac -order -mbtc -funCC [State.draw_canon, State.modFwp_canon, State.wr_canon, State.mirrorFlush_canon, State.bump_canon, canon_pick, canon_pickRes, canon_next, canon_refused, canon_foldl, canon_foldl1, canon_foldlD]

theorem State.mbxPartner_canon {pq : List Instr} (s : State) (k : Nat) (h_s : Canon pq s) :
    Canon pq (State.mbxPartner s k) := by
  unfold State.mbxPartner; (try simp only [pick_eq, pickRes_eq]); grind (ematch := 40) (gen := 60) (splits := 20) -lia -linarith -ring -ac -order -mbtc -funCC [State.partner_canon, canon_pick, canon_pickRes, canon_next, canon_refused, canon_foldl, canon_foldl1, canon_foldlD]

theorem State.answer_canon {pq : List Instr} (s : State) (src : Src) (status : BitVec 8) (payload : Bytes) (h_s : Canon pq s) :
    Canon pq (State.answer s src status payload) := by
  unfold State.answer; (try simp only [pick_eq, pickRes_eq]); grind (ematch := 40) (gen := 60) (splits := 20) -lia -linarith -ring -ac -order -mbtc -funCC [State.fwLog_canon, State.mbxPartner_canon, State.modMbx_canon, canon_pick, canon_pickRes, canon_next, canon_refused, canon_foldl, canon_foldl1, canon_foldlD]

theorem State.mbxRead_canon {pq : List Instr} (s : State) (k : Nat) (st : BitVec 8) (held : Bytes) (h_s : Canon pq s) :
    Canon pq (State.mbxRead s k st held) := by
  unfold State.mbxRead; (try simp only [pick_eq, pickRes_eq]); grind (ematch := 40) (gen := 60) (splits := 20) -lia -linarith -ring -ac -order -mbtc -funCC [State.modMbx_canon, State.wr_canon, State.mbxPartner_canon, canon_pick, canon_pickRes, canon_next, canon_refused, canon_foldl, canon_foldl1, canon_foldlD]

theorem State.mbxFetch_canon {pq : List Instr} (s : State) (k : Nat) (msg : HostRead) (h_s : Canon pq s) :
    Canon pq (State.mbxFetch s k msg) := by
  unfold State.mbxFetch; (try simp only [pick_eq, pickRes_eq]); grind (ematch := 40) (gen := 60) (splits := 20) -lia -linarith -ring -ac -order -mbtc -funCC [State.mbxRead_canon, State.hostReadEnd_canon, canon_pick, canon_pickRes, canon_next, canon_refused, canon_foldl, canon_foldl1, canon_foldlD]

theorem State.replyHandled_canon {pq : List Instr} (s : State) (k : Nat) (h_s : Canon pq s) :
    Canon pq (State.replyHandled s k) := by
  unfold State.replyHandled; (try simp only [pick_eq, pickRes_eq]); grind (ematch := 40) (gen := 60) (splits := 20) -lia -linarith -ring -ac -order -mbtc -funCC [State.updateInta_canon, State.modLink_canon, canon_pick, canon_pickRes, canon_next, canon_refused, canon_foldl, canon_foldl1, canon_foldlD]

theorem State.mbxBegin_canon {pq : List Instr} (s : State) (k : Nat) (link : Nat) (mctp : Bool) (h_s : Canon pq s) :
    Canon pq (State.mbxBegin s k link mctp) := by
  unfold State.mbxBegin; (try simp only [pick_eq, pickRes_eq]); grind (ematch := 40) (gen := 60) (splits := 20) -lia -linarith -ring -ac -order -mbtc -funCC [State.replyHandled_canon, State.setMbx_canon, State.wr_canon, canon_pick, canon_pickRes, canon_next, canon_refused, canon_foldl, canon_foldl1, canon_foldlD, canon_upd]

theorem execMbxGo_canon {pq : List Instr} (hub : Fin 2) (page : Fin 64) (link : Fin 2) (msg : HostRead) (s : State) (h_s : Canon pq s) :
    CanonRes pq (execMbxGo hub page link msg s) := by
  unfold execMbxGo; (try simp only [pick_eq, pickRes_eq]); grind (ematch := 40) (gen := 60) (splits := 20) -lia -linarith -ring -ac -order -mbtc -funCC [State.out_canon, waitTag_canon, State.mbxFetch_canon, State.ignoreWrite_canon, State.partner_canon, State.mbxBegin_canon, canon_pick, canon_pickRes, canon_next, canon_refused, canon_foldl, canon_foldl1, canon_foldlD]

theorem State.flushMirrors_canon {pq : List Instr} (s : State) (l : Nat) (h_s : Canon pq s) :
    Canon pq (State.flushMirrors s l) := by
  unfold State.flushMirrors; (try simp only [pick_eq, pickRes_eq]); grind (ematch := 40) (gen := 60) (splits := 20) -lia -linarith -ring -ac -order -mbtc -funCC [State.mirrorFlush_canon, canon_pick, canon_pickRes, canon_next, canon_refused, canon_foldl, canon_foldl1, canon_foldlD]

theorem State.mbxReply_canon {pq : List Instr} (s : State) (k : Nat) (h_s : Canon pq s) :
    Canon pq (State.mbxReply s k) := by
  unfold State.mbxReply; (try simp only [pick_eq, pickRes_eq]); grind (ematch := 40) (gen := 60) (splits := 20) -lia -linarith -ring -ac -order -mbtc -funCC [State.out_canon, State.hostWrite_canon, State.wr_canon, State.modMbx_canon, State.setJournalAt_canon, State.vector_canon, canon_pick, canon_pickRes, canon_next, canon_refused, canon_foldl, canon_foldl1, canon_foldlD]

theorem withMsg_canon {pq : List Instr} (op : Nat) (hub : Fin 2) (page : Fin 64) (s : State) (f : State → Msg → State)
    (h_s : Canon pq s) (hf : ∀ s m, Canon pq s → Canon pq (f s m)) : CanonRes pq (withMsg op hub page s f) := by
  unfold withMsg
  simp only [pick_eq, pickRes_eq]
  grind (ematch := 40) (gen := 60) [State.setJournalAt_canon, State.modMbx_canon, State.answer_canon, canon_pick, canon_pickRes, canon_next]

theorem execLogMirror_canon {pq : List Instr} (hub : Fin 2) (page : Fin 64) (s : State) (h_s : Canon pq s) :
    CanonRes pq (execLogMirror hub page s) := by
  unfold execLogMirror; (try simp only [pick_eq, pickRes_eq]); grind (ematch := 40) (gen := 60) (splits := 20) -lia -linarith -ring -ac -order -mbtc -funCC [withMsg_canon, State.answer_canon, State.modFwp_canon, canon_pick, canon_pickRes, canon_next, canon_refused, canon_foldl, canon_foldl1, canon_foldlD]

theorem execMbxReply_canon {pq : List Instr} (hub : Fin 2) (page : Fin 64) (s : State) (h_s : Canon pq s) :
    CanonRes pq (execMbxReply hub page s) := by
  unfold execMbxReply; (try simp only [pick_eq, pickRes_eq]); grind (ematch := 40) (gen := 60) (splits := 20) -lia -linarith -ring -ac -order -mbtc -funCC [State.mbxReply_canon, canon_pick, canon_pickRes, canon_next, canon_refused, canon_foldl, canon_foldl1, canon_foldlD]

theorem execMctpMessage_canon {pq : List Instr} (msg : List (BitVec 8)) (s : State) (h_s : Canon pq s) :
    CanonRes pq (execMctpMessage msg s) := by
  unfold execMctpMessage; (try simp only [pick_eq, pickRes_eq]); grind (ematch := 40) (gen := 60) (splits := 20) -lia -linarith -ring -ac -order -mbtc -funCC [State.partner_canon, State.ignoreWrite_canon, State.mbxRead_canon, State.mbxBegin_canon, canon_pick, canon_pickRes, canon_next, canon_refused, canon_foldl, canon_foldl1, canon_foldlD]

theorem execTraceSet_canon {pq : List Instr} (hub : Fin 2) (page : Fin 64) (s : State) (h_s : Canon pq s) :
    CanonRes pq (execTraceSet hub page s) := by
  unfold execTraceSet; (try simp only [pick_eq, pickRes_eq]); grind (ematch := 40) (gen := 60) (splits := 20) -lia -linarith -ring -ac -order -mbtc -funCC [withMsg_canon, State.answer_canon, State.modFwp_canon, canon_pick, canon_pickRes, canon_next, canon_refused, canon_foldl, canon_foldl1, canon_foldlD]

end Sys2Proof.Machine
end

