-- ==== Sys2Proof/Laws/CanonHostLink.lean ====
section
/-! SUPPORT. Every function of Machine/HostLink.lean keeps the queue and the canonical form of registers and memory. -/
set_option linter.unusedSimpArgs false
namespace Sys2Proof.Machine
open Sys2Proof

theorem State.unsupported_canon {pq : List Instr} (s : State) (l : Nat) (h_s : Canon pq s) :
    Canon pq (State.unsupported s l) := by
  unfold State.unsupported; (try simp only [pick_eq, pickRes_eq]); grind (ematch := 40) (gen := 60) (splits := 20) -lia -linarith -ring -ac -order -mbtc -funCC [State.bump_canon, canon_pick, canon_pickRes, canon_next, canon_refused, canon_foldl, canon_foldl1, canon_foldlD]

theorem State.urLogged_canon {pq : List Instr} (s : State) (l : Nat) (posted : Bool) (header : Bytes) (h_s : Canon pq s) :
    Canon pq (State.urLogged s l posted header) := by
  unfold State.urLogged; (try simp only [pick_eq, pickRes_eq]); grind (ematch := 40) (gen := 60) (splits := 20) -lia -linarith -ring -ac -order -mbtc -funCC [State.partner_canon, State.unsupported_canon, State.out_canon, canon_pick, canon_pickRes, canon_next, canon_refused, canon_foldl, canon_foldl1, canon_foldlD]

theorem State.notServed_canon {pq : List Instr} (s : State) (l : Nat) (fn : Nat) (posted : Bool) (h_s : Canon pq s) :
    Canon pq (State.notServed s l fn posted) := by
  unfold State.notServed; (try simp only [pick_eq, pickRes_eq]); grind (ematch := 40) (gen := 60) (splits := 20) -lia -linarith -ring -ac -order -mbtc -funCC [State.urLogged_canon, canon_pick, canon_pickRes, canon_next, canon_refused, canon_foldl, canon_foldl1, canon_foldlD]

theorem State.malformedRx_canon {pq : List Instr} (s : State) (l : Nat) (header : Bytes) (h_s : Canon pq s) :
    Canon pq (State.malformedRx s l header) := by
  unfold State.malformedRx; (try simp only [pick_eq, pickRes_eq]); grind (ematch := 40) (gen := 60) (splits := 20) -lia -linarith -ring -ac -order -mbtc -funCC [State.bucket_canon, State.err_canon, State.partner_canon, State.out_canon, canon_pick, canon_pickRes, canon_next, canon_refused, canon_foldl, canon_foldl1, canon_foldlD]

theorem State.bar2Arrives_canon {pq : List Instr} (s : State) (l fn off : Nat) (acc : BarAccess) (f : State → Res) (h_s : Canon pq s)
    (hf : ∀ s, Canon pq s → CanonRes pq (f s)) : CanonRes pq (s.bar2Arrives l fn off acc f) := by
  unfold State.bar2Arrives
  simp only [pick_eq, pickRes_eq]
  grind (ematch := 40) (gen := 60) [State.poisonRx_canon, State.notServed_canon, State.urLogged_canon, State.malformedRx_canon, canon_pick, canon_pickRes, canon_next]

theorem State.writeLine_canon {pq : List Instr} (s : State) (r : Req) (owed : Option (BitVec 8)) (a : Nat) (runs : List Run) (h_s : Canon pq s) :
    Canon pq (State.writeLine s r owed a runs).state := by
  unfold State.writeLine; (try simp only [pick_eq, pickRes_eq]); grind (ematch := 40) (gen := 60) (splits := 20) -lia -linarith -ring -ac -order -mbtc -funCC [State.countAbsent_canon, State.hold_canon, State.storeRuns_canon, canon_pick, canon_pickRes, canon_next, canon_refused, canon_foldl, canon_foldl1, canon_foldlD, canon_foldlW]

theorem State.writeRuns_canon {pq : List Instr} (s : State) (r : Req) (owed : Option (BitVec 8)) (a : Nat) (runs : List Run) (h_s : Canon pq s) :
    Canon pq (State.writeRuns s r owed a runs).state := by
  unfold State.writeRuns; (try simp only [pick_eq, pickRes_eq]); grind (ematch := 40) (gen := 60) (splits := 20) -lia -linarith -ring -ac -order -mbtc -funCC [State.writeLine_canon, canon_pick, canon_pickRes, canon_next, canon_refused, canon_foldl, canon_foldl1, canon_foldlD, canon_foldlW]

theorem State.barMemory_canon {pq : List Instr} (s : State) (r : Req) (a : Nat) (acc : BarAccess) (h_s : Canon pq s) :
    Canon pq (State.barMemory s r a acc) := by
  unfold State.barMemory; (try simp only [pick_eq, pickRes_eq]); grind (ematch := 40) (gen := 60) (splits := 20) -lia -linarith -ring -ac -order -mbtc -funCC [State.readMem_canon, State.out_canon, State.writeRuns_canon, canon_pick, canon_pickRes, canon_next, canon_refused, canon_foldl, canon_foldl1, canon_foldlD, canon_foldlW]

theorem State.flushPba_canon {pq : List Instr} (s : State) (l : Nat) (fn : Nat) (h_s : Canon pq s) :
    Canon pq (State.flushPba s l fn) := by
  unfold State.flushPba; (try simp only [pick_eq, pickRes_eq]); grind (ematch := 40) (gen := 60) (splits := 20) -lia -linarith -ring -ac -order -mbtc -funCC [State.out_canon, State.setPba_canon, canon_pick, canon_pickRes, canon_next, canon_refused, canon_foldl, canon_foldl1, canon_foldlD]

theorem execFwpHb_canon {pq : List Instr} (link : Fin 2) (v : BitVec 32) (s : State) (h_s : Canon pq s) :
    CanonRes pq (execFwpHb link v s) := by
  unfold execFwpHb; (try simp only [pick_eq, pickRes_eq]); grind (ematch := 40) (gen := 60) (splits := 20) -lia -linarith -ring -ac -order -mbtc -funCC [withPage_canon, State.setReg_canon, State.modLossOf_canon, State.wr_canon, canon_pick, canon_pickRes, canon_next, canon_refused, canon_foldl, canon_foldl1, canon_foldlD, canon_upd]

theorem State.busErr_canon {pq : List Instr} (s : State) (p : Page) (off : Nat) (who : Nat) (width : Nat) (h_s : Canon pq s) :
    Canon pq (State.busErr s p off who width) := by
  unfold State.busErr; (try simp only [pick_eq, pickRes_eq]); grind (ematch := 40) (gen := 60) (splits := 20) -lia -linarith -ring -ac -order -mbtc -funCC [State.err_canon, State.bbAdd_canon, canon_pick, canon_pickRes, canon_next, canon_refused, canon_foldl, canon_foldl1, canon_foldlD]

theorem State.doorbell_canon {pq : List Instr} (s : State) (l k : Nat) (f : State → Slice → State) (h_s : Canon pq s)
    (hf : ∀ s x, Canon pq s → Canon pq (f s x)) : CanonRes pq (s.doorbell l k f) := by
  unfold State.doorbell
  grind (ematch := 40) (gen := 60) [State.notServed_canon, State.unsupported_canon, canon_next]

theorem State.driverLoss_canon {pq : List Instr} (s : State) (l : Nat) (cause : Nat) (h_s : Canon pq s) :
    Canon pq (State.driverLoss s l cause) := by
  unfold State.driverLoss; (try simp only [pick_eq, pickRes_eq]); grind (ematch := 40) (gen := 60) (splits := 20) -lia -linarith -ring -ac -order -mbtc -funCC [State.setLossOf_canon, State.wr_canon, State.bbAdd_canon, State.err_canon, canon_pick, canon_pickRes, canon_next, canon_refused, canon_foldl, canon_foldl1, canon_foldlD, canon_upd]

theorem State.settleSlices_canon {pq : List Instr} (s : State) (l : Nat) (h_s : Canon pq s) :
    Canon pq (State.settleSlices s l) := by
  unfold State.settleSlices; (try simp only [pick_eq, pickRes_eq]); grind (ematch := 40) (gen := 60) (splits := 20) -lia -linarith -ring -ac -order -mbtc -funCC [State.answer_canon, State.setSlice_canon, canon_pick, canon_pickRes, canon_next, canon_refused, canon_foldl, canon_foldl1, canon_foldlD]

theorem State.stopJobq_canon {pq : List Instr} (s : State) (l : Nat) (k : Nat) (q : JobQ) (h_s : Canon pq s) :
    Canon pq (State.stopJobq s l k q) := by
  unfold State.stopJobq; (try simp only [pick_eq, pickRes_eq]); grind (ematch := 40) (gen := 60) (splits := 20) -lia -linarith -ring -ac -order -mbtc -funCC [State.err_canon, State.partner_canon, State.setJobq_canon, canon_pick, canon_pickRes, canon_next, canon_refused, canon_foldl, canon_foldl1, canon_foldlD]

theorem State.urAnswer_canon {pq : List Instr} (s : State) (l : Nat) (acc : BarAccess) (h_s : Canon pq s) :
    Canon pq (State.urAnswer s l acc) := by
  unfold State.urAnswer; (try simp only [pick_eq, pickRes_eq]); grind (ematch := 40) (gen := 60) (splits := 20) -lia -linarith -ring -ac -order -mbtc -funCC [State.unsupported_canon, State.out_canon, canon_pick, canon_pickRes, canon_next, canon_refused, canon_foldl, canon_foldl1, canon_foldlD]

theorem execApertureAccess_canon {pq : List Instr} (link : Fin 2) (off : Nat) (acc : BarAccess) (s : State) (h_s : Canon pq s) :
    CanonRes pq (execApertureAccess link off acc s) := by
  unfold execApertureAccess; (try simp only [pick_eq, pickRes_eq]); grind (ematch := 40) (gen := 60) (splits := 20) -lia -linarith -ring -ac -order -mbtc -funCC [State.bar2Arrives_canon, State.urAnswer_canon, State.barMemory_canon, canon_pick, canon_pickRes, canon_next, canon_refused, canon_foldl, canon_foldl1, canon_foldlD]

theorem execAtsInvalidate_canon {pq : List Instr} (link : Fin 2) (fn : Fin 4) (itag : Fin 32) (pasid : Option (BitVec 20)) (page : Nat) (n : Nat) (s : State) (h_s : Canon pq s) :
    CanonRes pq (execAtsInvalidate link fn itag pasid page n s) := by
  unfold execAtsInvalidate; (try simp only [pick_eq, pickRes_eq]); grind (ematch := 40) (gen := 60) (splits := 20) -lia -linarith -ring -ac -order -mbtc -funCC [State.out_canon, State.modLink_canon, canon_pick, canon_pickRes, canon_next, canon_refused, canon_foldl, canon_foldl1, canon_foldlD]

theorem execBdb_canon {pq : List Instr} (link : Fin 2) (slice : Fin 256) (n : BitVec 32) (s : State) (h_s : Canon pq s) :
    CanonRes pq (execBdb link slice n s) := by
  unfold execBdb; (try simp only [pick_eq, pickRes_eq]); grind (ematch := 40) (gen := 60) (splits := 20) -lia -linarith -ring -ac -order -mbtc -funCC [State.doorbell_canon, State.sigHub_canon, canon_pick, canon_pickRes, canon_next, canon_refused, canon_foldl, canon_foldl1, canon_foldlD]

theorem execCompletionTimeout_canon {pq : List Instr} (link : Fin 2) (tag : Fin 16384) (s : State) (h_s : Canon pq s) :
    CanonRes pq (execCompletionTimeout link tag s) := by
  unfold execCompletionTimeout; (try simp only [pick_eq, pickRes_eq]); grind (ematch := 40) (gen := 60) (splits := 20) -lia -linarith -ring -ac -order -mbtc -funCC [State.hostTimeout_canon, State.out_canon, canon_pick, canon_pickRes, canon_next, canon_refused, canon_foldl, canon_foldl1, canon_foldlD]

theorem execDriverLoss_canon {pq : List Instr} (link : Fin 2) (s : State) (h_s : Canon pq s) :
    CanonRes pq (execDriverLoss link s) := by
  unfold execDriverLoss; (try simp only [pick_eq, pickRes_eq]); grind (ematch := 40) (gen := 60) (splits := 20) -lia -linarith -ring -ac -order -mbtc -funCC [State.driverLoss_canon, canon_pick, canon_pickRes, canon_next, canon_refused, canon_foldl, canon_foldl1, canon_foldlD]

theorem execHostBar2Access_canon {pq : List Instr} (link : Fin 2) (off : Nat) (acc : BarAccess) (s : State) (h_s : Canon pq s) :
    CanonRes pq (execHostBar2Access link off acc s) := by
  unfold execHostBar2Access; (try simp only [pick_eq, pickRes_eq]); grind (ematch := 40) (gen := 60) (splits := 20) -lia -linarith -ring -ac -order -mbtc -funCC [State.bar2Arrives_canon, State.barMemory_canon, State.busErr_canon, State.out_canon, canon_pick, canon_pickRes, canon_next, canon_refused, canon_foldl, canon_foldl1, canon_foldlD]

theorem execHostCompletionRx_canon {pq : List Instr} (link : Fin 2) (tag : Fin 16384) (c : Completion) (s : State) (h_s : Canon pq s) :
    CanonRes pq (execHostCompletionRx link tag c s) := by
  unfold execHostCompletionRx; (try simp only [pick_eq, pickRes_eq]); grind (ematch := 40) (gen := 60) (splits := 20) -lia -linarith -ring -ac -order -mbtc -funCC [State.malformedRx_canon, State.bump_canon, State.err_canon, State.out_canon, State.modLink_canon, State.poisonRx_canon, State.settleSlices_canon, canon_pick, canon_pickRes, canon_next, canon_refused, canon_foldl, canon_foldl1, canon_foldlD]

theorem execHostRequestRx_canon {pq : List Instr} (link : Fin 2) (v : Violation) (s : State) (h_s : Canon pq s) :
    CanonRes pq (execHostRequestRx link v s) := by
  unfold execHostRequestRx; (try simp only [pick_eq, pickRes_eq]); grind (ematch := 40) (gen := 60) (splits := 20) -lia -linarith -ring -ac -order -mbtc -funCC [State.malformedRx_canon, State.urLogged_canon, State.poisonRx_canon, canon_pick, canon_pickRes, canon_next, canon_refused, canon_foldl, canon_foldl1, canon_foldlD]

theorem execJqCqHead_canon {pq : List Instr} (link : Fin 2) (slice : Fin 256) (queue : Fin 16) (v : BitVec 16) (s : State) (h_s : Canon pq s) :
    CanonRes pq (execJqCqHead link slice queue v s) := by
  unfold execJqCqHead; (try simp only [pick_eq, pickRes_eq]); grind (ematch := 40) (gen := 60) (splits := 20) -lia -linarith -ring -ac -order -mbtc -funCC [State.doorbell_canon, State.setDoorbellOf_canon, State.stopJobq_canon, State.setJobq_canon, canon_pick, canon_pickRes, canon_next, canon_refused, canon_foldl, canon_foldl1, canon_foldlD]

theorem execJqCreate_canon {pq : List Instr} (hub : Fin 2) (page : Fin 64) (s : State) (h_s : Canon pq s) :
    CanonRes pq (execJqCreate hub page s) := by
  unfold execJqCreate; (try simp only [pick_eq, pickRes_eq]); grind (ematch := 40) (gen := 60) (splits := 20) -lia -linarith -ring -ac -order -mbtc -funCC [withMsg_canon, State.answer_canon, State.disarmTag_canon, State.setDoorbellOf_canon, State.setJobq_canon, canon_pick, canon_pickRes, canon_next, canon_refused, canon_foldl, canon_foldl1, canon_foldlD]

theorem execJqDestroy_canon {pq : List Instr} (hub : Fin 2) (page : Fin 64) (s : State) (h_s : Canon pq s) :
    CanonRes pq (execJqDestroy hub page s) := by
  unfold execJqDestroy; (try simp only [pick_eq, pickRes_eq]); grind (ematch := 40) (gen := 60) (splits := 20) -lia -linarith -ring -ac -order -mbtc -funCC [withMsg_canon, State.answer_canon, State.setJobq_canon, canon_pick, canon_pickRes, canon_next, canon_refused, canon_foldl, canon_foldl1, canon_foldlD]

theorem execJqFetch_canon {pq : List Instr} (slice : Fin 256) (queue : Fin 16) (desc : HostRead) (s : State) (h_s : Canon pq s) :
    CanonRes pq (execJqFetch slice queue desc s) := by
  unfold execJqFetch; (try simp only [pick_eq, pickRes_eq]); grind (ematch := 40) (gen := 60) (splits := 20) -lia -linarith -ring -ac -order -mbtc -funCC [waitSliceTag_canon, State.sliceRead_canon, State.setJobq_canon, State.holdDesc_canon, State.refuseDesc_canon, canon_pick, canon_pickRes, canon_next, canon_refused, canon_foldl, canon_foldl1, canon_foldlD]

theorem execJqPostTake_canon {pq : List Instr} (slice : Fin 256) (queue : Fin 16) (s : State) (h_s : Canon pq s) :
    CanonRes pq (execJqPostTake slice queue s) := by
  unfold execJqPostTake; grind (ematch := 40) (gen := 60) (splits := 20) -lia -linarith -ring -ac -order -mbtc -funCC [State.learn_canon, State.readMem_canon, State.setJobq_canon, State.sigHub_canon, canon_pick, canon_pickRes, canon_next, canon_refused, canon_foldl, canon_foldl1, canon_foldlD]

theorem execJqRecordWrite_canon {pq : List Instr} (slice : Fin 256) (queue : Fin 16) (host : HostWrite) (s : State) (h_s : Canon pq s) :
    CanonRes pq (execJqRecordWrite slice queue host s) := by
  unfold execJqRecordWrite; (try simp only [pick_eq, pickRes_eq]); grind (ematch := 40) (gen := 60) (splits := 20) -lia -linarith -ring -ac -order -mbtc -funCC [State.hostPut_canon, State.setJobq_canon, State.vector_canon, canon_pick, canon_pickRes, canon_next, canon_refused, canon_foldl, canon_foldl1, canon_foldlD]

theorem execJqSqTail_canon {pq : List Instr} (link : Fin 2) (slice : Fin 256) (queue : Fin 16) (v : BitVec 16) (s : State) (h_s : Canon pq s) :
    CanonRes pq (execJqSqTail link slice queue v s) := by
  unfold execJqSqTail; (try simp only [pick_eq, pickRes_eq]); grind (ematch := 40) (gen := 60) (splits := 20) -lia -linarith -ring -ac -order -mbtc -funCC [State.doorbell_canon, State.setDoorbellOf_canon, State.stopJobq_canon, State.setJobq_canon, canon_pick, canon_pickRes, canon_next, canon_refused, canon_foldl, canon_foldl1, canon_foldlD]

theorem execPceIntxPend_canon {pq : List Instr} (link : Fin 2) (w : BitVec 32) (s : State) (h_s : Canon pq s) :
    CanonRes pq (execPceIntxPend link w s) := by
  unfold execPceIntxPend; (try simp only [pick_eq, pickRes_eq]); grind (ematch := 40) (gen := 60) (splits := 20) -lia -linarith -ring -ac -order -mbtc -funCC [withPage_canon, State.updateInta_canon, State.wr_canon, canon_pick, canon_pickRes, canon_next, canon_refused, canon_foldl, canon_foldl1, canon_foldlD]

theorem execPceMsixWrite_canon {pq : List Instr} (link : Fin 2) (fn : Fin 4) (v : Fin 2048) (word : Fin 4) (x : BitVec 32) (s : State) (h_s : Canon pq s) :
    CanonRes pq (execPceMsixWrite link fn v word x s) := by
  unfold execPceMsixWrite; (try simp only [pick_eq, pickRes_eq]); grind (ematch := 40) (gen := 60) (splits := 20) -lia -linarith -ring -ac -order -mbtc -funCC [State.notServed_canon, State.busErr_canon, withPage_canon, State.flushPba_canon, State.setReg_canon, State.modLink_canon, canon_pick, canon_pickRes, canon_next, canon_refused, canon_foldl, canon_foldl1, canon_foldlD]

theorem execReattach_canon {pq : List Instr} (hub : Fin 2) (page : Fin 64) (s : State) (h_s : Canon pq s) :
    CanonRes pq (execReattach hub page s) := by
  unfold execReattach; (try simp only [pick_eq, pickRes_eq]); grind (ematch := 40) (gen := 60) (splits := 20) -lia -linarith -ring -ac -order -mbtc -funCC [withMsg_canon, State.answer_canon, canon_pick, canon_pickRes, canon_next, canon_refused, canon_foldl, canon_foldl1, canon_foldlD]

theorem execResume_canon {pq : List Instr} (hub : Fin 2) (page : Fin 64) (s : State) (h_s : Canon pq s) :
    CanonRes pq (execResume hub page s) := by
  unfold execResume; (try simp only [pick_eq, pickRes_eq]); grind (ematch := 40) (gen := 60) (splits := 20) -lia -linarith -ring -ac -order -mbtc -funCC [withMsg_canon, State.answer_canon, State.setJobq_canon, State.sigHub_canon, State.setLossOf_canon, State.wr_canon, canon_pick, canon_pickRes, canon_next, canon_refused, canon_foldl, canon_foldl1, canon_foldlD, canon_upd]

theorem execTagQuarantineEnd_canon {pq : List Instr} (link : Fin 2) (tag : Fin 16384) (s : State) (h_s : Canon pq s) :
    CanonRes pq (execTagQuarantineEnd link tag s) := by
  unfold execTagQuarantineEnd; (try simp only [pick_eq, pickRes_eq]); grind (ematch := 40) (gen := 60) (splits := 20) -lia -linarith -ring -ac -order -mbtc -funCC [State.settleSlices_canon, State.modLink_canon, canon_pick, canon_pickRes, canon_next, canon_refused, canon_foldl, canon_foldl1, canon_foldlD]

end Sys2Proof.Machine
end

