-- ==== Sys2Proof/Laws/CanonNetwork.lean ====
section
/-! SUPPORT. Every function of Machine/Network.lean keeps the queue and the canonical form of registers and memory. -/
set_option linter.unusedSimpArgs false
namespace Sys2Proof.Machine
open Sys2Proof

theorem State.badFrame_canon {pq : List Instr} (s : State) (p : Page) (port : Nat) (off : Nat) (f : Bytes) (h_s : Canon pq s) :
    Canon pq (State.badFrame s p port off f) := by
  unfold State.badFrame; (try simp only [pick_eq, pickRes_eq]); grind (ematch := 40) (gen := 60) (splits := 20) -lia -linarith -ring -ac -order -mbtc -funCC [State.partner_canon, canon_pick, canon_pickRes, canon_next, canon_refused, canon_foldl, canon_foldl1, canon_foldlD]

theorem State.countQps_canon {pq : List Instr} (s : State) (l : Nat) (h_s : Canon pq s) :
    Canon pq (State.countQps s l) := by
  unfold State.countQps; (try simp only [pick_eq, pickRes_eq]); grind (ematch := 40) (gen := 60) (splits := 20) -lia -linarith -ring -ac -order -mbtc -funCC [State.wr_canon, canon_pick, canon_pickRes, canon_next, canon_refused, canon_foldl, canon_foldl1, canon_foldlD]

theorem State.countSas_canon {pq : List Instr} (s : State) (l : Nat) (h_s : Canon pq s) :
    Canon pq (State.countSas s l) := by
  unfold State.countSas; (try simp only [pick_eq, pickRes_eq]); grind (ematch := 40) (gen := 60) (splits := 20) -lia -linarith -ring -ac -order -mbtc -funCC [State.wr_canon, canon_pick, canon_pickRes, canon_next, canon_refused, canon_foldl, canon_foldl1, canon_foldlD]

theorem State.endQps_canon {pq : List Instr} (s : State) (l : Nat) (gone : Nat × Option NicQp → Bool) (h_s : Canon pq s) :
    Canon pq (State.endQps s l gone) := by
  unfold State.endQps; (try simp only [pick_eq, pickRes_eq]); grind (ematch := 40) (gen := 60) (splits := 20) -lia -linarith -ring -ac -order -mbtc -funCC [State.countQps_canon, canon_pick, canon_pickRes, canon_next, canon_refused, canon_foldl, canon_foldl1, canon_foldlD, canon_upd]

theorem State.dropQps_canon {pq : List Instr} (s : State) (l : Nat) (slice : Option Nat) (h_s : Canon pq s) :
    Canon pq (State.dropQps s l slice) := by
  unfold State.dropQps; (try simp only [pick_eq, pickRes_eq]); grind (ematch := 40) (gen := 60) (splits := 20) -lia -linarith -ring -ac -order -mbtc -funCC [State.endQps_canon, canon_pick, canon_pickRes, canon_next, canon_refused, canon_foldl, canon_foldl1, canon_foldlD]

theorem State.espOpen_canon {pq : List Instr} (s : State) (l : Nat) (slice : Nat) (part : Nat) (f : Bytes) (p : Parsed) (parity : Option (Fin 16)) (h_s : Canon pq s) :
    Canon pq (State.espOpen s l slice part f p parity).1 := by
  unfold State.espOpen; (try simp only [pick_eq, pickRes_eq]); grind (ematch := 40) (gen := 60) (splits := 20) -lia -linarith -ring -ac -order -mbtc -funCC [State.bump_canon, State.pipeOp_canon, State.pipeParity_canon, State.tagFail_canon, canon_pick, canon_pickRes, canon_next, canon_refused, canon_foldl, canon_foldl1, canon_foldlD]

theorem State.espSeal_canon {pq : List Instr} (s : State) (l : Nat) (q : Nat) (part : Nat) (f : Bytes) (p : Parsed) (l4Csum : Bool) (parity : Option (Fin 16)) (h_s : Canon pq s) :
    Canon pq (State.espSeal s l q part f p l4Csum parity).1 := by
  unfold State.espSeal; (try simp only [pick_eq, pickRes_eq]); grind (ematch := 40) (gen := 60) (splits := 20) -lia -linarith -ring -ac -order -mbtc -funCC [State.pipeOp_canon, State.setSa_canon, State.pipeParity_canon, canon_pick, canon_pickRes, canon_next, canon_refused, canon_foldl, canon_foldl1, canon_foldlD]

theorem State.nicRecord_canon {pq : List Instr} (s : State) (l : Nat) (q : Nat) (body : Bytes) (host : HostWrite) (h_s : Canon pq s) :
    Canon pq (State.nicRecord s l q body host) := by
  unfold State.nicRecord; (try simp only [pick_eq, pickRes_eq]); grind (ematch := 40) (gen := 60) (splits := 20) -lia -linarith -ring -ac -order -mbtc -funCC [State.hostPut_canon, State.setNicqp_canon, State.vector_canon, canon_pick, canon_pickRes, canon_next, canon_refused, canon_foldl, canon_foldl1, canon_foldlD]

theorem State.nicDeliver_canon {pq : List Instr} (s : State) (l : Nat) (q : Nat) (mark : Nat) (port : Nat) (ts : Nat) (f : Bytes) (p : Parsed) (desc : HostRead) (parity : Option (Fin 16)) (host : HostWrite) (record : HostWrite) (h_s : Canon pq s) :
    Canon pq (State.nicDeliver s l q mark port ts f p desc parity host record) := by
  unfold State.nicDeliver; (try simp only [pick_eq, pickRes_eq]); grind (ematch := 40) (gen := 60) (splits := 20) -lia -linarith -ring -ac -order -mbtc -funCC [State.bump_canon, State.sliceRead_canon, State.setNicqp_canon, State.espOpen_canon, State.hostPut_canon, State.draw_canon, State.nicRecord_canon, canon_pick, canon_pickRes, canon_next, canon_refused, canon_foldl, canon_foldl1, canon_foldlD]

theorem State.nicOffer_canon {pq : List Instr} (s : State) (l : Nat) (q : Nat) (num : Nat) (f : Bytes) (h_s : Canon pq s) :
    Canon pq (State.nicOffer s l q num f) := by
  unfold State.nicOffer; (try simp only [pick_eq, pickRes_eq]); grind (ematch := 40) (gen := 60) (splits := 20) -lia -linarith -ring -ac -order -mbtc -funCC [State.offer_canon, State.setNicqp_canon, canon_pick, canon_pickRes, canon_next, canon_refused, canon_foldl, canon_foldl1, canon_foldlD]

theorem State.nqDoorbell_canon {pq : List Instr} (s : State) (l : Nat) (q : Nat) (v : BitVec 16) (log2 : NicQp → Nat) (f : NicQp → NicQp) (h_s : Canon pq s) :
    CanonRes pq (State.nqDoorbell s l q v log2 f) := by
  unfold State.nqDoorbell; (try simp only [pick_eq, pickRes_eq]); grind (ematch := 40) (gen := 60) (splits := 20) -lia -linarith -ring -ac -order -mbtc -funCC [State.notServed_canon, State.unsupported_canon, State.err_canon, State.setNicqp_canon, canon_pick, canon_pickRes, canon_next, canon_refused, canon_foldl, canon_foldl1, canon_foldlD]

theorem State.toFirmware_canon {pq : List Instr} (s : State) (h : Nat) (f : ClsFrame) (h_s : Canon pq s) :
    Canon pq (State.toFirmware s h f) := by
  unfold State.toFirmware; (try simp only [pick_eq, pickRes_eq]); grind (ematch := 40) (gen := 60) (splits := 20) -lia -linarith -ring -ac -order -mbtc -funCC [State.draw_canon, State.modClsOf_canon, State.bump_canon, canon_pick, canon_pickRes, canon_next, canon_refused, canon_foldl, canon_foldl1, canon_foldlD]

theorem execFrameRx_canon {pq : List Instr} (port : Fin 8) (frame : List (BitVec 8)) (now : Nat) (ts : Nat) (overflow : Bool) (desc : HostRead) (parity : Option (Fin 16)) (data : HostWrite) (record : HostWrite) (s : State) (h_s : Canon pq s) :
    CanonRes pq (execFrameRx port frame now ts overflow desc parity data record s) := by
  unfold execFrameRx
  refine waitTag_canon _ _ _ _ _ h_s ?_
  extract_lets h s1 n f s2 p s3 x
  have h1 : Canon pq s1 := State.portNow_canon _ _ _ (State.hubNow_canon _ _ _ h_s)
  clear_value s1
  have h2 : Canon pq s2 := State.step64_canon _ _ _ (State.step64_canon _ _ _ h1)
  clear_value s2
  have h3 : Canon pq s3 := by
    simp only [s3]
    split
    · exact State.badFrame_canon _ _ _ _ _ h2
    · exact h2
  clear_value s3
  have h4 : Canon pq x.1 := State.classify_canon _ _ _ _ _ _ h3
  clear_value x
  with_reducible repeat' first | assumption | apply canon_next | apply State.bump_canon | apply State.badFrame_canon | apply State.toFirmware_canon | apply State.modClsOf_canon | apply State.nicDeliver_canon | split

theorem execNicQpCreate_canon {pq : List Instr} (hub : Fin 2) (page : Fin 64) (s : State) (h_s : Canon pq s) :
    CanonRes pq (execNicQpCreate hub page s) := by
  unfold execNicQpCreate; (try simp only [pick_eq, pickRes_eq]); grind (ematch := 40) (gen := 60) (splits := 20) -lia -linarith -ring -ac -order -mbtc -funCC [withMsg_canon, State.answer_canon, State.countQps_canon, State.setNicqp_canon, canon_pick, canon_pickRes, canon_next, canon_refused, canon_foldl, canon_foldl1, canon_foldlD]

theorem execNicQpDestroy_canon {pq : List Instr} (hub : Fin 2) (page : Fin 64) (s : State) (h_s : Canon pq s) :
    CanonRes pq (execNicQpDestroy hub page s) := by
  unfold execNicQpDestroy; (try simp only [pick_eq, pickRes_eq]); grind (ematch := 40) (gen := 60) (splits := 20) -lia -linarith -ring -ac -order -mbtc -funCC [withMsg_canon, State.answer_canon, State.endQps_canon, canon_pick, canon_pickRes, canon_next, canon_refused, canon_foldl, canon_foldl1, canon_foldlD]

theorem execNicSaAdd_canon {pq : List Instr} (hub : Fin 2) (page : Fin 64) (s : State) (h_s : Canon pq s) :
    CanonRes pq (execNicSaAdd hub page s) := by
  unfold execNicSaAdd; (try simp only [pick_eq, pickRes_eq]); grind (ematch := 40) (gen := 60) (splits := 20) -lia -linarith -ring -ac -order -mbtc -funCC [withMsg_canon, State.answer_canon, State.setSa_canon, State.countSas_canon, canon_pick, canon_pickRes, canon_next, canon_refused, canon_foldl, canon_foldl1, canon_foldlD]

theorem execNicSaDel_canon {pq : List Instr} (hub : Fin 2) (page : Fin 64) (s : State) (h_s : Canon pq s) :
    CanonRes pq (execNicSaDel hub page s) := by
  unfold execNicSaDel; (try simp only [pick_eq, pickRes_eq]); grind (ematch := 40) (gen := 60) (splits := 20) -lia -linarith -ring -ac -order -mbtc -funCC [withMsg_canon, State.answer_canon, State.countSas_canon, State.setSa_canon, canon_pick, canon_pickRes, canon_next, canon_refused, canon_foldl, canon_foldl1, canon_foldlD]

theorem execNicTxDone_canon {pq : List Instr} (link : Fin 2) (qp : Fin 4096) (host : HostWrite) (s : State) (h_s : Canon pq s) :
    CanonRes pq (execNicTxDone link qp host s) := by
  unfold execNicTxDone; (try simp only [pick_eq, pickRes_eq]); grind (ematch := 40) (gen := 60) (splits := 20) -lia -linarith -ring -ac -order -mbtc -funCC [State.setNicqp_canon, State.nicRecord_canon, canon_pick, canon_pickRes, canon_next, canon_refused, canon_foldl, canon_foldl1, canon_foldlD]

theorem execNicTxFetch_canon {pq : List Instr} (link : Fin 2) (qp : Fin 4096) (desc : HostRead) (data : HostRead) (parity : Option (Fin 16)) (s : State) (h_s : Canon pq s) :
    CanonRes pq (execNicTxFetch link qp desc data parity s) := by
  unfold execNicTxFetch; (try simp only [pick_eq, pickRes_eq]); grind (ematch := 40) (gen := 60) (splits := 20) -lia -linarith -ring -ac -order -mbtc -funCC [waitTag_canon, State.nicOffer_canon, State.sliceRead_canon, State.setNicqp_canon, State.bump_canon, State.espSeal_canon, canon_pick, canon_pickRes, canon_next, canon_refused, canon_foldl, canon_foldl1, canon_foldlD]

theorem execNqCqHead_canon {pq : List Instr} (link : Fin 2) (qp : Fin 4096) (v : BitVec 16) (s : State) (h_s : Canon pq s) :
    CanonRes pq (execNqCqHead link qp v s) := by
  unfold execNqCqHead; (try simp only [pick_eq, pickRes_eq]); grind (ematch := 40) (gen := 60) (splits := 20) -lia -linarith -ring -ac -order -mbtc -funCC [State.nqDoorbell_canon, canon_pick, canon_pickRes, canon_next, canon_refused, canon_foldl, canon_foldl1, canon_foldlD]

theorem execNqRxTail_canon {pq : List Instr} (link : Fin 2) (qp : Fin 4096) (v : BitVec 16) (s : State) (h_s : Canon pq s) :
    CanonRes pq (execNqRxTail link qp v s) := by
  unfold execNqRxTail; (try simp only [pick_eq, pickRes_eq]); grind (ematch := 40) (gen := 60) (splits := 20) -lia -linarith -ring -ac -order -mbtc -funCC [State.nqDoorbell_canon, canon_pick, canon_pickRes, canon_next, canon_refused, canon_foldl, canon_foldl1, canon_foldlD]

theorem execNqTxTail_canon {pq : List Instr} (link : Fin 2) (qp : Fin 4096) (v : BitVec 16) (s : State) (h_s : Canon pq s) :
    CanonRes pq (execNqTxTail link qp v s) := by
  unfold execNqTxTail; (try simp only [pick_eq, pickRes_eq]); grind (ematch := 40) (gen := 60) (splits := 20) -lia -linarith -ring -ac -order -mbtc -funCC [State.nqDoorbell_canon, canon_pick, canon_pickRes, canon_next, canon_refused, canon_foldl, canon_foldl1, canon_foldlD]

end Sys2Proof.Machine
end

