-- ==== Sys2Proof/Laws/CanonNvme.lean ====
section
/-! SUPPORT. Every function of Machine/Nvme.lean keeps the queue and the canonical form of registers and memory. -/
set_option linter.unusedSimpArgs false
namespace Sys2Proof.Machine
open Sys2Proof

theorem State.toPrps_canon {pq : List Instr} (s : State) (link : Nat) (slice : Option Nat) (prps : List (BitVec 64)) (i : Nat) (bs : Bytes) (mark : Bool) (how : HostWrite) (h_s : Canon pq s) :
    Canon pq (State.toPrps s link slice prps i bs mark how) := by
  unfold State.toPrps; (try simp only [pick_eq, pickRes_eq]); grind (ematch := 40) (gen := 60) (splits := 20) -lia -linarith -ring -ac -order -mbtc -funCC [State.hostPut_canon, canon_pick, canon_pickRes, canon_next, canon_refused, canon_foldl, canon_foldl1, canon_foldlD]

theorem State.adminData_canon {pq : List Instr} (s : State) (link : Nat) (c : AdminCmd) (n : Nat) (d : Bytes) (h_s : Canon pq s) :
    Canon pq (State.adminData s link c n d).1 := by
  unfold State.adminData; (try simp only [pick_eq, pickRes_eq]); grind (ematch := 40) (gen := 60) (splits := 20) -lia -linarith -ring -ac -order -mbtc -funCC [State.toPrps_canon, canon_pick, canon_pickRes, canon_next, canon_refused, canon_foldl, canon_foldl1, canon_foldlD]

theorem State.postCqe_canon {pq : List Instr} (s : State) (link : Nat) (sq : Nat) (cid : BitVec 16) (status : Nat) (dw0 : Nat) (how : HostWrite) (h_s : Canon pq s) :
    Canon pq (State.postCqe s link sq cid status dw0 how) := by
  unfold State.postCqe; (try simp only [pick_eq, pickRes_eq]); grind (ematch := 40) (gen := 60) (splits := 20) -lia -linarith -ring -ac -order -mbtc -funCC [State.hostPut_canon, State.setNvme_canon, State.vector_canon, canon_pick, canon_pickRes, canon_next, canon_refused, canon_foldl, canon_foldl1, canon_foldlD]

theorem State.nvEvent_canon {pq : List Instr} (s : State) (link : Nat) (typ : Nat) (info : Nat) (lid : Nat) (h_s : Canon pq s) :
    Canon pq (State.nvEvent s link typ info lid) := by
  unfold State.nvEvent; (try simp only [pick_eq, pickRes_eq]); grind (ematch := 40) (gen := 60) (splits := 20) -lia -linarith -ring -ac -order -mbtc -funCC [State.postCqe_canon, State.setNvme_canon, canon_pick, canon_pickRes, canon_next, canon_refused, canon_foldl, canon_foldl1, canon_foldlD]

theorem State.badDoorbell_canon {pq : List Instr} (s : State) (link : Nat) (info : Nat) (h_s : Canon pq s) :
    Canon pq (State.badDoorbell s link info) := by
  unfold State.badDoorbell; (try simp only [pick_eq, pickRes_eq]); grind (ematch := 40) (gen := 60) (splits := 20) -lia -linarith -ring -ac -order -mbtc -funCC [State.nvEvent_canon, State.partner_canon, State.err_canon, State.bump_canon, canon_pick, canon_pickRes, canon_next, canon_refused, canon_foldl, canon_foldl1, canon_foldlD]

theorem State.nsChanged_canon {pq : List Instr} (s : State) (link : Nat) (nsid : Nat) (h_s : Canon pq s) :
    Canon pq (State.nsChanged s link nsid) := by
  unfold State.nsChanged; (try simp only [pick_eq, pickRes_eq]); grind (ematch := 40) (gen := 60) (splits := 20) -lia -linarith -ring -ac -order -mbtc -funCC [State.modNvme_canon, State.nvEvent_canon, canon_pick, canon_pickRes, canon_next, canon_refused, canon_foldl, canon_foldl1, canon_foldlD]

theorem State.showSqs_canon {pq : List Instr} (s : State) (link : Nat) (h_s : Canon pq s) :
    Canon pq (State.showSqs s link) := by
  unfold State.showSqs; (try simp only [pick_eq, pickRes_eq]); grind (ematch := 40) (gen := 60) (splits := 20) -lia -linarith -ring -ac -order -mbtc -funCC [State.wr_canon, canon_pick, canon_pickRes, canon_next, canon_refused, canon_foldl, canon_foldl1, canon_foldlD]

theorem State.dropSqCmds_canon {pq : List Instr} (s : State) (link : Nat) (qid : Nat) (h_s : Canon pq s) :
    Canon pq (State.dropSqCmds s link qid) := by
  unfold State.dropSqCmds; (try simp only [pick_eq, pickRes_eq]); grind (ematch := 40) (gen := 60) (splits := 20) -lia -linarith -ring -ac -order -mbtc -funCC [State.postCqe_canon, State.lockDrop_canon, State.modNvme_canon, canon_pick, canon_pickRes, canon_next, canon_refused, canon_foldl, canon_foldl1, canon_foldlD]

theorem State.fromPrps_canon {pq : List Instr} (s : State) (link : Nat) (slice : Option Nat) (prps : List (BitVec 64)) (n : Nat) (h : HostRead) (h_s : Canon pq s) :
    Canon pq (State.fromPrps s link slice prps n h).1 := by
  unfold State.fromPrps; (try simp only [pick_eq, pickRes_eq]); grind (ematch := 40) (gen := 60) (splits := 20) -lia -linarith -ring -ac -order -mbtc -funCC [State.hostReadEnd_canon, State.atsUse_canon, canon_pick, canon_pickRes, canon_next, canon_refused, canon_foldl, canon_foldl1, canon_foldlD]

theorem State.nvStop_canon {pq : List Instr} (s : State) (link : Nat) (h_s : Canon pq s) :
    Canon pq (State.nvStop s link) := by
  unfold State.nvStop; (try simp only [pick_eq, pickRes_eq]); grind (ematch := 40) (gen := 60) (splits := 20) -lia -linarith -ring -ac -order -mbtc -funCC [State.wr_canon, State.showSqs_canon, State.setNvme_canon, canon_pick, canon_pickRes, canon_next, canon_refused, canon_foldl, canon_foldl1, canon_foldlD]

theorem State.nvDoorbell_canon {pq : List Instr} (s : State) (link : Nat) (cq : Bool) (qid : Nat) (value : Nat) (h_s : Canon pq s) :
    Canon pq (State.nvDoorbell s link cq qid value) := by
  unfold State.nvDoorbell; (try simp only [pick_eq, pickRes_eq]); grind (ematch := 40) (gen := 60) (splits := 20) -lia -linarith -ring -ac -order -mbtc -funCC [State.notServed_canon, State.unsupported_canon, State.badDoorbell_canon, State.setNvme_canon, canon_pick, canon_pickRes, canon_next, canon_refused, canon_foldl, canon_foldl1, canon_foldlD]

theorem State.sqAdvance_canon {pq : List Instr} (s : State) (link : Nat) (sq : Nat) (h_s : Canon pq s) :
    Canon pq (State.sqAdvance s link sq) := by
  unfold State.sqAdvance; (try simp only [pick_eq, pickRes_eq]); grind (ematch := 40) (gen := 60) (splits := 20) -lia -linarith -ring -ac -order -mbtc -funCC [State.modNvme_canon, canon_pick, canon_pickRes, canon_next, canon_refused, canon_foldl, canon_foldl1, canon_foldlD]

theorem admin_canon {pq : List Instr} (link : Fin 2) (c : AdminCmd) (s : State) (f : State → State × Nat × Nat) (h_s : Canon pq s)
    (hf : ∀ s, Canon pq s → Canon pq (f s).1) : CanonRes pq (admin link c s f) := by
  unfold admin
  grind (ematch := 40) (gen := 60) [State.sqAdvance_canon, State.postCqe_canon, canon_next]

theorem execAsynchronousEventRequest_canon {pq : List Instr} (link : Fin 2) (c : AdminCmd) (s : State) (h_s : Canon pq s) :
    CanonRes pq (execAsynchronousEventRequest link c s) := by
  unfold execAsynchronousEventRequest; grind (ematch := 40) (gen := 60) (splits := 20) -lia -linarith -ring -ac -order -mbtc -funCC [State.sqAdvance_canon, State.postCqe_canon, State.setNvme_canon, canon_pick, canon_pickRes, canon_next, canon_refused, canon_foldl, canon_foldl1, canon_foldlD]

theorem execCreateIoCq_canon {pq : List Instr} (link : Fin 2) (c : AdminCmd) (s : State) (h_s : Canon pq s) :
    CanonRes pq (execCreateIoCq link c s) := by
  unfold execCreateIoCq; (try simp only [pick_eq, pickRes_eq]); grind (ematch := 40) (gen := 60) (splits := 20) -lia -linarith -ring -ac -order -mbtc -funCC [admin_canon, State.setNvme_canon, canon_pick, canon_pickRes, canon_next, canon_refused, canon_foldl, canon_foldl1, canon_foldlD]

theorem execCreateIoSq_canon {pq : List Instr} (link : Fin 2) (c : AdminCmd) (s : State) (h_s : Canon pq s) :
    CanonRes pq (execCreateIoSq link c s) := by
  unfold execCreateIoSq; (try simp only [pick_eq, pickRes_eq]); grind (ematch := 40) (gen := 60) (splits := 20) -lia -linarith -ring -ac -order -mbtc -funCC [admin_canon, State.showSqs_canon, State.setNvme_canon, canon_pick, canon_pickRes, canon_next, canon_refused, canon_foldl, canon_foldl1, canon_foldlD]

theorem execDeleteIoCq_canon {pq : List Instr} (link : Fin 2) (c : AdminCmd) (s : State) (h_s : Canon pq s) :
    CanonRes pq (execDeleteIoCq link c s) := by
  unfold execDeleteIoCq; (try simp only [pick_eq, pickRes_eq]); grind (ematch := 40) (gen := 60) (splits := 20) -lia -linarith -ring -ac -order -mbtc -funCC [admin_canon, State.setNvme_canon, canon_pick, canon_pickRes, canon_next, canon_refused, canon_foldl, canon_foldl1, canon_foldlD]

theorem execDeleteIoSq_canon {pq : List Instr} (link : Fin 2) (c : AdminCmd) (s : State) (h_s : Canon pq s) :
    CanonRes pq (execDeleteIoSq link c s) := by
  unfold execDeleteIoSq; (try simp only [pick_eq, pickRes_eq]); grind (ematch := 40) (gen := 60) (splits := 20) -lia -linarith -ring -ac -order -mbtc -funCC [admin_canon, State.showSqs_canon, State.modNvme_canon, State.dropSqCmds_canon, canon_pick, canon_pickRes, canon_next, canon_refused, canon_foldl, canon_foldl1, canon_foldlD]

theorem execGetFeatures_canon {pq : List Instr} (link : Fin 2) (c : AdminCmd) (s : State) (h_s : Canon pq s) :
    CanonRes pq (execGetFeatures link c s) := by
  unfold execGetFeatures; (try simp only [pick_eq, pickRes_eq]); grind (ematch := 40) (gen := 60) (splits := 20) -lia -linarith -ring -ac -order -mbtc -funCC [admin_canon, State.draw_canon, canon_pick, canon_pickRes, canon_next, canon_refused, canon_foldl, canon_foldl1, canon_foldlD]

theorem execGetLogPage_canon {pq : List Instr} (link : Fin 2) (c : AdminCmd) (s : State) (h_s : Canon pq s) :
    CanonRes pq (execGetLogPage link c s) := by
  unfold execGetLogPage; (try simp only [pick_eq, pickRes_eq]); grind (ematch := 40) (gen := 60) (splits := 20) -lia -linarith -ring -ac -order -mbtc -funCC [admin_canon, State.adminData_canon, State.draw_canon, State.setNvme_canon, canon_pick, canon_pickRes, canon_next, canon_refused, canon_foldl, canon_foldl1, canon_foldlD]

theorem execIdentify_canon {pq : List Instr} (link : Fin 2) (c : AdminCmd) (s : State) (h_s : Canon pq s) :
    CanonRes pq (execIdentify link c s) := by
  unfold execIdentify; (try simp only [pick_eq, pickRes_eq]); grind (ematch := 40) (gen := 60) (splits := 20) -lia -linarith -ring -ac -order -mbtc -funCC [admin_canon, State.adminData_canon, State.draw_canon, canon_pick, canon_pickRes, canon_next, canon_refused, canon_foldl, canon_foldl1, canon_foldlD]

theorem execNsMask_canon {pq : List Instr} (link : Fin 2) (c : AdminCmd) (read : HostRead) (s : State) (h_s : Canon pq s) :
    CanonRes pq (execNsMask link c read s) := by
  unfold execNsMask; (try simp only [pick_eq, pickRes_eq]); grind (ematch := 40) (gen := 60) (splits := 20) -lia -linarith -ring -ac -order -mbtc -funCC [waitTag_canon, admin_canon, State.fromPrps_canon, State.setNvme_canon, canon_pick, canon_pickRes, canon_next, canon_refused, canon_foldl, canon_foldl1, canon_foldlD]

theorem execNvcIdb_canon {pq : List Instr} (link : Fin 2) (word : BitVec 32) (s : State) (h_s : Canon pq s) :
    CanonRes pq (execNvcIdb link word s) := by
  unfold execNvcIdb; (try simp only [pick_eq, pickRes_eq]); grind (ematch := 40) (gen := 60) (splits := 20) -lia -linarith -ring -ac -order -mbtc -funCC [State.nvDoorbell_canon, canon_pick, canon_pickRes, canon_next, canon_refused, canon_foldl, canon_foldl1, canon_foldlD]

theorem execNvmeAbort_canon {pq : List Instr} (link : Fin 2) (c : AdminCmd) (s : State) (h_s : Canon pq s) :
    CanonRes pq (execNvmeAbort link c s) := by
  unfold execNvmeAbort; (try simp only [pick_eq, pickRes_eq]); grind (ematch := 40) (gen := 60) (splits := 20) -lia -linarith -ring -ac -order -mbtc -funCC [admin_canon, canon_pick, canon_pickRes, canon_next, canon_refused, canon_foldl, canon_foldl1, canon_foldlD]

theorem execNvmeCcEnClear_canon {pq : List Instr} (link : Fin 2) (s : State) (h_s : Canon pq s) :
    CanonRes pq (execNvmeCcEnClear link s) := by
  unfold execNvmeCcEnClear; (try simp only [pick_eq, pickRes_eq]); grind (ematch := 40) (gen := 60) (splits := 20) -lia -linarith -ring -ac -order -mbtc -funCC [State.nvStop_canon, State.notServed_canon, canon_pick, canon_pickRes, canon_next, canon_refused, canon_foldl, canon_foldl1, canon_foldlD]

theorem execNvmeCcEnSet_canon {pq : List Instr} (link : Fin 2) (cc : BitVec 32) (aqa : BitVec 32) (asq : BitVec 64) (acq : BitVec 64) (s : State) (h_s : Canon pq s) :
    CanonRes pq (execNvmeCcEnSet link cc aqa asq acq s) := by
  unfold execNvmeCcEnSet; (try simp only [pick_eq, pickRes_eq]); grind (ematch := 40) (gen := 60) (splits := 20) -lia -linarith -ring -ac -order -mbtc -funCC [State.notServed_canon, State.setNvme_canon, canon_pick, canon_pickRes, canon_next, canon_refused, canon_foldl, canon_foldl1, canon_foldlD]

theorem execNvmeDoorbell_canon {pq : List Instr} (link : Fin 2) (cq : Bool) (qid : Fin 3072) (value : BitVec 16) (s : State) (h_s : Canon pq s) :
    CanonRes pq (execNvmeDoorbell link cq qid value s) := by
  unfold execNvmeDoorbell; (try simp only [pick_eq, pickRes_eq]); grind (ematch := 40) (gen := 60) (splits := 20) -lia -linarith -ring -ac -order -mbtc -funCC [State.nvDoorbell_canon, canon_pick, canon_pickRes, canon_next, canon_refused, canon_foldl, canon_foldl1, canon_foldlD]

theorem execQpBind_canon {pq : List Instr} (link : Fin 2) (c : AdminCmd) (s : State) (h_s : Canon pq s) :
    CanonRes pq (execQpBind link c s) := by
  unfold execQpBind; (try simp only [pick_eq, pickRes_eq]); grind (ematch := 40) (gen := 60) (splits := 20) -lia -linarith -ring -ac -order -mbtc -funCC [admin_canon, State.setNvme_canon, canon_pick, canon_pickRes, canon_next, canon_refused, canon_foldl, canon_foldl1, canon_foldlD]

theorem execSetFeatures_canon {pq : List Instr} (link : Fin 2) (c : AdminCmd) (s : State) (h_s : Canon pq s) :
    CanonRes pq (execSetFeatures link c s) := by
  unfold execSetFeatures; (try simp only [pick_eq, pickRes_eq]); grind (ematch := 40) (gen := 60) (splits := 20) -lia -linarith -ring -ac -order -mbtc -funCC [admin_canon, State.modNvme_canon, canon_pick, canon_pickRes, canon_next, canon_refused, canon_foldl, canon_foldl1, canon_foldlD]

end Sys2Proof.Machine
end

