-- ==== Sys2Proof/Laws/CanonEndpoints.lean ====
section
/-! SUPPORT. Every function of Machine/Endpoints.lean keeps the queue and the canonical form of registers and memory. -/
set_option linter.unusedSimpArgs false
namespace Sys2Proof.Machine
open Sys2Proof

theorem State.abandonTags_canon {pq : List Instr} (s : State) (l : Nat) (fn : Nat) (h_s : Canon pq s) :
    Canon pq (State.abandonTags s l fn) := by
  unfold State.abandonTags; (try simp only [pick_eq, pickRes_eq]); grind (ematch := 40) (gen := 60) (splits := 20) -lia -linarith -ring -ac -order -mbtc -funCC [State.out_canon, State.modLink_canon, canon_pick, canon_pickRes, canon_next, canon_refused, canon_foldl, canon_foldl1, canon_foldlD]

theorem State.updateCto_canon {pq : List Instr} (s : State) (l : Nat) (h_s : Canon pq s) :
    Canon pq (State.updateCto s l) := by
  unfold State.updateCto; (try simp only [pick_eq, pickRes_eq]); grind (ematch := 40) (gen := 60) (splits := 20) -lia -linarith -ring -ac -order -mbtc -funCC [State.wr_canon, canon_pick, canon_pickRes, canon_next, canon_refused, canon_foldl, canon_foldl1, canon_foldlD]

theorem State.linkGone_canon {pq : List Instr} (s : State) (l : Nat) (h_s : Canon pq s) :
    Canon pq (State.linkGone s l) := by
  unfold State.linkGone; (try simp only [pick_eq, pickRes_eq]); grind (ematch := 40) (gen := 60) (splits := 20) -lia -linarith -ring -ac -order -mbtc -funCC [State.wr_canon, State.modLink_canon, canon_pick, canon_pickRes, canon_next, canon_refused, canon_foldl, canon_foldl1, canon_foldlD]

theorem State.flushFn_canon {pq : List Instr} (s : State) (l : Nat) (fn : Nat) (h_s : Canon pq s) :
    Canon pq (State.flushFn s l fn) := by
  unfold State.flushFn; (try simp only [pick_eq, pickRes_eq]); grind (ematch := 40) (gen := 60) (splits := 20) -lia -linarith -ring -ac -order -mbtc -funCC [State.flushPba_canon, State.flushMirrors_canon, canon_pick, canon_pickRes, canon_next, canon_refused, canon_foldl, canon_foldl1, canon_foldlD]

theorem State.linkDown_canon {pq : List Instr} (s : State) (l : Nat) (h_s : Canon pq s) :
    Canon pq (State.linkDown s l) := by
  unfold State.linkDown; (try simp only [pick_eq, pickRes_eq]); grind (ematch := 40) (gen := 60) (splits := 20) -lia -linarith -ring -ac -order -mbtc -funCC [State.linkGone_canon, State.err_canon, State.modLink_canon, canon_pick, canon_pickRes, canon_next, canon_refused, canon_foldl, canon_foldl1, canon_foldlD]

theorem State.resetPf0_canon {pq : List Instr} (s : State) (l : Nat) (h_s : Canon pq s) : Canon pq (State.resetPf0 s l) := by
  unfold State.resetPf0
  extract_lets p regs s1 s2 s3 clear
  have h0 : Registers.wf regs = true := by
    refine List.foldlRecOn (List.range 64) _ (motive := fun m => Registers.wf m = true) ?_ fun m hm v _ => ?_
    · exact registers_wf_del _ (registers_wf_del _ h_s.2.1)
    · exact List.foldlRecOn (List.range 4) _ (motive := fun m => Registers.wf m = true) hm fun m hm w _ => registers_wf_del _ hm
  clear_value regs
  have h1 : Canon pq s1 := canon_dels _ h_s h0
  clear_value s1
  have h2 : Canon pq s2 := by
    refine canon_foldl _ _ _ h1 fun u k h => ?_
    dsimp only
    split
    · exact State.setMbx_canon _ _ _ (canon_dels _ h (registers_wf_del _ (registers_wf_del _ (registers_wf_del _ (registers_wf_del _ h.2.1)))))
    · exact h
  clear_value s2
  exact State.updateInta_canon _ _ (State.modLink_canon _ _ _ (State.wr_canon _ _ _ h2))

theorem State.resetPf1_canon {pq : List Instr} (s : State) (l : Nat) (h_s : Canon pq s) :
    Canon pq (State.resetPf1 s l) := by
  unfold State.resetPf1; (try simp only [pick_eq, pickRes_eq]); grind (ematch := 40) (gen := 60) (splits := 20) -lia -linarith -ring -ac -order -mbtc -funCC [State.modLink_canon, canon_pick, canon_pickRes, canon_next, canon_refused, canon_foldl, canon_foldl1, canon_foldlD, canon_upd]

theorem State.resetFn_canon {pq : List Instr} (s : State) (l : Nat) (fn : Nat) (h_s : Canon pq s) :
    Canon pq (State.resetFn s l fn) := by
  unfold State.resetFn; (try simp only [pick_eq, pickRes_eq]); grind (ematch := 40) (gen := 60) (splits := 20) -lia -linarith -ring -ac -order -mbtc -funCC [State.abandonTags_canon, State.modLink_canon, State.updateCto_canon, State.resetPf0_canon, State.resetPf1_canon, State.modNvme_canon, State.nvStop_canon, State.dropQps_canon, canon_pick, canon_pickRes, canon_next, canon_refused, canon_foldl, canon_foldl1, canon_foldlD]

theorem State.showStall_canon {pq : List Instr} (s : State) (l : Nat) (fn : Nat) (h_s : Canon pq s) :
    Canon pq (State.showStall s l fn) := by
  unfold State.showStall; (try simp only [pick_eq, pickRes_eq]); grind (ematch := 40) (gen := 60) (splits := 20) -lia -linarith -ring -ac -order -mbtc -funCC [State.modNvme_canon, canon_pick, canon_pickRes, canon_next, canon_refused, canon_foldl, canon_foldl1, canon_foldlD, canon_upd]

theorem execBmeClear_canon {pq : List Instr} (link : Fin 2) (fn : Fin 4) (s : State) (h_s : Canon pq s) :
    CanonRes pq (execBmeClear link fn s) := by
  unfold execBmeClear; (try simp only [pick_eq, pickRes_eq]); grind (ematch := 40) (gen := 60) (splits := 20) -lia -linarith -ring -ac -order -mbtc -funCC [State.showStall_canon, State.modLink_canon, State.driverLoss_canon, canon_pick, canon_pickRes, canon_next, canon_refused, canon_foldl, canon_foldl1, canon_foldlD]

theorem execBmeSet_canon {pq : List Instr} (link : Fin 2) (fn : Fin 4) (s : State) (h_s : Canon pq s) :
    CanonRes pq (execBmeSet link fn s) := by
  unfold execBmeSet; (try simp only [pick_eq, pickRes_eq]); grind (ematch := 40) (gen := 60) (splits := 20) -lia -linarith -ring -ac -order -mbtc -funCC [State.flushFn_canon, State.showStall_canon, State.modLink_canon, canon_pick, canon_pickRes, canon_next, canon_refused, canon_foldl, canon_foldl1, canon_foldlD]

theorem execConfigurationWrite_canon {pq : List Instr} (link : Fin 2) (w : CfgWrite) (s : State) (h_s : Canon pq s) :
    CanonRes pq (execConfigurationWrite link w s) := by
  unfold execConfigurationWrite; (try simp only [pick_eq, pickRes_eq]); grind (ematch := 40) (gen := 60) (splits := 20) -lia -linarith -ring -ac -order -mbtc -funCC [State.modLink_canon, State.updateCto_canon, State.flushPba_canon, State.updateInta_canon, State.linkDown_canon, canon_pick, canon_pickRes, canon_next, canon_refused, canon_foldl, canon_foldl1, canon_foldlD]

theorem execD3hotEntry_canon {pq : List Instr} (link : Fin 2) (fn : Fin 4) (s : State) (h_s : Canon pq s) :
    CanonRes pq (execD3hotEntry link fn s) := by
  unfold execD3hotEntry; (try simp only [pick_eq, pickRes_eq]); grind (ematch := 40) (gen := 60) (splits := 20) -lia -linarith -ring -ac -order -mbtc -funCC [State.showStall_canon, State.modLink_canon, canon_pick, canon_pickRes, canon_next, canon_refused, canon_foldl, canon_foldl1, canon_foldlD]

theorem execD3hotExit_canon {pq : List Instr} (link : Fin 2) (fn : Fin 4) (s : State) (h_s : Canon pq s) :
    CanonRes pq (execD3hotExit link fn s) := by
  unfold execD3hotExit; (try simp only [pick_eq, pickRes_eq]); grind (ematch := 40) (gen := 60) (splits := 20) -lia -linarith -ring -ac -order -mbtc -funCC [State.flushFn_canon, State.showStall_canon, State.modLink_canon, canon_pick, canon_pickRes, canon_next, canon_refused, canon_foldl, canon_foldl1, canon_foldlD]

theorem execFlr_canon {pq : List Instr} (link : Fin 2) (fn : Fin 4) (s : State) (h_s : Canon pq s) :
    CanonRes pq (execFlr link fn s) := by
  unfold execFlr; (try simp only [pick_eq, pickRes_eq]); grind (ematch := 40) (gen := 60) (splits := 20) -lia -linarith -ring -ac -order -mbtc -funCC [State.resetFn_canon, State.modLink_canon, State.driverLoss_canon, canon_pick, canon_pickRes, canon_next, canon_refused, canon_foldl, canon_foldl1, canon_foldlD]

theorem execPcieLinkDown_canon {pq : List Instr} (link : Fin 2) (s : State) (h_s : Canon pq s) :
    CanonRes pq (execPcieLinkDown link s) := by
  unfold execPcieLinkDown; (try simp only [pick_eq, pickRes_eq]); grind (ematch := 40) (gen := 60) (splits := 20) -lia -linarith -ring -ac -order -mbtc -funCC [State.linkDown_canon, canon_pick, canon_pickRes, canon_next, canon_refused, canon_foldl, canon_foldl1, canon_foldlD]

theorem execPcieLinkUp_canon {pq : List Instr} (link : Fin 2) (width : Fin 5) (speed : Fin 6) (flit : Bool) (s : State) (h_s : Canon pq s) :
    CanonRes pq (execPcieLinkUp link width speed flit s) := by
  unfold execPcieLinkUp; (try simp only [pick_eq, pickRes_eq]); grind (ematch := 40) (gen := 60) (splits := 20) -lia -linarith -ring -ac -order -mbtc -funCC [State.modLink_canon, State.wr_canon, State.out_canon, State.flushFn_canon, State.updateInta_canon, canon_pick, canon_pickRes, canon_next, canon_refused, canon_foldl, canon_foldl1, canon_foldlD, canon_upd]

theorem execPerstAssert_canon {pq : List Instr} (link : Fin 2) (s : State) (h_s : Canon pq s) :
    CanonRes pq (execPerstAssert link s) := by
  unfold execPerstAssert; (try simp only [pick_eq, pickRes_eq]); grind (ematch := 40) (gen := 60) (splits := 20) -lia -linarith -ring -ac -order -mbtc -funCC [State.linkGone_canon, State.modLink_canon, State.driverLoss_canon, State.resetFn_canon, State.wr_canon, canon_pick, canon_pickRes, canon_next, canon_refused, canon_foldl, canon_foldl1, canon_foldlD, canon_upd]

theorem execPerstRelease_canon {pq : List Instr} (link : Fin 2) (s : State) (h_s : Canon pq s) :
    CanonRes pq (execPerstRelease link s) := by
  unfold execPerstRelease; (try simp only [pick_eq, pickRes_eq]); grind (ematch := 40) (gen := 60) (splits := 20) -lia -linarith -ring -ac -order -mbtc -funCC [State.modLink_canon, canon_pick, canon_pickRes, canon_next, canon_refused, canon_foldl, canon_foldl1, canon_foldlD, canon_upd]

theorem execRidChange_canon {pq : List Instr} (link : Fin 2) (fn : Fin 4) (rid : BitVec 16) (s : State) (h_s : Canon pq s) :
    CanonRes pq (execRidChange link fn rid s) := by
  unfold execRidChange; (try simp only [pick_eq, pickRes_eq]); grind (ematch := 40) (gen := 60) (splits := 20) -lia -linarith -ring -ac -order -mbtc -funCC [State.modLink_canon, canon_pick, canon_pickRes, canon_next, canon_refused, canon_foldl, canon_foldl1, canon_foldlD, canon_upd]

end Sys2Proof.Machine
end

