-- ==== Sys2Proof/Laws/CanonStub.lean ====
section
/-! SUPPORT. Every function of Machine/Stub.lean keeps the queue and the canonical form of registers and memory. -/
set_option linter.unusedSimpArgs false
namespace Sys2Proof.Machine
open Sys2Proof

theorem State.bootFail_canon {pq : List Instr} (s : State) (p : Nat) (status : BitVec 8) (h_s : Canon pq s) :
    Canon pq (State.bootFail s p status) := by
  unfold State.bootFail; (try simp only [pick_eq, pickRes_eq]); grind (ematch := 40) (gen := 60) (splits := 20) -lia -linarith -ring -ac -order -mbtc -funCC [State.err_canon, State.modCore_canon, canon_pick, canon_pickRes, canon_next, canon_refused, canon_foldl, canon_foldl1, canon_foldlD]

theorem State.loadStore_canon {pq : List Instr} (s : State) (p : Nat) (code : Bytes) (h_s : Canon pq s) :
    Canon pq (State.loadStore s p code) := by
  unfold State.loadStore; (try simp only [pick_eq, pickRes_eq]); grind (ematch := 40) (gen := 60) (splits := 20) -lia -linarith -ring -ac -order -mbtc -funCC [State.writeHome_canon, canon_pick, canon_pickRes, canon_next, canon_refused, canon_foldl, canon_foldl1, canon_foldlD]

theorem State.stubRun_canon {pq : List Instr} (s : State) (gc : Nat) (slot : Nat) (h_s : Canon pq s) :
    Canon pq (State.stubRun s gc slot) := by
  unfold State.stubRun; (try simp only [pick_eq, pickRes_eq]); grind (ematch := 40) (gen := 60) (splits := 20) -lia -linarith -ring -ac -order -mbtc -funCC [State.bootFail_canon, State.readMem_canon, State.loadStore_canon, State.dmemWrite_canon, State.modCore_canon, canon_pick, canon_pickRes, canon_next, canon_refused, canon_foldl, canon_foldl1, canon_foldlD]

theorem execStubRun_canon {pq : List Instr} (gc : Fin 160) (slot : Fin 18) (s : State) (h_s : Canon pq s) :
    CanonRes pq (execStubRun gc slot s) := by
  unfold execStubRun; (try simp only [pick_eq, pickRes_eq]); grind (ematch := 40) (gen := 60) (splits := 20) -lia -linarith -ring -ac -order -mbtc -funCC [State.stubRun_canon, canon_pick, canon_pickRes, canon_next, canon_refused, canon_foldl, canon_foldl1, canon_foldlD]

end Sys2Proof.Machine
end

