-- ==== Sys2Proof/Laws/CanonLantern.lean ====
section
/-! SUPPORT. Every function of Machine/Lantern.lean keeps the queue and the canonical form of registers and memory. -/
set_option linter.unusedSimpArgs false
namespace Sys2Proof.Machine
open Sys2Proof

theorem State.ackHeld_canon {pq : List Instr} (s : State) (w : HeldWrite) (h_s : Canon pq s) :
    Canon pq (State.ackHeld s w) := by
  unfold State.ackHeld; (try simp only [pick_eq, pickRes_eq]); grind (ematch := 40) (gen := 60) (splits := 20) -lia -linarith -ring -ac -order -mbtc -funCC [canon_pick, canon_pickRes, canon_next, canon_refused, canon_foldl, canon_foldl1, canon_foldlD, canon_upd]

theorem State.armStep_canon {pq : List Instr} (s : State) (p : Nat) (h_s : Canon pq s) :
    Canon pq (State.armStep s p) := by
  unfold State.armStep; (try simp only [pick_eq, pickRes_eq]); grind (ematch := 40) (gen := 60) (splits := 20) -lia -linarith -ring -ac -order -mbtc -funCC [State.armWatch_canon, State.disarmTag_canon, canon_pick, canon_pickRes, canon_next, canon_refused, canon_foldl, canon_foldl1, canon_foldlD]

theorem State.setSnapSt_canon {pq : List Instr} (s : State) (p : Nat) (st : Nat) (h_s : Canon pq s) :
    Canon pq (State.setSnapSt s p st) := by
  unfold State.setSnapSt; (try simp only [pick_eq, pickRes_eq]); grind (ematch := 40) (gen := 60) (splits := 20) -lia -linarith -ring -ac -order -mbtc -funCC [State.wr_canon, canon_pick, canon_pickRes, canon_next, canon_refused, canon_foldl, canon_foldl1, canon_foldlD]

theorem State.cut_canon {pq : List Instr} (s : State) (p : Nat) (step : BitVec 32) (h_s : Canon pq s) :
    Canon pq (State.cut s p step) := by
  unfold State.cut; (try simp only [pick_eq, pickRes_eq]); grind (ematch := 40) (gen := 60) (splits := 20) -lia -linarith -ring -ac -order -mbtc -funCC [State.modSnap_canon, State.setSnapSt_canon, State.wr_canon, canon_pick, canon_pickRes, canon_next, canon_refused, canon_foldl, canon_foldl1, canon_foldlD]

theorem State.disarmCut_canon {pq : List Instr} (s : State) (p : Nat) (h_s : Canon pq s) :
    Canon pq (State.disarmCut s p) := by
  unfold State.disarmCut; (try simp only [pick_eq, pickRes_eq]); grind (ematch := 40) (gen := 60) (splits := 20) -lia -linarith -ring -ac -order -mbtc -funCC [State.disarmTag_canon, canon_pick, canon_pickRes, canon_next, canon_refused, canon_foldl, canon_foldl1, canon_foldlD]

theorem State.disarmStep_canon {pq : List Instr} (s : State) (p : Nat) (h_s : Canon pq s) :
    Canon pq (State.disarmStep s p) := by
  unfold State.disarmStep; (try simp only [pick_eq, pickRes_eq]); grind (ematch := 40) (gen := 60) (splits := 20) -lia -linarith -ring -ac -order -mbtc -funCC [State.disarmCut_canon, State.disarmTag_canon, canon_pick, canon_pickRes, canon_next, canon_refused, canon_foldl, canon_foldl1, canon_foldlD]

theorem State.followStep_canon {pq : List Instr} (s : State) (p : Nat) (v : BitVec 32) (h_s : Canon pq s) :
    Canon pq (State.followStep s p v) := by
  unfold State.followStep; (try simp only [pick_eq, pickRes_eq]); grind (ematch := 40) (gen := 60) (splits := 20) -lia -linarith -ring -ac -order -mbtc -funCC [State.sigHub_canon, State.armStep_canon, State.modSnap_canon, canon_pick, canon_pickRes, canon_next, canon_refused, canon_foldl, canon_foldl1, canon_foldlD]

theorem State.readGranule_canon {pq : List Instr} (s : State) (p : Nat) (a : Nat) (h_s : Canon pq s) :
    Canon pq (State.readGranule s p a).1 := by
  unfold State.readGranule; (try simp only [pick_eq, pickRes_eq]); grind (ematch := 40) (gen := 60) (splits := 20) -lia -linarith -ring -ac -order -mbtc -funCC [State.readMem_canon, canon_pick, canon_pickRes, canon_next, canon_refused, canon_foldl, canon_foldl1, canon_foldlD]

theorem State.granule_canon {pq : List Instr} (s : State) (p : Nat) (src : Nat) (h_s : Canon pq s) :
    Canon pq (State.granule s p src).1 := by
  unfold State.granule; (try simp only [pick_eq, pickRes_eq]); grind (ematch := 40) (gen := 60) (splits := 20) -lia -linarith -ring -ac -order -mbtc -funCC [State.readGranule_canon, canon_pick, canon_pickRes, canon_next, canon_refused, canon_foldl, canon_foldl1, canon_foldlD]

theorem State.lanternReads_canon {pq : List Instr} (s : State) (h : Nat) (l : List HostRead) (h_s : Canon pq s) :
    Canon pq (State.lanternReads s h l).1 := by
  unfold State.lanternReads; (try simp only [pick_eq, pickRes_eq]); grind (ematch := 40) (gen := 60) (splits := 20) -lia -linarith -ring -ac -order -mbtc -funCC [State.hostReadEnd_canon, canon_pick, canon_pickRes, canon_next, canon_refused, canon_foldl, canon_foldl1, canon_foldlD]

theorem State.unpauseOwn_canon {pq : List Instr} (s : State) (p : Nat) (h_s : Canon pq s) :
    Canon pq (State.unpauseOwn s p) := by
  unfold State.unpauseOwn; (try simp only [pick_eq, pickRes_eq]); grind (ematch := 40) (gen := 60) (splits := 20) -lia -linarith -ring -ac -order -mbtc -funCC [State.modSnap_canon, State.syncPause_canon, State.setReg_canon, canon_pick, canon_pickRes, canon_next, canon_refused, canon_foldl, canon_foldl1, canon_foldlD]

theorem State.release_canon {pq : List Instr} (s : State) (p : Nat) (hit : Nat → Bool) (h_s : Canon pq s) :
    Canon pq (State.release s p hit) := by
  unfold State.release; (try simp only [pick_eq, pickRes_eq]); grind (ematch := 40) (gen := 60) (splits := 20) -lia -linarith -ring -ac -order -mbtc -funCC [State.modSnap_canon, State.ackHeld_canon, State.storeRuns_canon, State.showHeld_canon, canon_pick, canon_pickRes, canon_next, canon_refused, canon_foldl, canon_foldl1, canon_foldlD]

theorem State.releaseAll_canon {pq : List Instr} (s : State) (p : Nat) (h_s : Canon pq s) :
    Canon pq (State.releaseAll s p) := by
  unfold State.releaseAll; (try simp only [pick_eq, pickRes_eq]); grind (ematch := 40) (gen := 60) (splits := 20) -lia -linarith -ring -ac -order -mbtc -funCC [State.release_canon, State.modSnap_canon, canon_pick, canon_pickRes, canon_next, canon_refused, canon_foldl, canon_foldl1, canon_foldlD]

theorem State.resetLantern_canon {pq : List Instr} (s : State) (h : Nat) (h_s : Canon pq s) :
    Canon pq (State.resetLantern s h) := by
  unfold State.resetLantern; (try simp only [pick_eq, pickRes_eq]); grind (ematch := 40) (gen := 60) (splits := 20) -lia -linarith -ring -ac -order -mbtc -funCC [State.setSnap_canon, State.disarmStep_canon, State.unpauseOwn_canon, State.releaseAll_canon, canon_pick, canon_pickRes, canon_next, canon_refused, canon_foldl, canon_foldl1, canon_foldlD]

theorem State.restoreEntry_canon {pq : List Instr} (s : State) (p : Nat) (e : Bytes) (data : Bytes) (h_s : Canon pq s) :
    Canon pq (State.restoreEntry s p e data) := by
  unfold State.restoreEntry; (try simp only [pick_eq, pickRes_eq]); grind (ematch := 40) (gen := 60) (splits := 20) -lia -linarith -ring -ac -order -mbtc -funCC [State.writeMem_canon, State.modCore_canon, State.beaconSet_canon, canon_pick, canon_pickRes, canon_next, canon_refused, canon_foldl, canon_foldl1, canon_foldlD]

theorem State.snapBegin_canon {pq : List Instr} (s : State) (p : Nat) (mode : BitVec 8) (scope : BitVec 8) (auto : Bool) (h_s : Canon pq s) :
    Canon pq (State.snapBegin s p mode scope auto) := by
  unfold State.snapBegin; (try simp only [pick_eq, pickRes_eq]); grind (ematch := 40) (gen := 60) (splits := 20) -lia -linarith -ring -ac -order -mbtc -funCC [State.modSnap_canon, State.wr_canon, State.setSnapSt_canon, State.armWatch_canon, State.disarmCut_canon, canon_pick, canon_pickRes, canon_next, canon_refused, canon_foldl, canon_foldl1, canon_foldlD]

theorem State.snapStatus_canon {pq : List Instr} (s : State) (p : Nat) (st : BitVec 8) (h_s : Canon pq s) :
    Canon pq (State.snapStatus s p st) := by
  unfold State.snapStatus; (try simp only [pick_eq, pickRes_eq]); grind (ematch := 40) (gen := 60) (splits := 20) -lia -linarith -ring -ac -order -mbtc -funCC [State.setSnapSt_canon, State.wr_canon, State.bucket_canon, State.err_canon, canon_pick, canon_pickRes, canon_next, canon_refused, canon_foldl, canon_foldl1, canon_foldlD]

theorem State.snapEnd_canon {pq : List Instr} (s : State) (p : Nat) (st : BitVec 8) (h_s : Canon pq s) :
    Canon pq (State.snapEnd s p st) := by
  unfold State.snapEnd; (try simp only [pick_eq, pickRes_eq]); grind (ematch := 40) (gen := 60) (splits := 20) -lia -linarith -ring -ac -order -mbtc -funCC [State.hostPut_canon, State.sigHub_canon, State.snapStatus_canon, canon_pick, canon_pickRes, canon_next, canon_refused, canon_foldl, canon_foldl1, canon_foldlD]

theorem State.snapFail_canon {pq : List Instr} (s : State) (p : Nat) (st : BitVec 8) (h_s : Canon pq s) :
    Canon pq (State.snapFail s p st) := by
  unfold State.snapFail; (try simp only [pick_eq, pickRes_eq]); grind (ematch := 40) (gen := 60) (splits := 20) -lia -linarith -ring -ac -order -mbtc -funCC [State.snapEnd_canon, State.unpauseOwn_canon, State.releaseAll_canon, canon_pick, canon_pickRes, canon_next, canon_refused, canon_foldl, canon_foldl1, canon_foldlD]

theorem State.storeGranule_canon {pq : List Instr} (s : State) (p : Nat) (src : Nat) (g : Gran) (bucket : HostRead) (h_s : Canon pq s) :
    Canon pq (State.storeGranule s p src g bucket).1 := by
  unfold State.storeGranule; (try simp only [pick_eq, pickRes_eq]); grind (ematch := 40) (gen := 60) (splits := 20) -lia -linarith -ring -ac -order -mbtc -funCC [State.bump_canon, State.modSnap_canon, State.hostReadEnd_canon, State.hostPut_canon, canon_pick, canon_pickRes, canon_next, canon_refused, canon_foldl, canon_foldl1, canon_foldlD]

theorem execSnapAbort_canon {pq : List Instr} (hub : Fin 2) (page : Fin 64) (s : State) (h_s : Canon pq s) :
    CanonRes pq (execSnapAbort hub page s) := by
  unfold execSnapAbort; (try simp only [pick_eq, pickRes_eq]); grind (ematch := 40) (gen := 60) (splits := 20) -lia -linarith -ring -ac -order -mbtc -funCC [withMsg_canon, State.answer_canon, State.snapFail_canon, canon_pick, canon_pickRes, canon_next, canon_refused, canon_foldl, canon_foldl1, canon_foldlD]

theorem execSnapComplete_canon {pq : List Instr} (part : Fin 12) (s : State) (h_s : Canon pq s) :
    CanonRes pq (execSnapComplete part s) := by
  unfold execSnapComplete; (try simp only [pick_eq, pickRes_eq]); grind (ematch := 40) (gen := 60) (splits := 20) -lia -linarith -ring -ac -order -mbtc -funCC [State.snapFail_canon, State.snapEnd_canon, State.hostPut_canon, canon_pick, canon_pickRes, canon_next, canon_refused, canon_foldl, canon_foldl1, canon_foldlD]

theorem execSnapCut_canon {pq : List Instr} (part : Fin 12) (s : State) (h_s : Canon pq s) :
    CanonRes pq (execSnapCut part s) := by
  unfold execSnapCut; grind (ematch := 40) (gen := 60) (splits := 20) -lia -linarith -ring -ac -order -mbtc -funCC [State.learn_canon, State.followStep_canon, State.cut_canon, State.draw_canon, State.unpauseOwn_canon, State.syncPause_canon, State.modSnap_canon, State.setReg_canon, canon_pick, canon_pickRes, canon_next, canon_refused, canon_foldl, canon_foldl1, canon_foldlD]

theorem execSnapGranuleCopy_canon {pq : List Instr} (part : Fin 12) (now : Nat) (bucket : HostRead) (hold : Nat) (s : State) (h_s : Canon pq s) :
    CanonRes pq (execSnapGranuleCopy part now bucket hold s) := by
  unfold execSnapGranuleCopy; (try simp only [pick_eq, pickRes_eq]); grind (ematch := 40) (gen := 60) (splits := 20) -lia -linarith -ring -ac -order -mbtc -funCC [waitTag_canon, State.served_canon, State.granule_canon, State.snapFail_canon, State.storeGranule_canon, State.modSnap_canon, State.unpauseOwn_canon, State.wr_canon, State.release_canon, canon_pick, canon_pickRes, canon_next, canon_refused, canon_foldl, canon_foldl1, canon_foldlD]

theorem execSnapPrewarning_canon {pq : List Instr} (part : Fin 12) (now : Nat) (s : State) (h_s : Canon pq s) :
    CanonRes pq (execSnapPrewarning part now s) := by
  unfold execSnapPrewarning; (try simp only [pick_eq, pickRes_eq]); grind (ematch := 40) (gen := 60) (splits := 20) -lia -linarith -ring -ac -order -mbtc -funCC [State.bump_canon, State.modSnap_canon, State.snapBegin_canon, canon_pick, canon_pickRes, canon_next, canon_refused, canon_foldl, canon_foldl1, canon_foldlD]

theorem execSnapRestore_canon {pq : List Instr} (hub : Fin 2) (page : Fin 64) (manifests : List HostRead) (granules : List (Nat × HostRead)) (s : State) (h_s : Canon pq s) :
    CanonRes pq (execSnapRestore hub page manifests granules s) := by
  unfold execSnapRestore; (try simp only [pick_eq, pickRes_eq]); grind (ematch := 40) (gen := 60) (splits := 20) -lia -linarith -ring -ac -order -mbtc -funCC [waitTag_canon, withMsg_canon, State.answer_canon, State.lanternReads_canon, State.snapStatus_canon, State.restoreEntry_canon, State.wr_canon, canon_pick, canon_pickRes, canon_next, canon_refused, canon_foldl, canon_foldl1, canon_foldlD]

theorem execSnapSetup_canon {pq : List Instr} (hub : Fin 2) (page : Fin 64) (s : State) (h_s : Canon pq s) :
    CanonRes pq (execSnapSetup hub page s) := by
  unfold execSnapSetup; (try simp only [pick_eq, pickRes_eq]); grind (ematch := 40) (gen := 60) (splits := 20) -lia -linarith -ring -ac -order -mbtc -funCC [withMsg_canon, State.answer_canon, State.disarmStep_canon, State.setSnapSt_canon, State.setSnap_canon, State.armStep_canon, canon_pick, canon_pickRes, canon_next, canon_refused, canon_foldl, canon_foldl1, canon_foldlD]

theorem execSnapStepAdvance_canon {pq : List Instr} (part : Fin 12) (s : State) (h_s : Canon pq s) :
    CanonRes pq (execSnapStepAdvance part s) := by
  unfold execSnapStepAdvance; (try simp only [pick_eq, pickRes_eq]); grind (ematch := 40) (gen := 60) (splits := 20) -lia -linarith -ring -ac -order -mbtc -funCC [State.learn_canon, State.followStep_canon, canon_pick, canon_pickRes, canon_next, canon_refused, canon_foldl, canon_foldl1, canon_foldlD]

theorem execSnapTake_canon {pq : List Instr} (hub : Fin 2) (page : Fin 64) (s : State) (h_s : Canon pq s) :
    CanonRes pq (execSnapTake hub page s) := by
  unfold execSnapTake; (try simp only [pick_eq, pickRes_eq]); grind (ematch := 40) (gen := 60) (splits := 20) -lia -linarith -ring -ac -order -mbtc -funCC [withMsg_canon, State.answer_canon, State.modSnap_canon, State.snapBegin_canon, canon_pick, canon_pickRes, canon_next, canon_refused, canon_foldl, canon_foldl1, canon_foldlD]

end Sys2Proof.Machine
end

