-- ==== Sys2Proof/Laws/CanonSdt.lean ====
section
/-! SUPPORT. Every function of Machine/Sdt.lean keeps the queue and the canonical form of registers and memory. -/
set_option linter.unusedSimpArgs false
namespace Sys2Proof.Machine
open Sys2Proof

theorem State.sdtControl_canon {pq : List Instr} (s : State) (n : Nat) (path : Nat) (x : SHdr) (h_s : Canon pq s) :
    Canon pq (State.sdtControl s n path x) := by
  unfold State.sdtControl; (try simp only [pick_eq, pickRes_eq]); grind (ematch := 40) (gen := 60) (splits := 20) -lia -linarith -ring -ac -order -mbtc -funCC [State.pipeOp_canon, State.setConn_canon, State.offer_canon, State.modConn_canon, canon_pick, canon_pickRes, canon_next, canon_refused, canon_foldl, canon_foldl1, canon_foldlD]

theorem State.connFail_canon {pq : List Instr} (s : State) (n : Nat) (st : BitVec 8) (tell : Bool) (h_s : Canon pq s) :
    Canon pq (State.connFail s n st tell) := by
  unfold State.connFail; (try simp only [pick_eq, pickRes_eq]); grind (ematch := 40) (gen := 60) (splits := 20) -lia -linarith -ring -ac -order -mbtc -funCC [State.sdtControl_canon, State.err_canon, State.modConn_canon, State.disarmTag_canon, canon_pick, canon_pickRes, canon_next, canon_refused, canon_foldl, canon_foldl1, canon_foldlD]

theorem State.sdtCount_canon {pq : List Instr} (s : State) (h : Nat) (h_s : Canon pq s) :
    Canon pq (State.sdtCount s h) := by
  unfold State.sdtCount; (try simp only [pick_eq, pickRes_eq]); grind (ematch := 40) (gen := 60) (splits := 20) -lia -linarith -ring -ac -order -mbtc -funCC [State.wr_canon, canon_pick, canon_pickRes, canon_next, canon_refused, canon_foldl, canon_foldl1, canon_foldlD]

theorem State.connFree_canon {pq : List Instr} (s : State) (n : Nat) (h_s : Canon pq s) :
    Canon pq (State.connFree s n) := by
  unfold State.connFree; (try simp only [pick_eq, pickRes_eq]); grind (ematch := 40) (gen := 60) (splits := 20) -lia -linarith -ring -ac -order -mbtc -funCC [State.sdtCount_canon, State.setConn_canon, State.disarmTag_canon, State.answer_canon, canon_pick, canon_pickRes, canon_next, canon_refused, canon_foldl, canon_foldl1, canon_foldlD]

theorem State.dropConns_canon {pq : List Instr} (s : State) (p : Nat) (h_s : Canon pq s) :
    Canon pq (State.dropConns s p) := by
  unfold State.dropConns; (try simp only [pick_eq, pickRes_eq]); grind (ematch := 40) (gen := 60) (splits := 20) -lia -linarith -ring -ac -order -mbtc -funCC [State.connFree_canon, State.connFail_canon, canon_pick, canon_pickRes, canon_next, canon_refused, canon_foldl, canon_foldl1, canon_foldlD]

theorem State.revokeKey_canon {pq : List Instr} (s : State) (i : Nat) (h_s : Canon pq s) :
    Canon pq (State.revokeKey s i) := by
  unfold State.revokeKey; (try simp only [pick_eq, pickRes_eq]); grind (ematch := 40) (gen := 60) (splits := 20) -lia -linarith -ring -ac -order -mbtc -funCC [State.setSkey_canon, State.draw_canon, canon_pick, canon_pickRes, canon_next, canon_refused, canon_foldl, canon_foldl1, canon_foldlD]

theorem State.dropSkeys_canon {pq : List Instr} (s : State) (p : Nat) (slice : Option Nat) (h_s : Canon pq s) :
    Canon pq (State.dropSkeys s p slice) := by
  unfold State.dropSkeys; (try simp only [pick_eq, pickRes_eq]); grind (ematch := 40) (gen := 60) (splits := 20) -lia -linarith -ring -ac -order -mbtc -funCC [State.revokeKey_canon, canon_pick, canon_pickRes, canon_next, canon_refused, canon_foldl, canon_foldl1, canon_foldlD]

theorem State.modMsg_canon {pq : List Instr} (s : State) (n : Nat) (hit : SMsg → Bool) (f : SMsg → SMsg) (h_s : Canon pq s) :
    Canon pq (State.modMsg s n hit f) := by
  unfold State.modMsg; (try simp only [pick_eq, pickRes_eq]); grind (ematch := 40) (gen := 60) (splits := 20) -lia -linarith -ring -ac -order -mbtc -funCC [State.modConn_canon, canon_pick, canon_pickRes, canon_next, canon_refused, canon_foldl, canon_foldl1, canon_foldlD]

theorem State.place_canon {pq : List Instr} (s : State) (c : Conn) (x : SHdr) (data : Bytes) (mark : Bool) (host : HostWrite) (h_s : Canon pq s) :
    Canon pq (State.place s c x data mark host).1 := by
  unfold State.place; (try simp only [pick_eq, pickRes_eq]); grind (ematch := 40) (gen := 60) (splits := 20) -lia -linarith -ring -ac -order -mbtc -funCC [State.hostPut_canon, State.writeMem_canon, canon_pick, canon_pickRes, canon_next, canon_refused, canon_foldl, canon_foldl1, canon_foldlD]

theorem State.putRmsg_canon {pq : List Instr} (s : State) (n : Nat) (m : RMsg) (h_s : Canon pq s) :
    Canon pq (State.putRmsg s n m) := by
  unfold State.putRmsg; (try simp only [pick_eq, pickRes_eq]); grind (ematch := 40) (gen := 60) (splits := 20) -lia -linarith -ring -ac -order -mbtc -funCC [State.modConn_canon, canon_pick, canon_pickRes, canon_next, canon_refused, canon_foldl, canon_foldl1, canon_foldlD]

theorem State.sdtAnswer_canon {pq : List Instr} (s : State) (n : Nat) (path : Nat) (x : SHdr) (h_s : Canon pq s) :
    Canon pq (State.sdtAnswer s n path x) := by
  unfold State.sdtAnswer; (try simp only [pick_eq, pickRes_eq]); grind (ematch := 40) (gen := 60) (splits := 20) -lia -linarith -ring -ac -order -mbtc -funCC [State.connFail_canon, State.sdtControl_canon, canon_pick, canon_pickRes, canon_next, canon_refused, canon_foldl, canon_foldl1, canon_foldlD]

theorem State.sdtPeer_canon {pq : List Instr} (s : State) (h : Nat) (r : Rx) (off : Nat) (h_s : Canon pq s) :
    Canon pq (State.sdtPeer s h r off) := by
  unfold State.sdtPeer; (try simp only [pick_eq, pickRes_eq]); grind (ematch := 40) (gen := 60) (splits := 20) -lia -linarith -ring -ac -order -mbtc -funCC [State.partner_canon, canon_pick, canon_pickRes, canon_next, canon_refused, canon_foldl, canon_foldl1, canon_foldlD]

theorem State.sdtBadHdr_canon {pq : List Instr} (s : State) (h : Nat) (r : Rx) (h_s : Canon pq s) :
    Canon pq (State.sdtBadHdr s h r) := by
  unfold State.sdtBadHdr; (try simp only [pick_eq, pickRes_eq]); grind (ematch := 40) (gen := 60) (splits := 20) -lia -linarith -ring -ac -order -mbtc -funCC [State.sdtPeer_canon, State.bucket_canon, State.err_canon, State.bump_canon, canon_pick, canon_pickRes, canon_next, canon_refused, canon_foldl, canon_foldl1, canon_foldlD]

theorem State.sdtNoConn_canon {pq : List Instr} (s : State) (h : Nat) (r : Rx) (h_s : Canon pq s) :
    Canon pq (State.sdtNoConn s h r) := by
  unfold State.sdtNoConn; (try simp only [pick_eq, pickRes_eq]); grind (ematch := 40) (gen := 60) (splits := 20) -lia -linarith -ring -ac -order -mbtc -funCC [State.sdtPeer_canon, State.bump_canon, canon_pick, canon_pickRes, canon_next, canon_refused, canon_foldl, canon_foldl1, canon_foldlD]

theorem State.sdtStale_canon {pq : List Instr} (s : State) (h : Nat) (r : Rx) (h_s : Canon pq s) :
    Canon pq (State.sdtStale s h r) := by
  unfold State.sdtStale; (try simp only [pick_eq, pickRes_eq]); grind (ematch := 40) (gen := 60) (splits := 20) -lia -linarith -ring -ac -order -mbtc -funCC [State.sdtPeer_canon, State.bump_canon, canon_pick, canon_pickRes, canon_next, canon_refused, canon_foldl, canon_foldl1, canon_foldlD]

theorem State.sdtCtl_canon {pq : List Instr} (s : State) (h : Nat) (r : Rx) (f : State → Nat → Conn → Res) (h_s : Canon pq s)
    (hf : ∀ s n c, Canon pq s → CanonRes pq (f s n c)) : CanonRes pq (s.sdtCtl h r f) := by
  unfold State.sdtCtl
  grind (ematch := 40) (gen := 60) [State.sdtBadHdr_canon, State.sdtNoConn_canon, State.sdtStale_canon, State.sdtPeer_canon, State.bump_canon, State.pipeOp_canon, State.tagFail_canon, canon_next]

theorem State.sdtGiveUp_canon {pq : List Instr} (s : State) (n : Nat) (h_s : Canon pq s) :
    Canon pq (State.sdtGiveUp s n) := by
  unfold State.sdtGiveUp; (try simp only [pick_eq, pickRes_eq]); grind (ematch := 40) (gen := 60) (splits := 20) -lia -linarith -ring -ac -order -mbtc -funCC [State.connFail_canon, canon_pick, canon_pickRes, canon_next, canon_refused, canon_foldl, canon_foldl1, canon_foldlD]

theorem State.sdtNotFlying_canon {pq : List Instr} (s : State) (h : Nat) (r : Rx) (h_s : Canon pq s) :
    Canon pq (State.sdtNotFlying s h r) := by
  unfold State.sdtNotFlying; (try simp only [pick_eq, pickRes_eq]); grind (ematch := 40) (gen := 60) (splits := 20) -lia -linarith -ring -ac -order -mbtc -funCC [State.sdtPeer_canon, State.bump_canon, canon_pick, canon_pickRes, canon_next, canon_refused, canon_foldl, canon_foldl1, canon_foldlD]

theorem State.sdtPop_canon {pq : List Instr} (s : State) (h : Nat) (h_s : Canon pq s) :
    Canon pq (State.sdtPop s h) := by
  unfold State.sdtPop; (try simp only [pick_eq, pickRes_eq]); grind (ematch := 40) (gen := 60) (splits := 20) -lia -linarith -ring -ac -order -mbtc -funCC [State.modClsOf_canon, canon_pick, canon_pickRes, canon_next, canon_refused, canon_foldl, canon_foldl1, canon_foldlD]

theorem State.takeMsn_canon {pq : List Instr} (s : State) (n : Nat) (m : SMsg) (h_s : Canon pq s) :
    Canon pq (State.takeMsn s n m) := by
  unfold State.takeMsn; (try simp only [pick_eq, pickRes_eq]); grind (ematch := 40) (gen := 60) (splits := 20) -lia -linarith -ring -ac -order -mbtc -funCC [State.modMsg_canon, State.sdtCount_canon, State.modConn_canon, canon_pick, canon_pickRes, canon_next, canon_refused, canon_foldl, canon_foldl1, canon_foldlD]

theorem execSdtAckRx_canon {pq : List Instr} (hub : Fin 2) (now : Nat) (s : State) (h_s : Canon pq s) :
    CanonRes pq (execSdtAckRx hub now s) := by
  unfold execSdtAckRx; (try simp only [pick_eq, pickRes_eq]); grind (ematch := 40) (gen := 60) (splits := 20) -lia -linarith -ring -ac -order -mbtc -funCC [State.sdtCtl_canon, State.hubNow_canon, State.sdtPop_canon, State.modMsg_canon, State.sdtNotFlying_canon, State.modConn_canon, State.sdtGiveUp_canon, canon_pick, canon_pickRes, canon_next, canon_refused, canon_foldl, canon_foldl1, canon_foldlD]

theorem execSdtBaseReset_canon {pq : List Instr} (conn : Fin 65536) (path : Fin 256) (s : State) (h_s : Canon pq s) :
    CanonRes pq (execSdtBaseReset conn path s) := by
  unfold execSdtBaseReset; (try simp only [pick_eq, pickRes_eq]); grind (ematch := 40) (gen := 60) (splits := 20) -lia -linarith -ring -ac -order -mbtc -funCC [State.modConn_canon, canon_pick, canon_pickRes, canon_next, canon_refused, canon_foldl, canon_foldl1, canon_foldlD]

theorem execSdtCloseDone_canon {pq : List Instr} (conn : Fin 65536) (s : State) (h_s : Canon pq s) :
    CanonRes pq (execSdtCloseDone conn s) := by
  unfold execSdtCloseDone; (try simp only [pick_eq, pickRes_eq]); grind (ematch := 40) (gen := 60) (splits := 20) -lia -linarith -ring -ac -order -mbtc -funCC [State.connFree_canon, canon_pick, canon_pickRes, canon_next, canon_refused, canon_foldl, canon_foldl1, canon_foldlD]

theorem execSdtCloseRx_canon {pq : List Instr} (hub : Fin 2) (s : State) (h_s : Canon pq s) :
    CanonRes pq (execSdtCloseRx hub s) := by
  unfold execSdtCloseRx; (try simp only [pick_eq, pickRes_eq]); grind (ematch := 40) (gen := 60) (splits := 20) -lia -linarith -ring -ac -order -mbtc -funCC [State.sdtCtl_canon, State.sdtPop_canon, State.connFail_canon, canon_pick, canon_pickRes, canon_next, canon_refused, canon_foldl, canon_foldl1, canon_foldlD]

theorem execSdtConnClose_canon {pq : List Instr} (hub : Fin 2) (page : Fin 64) (s : State) (h_s : Canon pq s) :
    CanonRes pq (execSdtConnClose hub page s) := by
  unfold execSdtConnClose; (try simp only [pick_eq, pickRes_eq]); grind (ematch := 40) (gen := 60) (splits := 20) -lia -linarith -ring -ac -order -mbtc -funCC [withMsg_canon, State.answer_canon, State.modConn_canon, State.connFail_canon, canon_pick, canon_pickRes, canon_next, canon_refused, canon_foldl, canon_foldl1, canon_foldlD]

theorem execSdtConnOpen_canon {pq : List Instr} (hub : Fin 2) (page : Fin 64) (s : State) (h_s : Canon pq s) :
    CanonRes pq (execSdtConnOpen hub page s) := by
  unfold execSdtConnOpen; (try simp only [pick_eq, pickRes_eq]); grind (ematch := 40) (gen := 60) (splits := 20) -lia -linarith -ring -ac -order -mbtc -funCC [withMsg_canon, State.answer_canon, State.sdtCount_canon, State.setConn_canon, canon_pick, canon_pickRes, canon_next, canon_refused, canon_foldl, canon_foldl1, canon_foldlD]

theorem execSdtDataRx_canon {pq : List Instr} (hub : Fin 2) (now : Nat) (parity : Option (Fin 16)) (host : HostWrite) (s : State) (h_s : Canon pq s) :
    CanonRes pq (execSdtDataRx hub now parity host s) := by
  unfold execSdtDataRx; (try simp only [pick_eq, pickRes_eq]); grind (ematch := 40) (gen := 60) (splits := 20) -lia -linarith -ring -ac -order -mbtc -funCC [orHeld_canon, State.hubNow_canon, State.sdtPop_canon, State.sdtAnswer_canon, State.sdtBadHdr_canon, State.sdtNoConn_canon, State.sdtStale_canon, State.bump_canon, State.sdtCount_canon, State.putRmsg_canon, State.sdtPeer_canon, State.pipeOp_canon, State.place_canon, State.pipeParity_canon, State.bucket_canon, State.err_canon, State.tagFail_canon, State.connFail_canon, canon_pick, canon_pickRes, canon_next, canon_refused, canon_foldl, canon_foldl1, canon_foldlD]

theorem execSdtEntryTake_canon {pq : List Instr} (conn : Fin 65536) (s : State) (h_s : Canon pq s) :
    CanonRes pq (execSdtEntryTake conn s) := by
  unfold execSdtEntryTake; (try simp only [pick_eq, pickRes_eq]); grind (ematch := 40) (gen := 60) (splits := 20) -lia -linarith -ring -ac -order -mbtc -funCC [State.learn_canon, State.readMem_canon, State.setConn_canon, canon_pick, canon_pickRes, canon_next, canon_refused, canon_foldl, canon_foldl1, canon_foldlD]

theorem execSdtFlush_canon {pq : List Instr} (conn : Fin 65536) (s : State) (h_s : Canon pq s) :
    CanonRes pq (execSdtFlush conn s) := by
  unfold execSdtFlush; (try simp only [pick_eq, pickRes_eq]); grind (ematch := 40) (gen := 60) (splits := 20) -lia -linarith -ring -ac -order -mbtc -funCC [State.takeMsn_canon, canon_pick, canon_pickRes, canon_next, canon_refused, canon_foldl, canon_foldl1, canon_foldlD]

theorem execSdtKeyGrant_canon {pq : List Instr} (hub : Fin 2) (page : Fin 64) (s : State) (h_s : Canon pq s) :
    CanonRes pq (execSdtKeyGrant hub page s) := by
  unfold execSdtKeyGrant; (try simp only [pick_eq, pickRes_eq]); grind (ematch := 40) (gen := 60) (splits := 20) -lia -linarith -ring -ac -order -mbtc -funCC [withMsg_canon, State.answer_canon, State.setSkey_canon, State.draw_canon, canon_pick, canon_pickRes, canon_next, canon_refused, canon_foldl, canon_foldl1, canon_foldlD]

theorem execSdtKeyRevoke_canon {pq : List Instr} (hub : Fin 2) (page : Fin 64) (s : State) (h_s : Canon pq s) :
    CanonRes pq (execSdtKeyRevoke hub page s) := by
  unfold execSdtKeyRevoke; (try simp only [pick_eq, pickRes_eq]); grind (ematch := 40) (gen := 60) (splits := 20) -lia -linarith -ring -ac -order -mbtc -funCC [withMsg_canon, State.answer_canon, State.revokeKey_canon, canon_pick, canon_pickRes, canon_next, canon_refused, canon_foldl, canon_foldl1, canon_foldlD]

theorem execSdtLossTimeout_canon {pq : List Instr} (conn : Fin 65536) (msn : BitVec 32) (index : Nat) (now : Nat) (s : State) (h_s : Canon pq s) :
    CanonRes pq (execSdtLossTimeout conn msn index now s) := by
  unfold execSdtLossTimeout; (try simp only [pick_eq, pickRes_eq]); grind (ematch := 40) (gen := 60) (splits := 20) -lia -linarith -ring -ac -order -mbtc -funCC [State.modMsg_canon, State.hubNow_canon, State.sdtGiveUp_canon, canon_pick, canon_pickRes, canon_next, canon_refused, canon_foldl, canon_foldl1, canon_foldlD]

theorem execSdtMsgDeliver_canon {pq : List Instr} (conn : Fin 65536) (host : HostRead) (s : State) (h_s : Canon pq s) :
    CanonRes pq (execSdtMsgDeliver conn host s) := by
  unfold execSdtMsgDeliver; (try simp only [pick_eq, pickRes_eq]); grind (ematch := 40) (gen := 60) (splits := 20) -lia -linarith -ring -ac -order -mbtc -funCC [orHeld_canon, waitSliceTag_canon, State.sliceRead_canon, State.writeMem_canon, State.modConn_canon, State.sdtCount_canon, State.sigHub_canon, State.sdtAnswer_canon, canon_pick, canon_pickRes, canon_next, canon_refused, canon_foldl, canon_foldl1, canon_foldlD]

theorem execSdtNackRx_canon {pq : List Instr} (hub : Fin 2) (now : Nat) (s : State) (h_s : Canon pq s) :
    CanonRes pq (execSdtNackRx hub now s) := by
  unfold execSdtNackRx; (try simp only [pick_eq, pickRes_eq]); grind (ematch := 40) (gen := 60) (splits := 20) -lia -linarith -ring -ac -order -mbtc -funCC [State.sdtCtl_canon, State.hubNow_canon, State.sdtPop_canon, State.sdtNotFlying_canon, State.sdtCount_canon, State.connFail_canon, State.modConn_canon, State.sdtGiveUp_canon, State.modMsg_canon, canon_pick, canon_pickRes, canon_next, canon_refused, canon_foldl, canon_foldl1, canon_foldlD]

theorem execSdtPacketTx_canon {pq : List Instr} (conn : Fin 65536) (now : Nat) (slice : Fin 256) (host : HostRead) (parity : Option (Fin 16)) (s : State) (h_s : Canon pq s) :
    CanonRes pq (execSdtPacketTx conn now slice host parity s) := by
  unfold execSdtPacketTx; (try simp only [pick_eq, pickRes_eq]); grind (ematch := 40) (gen := 60) (splits := 20) -lia -linarith -ring -ac -order -mbtc -funCC [State.offer_canon, State.setConn_canon, waitSliceTag_canon, State.modConn_canon, State.modMsg_canon, State.served_canon, State.lineRead_canon, State.pipeOp_canon, State.bump_canon, State.sdtGiveUp_canon, State.pipeParity_canon, canon_pick, canon_pickRes, canon_next, canon_refused, canon_foldl, canon_foldl1, canon_foldlD]

theorem execSdtSendRecord_canon {pq : List Instr} (conn : Fin 65536) (s : State) (h_s : Canon pq s) :
    CanonRes pq (execSdtSendRecord conn s) := by
  unfold execSdtSendRecord; (try simp only [pick_eq, pickRes_eq]); grind (ematch := 40) (gen := 60) (splits := 20) -lia -linarith -ring -ac -order -mbtc -funCC [orHeld_canon, State.writeMem_canon, State.modConn_canon, State.sigHub_canon, State.sdtCount_canon, canon_pick, canon_pickRes, canon_next, canon_refused, canon_foldl, canon_foldl1, canon_foldlD]

theorem execSdtWait_canon {pq : List Instr} (conn : Fin 65536) (s : State) (h_s : Canon pq s) :
    CanonRes pq (execSdtWait conn s) := by
  unfold execSdtWait; (try simp only [pick_eq, pickRes_eq]); grind (ematch := 40) (gen := 60) (splits := 20) -lia -linarith -ring -ac -order -mbtc -funCC [State.armWatch_canon, State.modMsg_canon, State.setAnswered_canon, State.modConn_canon, canon_pick, canon_pickRes, canon_next, canon_refused, canon_foldl, canon_foldl1, canon_foldlD]

theorem execSdtWaitFired_canon {pq : List Instr} (conn : Fin 65536) (s : State) (h_s : Canon pq s) :
    CanonRes pq (execSdtWaitFired conn s) := by
  unfold execSdtWaitFired; (try simp only [pick_eq, pickRes_eq]); grind (ematch := 40) (gen := 60) (splits := 20) -lia -linarith -ring -ac -order -mbtc -funCC [State.setAnswered_canon, State.modMsg_canon, State.modConn_canon, canon_pick, canon_pickRes, canon_next, canon_refused, canon_foldl, canon_foldl1, canon_foldlD]

theorem execSdtWrite_canon {pq : List Instr} (conn : Fin 65536) (s : State) (h_s : Canon pq s) :
    CanonRes pq (execSdtWrite conn s) := by
  unfold execSdtWrite; (try simp only [pick_eq, pickRes_eq]); grind (ematch := 40) (gen := 60) (splits := 20) -lia -linarith -ring -ac -order -mbtc -funCC [State.modMsg_canon, State.takeMsn_canon, canon_pick, canon_pickRes, canon_next, canon_refused, canon_foldl, canon_foldl1, canon_foldlD]

end Sys2Proof.Machine
end

