-- ==== Sys2Proof/Laws/CanonStorage.lean ====
section
/-! SUPPORT. Every function of Machine/Storage.lean keeps the queue and the canonical form of registers and memory. -/
set_option linter.unusedSimpArgs false
namespace Sys2Proof.Machine
open Sys2Proof

theorem State.toSlot_canon {pq : List Instr} (s : State) (port : Nat) (st : Nat) (f : Slot → Slot) (h_s : Canon pq s) :
    Canon pq (State.toSlot s port st f) := by
  unfold State.toSlot; (try simp only [pick_eq, pickRes_eq]); grind (ematch := 40) (gen := 60) (splits := 20) -lia -linarith -ring -ac -order -mbtc -funCC [State.modSlot_canon, State.wr_canon, canon_pick, canon_pickRes, canon_next, canon_refused, canon_foldl, canon_foldl1, canon_foldlD]

theorem State.slotOn_canon {pq : List Instr} (s : State) (port : Nat) (h_s : Canon pq s) :
    Canon pq (State.slotOn s port) := by
  unfold State.slotOn; (try simp only [pick_eq, pickRes_eq]); grind (ematch := 40) (gen := 60) (splits := 20) -lia -linarith -ring -ac -order -mbtc -funCC [State.toSlot_canon, canon_pick, canon_pickRes, canon_next, canon_refused, canon_foldl, canon_foldl1, canon_foldlD]

theorem State.slotOff_canon {pq : List Instr} (s : State) (port : Nat) (h_s : Canon pq s) :
    Canon pq (State.slotOff s port) := by
  unfold State.slotOff; (try simp only [pick_eq, pickRes_eq]); grind (ematch := 40) (gen := 60) (splits := 20) -lia -linarith -ring -ac -order -mbtc -funCC [State.toSlot_canon, State.out_canon, State.wr_canon, canon_pick, canon_pickRes, canon_next, canon_refused, canon_foldl, canon_foldl1, canon_foldlD]

theorem execPrpCtlEject_canon {pq : List Instr} (port : Fin 16) (s : State) (h_s : Canon pq s) :
    CanonRes pq (execPrpCtlEject port s) := by
  unfold execPrpCtlEject; (try simp only [pick_eq, pickRes_eq]); grind (ematch := 40) (gen := 60) (splits := 20) -lia -linarith -ring -ac -order -mbtc -funCC [withPage_canon, State.slotOff_canon, canon_pick, canon_pickRes, canon_next, canon_refused, canon_foldl, canon_foldl1, canon_foldlD]

theorem execPrpCtlPower_canon {pq : List Instr} (port : Fin 16) (s : State) (h_s : Canon pq s) :
    CanonRes pq (execPrpCtlPower port s) := by
  unfold execPrpCtlPower; (try simp only [pick_eq, pickRes_eq]); grind (ematch := 40) (gen := 60) (splits := 20) -lia -linarith -ring -ac -order -mbtc -funCC [withPage_canon, State.slotOn_canon, canon_pick, canon_pickRes, canon_next, canon_refused, canon_foldl, canon_foldl1, canon_foldlD]

theorem State.modCmd_canon {pq : List Instr} (s : State) (link : Nat) (num : Nat) (f : NvCmd → NvCmd) (h_s : Canon pq s) :
    Canon pq (State.modCmd s link num f) := by
  unfold State.modCmd; (try simp only [pick_eq, pickRes_eq]); grind (ematch := 40) (gen := 60) (splits := 20) -lia -linarith -ring -ac -order -mbtc -funCC [State.modNvme_canon, canon_pick, canon_pickRes, canon_next, canon_refused, canon_foldl, canon_foldl1, canon_foldlD]

theorem State.sendMember_canon {pq : List Instr} (s : State) (link : Nat) (num : Nat) (m : Member) (opc : BitVec 8) (lba : Nat) (slba : Nat) (nlb : Nat) (data : Bytes) (fua : optParam Bool false) (h_s : Canon pq s) :
    Canon pq (State.sendMember s link num m opc lba slba nlb data fua) := by
  unfold State.sendMember; (try simp only [pick_eq, pickRes_eq]); grind (ematch := 40) (gen := 60) (splits := 20) -lia -linarith -ring -ac -order -mbtc -funCC [State.setSlot_canon, State.step1_canon, State.modCmd_canon, State.out_canon, canon_pick, canon_pickRes, canon_next, canon_refused, canon_foldl, canon_foldl1, canon_foldlD]

theorem State.shnSettle_canon {pq : List Instr} (s : State) (link : Nat) (h_s : Canon pq s) :
    Canon pq (State.shnSettle s link) := by
  unfold State.shnSettle; (try simp only [pick_eq, pickRes_eq]); grind (ematch := 40) (gen := 60) (splits := 20) -lia -linarith -ring -ac -order -mbtc -funCC [State.modNvme_canon, State.lockTake_canon, State.sendMember_canon, canon_pick, canon_pickRes, canon_next, canon_refused, canon_foldl, canon_foldl1, canon_foldlD]

theorem State.endCmd_canon {pq : List Instr} (s : State) (link : Nat) (c : NvCmd) (status : Nat) (h_s : Canon pq s) :
    Canon pq (State.endCmd s link c status) := by
  unfold State.endCmd; (try simp only [pick_eq, pickRes_eq]); grind (ematch := 40) (gen := 60) (splits := 20) -lia -linarith -ring -ac -order -mbtc -funCC [State.postCqe_canon, State.lockDrop_canon, State.modNvme_canon, State.shnSettle_canon, canon_pick, canon_pickRes, canon_next, canon_refused, canon_foldl, canon_foldl1, canon_foldlD]

theorem State.memberDone_canon {pq : List Instr} (s : State) (port : Nat) (e : SsdCmd) (status : Nat) (h_s : Canon pq s) :
    Canon pq (State.memberDone s port e status) := by
  unfold State.memberDone; (try simp only [pick_eq, pickRes_eq]); grind (ematch := 40) (gen := 60) (splits := 20) -lia -linarith -ring -ac -order -mbtc -funCC [State.modCmd_canon, State.endCmd_canon, canon_pick, canon_pickRes, canon_next, canon_refused, canon_foldl, canon_foldl1, canon_foldlD]

theorem State.surprise_canon {pq : List Instr} (s : State) (port : Nat) (h_s : Canon pq s) :
    Canon pq (State.surprise s port) := by
  unfold State.surprise; (try simp only [pick_eq, pickRes_eq]); grind (ematch := 40) (gen := 60) (splits := 20) -lia -linarith -ring -ac -order -mbtc -funCC [State.modSlot_canon, State.wr_canon, State.memberDone_canon, State.nsChanged_canon, State.setNs_canon, State.err_canon, canon_pick, canon_pickRes, canon_next, canon_refused, canon_foldl, canon_foldl1, canon_foldlD]

theorem State.dropSsd_canon {pq : List Instr} (s : State) (port : Nat) (cid : Nat) (h_s : Canon pq s) :
    Canon pq (State.dropSsd s port cid) := by
  unfold State.dropSsd; (try simp only [pick_eq, pickRes_eq]); grind (ematch := 40) (gen := 60) (splits := 20) -lia -linarith -ring -ac -order -mbtc -funCC [State.modSlot_canon, canon_pick, canon_pickRes, canon_next, canon_refused, canon_foldl, canon_foldl1, canon_foldlD]

theorem State.getVolatile_canon {pq : List Instr} (s : State) (nsid : Nat) (n : Ns) (lba : Nat) (count : Nat) (h_s : Canon pq s) :
    Canon pq (State.getVolatile s nsid n lba count).state := by
  unfold State.getVolatile; (try simp only [pick_eq, pickRes_eq]); grind (ematch := 40) (gen := 60) (splits := 20) -lia -linarith -ring -ac -order -mbtc -funCC [State.readMem_canon, canon_pick, canon_pickRes, canon_next, canon_refused, canon_foldl, canon_foldl1, canon_foldlD, canon_foldlB]

theorem State.parityOf_canon {pq : List Instr} (s : State) (link : Nat) (f : Option PipeFault) (h_s : Canon pq s) :
    Canon pq (State.parityOf s link f) := by
  unfold State.parityOf; (try simp only [pick_eq, pickRes_eq]); grind (ematch := 40) (gen := 60) (splits := 20) -lia -linarith -ring -ac -order -mbtc -funCC [State.pipeParity_canon, canon_pick, canon_pickRes, canon_next, canon_refused, canon_foldl, canon_foldl1, canon_foldlD]

theorem State.putVolatile_canon {pq : List Instr} (s : State) (nsid : Nat) (n : Ns) (lba : Nat) (data : Bytes) (bad : List Nat) (h_s : Canon pq s) :
    Canon pq (State.putVolatile s nsid n lba data bad).1 := by
  unfold State.putVolatile; (try simp only [pick_eq, pickRes_eq]); grind (ematch := 40) (gen := 60) (splits := 20) -lia -linarith -ring -ac -order -mbtc -funCC [State.writeMem_canon, canon_pick, canon_pickRes, canon_next, canon_refused, canon_foldl, canon_foldl1, canon_foldlD]

theorem State.ioWrite_canon {pq : List Instr} (s : State) (link : Nat) (c : NvCmd) (n : Ns) (data : Bytes) (bad : List Nat) (parity : Option PipeFault) (h_s : Canon pq s) :
    Canon pq (State.ioWrite s link c n data bad parity) := by
  unfold State.ioWrite; (try simp only [pick_eq, pickRes_eq]); grind (ematch := 40) (gen := 60) (splits := 20) -lia -linarith -ring -ac -order -mbtc -funCC [State.bump_canon, State.parityOf_canon, State.pipeBlocks_canon, State.putVolatile_canon, State.endCmd_canon, State.modCmd_canon, State.sendMember_canon, canon_pick, canon_pickRes, canon_next, canon_refused, canon_foldl, canon_foldl1, canon_foldlD]

theorem State.showNs_canon {pq : List Instr} (s : State) (h_s : Canon pq s) :
    Canon pq (State.showNs s) := by
  unfold State.showNs; (try simp only [pick_eq, pickRes_eq]); grind (ematch := 40) (gen := 60) (splits := 20) -lia -linarith -ring -ac -order -mbtc -funCC [State.wr_canon, canon_pick, canon_pickRes, canon_next, canon_refused, canon_foldl, canon_foldl1, canon_foldlD]

theorem State.nsSettle_canon {pq : List Instr} (s : State) (nsid : Nat) (h_s : Canon pq s) :
    Canon pq (State.nsSettle s nsid) := by
  unfold State.nsSettle; (try simp only [pick_eq, pickRes_eq]); grind (ematch := 40) (gen := 60) (splits := 20) -lia -linarith -ring -ac -order -mbtc -funCC [State.answer_canon, State.nsChanged_canon, State.showNs_canon, State.setNs_canon, canon_pick, canon_pickRes, canon_next, canon_refused, canon_foldl, canon_foldl1, canon_foldlD]

theorem State.readVolatile_canon {pq : List Instr} (s : State) (link : Nat) (c : NvCmd) (n : Ns) (parity : Option PipeFault) (h_s : Canon pq s) :
    Canon pq (State.readVolatile s link c n parity).state := by
  unfold State.readVolatile; (try simp only [pick_eq, pickRes_eq]); grind (ematch := 40) (gen := 60) (splits := 20) -lia -linarith -ring -ac -order -mbtc -funCC [State.getVolatile_canon, State.pipeBlocks_canon, State.parityOf_canon, State.bump_canon, canon_pick, canon_pickRes, canon_next, canon_refused, canon_foldl, canon_foldl1, canon_foldlD, canon_foldlB]

theorem State.returnNs_canon {pq : List Instr} (s : State) (h_s : Canon pq s) :
    Canon pq (State.returnNs s) := by
  unfold State.returnNs; (try simp only [pick_eq, pickRes_eq]); grind (ematch := 40) (gen := 60) (splits := 20) -lia -linarith -ring -ac -order -mbtc -funCC [State.nsChanged_canon, State.setNs_canon, canon_pick, canon_pickRes, canon_next, canon_refused, canon_foldl, canon_foldl1, canon_foldlD]

theorem State.sendReads_canon {pq : List Instr} (s : State) (link : Nat) (c : NvCmd) (n : Ns) (h_s : Canon pq s) :
    Canon pq (State.sendReads s link c n) := by
  unfold State.sendReads; (try simp only [pick_eq, pickRes_eq]); grind (ematch := 40) (gen := 60) (splits := 20) -lia -linarith -ring -ac -order -mbtc -funCC [State.sendMember_canon, canon_pick, canon_pickRes, canon_next, canon_refused, canon_foldl, canon_foldl1, canon_foldlD]

theorem State.ssdReset_canon {pq : List Instr} (s : State) (port : Nat) (h_s : Canon pq s) :
    Canon pq (State.ssdReset s port) := by
  unfold State.ssdReset; (try simp only [pick_eq, pickRes_eq]); grind (ematch := 40) (gen := 60) (splits := 20) -lia -linarith -ring -ac -order -mbtc -funCC [State.out_canon, State.err_canon, State.bump_canon, State.modSlot_canon, State.step1_canon, canon_pick, canon_pickRes, canon_next, canon_refused, canon_foldl, canon_foldl1, canon_foldlD]

theorem State.ssdViolation_canon {pq : List Instr} (s : State) (port : Nat) (h_s : Canon pq s) :
    Canon pq (State.ssdViolation s port) := by
  unfold State.ssdViolation; (try simp only [pick_eq, pickRes_eq]); grind (ematch := 40) (gen := 60) (splits := 20) -lia -linarith -ring -ac -order -mbtc -funCC [State.err_canon, State.bump_canon, State.bucket_canon, State.partner_canon, canon_pick, canon_pickRes, canon_next, canon_refused, canon_foldl, canon_foldl1, canon_foldlD]

theorem State.toHost_canon {pq : List Instr} (s : State) (link : Nat) (c : NvCmd) (bs : Nat) (first : Nat) (data : Bytes) (bad : List Nat) (h_s : Canon pq s) :
    Canon pq (State.toHost s link c bs first data bad) := by
  unfold State.toHost; (try simp only [pick_eq, pickRes_eq]); grind (ematch := 40) (gen := 60) (splits := 20) -lia -linarith -ring -ac -order -mbtc -funCC [State.toPrps_canon, canon_pick, canon_pickRes, canon_next, canon_refused, canon_foldl, canon_foldl1, canon_foldlD]

theorem State.undefinedEnds_canon {pq : List Instr} (s : State) (port : Nat) (cid : Nat) (h_s : Canon pq s) :
    Canon pq (State.undefinedEnds s port cid) := by
  unfold State.undefinedEnds; (try simp only [pick_eq, pickRes_eq]); grind (ematch := 40) (gen := 60) (splits := 20) -lia -linarith -ring -ac -order -mbtc -funCC [State.memberDone_canon, State.dropSsd_canon, canon_pick, canon_pickRes, canon_next, canon_refused, canon_foldl, canon_foldl1, canon_foldlD]

theorem execButtonPress_canon {pq : List Instr} (port : Fin 16) (s : State) (h_s : Canon pq s) :
    CanonRes pq (execButtonPress port s) := by
  unfold execButtonPress; (try simp only [pick_eq, pickRes_eq]); grind (ematch := 40) (gen := 60) (splits := 20) -lia -linarith -ring -ac -order -mbtc -funCC [State.modSlot_canon, State.toSlot_canon, State.err_canon, canon_pick, canon_pickRes, canon_next, canon_refused, canon_foldl, canon_foldl1, canon_foldlD]

theorem execCompare_canon {pq : List Instr} (link : Fin 2) (num : Nat) (read : HostRead) (parity : Option PipeFault) (s : State) (h_s : Canon pq s) :
    CanonRes pq (execCompare link num read parity s) := by
  unfold execCompare; (try simp only [pick_eq, pickRes_eq]); grind (ematch := 40) (gen := 60) (splits := 20) -lia -linarith -ring -ac -order -mbtc -funCC [waitTag_canon, State.fromPrps_canon, State.endCmd_canon, State.readVolatile_canon, State.sendReads_canon, State.modCmd_canon, canon_pick, canon_pickRes, canon_next, canon_refused, canon_foldl, canon_foldl1, canon_foldlD, canon_foldlB]

theorem execDatasetManagement_canon {pq : List Instr} (link : Fin 2) (num : Nat) (parity : Option PipeFault) (s : State) (h_s : Canon pq s) :
    CanonRes pq (execDatasetManagement link num parity s) := by
  unfold execDatasetManagement; (try simp only [pick_eq, pickRes_eq]); grind (ematch := 40) (gen := 60) (splits := 20) -lia -linarith -ring -ac -order -mbtc -funCC [orHeld_canon, State.endCmd_canon, State.parityOf_canon, State.pipeBlocks_canon, State.putVolatile_canon, State.sendMember_canon, canon_pick, canon_pickRes, canon_next, canon_refused, canon_foldl, canon_foldl1, canon_foldlD]

theorem execEjectTimeout_canon {pq : List Instr} (port : Fin 16) (s : State) (h_s : Canon pq s) :
    CanonRes pq (execEjectTimeout port s) := by
  unfold execEjectTimeout; (try simp only [pick_eq, pickRes_eq]); grind (ematch := 40) (gen := 60) (splits := 20) -lia -linarith -ring -ac -order -mbtc -funCC [State.slotOff_canon, canon_pick, canon_pickRes, canon_next, canon_refused, canon_foldl, canon_foldl1, canon_foldlD]

theorem execNsCreate_canon {pq : List Instr} (hub : Fin 2) (page : Fin 64) (backing : List Backing) (s : State) (h_s : Canon pq s) :
    CanonRes pq (execNsCreate hub page backing s) := by
  unfold execNsCreate; (try simp only [pick_eq, pickRes_eq]); grind (ematch := 40) (gen := 60) (splits := 20) -lia -linarith -ring -ac -order -mbtc -funCC [withMsg_canon, State.answer_canon, State.showNs_canon, State.setNs_canon, State.putVolatile_canon, State.pipeBlocks_canon, State.nsChanged_canon, canon_pick, canon_pickRes, canon_next, canon_refused, canon_foldl, canon_foldl1, canon_foldlD]

theorem execNsDelete_canon {pq : List Instr} (hub : Fin 2) (page : Fin 64) (s : State) (h_s : Canon pq s) :
    CanonRes pq (execNsDelete hub page s) := by
  unfold execNsDelete; (try simp only [pick_eq, pickRes_eq]); grind (ematch := 40) (gen := 60) (splits := 20) -lia -linarith -ring -ac -order -mbtc -funCC [State.nsSettle_canon, withMsg_canon, State.answer_canon, State.setNs_canon, canon_pick, canon_pickRes, canon_next, canon_refused, canon_foldl, canon_foldl1, canon_foldlD]

theorem execNvmeCcShn_canon {pq : List Instr} (link : Fin 2) (s : State) (h_s : Canon pq s) :
    CanonRes pq (execNvmeCcShn link s) := by
  unfold execNvmeCcShn; (try simp only [pick_eq, pickRes_eq]); grind (ematch := 40) (gen := 60) (splits := 20) -lia -linarith -ring -ac -order -mbtc -funCC [State.notServed_canon, State.shnSettle_canon, State.modNvme_canon, canon_pick, canon_pickRes, canon_next, canon_refused, canon_foldl, canon_foldl1, canon_foldlD]

theorem execNvmeCmdFetch_canon {pq : List Instr} (link : Fin 2) (sq : Fin 16385) (c : IoCmd) (s : State) (h_s : Canon pq s) :
    CanonRes pq (execNvmeCmdFetch link sq c s) := by
  unfold execNvmeCmdFetch; (try simp only [pick_eq, pickRes_eq]); grind (ematch := 40) (gen := 60) (splits := 20) -lia -linarith -ring -ac -order -mbtc -funCC [State.bump_canon, State.postCqe_canon, State.sqAdvance_canon, State.draw_canon, State.modNvme_canon, State.lockTake_canon, canon_pick, canon_pickRes, canon_next, canon_refused, canon_foldl, canon_foldl1, canon_foldlD]

theorem execNvmeCmdStart_canon {pq : List Instr} (link : Fin 2) (num : Nat) (now : Nat) (s : State) (h_s : Canon pq s) :
    CanonRes pq (execNvmeCmdStart link num now s) := by
  unfold execNvmeCmdStart; (try simp only [pick_eq, pickRes_eq]); grind (ematch := 40) (gen := 60) (splits := 20) -lia -linarith -ring -ac -order -mbtc -funCC [State.modNvme_canon, State.served_canon, canon_pick, canon_pickRes, canon_next, canon_refused, canon_foldl, canon_foldl1, canon_foldlD]

theorem execNvmeFlush_canon {pq : List Instr} (link : Fin 2) (num : Nat) (s : State) (h_s : Canon pq s) :
    CanonRes pq (execNvmeFlush link num s) := by
  unfold execNvmeFlush; (try simp only [pick_eq, pickRes_eq]); grind (ematch := 40) (gen := 60) (splits := 20) -lia -linarith -ring -ac -order -mbtc -funCC [State.endCmd_canon, State.sendMember_canon, canon_pick, canon_pickRes, canon_next, canon_refused, canon_foldl, canon_foldl1, canon_foldlD]

theorem execNvmeRead_canon {pq : List Instr} (link : Fin 2) (num : Nat) (parity : Option PipeFault) (s : State) (h_s : Canon pq s) :
    CanonRes pq (execNvmeRead link num parity s) := by
  unfold execNvmeRead; (try simp only [pick_eq, pickRes_eq]); grind (ematch := 40) (gen := 60) (splits := 20) -lia -linarith -ring -ac -order -mbtc -funCC [State.readVolatile_canon, State.toHost_canon, State.endCmd_canon, State.sendReads_canon, canon_pick, canon_pickRes, canon_next, canon_refused, canon_foldl, canon_foldl1, canon_foldlD, canon_foldlB]

theorem execNvmeWrite_canon {pq : List Instr} (link : Fin 2) (num : Nat) (read : HostRead) (bad : List Nat) (parity : Option PipeFault) (s : State) (h_s : Canon pq s) :
    CanonRes pq (execNvmeWrite link num read bad parity s) := by
  unfold execNvmeWrite; (try simp only [pick_eq, pickRes_eq]); grind (ematch := 40) (gen := 60) (splits := 20) -lia -linarith -ring -ac -order -mbtc -funCC [waitTag_canon, orHeld_canon, State.fromPrps_canon, State.endCmd_canon, State.ioWrite_canon, canon_pick, canon_pickRes, canon_next, canon_refused, canon_foldl, canon_foldl1, canon_foldlD]

theorem execPresenceDetect_canon {pq : List Instr} (port : Fin 16) (s : State) (h_s : Canon pq s) :
    CanonRes pq (execPresenceDetect port s) := by
  unfold execPresenceDetect; (try simp only [pick_eq, pickRes_eq]); grind (ematch := 40) (gen := 60) (splits := 20) -lia -linarith -ring -ac -order -mbtc -funCC [State.slotOn_canon, canon_pick, canon_pickRes, canon_next, canon_refused, canon_foldl, canon_foldl1, canon_foldlD]

theorem execSlotLinkResult_canon {pq : List Instr} (port : Fin 16) (found : SlotFound) (s : State) (h_s : Canon pq s) :
    CanonRes pq (execSlotLinkResult port found s) := by
  unfold execSlotLinkResult; (try simp only [pick_eq, pickRes_eq]); grind (ematch := 40) (gen := 60) (splits := 20) -lia -linarith -ring -ac -order -mbtc -funCC [State.toSlot_canon, State.returnNs_canon, State.wr_canon, canon_pick, canon_pickRes, canon_next, canon_refused, canon_foldl, canon_foldl1, canon_foldlD]

theorem execSlotPowerTimer_canon {pq : List Instr} (port : Fin 16) (s : State) (h_s : Canon pq s) :
    CanonRes pq (execSlotPowerTimer port s) := by
  unfold execSlotPowerTimer; (try simp only [pick_eq, pickRes_eq]); grind (ematch := 40) (gen := 60) (splits := 20) -lia -linarith -ring -ac -order -mbtc -funCC [State.toSlot_canon, canon_pick, canon_pickRes, canon_next, canon_refused, canon_foldl, canon_foldl1, canon_foldlD]

theorem execSlotSample_canon {pq : List Instr} (port : Fin 16) (levels : BitVec 2) (s : State) (h_s : Canon pq s) :
    CanonRes pq (execSlotSample port levels s) := by
  unfold execSlotSample; (try simp only [pick_eq, pickRes_eq]); grind (ematch := 40) (gen := 60) (splits := 20) -lia -linarith -ring -ac -order -mbtc -funCC [State.setSlot_canon, canon_pick, canon_pickRes, canon_next, canon_refused, canon_foldl, canon_foldl1, canon_foldlD]

theorem execSsdCmdComplete_canon {pq : List Instr} (port : Fin 16) (cid : Nat) (status : BitVec 15) (data : List (BitVec 8)) (parity : Option PipeFault) (s : State) (h_s : Canon pq s) :
    CanonRes pq (execSsdCmdComplete port cid status data parity s) := by
  unfold execSsdCmdComplete; grind (ematch := 40) (gen := 60) (splits := 20) -lia -linarith -ring -ac -order -mbtc -funCC [State.ssdViolation_canon, State.dropSsd_canon, State.memberDone_canon, State.parityOf_canon, State.pipeBlocks_canon, State.bump_canon, State.toHost_canon, canon_pick, canon_pickRes, canon_next, canon_refused, canon_foldl, canon_foldl1, canon_foldlD]

theorem execSsdCmdTimeout_canon {pq : List Instr} (port : Fin 16) (cid : Nat) (s : State) (h_s : Canon pq s) :
    CanonRes pq (execSsdCmdTimeout port cid s) := by
  unfold execSsdCmdTimeout; (try simp only [pick_eq, pickRes_eq]); grind (ematch := 40) (gen := 60) (splits := 20) -lia -linarith -ring -ac -order -mbtc -funCC [State.partner_canon, State.bump_canon, State.ssdReset_canon, State.modSlot_canon, State.out_canon, canon_pick, canon_pickRes, canon_next, canon_refused, canon_foldl, canon_foldl1, canon_foldlD]

theorem execSsdCstsCfs_canon {pq : List Instr} (port : Fin 16) (s : State) (h_s : Canon pq s) :
    CanonRes pq (execSsdCstsCfs port s) := by
  unfold execSsdCstsCfs; (try simp only [pick_eq, pickRes_eq]); grind (ematch := 40) (gen := 60) (splits := 20) -lia -linarith -ring -ac -order -mbtc -funCC [State.ssdReset_canon, State.partner_canon, canon_pick, canon_pickRes, canon_next, canon_refused, canon_foldl, canon_foldl1, canon_foldlD]

theorem execSsdNotReady_canon {pq : List Instr} (port : Fin 16) (s : State) (h_s : Canon pq s) :
    CanonRes pq (execSsdNotReady port s) := by
  unfold execSsdNotReady; (try simp only [pick_eq, pickRes_eq]); grind (ematch := 40) (gen := 60) (splits := 20) -lia -linarith -ring -ac -order -mbtc -funCC [State.toSlot_canon, State.surprise_canon, canon_pick, canon_pickRes, canon_next, canon_refused, canon_foldl, canon_foldl1, canon_foldlD]

theorem execSsdViolation_canon {pq : List Instr} (port : Fin 16) (kind : SsdFault) (s : State) (h_s : Canon pq s) :
    CanonRes pq (execSsdViolation port kind s) := by
  unfold execSsdViolation; grind (ematch := 40) (gen := 60) (splits := 20) -lia -linarith -ring -ac -order -mbtc -funCC [State.ssdViolation_canon, State.undefinedEnds_canon, State.out_canon, canon_pick, canon_pickRes, canon_next, canon_refused, canon_foldl, canon_foldl1, canon_foldlD]

theorem execSurpriseRemoval_canon {pq : List Instr} (port : Fin 16) (linkDown : Bool) (s : State) (h_s : Canon pq s) :
    CanonRes pq (execSurpriseRemoval port linkDown s) := by
  unfold execSurpriseRemoval; (try simp only [pick_eq, pickRes_eq]); grind (ematch := 40) (gen := 60) (splits := 20) -lia -linarith -ring -ac -order -mbtc -funCC [State.surprise_canon, State.toSlot_canon, canon_pick, canon_pickRes, canon_next, canon_refused, canon_foldl, canon_foldl1, canon_foldlD]

theorem execWriteZeroes_canon {pq : List Instr} (link : Fin 2) (num : Nat) (parity : Option PipeFault) (s : State) (h_s : Canon pq s) :
    CanonRes pq (execWriteZeroes link num parity s) := by
  unfold execWriteZeroes; (try simp only [pick_eq, pickRes_eq]); grind (ematch := 40) (gen := 60) (splits := 20) -lia -linarith -ring -ac -order -mbtc -funCC [orHeld_canon, State.ioWrite_canon, canon_pick, canon_pickRes, canon_next, canon_refused, canon_foldl, canon_foldl1, canon_foldlD]

end Sys2Proof.Machine
end

