-- ==== Sys2Proof/Laws/CanonResets.lean ====
section
/-! SUPPORT. Every function of Machine/Resets.lean keeps the queue and the canonical form of registers and memory. -/
set_option linter.unusedSimpArgs false
namespace Sys2Proof.Machine
open Sys2Proof

theorem State.clearPage_canon {pq : List Instr} (s : State) (p : Page) (h_s : Canon pq s) : Canon pq (s.clearPage p) := by
  unfold State.clearPage
  exact canon_dels _ h_s (registers_wf_mapVals _ h_s.2.1)

theorem State.enterReset_canon {pq : List Instr} (s : State) (p : Page) (h_s : Canon pq s) :
    Canon pq (State.enterReset s p) := by
  unfold State.enterReset; (try simp only [pick_eq, pickRes_eq]); grind (ematch := 40) (gen := 60) (splits := 20) -lia -linarith -ring -ac -order -mbtc -funCC [State.wr_canon, State.leaveService_canon, canon_pick, canon_pickRes, canon_next, canon_refused, canon_foldl, canon_foldl1, canon_foldlD]

theorem State.resetUnit_canon {pq : List Instr} (s : State) (p : Page) (h_s : Canon pq s) :
    Canon pq (State.resetUnit s p) := by
  unfold State.resetUnit; (try simp only [pick_eq, pickRes_eq]); grind (ematch := 40) (gen := 60) (splits := 20) -lia -linarith -ring -ac -order -mbtc -funCC [State.setCore_canon, State.ackFence_canon, State.setCluster_canon, State.wr_canon, State.modDisOf_canon, State.disarmAll_canon, State.nvStop_canon, State.showNs_canon, State.toSlot_canon, State.surprise_canon, State.sdtCount_canon, State.resetLantern_canon, State.countSas_canon, State.countKeys_canon, State.setCphOf_canon, State.setClsOf_canon, State.modPort_canon, State.dropQps_canon, State.setMbx_canon, State.modTel_canon, canon_pick, canon_pickRes, canon_next, canon_refused, canon_foldl, canon_foldl1, canon_foldlD, canon_upd]

theorem State.leaveReset_canon {pq : List Instr} (s : State) (p : Page) (h_s : Canon pq s) :
    Canon pq (State.leaveReset s p) := by
  unfold State.leaveReset; (try simp only [pick_eq, pickRes_eq]); grind (ematch := 40) (gen := 60) (splits := 20) -lia -linarith -ring -ac -order -mbtc -funCC [State.resetUnit_canon, State.wr_canon, State.clearPage_canon, canon_pick, canon_pickRes, canon_next, canon_refused, canon_foldl, canon_foldl1, canon_foldlD]

end Sys2Proof.Machine
end

