-- ==== Sys2Proof/Laws/CanonPartitions.lean ====
section
/-! SUPPORT. Every function of Machine/Partitions.lean keeps the queue and the canonical form of registers and memory. -/
set_option linter.unusedSimpArgs false
namespace Sys2Proof.Machine
open Sys2Proof

theorem State.clearTelemetry_canon {pq : List Instr} (s : State) (p : Nat) (h_s : Canon pq s) :
    Canon pq (State.clearTelemetry s p) := by
  unfold State.clearTelemetry; (try simp only [pick_eq, pickRes_eq]); grind (ematch := 40) (gen := 60) (splits := 20) -lia -linarith -ring -ac -order -mbtc -funCC [State.wr64_canon, canon_pick, canon_pickRes, canon_next, canon_refused, canon_foldl, canon_foldl1, canon_foldlD]

theorem State.dropHoldings_canon {pq : List Instr} (s : State) (p : Nat) (h_s : Canon pq s) :
    Canon pq (State.dropHoldings s p) := by
  unfold State.dropHoldings; (try simp only [pick_eq, pickRes_eq]); grind (ematch := 40) (gen := 60) (splits := 20) -lia -linarith -ring -ac -order -mbtc -funCC [State.dropSkeys_canon, State.dropConns_canon, State.countKeys_canon, canon_pick, canon_pickRes, canon_next, canon_refused, canon_foldl, canon_foldl1, canon_foldlD, canon_upd]

theorem State.dropNvBinds_canon {pq : List Instr} (s : State) (l : Nat) (k : Nat) (h_s : Canon pq s) :
    Canon pq (State.dropNvBinds s l k) := by
  unfold State.dropNvBinds; (try simp only [pick_eq, pickRes_eq]); grind (ematch := 40) (gen := 60) (splits := 20) -lia -linarith -ring -ac -order -mbtc -funCC [State.showSqs_canon, State.modNvme_canon, State.dropSqCmds_canon, canon_pick, canon_pickRes, canon_next, canon_refused, canon_foldl, canon_foldl1, canon_foldlD]

theorem State.forgetAnswers_canon {pq : List Instr} (s : State) (p : Nat) (h_s : Canon pq s) :
    Canon pq (State.forgetAnswers s p) := by
  unfold State.forgetAnswers; (try simp only [pick_eq, pickRes_eq]); grind (ematch := 40) (gen := 60) (splits := 20) -lia -linarith -ring -ac -order -mbtc -funCC [State.setAnswered_canon, canon_pick, canon_pickRes, canon_next, canon_refused, canon_foldl, canon_foldl1, canon_foldlD]

theorem State.poisonPart_canon {pq : List Instr} (s : State) (p : Nat) (h_s : Canon pq s) :
    Canon pq (State.poisonPart s p) := by
  unfold State.poisonPart; (try simp only [pick_eq, pickRes_eq]); grind (ematch := 40) (gen := 60) (splits := 20) -lia -linarith -ring -ac -order -mbtc -funCC [State.setRegion_canon, canon_pick, canon_pickRes, canon_next, canon_refused, canon_foldl, canon_foldl1, canon_foldlD]

theorem execDlogSwap_canon {pq : List Instr} (hub : Fin 2) (page : Fin 64) (s : State) (h_s : Canon pq s) :
    CanonRes pq (execDlogSwap hub page s) := by
  unfold execDlogSwap; (try simp only [pick_eq, pickRes_eq]); grind (ematch := 40) (gen := 60) (splits := 20) -lia -linarith -ring -ac -order -mbtc -funCC [withMsg_canon, State.answer_canon, State.setSlice_canon, canon_pick, canon_pickRes, canon_next, canon_refused, canon_foldl, canon_foldl1, canon_foldlD]

theorem execPartCreate_canon {pq : List Instr} (hub : Fin 2) (page : Fin 64) (s : State) (h_s : Canon pq s) :
    CanonRes pq (execPartCreate hub page s) := by
  unfold execPartCreate; (try dsimp only); with_reducible repeat' first | assumption | exact canon_refused | apply canon_next | apply withMsg_canon | apply State.answer_canon | apply State.setPart_canon | apply State.enterReset_canon | apply canon_foldl | apply canon_foldl1 | intro _ _ _ | split

theorem execPartCreateDone_canon {pq : List Instr} (part : Fin 12) (s : State) (h_s : Canon pq s) :
    CanonRes pq (execPartCreateDone part s) := by
  unfold execPartCreateDone; (try simp only [pick_eq, pickRes_eq]); grind (ematch := 40) (gen := 60) (splits := 20) -lia -linarith -ring -ac -order -mbtc -funCC [State.wr_canon, State.clearTelemetry_canon, State.setPart_canon, State.answer_canon, canon_pick, canon_pickRes, canon_next, canon_refused, canon_foldl, canon_foldl1, canon_foldlD]

theorem execPartDestroy_canon {pq : List Instr} (hub : Fin 2) (page : Fin 64) (s : State) (h_s : Canon pq s) :
    CanonRes pq (execPartDestroy hub page s) := by
  unfold execPartDestroy; (try simp only [pick_eq, pickRes_eq]); grind (ematch := 40) (gen := 60) (splits := 20) -lia -linarith -ring -ac -order -mbtc -funCC [withMsg_canon, State.answer_canon, State.snapFail_canon, State.setPart_canon, State.syncPause_canon, State.setReg_canon, State.enterReset_canon, canon_pick, canon_pickRes, canon_next, canon_refused, canon_foldl, canon_foldl1, canon_foldlD]

theorem execPartDestroyDone_canon {pq : List Instr} (part : Fin 12) (s : State) (h_s : Canon pq s) :
    CanonRes pq (execPartDestroyDone part s) := by
  unfold execPartDestroyDone; (try simp only [pick_eq, pickRes_eq]); grind (ematch := 40) (gen := 60) (splits := 20) -lia -linarith -ring -ac -order -mbtc -funCC [State.poisonPart_canon, State.forgetAnswers_canon, State.dropHoldings_canon, State.setReg_canon, State.modCluster_canon, State.wr_canon, State.setSnapSt_canon, State.setSnap_canon, State.disarmStep_canon, State.releaseAll_canon, State.setPart_canon, State.answer_canon, canon_pick, canon_pickRes, canon_next, canon_refused, canon_foldl, canon_foldl1, canon_foldlD, canon_upd]

theorem execPartSetQos_canon {pq : List Instr} (hub : Fin 2) (page : Fin 64) (s : State) (h_s : Canon pq s) :
    CanonRes pq (execPartSetQos hub page s) := by
  unfold execPartSetQos; (try simp only [pick_eq, pickRes_eq]); grind (ematch := 40) (gen := 60) (splits := 20) -lia -linarith -ring -ac -order -mbtc -funCC [withMsg_canon, State.answer_canon, State.modPart_canon, canon_pick, canon_pickRes, canon_next, canon_refused, canon_foldl, canon_foldl1, canon_foldlD]

theorem execSliceCreate_canon {pq : List Instr} (hub : Fin 2) (page : Fin 64) (s : State) (h_s : Canon pq s) :
    CanonRes pq (execSliceCreate hub page s) := by
  unfold execSliceCreate; (try simp only [pick_eq, pickRes_eq]); grind (ematch := 40) (gen := 60) (splits := 20) -lia -linarith -ring -ac -order -mbtc -funCC [withMsg_canon, State.answer_canon, State.setSlice_canon, canon_pick, canon_pickRes, canon_next, canon_refused, canon_foldl, canon_foldl1, canon_foldlD]

theorem execSliceDestroy_canon {pq : List Instr} (hub : Fin 2) (page : Fin 64) (s : State) (h_s : Canon pq s) :
    CanonRes pq (execSliceDestroy hub page s) := by
  unfold execSliceDestroy; (try simp only [pick_eq, pickRes_eq]); grind (ematch := 40) (gen := 60) (splits := 20) -lia -linarith -ring -ac -order -mbtc -funCC [withMsg_canon, State.answer_canon, State.dropSkeys_canon, State.dropNvBinds_canon, State.dropQps_canon, State.settleSlices_canon, State.setSlice_canon, canon_pick, canon_pickRes, canon_next, canon_refused, canon_foldl, canon_foldl1, canon_foldlD, canon_upd]

end Sys2Proof.Machine
end

