-- ==== Sys2Proof/Laws/CanonKvPages.lean ====
section
/-! SUPPORT. Every function of Machine/KvPages.lean keeps the queue and the canonical form of registers and memory. -/
set_option linter.unusedSimpArgs false
namespace Sys2Proof.Machine
open Sys2Proof

theorem Lookup.entry_canon {pq : List Instr} (l : Lookup) (p : Nat) (i : Nat) (h : Nat) (x : Nat) (tokens : Bytes) (e : PfxEntry) (u : State × BitVec 8 × Bytes) (h_l : Canon pq l.state) (h_u : Canon pq u.1) :
    Canon pq (Lookup.entry l p i h x tokens e u).state := by
  unfold Lookup.entry; grind (ematch := 40) (gen := 60) (splits := 20) -lia -linarith -ring -ac -order -mbtc -funCC [State.bump_canon, canon_pick, canon_pickRes, canon_next, canon_refused, canon_foldl, canon_foldl1, canon_foldlD]

theorem State.readTokens_canon {pq : List Instr} (s : State) (p : Nat) (a : Nat) (h_s : Canon pq s) :
    Canon pq (State.readTokens s p a).1 := by
  unfold State.readTokens; (try simp only [pick_eq, pickRes_eq]); grind (ematch := 40) (gen := 60) (splits := 20) -lia -linarith -ring -ac -order -mbtc -funCC [State.readMem_canon, canon_pick, canon_pickRes, canon_next, canon_refused, canon_foldl, canon_foldl1, canon_foldlD]

theorem Lookup.way_canon {pq : List Instr} (l : Lookup) (p : Nat) (i : Nat) (h : Nat) (b : Nat) (tokens : Bytes) (k : State × BitVec 8 × List PfxEntry) (h_l : Canon pq l.state) (h_k : Canon pq k.1) :
    Canon pq (Lookup.way l p i h b tokens k).state := by
  unfold Lookup.way; (try simp only [pick_eq, pickRes_eq]); grind (ematch := 40) (gen := 60) (splits := 20) -lia -linarith -ring -ac -order -mbtc -funCC [Lookup.entry_canon, State.readTokens_canon, canon_pick, canon_pickRes, canon_next, canon_refused, canon_foldl, canon_foldl1, canon_foldlD]

theorem State.readBucket_canon {pq : List Instr} (s : State) (p b : Nat) (h_s : Canon pq s) : Canon pq (State.readBucket s p b).1 := by
  generalize hF : @State.readBucket = F
  delta State.readBucket at hF
  subst hF
  exact canon_fst (State.readMem_canon _ _ _ _ h_s)

theorem Lookup.block_canon {pq : List Instr} (l : Lookup) (p : Nat) (i : Nat) (t : State × BitVec 8 × Bytes) (h_l : Canon pq l.state) (h_t : Canon pq t.1) :
    Canon pq (Lookup.block l p i t).state := by
  unfold Lookup.block; grind (ematch := 40) (gen := 60) (splits := 20) -lia -linarith -ring -ac -order -mbtc -funCC [Lookup.way_canon, State.readBucket_canon, canon_pick, canon_pickRes, canon_next, canon_refused, canon_foldl, canon_foldl1, canon_foldlD]

theorem State.modRing_canon {pq : List Instr} (s : State) (k : RingKind) (p : Nat) (f : Ring → Ring) (h_s : Canon pq s) :
    Canon pq (State.modRing s k p f) := by
  unfold State.modRing; (try simp only [pick_eq, pickRes_eq]); grind (ematch := 40) (gen := 60) (splits := 20) -lia -linarith -ring -ac -order -mbtc -funCC [State.modMovRing_canon, State.modPfxRing_canon, canon_pick, canon_pickRes, canon_next, canon_refused, canon_foldl, canon_foldl1, canon_foldlD]

theorem State.showActive_canon {pq : List Instr} (s : State) (hub : Nat) (h_s : Canon pq s) :
    Canon pq (State.showActive s hub) := by
  unfold State.showActive; (try simp only [pick_eq, pickRes_eq]); grind (ematch := 40) (gen := 60) (splits := 20) -lia -linarith -ring -ac -order -mbtc -funCC [State.wr_canon, canon_pick, canon_pickRes, canon_next, canon_refused, canon_foldl, canon_foldl1, canon_foldlD]

theorem State.finishCmd_canon {pq : List Instr} (s : State) (k : RingKind) (p : Nat) (slot : Nat) (st : BitVec 8) (index : Nat) (result : Nat) (h_s : Canon pq s) :
    Canon pq (State.finishCmd s k p slot st index result) := by
  unfold State.finishCmd; (try simp only [pick_eq, pickRes_eq]); grind (ematch := 40) (gen := 60) (splits := 20) -lia -linarith -ring -ac -order -mbtc -funCC [State.modRing_canon, State.showActive_canon, canon_pick, canon_pickRes, canon_next, canon_refused, canon_foldl, canon_foldl1, canon_foldlD]

theorem State.writePt_canon {pq : List Instr} (s : State) (p : Nat) (hd : Nat) (e : PtEntry) (h_s : Canon pq s) :
    Canon pq (State.writePt s p hd e) := by
  generalize hF : @State.writePt = F; delta State.writePt at hF; subst hF; (try simp only [pick_eq, pickRes_eq]); grind (ematch := 40) (gen := 60) (splits := 20) -lia -linarith -ring -ac -order -mbtc -funCC [State.writeMem_canon, canon_pick, canon_pickRes, canon_next, canon_refused, canon_foldl, canon_foldl1, canon_foldlD]

theorem State.sendFence_canon {pq : List Instr} (s : State) (p : Nat) (slot : Nat) (h_s : Canon pq s) :
    Canon pq (State.sendFence s p slot) := by
  unfold State.sendFence; (try simp only [pick_eq, pickRes_eq]); grind (ematch := 40) (gen := 60) (splits := 20) -lia -linarith -ring -ac -order -mbtc -funCC [State.modMovRing_canon, canon_pick, canon_pickRes, canon_next, canon_refused, canon_foldl, canon_foldl1, canon_foldlD]

theorem State.moveEnd_canon {pq : List Instr} (p : Nat) (m : MovCmd) (e : PtEntry) (sat : Nat) (poisoned : Bool) (cmd : Option NvCmd) (out : State × BitVec 8) (h_out : Canon pq out.1) :
    Canon pq (State.moveEnd p m e sat poisoned cmd out) := by
  unfold State.moveEnd; grind (ematch := 40) (gen := 60) (splits := 20) -lia -linarith -ring -ac -order -mbtc -funCC [State.lockDrop_canon, State.bump_canon, State.finishCmd_canon, State.writePt_canon, State.modMovRing_canon, State.sendFence_canon, canon_pick, canon_pickRes, canon_next, canon_refused, canon_foldl, canon_foldl1, canon_foldlD]

theorem State.pageToSsd_canon {pq : List Instr} (s : State) (dest : Nat) (n : Nat) (d : PageData) (ssd : BitVec 15) (h_s : Canon pq s) :
    Canon pq (State.pageToSsd s dest n d ssd).1 := by
  unfold State.pageToSsd; grind (ematch := 40) (gen := 60) (splits := 20) -lia -linarith -ring -ac -order -mbtc -funCC [State.out_canon, State.pipeBlocks_canon, State.draw_canon, canon_pick, canon_pickRes, canon_next, canon_refused, canon_foldl, canon_foldl1, canon_foldlD]

theorem State.writePage_canon {pq : List Instr} (s : State) (r : Req) (a : Nat) (d : PageData) (h_s : Canon pq s) :
    Canon pq (State.writePage s r a d).1 := by
  unfold State.writePage; (try simp only [pick_eq, pickRes_eq]); grind (ematch := 40) (gen := 60) (splits := 20) -lia -linarith -ring -ac -order -mbtc -funCC [State.writeMem_canon, canon_pick, canon_pickRes, canon_next, canon_refused, canon_foldl, canon_foldl1, canon_foldlD]

theorem State.moveDest_canon {pq : List Instr} (p : Nat) (m : MovCmd) (tier : Nat) (n : Nat) (d : PageData) (ssd : BitVec 15) (src : State × PageData) (h_src : Canon pq src.1) :
    Canon pq (State.moveDest p m tier n d ssd src).1 := by
  unfold State.moveDest; grind (ematch := 40) (gen := 60) (splits := 20) -lia -linarith -ring -ac -order -mbtc -funCC [State.pageToSsd_canon, State.writePage_canon, canon_pick, canon_pickRes, canon_next, canon_refused, canon_foldl, canon_foldl1, canon_foldlD]

theorem State.moveCopy_canon {pq : List Instr} (p : Nat) (m : MovCmd) (r : MoveRead) (ssd : BitVec 15) (cmd : Option NvCmd) (src : State × PageData) (h_r : Canon pq r.state) (h_src : Canon pq src.1) :
    Canon pq (State.moveCopy p m r ssd cmd src) := by
  unfold State.moveCopy; grind (ematch := 40) (gen := 60) (splits := 20) -lia -linarith -ring -ac -order -mbtc -funCC [State.moveEnd_canon, State.moveDest_canon, canon_pick, canon_pickRes, canon_next, canon_refused, canon_foldl, canon_foldl1, canon_foldlD]

theorem State.readPage_canon {pq : List Instr} (s : State) (r : Req) (a : Nat) (n : Nat) (h_s : Canon pq s) :
    Canon pq (State.readPage s r a n).1 := by
  unfold State.readPage; (try simp only [pick_eq, pickRes_eq]); grind (ematch := 40) (gen := 60) (splits := 20) -lia -linarith -ring -ac -order -mbtc -funCC [State.readMem_canon, canon_pick, canon_pickRes, canon_next, canon_refused, canon_foldl, canon_foldl1, canon_foldlD]

theorem State.moveSource_canon {pq : List Instr} (s : State) (p : Nat) (e : PtEntry) (len : Nat) (ssd : BitVec 15) (blocks : List (BitVec 8)) (h_s : Canon pq s) :
    Canon pq (State.moveSource s p e len ssd blocks).1 := by
  unfold State.moveSource; (try dsimp only); with_reducible repeat' first | assumption | exact canon_refused | apply canon_next | apply State.out_canon | apply State.pipeBlocks_canon | apply State.draw_canon | apply State.readPage_canon | apply canon_foldl | apply canon_foldl1 | intro _ _ _ | split

theorem MoveRead.finish_canon {pq : List Instr} (r : MoveRead) (p : Nat) (m : MovCmd) (ssd : BitVec 15) (blocks : List (BitVec 8)) (cmd : Option NvCmd) (h_r : Canon pq r.state) :
    Canon pq (MoveRead.finish r p m ssd blocks cmd) := by
  unfold MoveRead.finish; grind (ematch := 40) (gen := 60) (splits := 20) -lia -linarith -ring -ac -order -mbtc -funCC [State.moveCopy_canon, State.moveSource_canon, canon_pick, canon_pickRes, canon_next, canon_refused, canon_foldl, canon_foldl1, canon_foldlD]

theorem MoveRead.ofNew_canon {pq : List Instr} (e : PtEntry) (f0 : PgFmt) (f1 : State × PgFmt) (h_f1 : Canon pq f1.1) :
    Canon pq (MoveRead.ofNew e f0 f1).state := by
  unfold MoveRead.ofNew; grind (ematch := 40) (gen := 60) (splits := 20) -lia -linarith -ring -ac -order -mbtc -funCC [canon_pick, canon_pickRes, canon_next, canon_refused, canon_foldl, canon_foldl1, canon_foldlD]

theorem State.readFmt_canon {pq : List Instr} (s : State) (p f : Nat) (h_s : Canon pq s) : Canon pq (State.readFmt s p f).1 := by
  generalize hF : @State.readFmt = F
  delta State.readFmt at hF
  subst hF
  exact canon_fst (State.readMem_canon _ _ _ _ h_s)

theorem MoveRead.ofFmt_canon {pq : List Instr} (p : Nat) (m : MovCmd) (e : PtEntry) (f0 : State × PgFmt) (h_f0 : Canon pq f0.1) :
    Canon pq (MoveRead.ofFmt p m e f0).state := by
  unfold MoveRead.ofFmt; grind (ematch := 40) (gen := 60) (splits := 20) -lia -linarith -ring -ac -order -mbtc -funCC [MoveRead.ofNew_canon, State.readFmt_canon, canon_pick, canon_pickRes, canon_next, canon_refused, canon_foldl, canon_foldl1, canon_foldlD]

theorem MoveRead.ofEntry_canon {pq : List Instr} (p : Nat) (m : MovCmd) (x : State × BitVec 8 × PtEntry) (h_x : Canon pq x.1) :
    Canon pq (MoveRead.ofEntry p m x).state := by
  unfold MoveRead.ofEntry; grind (ematch := 40) (gen := 60) (splits := 20) -lia -linarith -ring -ac -order -mbtc -funCC [MoveRead.ofFmt_canon, State.readFmt_canon, canon_pick, canon_pickRes, canon_next, canon_refused, canon_foldl, canon_foldl1, canon_foldlD]

theorem State.checkKvRings_canon {pq : List Instr} (s : State) (k : RingKind) (hub : Nat) (h_s : Canon pq s) :
    Canon pq (State.checkKvRings s k hub) := by
  unfold State.checkKvRings; (try simp only [pick_eq, pickRes_eq]); grind (ematch := 40) (gen := 60) (splits := 20) -lia -linarith -ring -ac -order -mbtc -funCC [State.err_canon, canon_pick, canon_pickRes, canon_next, canon_refused, canon_foldl, canon_foldl1, canon_foldlD]

theorem State.insertEnd_canon {pq : List Instr} (s : State) (p : Nat) (m : MovCmd) (st : BitVec 8) (x : Nat) (h_s : Canon pq s) :
    Canon pq (State.insertEnd s p m st x) := by
  unfold State.insertEnd; grind (ematch := 40) (gen := 60) (splits := 20) -lia -linarith -ring -ac -order -mbtc -funCC [State.finishCmd_canon, canon_pick, canon_pickRes, canon_next, canon_refused, canon_foldl, canon_foldl1, canon_foldlD]

theorem State.writeEntry_canon {pq : List Instr} (s : State) (p : Nat) (x : Nat) (e : PfxEntry) (h_s : Canon pq s) :
    Canon pq (State.writeEntry s p x e) := by
  generalize hF : @State.writeEntry = F; delta State.writeEntry at hF; subst hF; (try simp only [pick_eq, pickRes_eq]); grind (ematch := 40) (gen := 60) (splits := 20) -lia -linarith -ring -ac -order -mbtc -funCC [State.writeMem_canon, canon_pick, canon_pickRes, canon_next, canon_refused, canon_foldl, canon_foldl1, canon_foldlD]

theorem State.insertWay_canon {pq : List Instr} (p : Nat) (m : MovCmd) (h : Nat) (b : Nat) (es : List PfxEntry) (dup : State × BitVec 8 × Option Nat) (h_dup : Canon pq dup.1) :
    Canon pq (State.insertWay p m h b es dup) := by
  unfold State.insertWay; grind (ematch := 40) (gen := 60) (splits := 20) -lia -linarith -ring -ac -order -mbtc -funCC [State.insertEnd_canon, State.writeEntry_canon, canon_pick, canon_pickRes, canon_next, canon_refused, canon_foldl, canon_foldl1, canon_foldlD]

theorem State.listedWay_canon {pq : List Instr} (p h parent : Nat) (tokens : Bytes) (l : List (Nat × PfxEntry)) (s : State)
    (h_s : Canon pq s) : Canon pq (State.listedWay p h parent tokens l s).1 := by
  induction l generalizing s with
  | nil => exact h_s
  | cons e es ih =>
    obtain ⟨w, e⟩ := e
    rw [State.listedWay]
    split
    · extract_lets u
      have h1 : Canon pq u.1 := canon_via (State.readTokens_canon _ _ _ h_s) rfl
      clear_value u
      split
      · exact h1
      · split
        · exact h1
        · exact ih _ h1
    · exact ih _ h_s

theorem State.insertBucket_canon {pq : List Instr} (p : Nat) (m : MovCmd) (h : Nat) (b : Nat) (tokens : Bytes) (k : State × BitVec 8 × List PfxEntry) (h_k : Canon pq k.1) :
    Canon pq (State.insertBucket p m h b tokens k) := by
  unfold State.insertBucket; grind (ematch := 40) (gen := 60) (splits := 20) -lia -linarith -ring -ac -order -mbtc -funCC [State.insertEnd_canon, State.insertWay_canon, State.listedWay_canon, canon_pick, canon_pickRes, canon_next, canon_refused, canon_foldl, canon_foldl1, canon_foldlD]

theorem State.insertTokens_canon {pq : List Instr} (p : Nat) (m : MovCmd) (key : Nat) (t : State × BitVec 8 × Bytes) (h_t : Canon pq t.1) :
    Canon pq (State.insertTokens p m key t) := by
  unfold State.insertTokens; grind (ematch := 40) (gen := 60) (splits := 20) -lia -linarith -ring -ac -order -mbtc -funCC [State.insertEnd_canon, State.insertBucket_canon, State.readBucket_canon, canon_pick, canon_pickRes, canon_next, canon_refused, canon_foldl, canon_foldl1, canon_foldlD]

theorem State.insertUnder_canon {pq : List Instr} (p : Nat) (m : MovCmd) (up : State × BitVec 8 × Option Nat) (h_up : Canon pq up.1) :
    Canon pq (State.insertUnder p m up) := by
  unfold State.insertUnder; grind (ematch := 40) (gen := 60) (splits := 20) -lia -linarith -ring -ac -order -mbtc -funCC [State.insertEnd_canon, State.insertTokens_canon, State.readTokens_canon, canon_pick, canon_pickRes, canon_next, canon_refused, canon_foldl, canon_foldl1, canon_foldlD]

theorem State.readPt_canon {pq : List Instr} (s : State) (p hd : Nat) (h_s : Canon pq s) : Canon pq (State.readPt s p hd).1 := by
  generalize hF : @State.readPt = F
  delta State.readPt at hF
  subst hF
  exact canon_fst (State.readMem_canon _ _ _ _ h_s)

theorem State.moveRead_canon {pq : List Instr} (s : State) (p : Nat) (m : MovCmd) (h_s : Canon pq s) :
    Canon pq (State.moveRead s p m).state := by
  unfold State.moveRead; grind (ematch := 40) (gen := 60) (splits := 20) -lia -linarith -ring -ac -order -mbtc -funCC [MoveRead.ofEntry_canon, State.readPt_canon, canon_pick, canon_pickRes, canon_next, canon_refused, canon_foldl, canon_foldl1, canon_foldlD]

theorem State.moverLock_canon {pq : List Instr} (s : State) (link : Nat) (p : Nat) (slot : Nat) (nsid : Nat) (slba : Nat) (nlb : Nat) (write : Bool) (h_s : Canon pq s) :
    Canon pq (State.moverLock s link p slot nsid slba nlb write) := by
  unfold State.moverLock; (try simp only [pick_eq, pickRes_eq]); grind (ematch := 40) (gen := 60) (splits := 20) -lia -linarith -ring -ac -order -mbtc -funCC [State.lockTake_canon, canon_pick, canon_pickRes, canon_next, canon_refused, canon_foldl, canon_foldl1, canon_foldlD]

theorem State.readIndex_canon {pq : List Instr} (s : State) (p : Nat) (x : Nat) (h_s : Canon pq s) :
    Canon pq (State.readIndex s p x).1 := by
  unfold State.readIndex; (try simp only [pick_eq, pickRes_eq]); grind (ematch := 40) (gen := 60) (splits := 20) -lia -linarith -ring -ac -order -mbtc -funCC [State.readBucket_canon, canon_pick, canon_pickRes, canon_next, canon_refused, canon_foldl, canon_foldl1, canon_foldlD]

theorem State.parentKey_canon {pq : List Instr} (s : State) (p : Nat) (parent : Nat) (h_s : Canon pq s) :
    Canon pq (State.parentKey s p parent).1 := by
  unfold State.parentKey; grind (ematch := 40) (gen := 60) (splits := 20) -lia -linarith -ring -ac -order -mbtc -funCC [State.readIndex_canon, canon_pick, canon_pickRes, canon_next, canon_refused, canon_foldl, canon_foldl1, canon_foldlD]

theorem withMov_canon {pq : List Instr} (part : Fin 12) (op : Nat) (s : State) (f : State → MovCmd → PtEntry → State) (h_s : Canon pq s)
    (hf : ∀ s m e, Canon pq s → Canon pq (f s m e)) : CanonRes pq (withMov part op s f) := by
  unfold withMov
  refine orHeld_canon _ _ h_s ?_
  dsimp only
  split
  · exact canon_next h_s
  · split
    · exact canon_next (State.finishCmd_canon _ _ _ _ _ _ _ h_s)
    · split
      · exact canon_next (State.finishCmd_canon _ _ _ _ _ _ _ h_s)
      · have h1 := fun m => State.readPt_canon s part.val m h_s
        split
        · exact canon_next (State.finishCmd_canon _ _ _ _ _ _ _ (h1 _))
        · exact canon_next (hf _ _ _ (h1 _))

theorem startMove_canon {pq : List Instr} (part : Fin 12) (op : Nat) (s : State) (h_s : Canon pq s) : CanonRes pq (startMove part op s) := by
  unfold startMove
  refine orHeld_canon _ _ h_s (withMov_canon _ _ _ _ h_s fun s m e h_s => ?_)
  extract_lets p link requant nf f0 f1 tier down up stateOk ssd off bad st s1 used viaSsd a s2 s3
  have h0 : Canon pq f0.1 := canon_via (State.readFmt_canon _ _ _ h_s) rfl
  clear_value f0
  have h1 : Canon pq f1.1 := canon_via (State.readFmt_canon _ _ _ h0) rfl
  have h2 : Canon pq s1 := h1
  clear_value f1 s1
  have h3 : Canon pq s2 := by
    simp only [s2]
    split
    · exact State.moverLock_canon _ _ _ _ _ _ _ _ h2
    · exact h2
  clear_value s2
  have h4 : Canon pq s3 := State.writePt_canon _ _ _ _ h3
  clear_value s3
  split
  · exact State.finishCmd_canon _ _ _ _ _ _ _ h2
  · split
    · exact State.bump_canon _ _ _ h2
    · exact State.modMovRing_canon _ _ _ h4

theorem execDemote_canon {pq : List Instr} (part : Fin 12) (s : State) (h_s : Canon pq s) :
    CanonRes pq (execDemote part s) := by
  unfold execDemote; (try simp only [pick_eq, pickRes_eq]); grind (ematch := 40) (gen := 60) (splits := 20) -lia -linarith -ring -ac -order -mbtc -funCC [startMove_canon, canon_pick, canon_pickRes, canon_next, canon_refused, canon_foldl, canon_foldl1, canon_foldlD]

theorem execInit_canon {pq : List Instr} (part : Fin 12) (s : State) (h_s : Canon pq s) :
    CanonRes pq (execInit part s) := by
  unfold execInit; (try simp only [pick_eq, pickRes_eq]); grind (ematch := 40) (gen := 60) (splits := 20) -lia -linarith -ring -ac -order -mbtc -funCC [withMov_canon, State.readFmt_canon, State.finishCmd_canon, State.writePt_canon, canon_pick, canon_pickRes, canon_next, canon_refused, canon_foldl, canon_foldl1, canon_foldlD]

theorem withPfx_canon {pq : List Instr} (part : Fin 12) (op : Nat) (s : State) (f : MovCmd → Res) (h_s : Canon pq s)
    (hf : ∀ m, CanonRes pq (f m)) : CanonRes pq (withPfx part op s f) := by
  unfold withPfx
  refine orHeld_canon _ _ h_s ?_
  split
  · exact canon_next h_s
  · split
    · exact canon_next (State.finishCmd_canon _ _ _ _ _ _ _ h_s)
    · exact hf _

theorem execInsert_canon {pq : List Instr} (part : Fin 12) (s : State) (h_s : Canon pq s) :
    CanonRes pq (execInsert part s) := by
  unfold execInsert; (try simp only [pick_eq, pickRes_eq]); grind (ematch := 40) (gen := 60) (splits := 20) -lia -linarith -ring -ac -order -mbtc -funCC [withPfx_canon, State.insertEnd_canon, State.insertUnder_canon, State.parentKey_canon, canon_pick, canon_pickRes, canon_next, canon_refused, canon_foldl, canon_foldl1, canon_foldlD]

theorem lookupBlocks_canon {pq : List Instr} (p tok n i : Nat) (l : Lookup) (h : Canon pq l.state) :
    Canon pq (lookupBlocks p tok n i l).state := by
  induction n generalizing i l with
  | zero => exact h
  | succ n ih =>
    have h1 : Canon pq (l.block p i (l.state.readTokens p (tok + 256 * i))).state :=
      Lookup.block_canon _ _ _ _ h (State.readTokens_canon _ _ _ h)
    revert h1
    rw [lookupBlocks]
    generalize l.block p i (l.state.readTokens p (tok + 256 * i)) = x
    intro h1
    split
    · exact h1
    · exact ih _ _ h1

theorem execLookup_canon {pq : List Instr} (part : Fin 12) (s : State) (h_s : Canon pq s) :
    CanonRes pq (execLookup part s) := by
  unfold execLookup; grind (ematch := 40) (gen := 60) (splits := 20) -lia -linarith -ring -ac -order -mbtc -funCC [withPfx_canon, State.finishCmd_canon, lookupBlocks_canon, canon_pick, canon_pickRes, canon_next, canon_refused, canon_foldl, canon_foldl1, canon_foldlD]

theorem execMovCmdTake_canon {pq : List Instr} (k : RingKind) (part : Fin 12) (now : Nat) (s : State) (h_s : Canon pq s) :
    CanonRes pq (execMovCmdTake k part now s) := by
  unfold execMovCmdTake; (try simp only [pick_eq, pickRes_eq]); grind (ematch := 40) (gen := 60) (splits := 20) -lia -linarith -ring -ac -order -mbtc -funCC [State.learn_canon, State.served_canon, State.readMem_canon, State.modRing_canon, State.finishCmd_canon, State.showActive_canon, canon_pick, canon_pickRes, canon_next, canon_refused, canon_foldl, canon_foldl1, canon_foldlD]

theorem execMovRecordWrite_canon {pq : List Instr} (k : RingKind) (part : Fin 12) (s : State) (h_s : Canon pq s) :
    CanonRes pq (execMovRecordWrite k part s) := by
  unfold execMovRecordWrite; (try simp only [pick_eq, pickRes_eq]); grind (ematch := 40) (gen := 60) (splits := 20) -lia -linarith -ring -ac -order -mbtc -funCC [orHeld_canon, State.writeMem_canon, State.modRing_canon, State.sigHub_canon, State.bucket_canon, State.err_canon, canon_pick, canon_pickRes, canon_next, canon_refused, canon_foldl, canon_foldl1, canon_foldlD]

theorem execMoveCopyDone_canon {pq : List Instr} (part : Fin 12) (slot : Nat) (ssd : BitVec 15) (blocks : List (BitVec 8)) (s : State) (h_s : Canon pq s) :
    CanonRes pq (execMoveCopyDone part slot ssd blocks s) := by
  unfold execMoveCopyDone; grind (ematch := 40) (gen := 60) (splits := 20) -lia -linarith -ring -ac -order -mbtc -funCC [orHeld_canon, MoveRead.finish_canon, State.moveRead_canon, canon_pick, canon_pickRes, canon_next, canon_refused, canon_foldl, canon_foldl1, canon_foldlD]

theorem execMoveFenceDone_canon {pq : List Instr} (part : Fin 12) (slot : Nat) (s : State) (h_s : Canon pq s) :
    CanonRes pq (execMoveFenceDone part slot s) := by
  unfold execMoveFenceDone; (try simp only [pick_eq, pickRes_eq]); grind (ematch := 40) (gen := 60) (splits := 20) -lia -linarith -ring -ac -order -mbtc -funCC [orHeld_canon, State.readPt_canon, State.finishCmd_canon, State.writePt_canon, canon_pick, canon_pickRes, canon_next, canon_refused, canon_foldl, canon_foldl1, canon_foldlD]

theorem execPromote_canon {pq : List Instr} (part : Fin 12) (s : State) (h_s : Canon pq s) :
    CanonRes pq (execPromote part s) := by
  unfold execPromote; (try simp only [pick_eq, pickRes_eq]); grind (ematch := 40) (gen := 60) (splits := 20) -lia -linarith -ring -ac -order -mbtc -funCC [startMove_canon, canon_pick, canon_pickRes, canon_next, canon_refused, canon_foldl, canon_foldl1, canon_foldlD]

theorem execRef_canon {pq : List Instr} (part : Fin 12) (s : State) (h_s : Canon pq s) :
    CanonRes pq (execRef part s) := by
  unfold execRef; (try simp only [pick_eq, pickRes_eq]); grind (ematch := 40) (gen := 60) (splits := 20) -lia -linarith -ring -ac -order -mbtc -funCC [withMov_canon, State.finishCmd_canon, State.writePt_canon, State.sendFence_canon, State.modMovRing_canon, canon_pick, canon_pickRes, canon_next, canon_refused, canon_foldl, canon_foldl1, canon_foldlD]

theorem execRemove_canon {pq : List Instr} (part : Fin 12) (s : State) (h_s : Canon pq s) :
    CanonRes pq (execRemove part s) := by
  unfold execRemove; (try simp only [pick_eq, pickRes_eq]); grind (ematch := 40) (gen := 60) (splits := 20) -lia -linarith -ring -ac -order -mbtc -funCC [withPfx_canon, State.finishCmd_canon, State.readIndex_canon, State.writeEntry_canon, canon_pick, canon_pickRes, canon_next, canon_refused, canon_foldl, canon_foldl1, canon_foldlD]

theorem execShare_canon {pq : List Instr} (part : Fin 12) (s : State) (h_s : Canon pq s) :
    CanonRes pq (execShare part s) := by
  unfold execShare; (try simp only [pick_eq, pickRes_eq]); grind (ematch := 40) (gen := 60) (splits := 20) -lia -linarith -ring -ac -order -mbtc -funCC [withMov_canon, State.finishCmd_canon, State.writePt_canon, canon_pick, canon_pickRes, canon_next, canon_refused, canon_foldl, canon_foldl1, canon_foldlD]

end Sys2Proof.Machine
end

