-- ==== Sys2Proof/Laws/CanonPatrol.lean ====
section
/-! SUPPORT. Every function of Machine/Patrol.lean keeps the queue and the canonical form of registers and memory. -/
set_option linter.unusedSimpArgs false
namespace Sys2Proof.Machine
open Sys2Proof

theorem State.retireInto_canon {pq : List Instr} (s : State) (a : Nat) (h_s : Canon pq s) : CanonOpt pq (State.retireInto s a) := by
  unfold State.retireInto
  intro t ht
  split at ht
  · cases ht
    exact State.wr_canon _ _ _ (State.wr_canon _ _ _ h_s)
  · cases ht

theorem State.testCtlWrite_canon {pq : List Instr} (s : State) (c : TestCtl) (v : BitVec 32) (h_s : Canon pq s) :
    Canon pq (State.testCtlWrite s c v) := by
  unfold State.testCtlWrite; grind (ematch := 40) (gen := 60) (splits := 20) -lia -linarith -ring -ac -order -mbtc -funCC [State.ignoreWrite_canon, State.setReg_canon, canon_pick, canon_pickRes, canon_next, canon_refused, canon_foldl, canon_foldl1, canon_foldlD]

theorem State.patrolLine_canon {pq : List Instr} (s : State) (c : PatrolCtl) (a : Nat) (upset : Nat) (h_s : Canon pq s) :
    Canon pq (State.patrolLine s c a upset) := by
  unfold State.patrolLine; (try simp only [pick_eq, pickRes_eq]); grind (ematch := 40) (gen := 60) (splits := 20) -lia -linarith -ring -ac -order -mbtc -funCC [State.freshUnit_canon, State.countCorrection_canon, State.modPatrol_canon, State.noteDue_canon, State.decodeUnit_canon, canon_pick, canon_pickRes, canon_next, canon_refused, canon_foldl, canon_foldl1, canon_foldlD]

theorem execGranuleRetire_canon {pq : List Instr} (c : PatrolCtl) (s : State) (h_s : Canon pq s) : CanonRes pq (execGranuleRetire c s) := by
  unfold execGranuleRetire
  split
  · exact canon_next h_s
  · next g rest _ =>
    extract_lets a s1 kind page
    have h1 : Canon pq s1 := State.modPatrol_canon _ _ _ h_s
    clear_value s1 kind page
    split
    · exact canon_next h1
    · split
      · next t ht =>
        exact canon_next (State.ledgerAppend_canon _ _ _ _ _ (State.bbAdd_canon _ _ _ _ _ _ (State.retireInto_canon _ _ h1 t ht)))
      · have h2 := fun p1 p2 p3 p4 p5 => State.bbAdd_canon s1 p1 p2 p3 p4 p5 h1
        split
        · exact canon_next (State.err_canon _ _ _ _ _ (h2 _ _ _ _ _))
        · exact canon_next (State.err_canon _ _ _ _ _ (h2 _ _ _ _ _))

theorem execPatrolStep_canon {pq : List Instr} (c : PatrolCtl) (found : List (Nat × Nat)) (s : State) (h_s : Canon pq s) :
    CanonRes pq (execPatrolStep c found s) := by
  unfold execPatrolStep; (try simp only [pick_eq, pickRes_eq]); grind (ematch := 40) (gen := 60) (splits := 20) -lia -linarith -ring -ac -order -mbtc -funCC [State.step1_canon, State.patrolLine_canon, State.wr_canon, canon_pick, canon_pickRes, canon_next, canon_refused, canon_foldl, canon_foldl1, canon_foldlD]

theorem execTestRdArm_canon {pq : List Instr} (c : TestCtl) (hold : Bool) (s : State) (h_s : Canon pq s) :
    CanonRes pq (execTestRdArm c hold s) := by
  unfold execTestRdArm; (try simp only [pick_eq, pickRes_eq]); grind (ematch := 40) (gen := 60) (splits := 20) -lia -linarith -ring -ac -order -mbtc -funCC [withPage_canon, State.testCtlWrite_canon, canon_pick, canon_pickRes, canon_next, canon_refused, canon_foldl, canon_foldl1, canon_foldlD]

theorem execTestWrArm_canon {pq : List Instr} (c : TestCtl) (hold : Bool) (s : State) (h_s : Canon pq s) :
    CanonRes pq (execTestWrArm c hold s) := by
  unfold execTestWrArm; (try simp only [pick_eq, pickRes_eq]); grind (ematch := 40) (gen := 60) (splits := 20) -lia -linarith -ring -ac -order -mbtc -funCC [withPage_canon, State.testCtlWrite_canon, canon_pick, canon_pickRes, canon_next, canon_refused, canon_foldl, canon_foldl1, canon_foldlD]

end Sys2Proof.Machine
end

