-- ==== Sys2Proof/Laws/CanonSecurity.lean ====
section
/-! SUPPORT. Every function of Machine/Security.lean keeps the queue and the canonical form of registers and memory. -/
set_option linter.unusedSimpArgs false
namespace Sys2Proof.Machine
open Sys2Proof

theorem State.showSessions_canon {pq : List Instr} (s : State) (h_s : Canon pq s) :
    Canon pq (State.showSessions s) := by
  unfold State.showSessions; (try simp only [pick_eq, pickRes_eq]); grind (ematch := 40) (gen := 60) (splits := 20) -lia -linarith -ring -ac -order -mbtc -funCC [State.wr_canon, canon_pick, canon_pickRes, canon_next, canon_refused, canon_foldl, canon_foldl1, canon_foldlD]

theorem State.setSessions_canon {pq : List Instr} (s : State) (l : List SpdmSess) (h_s : Canon pq s) :
    Canon pq (State.setSessions s l) := by
  unfold State.setSessions; (try simp only [pick_eq, pickRes_eq]); grind (ematch := 40) (gen := 60) (splits := 20) -lia -linarith -ring -ac -order -mbtc -funCC [State.showSessions_canon, canon_pick, canon_pickRes, canon_next, canon_refused, canon_foldl, canon_foldl1, canon_foldlD, canon_upd]

theorem State.rejectImage_canon {pq : List Instr} (s : State) (typ : Nat) (slot : Nat) (h_s : Canon pq s) :
    Canon pq (State.rejectImage s typ slot) := by
  unfold State.rejectImage; (try simp only [pick_eq, pickRes_eq]); grind (ematch := 40) (gen := 60) (splits := 20) -lia -linarith -ring -ac -order -mbtc -funCC [State.bump_canon, State.err_canon, State.bbAdd_canon, canon_pick, canon_pickRes, canon_next, canon_refused, canon_foldl, canon_foldl1, canon_foldlD]

theorem State.measureImage_canon {pq : List Instr} (s : State) (typ : Nat) (img : Bytes) (h_s : Canon pq s) :
    Canon pq (State.measureImage s typ img) := by
  unfold State.measureImage; (try simp only [pick_eq, pickRes_eq]); grind (ematch := 40) (gen := 60) (splits := 20) -lia -linarith -ring -ac -order -mbtc -funCC [canon_pick, canon_pickRes, canon_next, canon_refused, canon_foldl, canon_foldl1, canon_foldlD, canon_upd]

theorem State.showOwner_canon {pq : List Instr} (s : State) (h_s : Canon pq s) :
    Canon pq (State.showOwner s) := by
  unfold State.showOwner; (try simp only [pick_eq, pickRes_eq]); grind (ematch := 40) (gen := 60) (splits := 20) -lia -linarith -ring -ac -order -mbtc -funCC [State.wr_canon, canon_pick, canon_pickRes, canon_next, canon_refused, canon_foldl, canon_foldl1, canon_foldlD]

theorem State.debugRecord_canon {pq : List Instr} (s : State) (method : Nat) (scope : Nat) (h_s : Canon pq s) :
    Canon pq (State.debugRecord s method scope) := by
  unfold State.debugRecord; (try simp only [pick_eq, pickRes_eq]); grind (ematch := 40) (gen := 60) (splits := 20) -lia -linarith -ring -ac -order -mbtc -funCC [State.bbAdd_canon, canon_pick, canon_pickRes, canon_next, canon_refused, canon_foldl, canon_foldl1, canon_foldlD]

theorem State.setSteps_canon {pq : List Instr} (s : State) (via : SpdmVia) (x : BitVec 3) (h_s : Canon pq s) :
    Canon pq (State.setSteps s via x) := by
  unfold State.setSteps; (try simp only [pick_eq, pickRes_eq]); grind (ematch := 40) (gen := 60) (splits := 20) -lia -linarith -ring -ac -order -mbtc -funCC [canon_pick, canon_pickRes, canon_next, canon_refused, canon_foldl, canon_foldl1, canon_foldlD, canon_upd]

theorem State.spdmSays_canon {pq : List Instr} (s : State) (via : SpdmVia) (r : SpdmResp) (h_s : Canon pq s) :
    Canon pq (State.spdmSays s via r) := by
  unfold State.spdmSays; (try simp only [pick_eq, pickRes_eq]); grind (ematch := 40) (gen := 60) (splits := 20) -lia -linarith -ring -ac -order -mbtc -funCC [State.out_canon, canon_pick, canon_pickRes, canon_next, canon_refused, canon_foldl, canon_foldl1, canon_foldlD]

theorem State.useNonce_canon {pq : List Instr} (s : State) (n : Bytes) (h_s : Canon pq s) :
    Canon pq (State.useNonce s n).1 := by
  unfold State.useNonce; (try simp only [pick_eq, pickRes_eq]); grind (ematch := 40) (gen := 60) (splits := 20) -lia -linarith -ring -ac -order -mbtc -funCC [canon_pick, canon_pickRes, canon_next, canon_refused, canon_foldl, canon_foldl1, canon_foldlD, canon_upd]

theorem spdm_canon {pq : List Instr} (via : SpdmVia) (need : BitVec 3) (s : State) (f : State → State) (h_s : Canon pq s)
    (hf : ∀ s, Canon pq s → Canon pq (f s)) : CanonRes pq (spdm via need s f) := by
  unfold spdm
  grind (ematch := 40) (gen := 60) [State.spdmSays_canon, canon_next]

theorem execChallenge_canon {pq : List Instr} (via : SpdmVia) (nonce : List (BitVec 8)) (s : State) (h_s : Canon pq s) :
    CanonRes pq (execChallenge via nonce s) := by
  unfold execChallenge; (try simp only [pick_eq, pickRes_eq]); grind (ematch := 40) (gen := 60) (splits := 20) -lia -linarith -ring -ac -order -mbtc -funCC [spdm_canon, State.spdmSays_canon, canon_pick, canon_pickRes, canon_next, canon_refused, canon_foldl, canon_foldl1, canon_foldlD]

theorem execDbgChallenge_canon {pq : List Instr} (hub : Fin 2) (page : Fin 64) (s : State) (h_s : Canon pq s) :
    CanonRes pq (execDbgChallenge hub page s) := by
  unfold execDbgChallenge; (try simp only [pick_eq, pickRes_eq]); grind (ematch := 40) (gen := 60) (splits := 20) -lia -linarith -ring -ac -order -mbtc -funCC [withMsg_canon, State.draw_canon, State.answer_canon, canon_pick, canon_pickRes, canon_next, canon_refused, canon_foldl, canon_foldl1, canon_foldlD, canon_upd]

theorem execDbgLock_canon {pq : List Instr} (hub : Fin 2) (page : Fin 64) (s : State) (h_s : Canon pq s) :
    CanonRes pq (execDbgLock hub page s) := by
  unfold execDbgLock; (try simp only [pick_eq, pickRes_eq]); grind (ematch := 40) (gen := 60) (splits := 20) -lia -linarith -ring -ac -order -mbtc -funCC [withMsg_canon, State.answer_canon, State.wr_canon, canon_pick, canon_pickRes, canon_next, canon_refused, canon_foldl, canon_foldl1, canon_foldlD]

theorem execDbgUnlock_canon {pq : List Instr} (hub : Fin 2) (page : Fin 64) (scope : BitVec 8) (u : Unlock) (elapsed : Nat) (s : State) (h_s : Canon pq s) :
    CanonRes pq (execDbgUnlock hub page scope u elapsed s) := by
  unfold execDbgUnlock; (try simp only [pick_eq, pickRes_eq]); grind (ematch := 40) (gen := 60) (splits := 20) -lia -linarith -ring -ac -order -mbtc -funCC [withMsg_canon, State.wr_canon, State.answer_canon, State.useNonce_canon, State.err_canon, State.debugRecord_canon, State.bump_canon, State.bucket_canon, canon_pick, canon_pickRes, canon_next, canon_refused, canon_foldl, canon_foldl1, canon_foldlD]

theorem session_canon {pq : List Instr} (via : SpdmVia) (id : Nat) (done : Bool) (s : State) (f : State → State) (h_s : Canon pq s)
    (hf : ∀ s, Canon pq s → Canon pq (f s)) : CanonRes pq (session via id done s f) := by
  unfold session
  grind (ematch := 40) (gen := 60) [State.spdmSays_canon, spdm_canon]

theorem execEndSession_canon {pq : List Instr} (via : SpdmVia) (id : Nat) (s : State) (h_s : Canon pq s) :
    CanonRes pq (execEndSession via id s) := by
  unfold execEndSession; (try simp only [pick_eq, pickRes_eq]); grind (ematch := 40) (gen := 60) (splits := 20) -lia -linarith -ring -ac -order -mbtc -funCC [session_canon, State.spdmSays_canon, State.setSessions_canon, canon_pick, canon_pickRes, canon_next, canon_refused, canon_foldl, canon_foldl1, canon_foldlD]

theorem execFinish_canon {pq : List Instr} (via : SpdmVia) (id : Nat) (s : State) (h_s : Canon pq s) :
    CanonRes pq (execFinish via id s) := by
  unfold execFinish; (try simp only [pick_eq, pickRes_eq]); grind (ematch := 40) (gen := 60) (splits := 20) -lia -linarith -ring -ac -order -mbtc -funCC [session_canon, State.spdmSays_canon, State.setSessions_canon, canon_pick, canon_pickRes, canon_next, canon_refused, canon_foldl, canon_foldl1, canon_foldlD]

theorem execGetCapabilities_canon {pq : List Instr} (via : SpdmVia) (s : State) (h_s : Canon pq s) :
    CanonRes pq (execGetCapabilities via s) := by
  unfold execGetCapabilities; (try simp only [pick_eq, pickRes_eq]); grind (ematch := 40) (gen := 60) (splits := 20) -lia -linarith -ring -ac -order -mbtc -funCC [spdm_canon, State.spdmSays_canon, State.setSteps_canon, canon_pick, canon_pickRes, canon_next, canon_refused, canon_foldl, canon_foldl1, canon_foldlD]

theorem execGetCertificate_canon {pq : List Instr} (via : SpdmVia) (offset : Nat) (len : Nat) (s : State) (h_s : Canon pq s) :
    CanonRes pq (execGetCertificate via offset len s) := by
  unfold execGetCertificate; (try simp only [pick_eq, pickRes_eq]); grind (ematch := 40) (gen := 60) (splits := 20) -lia -linarith -ring -ac -order -mbtc -funCC [spdm_canon, State.spdmSays_canon, canon_pick, canon_pickRes, canon_next, canon_refused, canon_foldl, canon_foldl1, canon_foldlD]

theorem execGetDigests_canon {pq : List Instr} (via : SpdmVia) (s : State) (h_s : Canon pq s) :
    CanonRes pq (execGetDigests via s) := by
  unfold execGetDigests; (try simp only [pick_eq, pickRes_eq]); grind (ematch := 40) (gen := 60) (splits := 20) -lia -linarith -ring -ac -order -mbtc -funCC [spdm_canon, State.spdmSays_canon, canon_pick, canon_pickRes, canon_next, canon_refused, canon_foldl, canon_foldl1, canon_foldlD]

theorem execGetMeasurements_canon {pq : List Instr} (via : SpdmVia) (index : Option (Fin 12)) (signed : Bool) (nonce : List (BitVec 8)) (s : State) (h_s : Canon pq s) :
    CanonRes pq (execGetMeasurements via index signed nonce s) := by
  unfold execGetMeasurements; (try simp only [pick_eq, pickRes_eq]); grind (ematch := 40) (gen := 60) (splits := 20) -lia -linarith -ring -ac -order -mbtc -funCC [spdm_canon, State.spdmSays_canon, canon_pick, canon_pickRes, canon_next, canon_refused, canon_foldl, canon_foldl1, canon_foldlD]

theorem execGetVersion_canon {pq : List Instr} (via : SpdmVia) (s : State) (h_s : Canon pq s) :
    CanonRes pq (execGetVersion via s) := by
  unfold execGetVersion; (try simp only [pick_eq, pickRes_eq]); grind (ematch := 40) (gen := 60) (splits := 20) -lia -linarith -ring -ac -order -mbtc -funCC [spdm_canon, State.spdmSays_canon, State.setSessions_canon, State.setSteps_canon, canon_pick, canon_pickRes, canon_next, canon_refused, canon_foldl, canon_foldl1, canon_foldlD]

theorem execHeartbeat_canon {pq : List Instr} (via : SpdmVia) (id : Nat) (s : State) (h_s : Canon pq s) :
    CanonRes pq (execHeartbeat via id s) := by
  unfold execHeartbeat; (try simp only [pick_eq, pickRes_eq]); grind (ematch := 40) (gen := 60) (splits := 20) -lia -linarith -ring -ac -order -mbtc -funCC [session_canon, State.spdmSays_canon, canon_pick, canon_pickRes, canon_next, canon_refused, canon_foldl, canon_foldl1, canon_foldlD]

theorem execKeyExchange_canon {pq : List Instr} (via : SpdmVia) (req : BitVec 16) (exchange : List (BitVec 8)) (s : State) (h_s : Canon pq s) :
    CanonRes pq (execKeyExchange via req exchange s) := by
  unfold execKeyExchange; (try simp only [pick_eq, pickRes_eq]); grind (ematch := 40) (gen := 60) (splits := 20) -lia -linarith -ring -ac -order -mbtc -funCC [spdm_canon, State.spdmSays_canon, State.draw_canon, State.setSessions_canon, canon_pick, canon_pickRes, canon_next, canon_refused, canon_foldl, canon_foldl1, canon_foldlD]

theorem execKeyLoad_canon {pq : List Instr} (hub : Fin 2) (page : Fin 64) (s : State) (h_s : Canon pq s) :
    CanonRes pq (execKeyLoad hub page s) := by
  unfold execKeyLoad; (try dsimp only); with_reducible repeat' first | assumption | exact canon_refused | apply canon_next | apply withMsg_canon | apply State.hostWrite_canon | apply State.modMbx_canon | apply State.answer_canon | apply State.countKeys_canon | apply State.setKey_canon | apply canon_foldl | apply canon_foldl1 | intro _ _ _ | split

theorem execKeyUpdate_canon {pq : List Instr} (via : SpdmVia) (id : Nat) (s : State) (h_s : Canon pq s) :
    CanonRes pq (execKeyUpdate via id s) := by
  unfold execKeyUpdate; (try simp only [pick_eq, pickRes_eq]); grind (ematch := 40) (gen := 60) (splits := 20) -lia -linarith -ring -ac -order -mbtc -funCC [session_canon, State.spdmSays_canon, canon_pick, canon_pickRes, canon_next, canon_refused, canon_foldl, canon_foldl1, canon_foldlD]

theorem execKeyZero_canon {pq : List Instr} (hub : Fin 2) (page : Fin 64) (s : State) (h_s : Canon pq s) :
    CanonRes pq (execKeyZero hub page s) := by
  unfold execKeyZero; (try simp only [pick_eq, pickRes_eq]); grind (ematch := 40) (gen := 60) (splits := 20) -lia -linarith -ring -ac -order -mbtc -funCC [withMsg_canon, State.answer_canon, State.countKeys_canon, State.setKey_canon, canon_pick, canon_pickRes, canon_next, canon_refused, canon_foldl, canon_foldl1, canon_foldlD]

theorem execNegotiateAlgorithms_canon {pq : List Instr} (via : SpdmVia) (s : State) (h_s : Canon pq s) :
    CanonRes pq (execNegotiateAlgorithms via s) := by
  unfold execNegotiateAlgorithms; (try simp only [pick_eq, pickRes_eq]); grind (ematch := 40) (gen := 60) (splits := 20) -lia -linarith -ring -ac -order -mbtc -funCC [spdm_canon, State.spdmSays_canon, State.setSteps_canon, canon_pick, canon_pickRes, canon_next, canon_refused, canon_foldl, canon_foldl1, canon_foldlD]

theorem execNonceExpiry_canon {pq : List Instr} (n : Nat) (s : State) (h_s : Canon pq s) :
    CanonRes pq (execNonceExpiry n s) := by
  unfold execNonceExpiry; (try simp only [pick_eq, pickRes_eq]); grind (ematch := 40) (gen := 60) (splits := 20) -lia -linarith -ring -ac -order -mbtc -funCC [canon_pick, canon_pickRes, canon_next, canon_refused, canon_foldl, canon_foldl1, canon_foldlD, canon_upd]

theorem execOwnerSet_canon {pq : List Instr} (hub : Fin 2) (page : Fin 64) (r : OwnerSet) (s : State) (h_s : Canon pq s) :
    CanonRes pq (execOwnerSet hub page r s) := by
  unfold execOwnerSet; (try simp only [pick_eq, pickRes_eq]); grind (ematch := 40) (gen := 60) (splits := 20) -lia -linarith -ring -ac -order -mbtc -funCC [withMsg_canon, State.showOwner_canon, State.answer_canon, State.useNonce_canon, canon_pick, canon_pickRes, canon_next, canon_refused, canon_foldl, canon_foldl1, canon_foldlD, canon_upd]

theorem execVendorDefinedRequest_canon {pq : List Instr} (via : SpdmVia) (id : Nat) (op : IdeOp) (stream : Fin 2) (s : State) (h_s : Canon pq s) :
    CanonRes pq (execVendorDefinedRequest via id op stream s) := by
  unfold execVendorDefinedRequest; (try simp only [pick_eq, pickRes_eq]); grind (ematch := 40) (gen := 60) (splits := 20) -lia -linarith -ring -ac -order -mbtc -funCC [spdm_canon, State.spdmSays_canon, session_canon, canon_pick, canon_pickRes, canon_next, canon_refused, canon_foldl, canon_foldl1, canon_foldlD, canon_upd]

end Sys2Proof.Machine
end

