-- ==== Sys2Proof/Laws/CanonPageStates.lean ====
section
/-! SUPPORT. Every function of Machine/PageStates.lean keeps the queue and the canonical form of registers and memory. -/
set_option linter.unusedSimpArgs false
namespace Sys2Proof.Machine
open Sys2Proof

theorem State.beginEnable_canon {pq : List Instr} (s : State) (p : Page) (h_s : Canon pq s) :
    Canon pq (State.beginEnable s p) := by
  unfold State.beginEnable; (try simp only [pick_eq, pickRes_eq]); grind (ematch := 40) (gen := 60) (splits := 20) -lia -linarith -ring -ac -order -mbtc -funCC [State.wr_canon, State.checkRings_canon, State.checkKvRings_canon, canon_pick, canon_pickRes, canon_next, canon_refused, canon_foldl, canon_foldl1, canon_foldlD, canon_upd]

theorem State.enablePage_canon {pq : List Instr} (s : State) (p : Page) (h_s : Canon pq s) :
    Canon pq (State.enablePage s p) := by
  unfold State.enablePage; (try simp only [pick_eq, pickRes_eq]); grind (ematch := 40) (gen := 60) (splits := 20) -lia -linarith -ring -ac -order -mbtc -funCC [State.wr_canon, State.err_canon, State.beginEnable_canon, canon_pick, canon_pickRes, canon_next, canon_refused, canon_foldl, canon_foldl1, canon_foldlD]

theorem State.bringEnable_canon {pq : List Instr} (s : State) (p : Page) (h_s : Canon pq s) :
    Canon pq (State.bringEnable s p) := by
  unfold State.bringEnable; (try simp only [pick_eq, pickRes_eq]); grind (ematch := 40) (gen := 60) (splits := 20) -lia -linarith -ring -ac -order -mbtc -funCC [State.enablePage_canon, State.wr_canon, canon_pick, canon_pickRes, canon_next, canon_refused, canon_foldl, canon_foldl1, canon_foldlD]

theorem State.readyPage_canon {pq : List Instr} (s : State) (p : Page) (h_s : Canon pq s) :
    Canon pq (State.readyPage s p) := by
  unfold State.readyPage; (try simp only [pick_eq, pickRes_eq]); grind (ematch := 40) (gen := 60) (splits := 20) -lia -linarith -ring -ac -order -mbtc -funCC [State.wr_canon, State.modCore_canon, State.train800_canon, canon_pick, canon_pickRes, canon_next, canon_refused, canon_foldl, canon_foldl1, canon_foldlD]

theorem State.poisonRegions_canon {pq : List Instr} (s : State) (rs : List Nat) (h_s : Canon pq s) :
    Canon pq (State.poisonRegions s rs) := by
  unfold State.poisonRegions; (try simp only [pick_eq, pickRes_eq]); grind (ematch := 40) (gen := 60) (splits := 20) -lia -linarith -ring -ac -order -mbtc -funCC [State.setRegion_canon, canon_pick, canon_pickRes, canon_next, canon_refused, canon_foldl, canon_foldl1, canon_foldlD]

theorem State.pageOn_canon {pq : List Instr} (s : State) (p : Page) (h_s : Canon pq s) :
    Canon pq (State.pageOn s p) := by
  unfold State.pageOn; (try simp only [pick_eq, pickRes_eq]); grind (ematch := 40) (gen := 60) (splits := 20) -lia -linarith -ring -ac -order -mbtc -funCC [State.poisonRegions_canon, State.wr_canon, canon_pick, canon_pickRes, canon_next, canon_refused, canon_foldl, canon_foldl1, canon_foldlD]

theorem State.enableCore_canon {pq : List Instr} (s : State) (p : Nat) (h_s : Canon pq s) :
    Canon pq (State.enableCore s p) := by
  unfold State.enableCore; (try simp only [pick_eq, pickRes_eq]); grind (ematch := 40) (gen := 60) (splits := 20) -lia -linarith -ring -ac -order -mbtc -funCC [State.readyPage_canon, State.enablePage_canon, State.pageOn_canon, canon_pick, canon_pickRes, canon_next, canon_refused, canon_foldl, canon_foldl1, canon_foldlD]

end Sys2Proof.Machine
end

