-- ==== Sys2Proof/Laws/CanonFirmware.lean ====
section
/-! SUPPORT. Every function of Machine/Firmware.lean keeps the queue and the canonical form of registers and memory. -/
set_option linter.unusedSimpArgs false
namespace Sys2Proof.Machine
open Sys2Proof

theorem State.restartFw_canon {pq : List Instr} (s : State) (k : Nat) (h_s : Canon pq s) :
    Canon pq (State.restartFw s k) := by
  unfold State.restartFw; (try simp only [pick_eq, pickRes_eq]); grind (ematch := 40) (gen := 60) (splits := 20) -lia -linarith -ring -ac -order -mbtc -funCC [State.bump_canon, State.wr_canon, State.bbAdd_canon, State.setSessions_canon, canon_pick, canon_pickRes, canon_next, canon_refused, canon_foldl, canon_foldl1, canon_foldlD, canon_upd]

theorem State.fatal_canon {pq : List Instr} (s : State) (part : optParam Nat 255) (h_s : Canon pq s) :
    Canon pq (State.fatal s part) := by
  unfold State.fatal; (try simp only [pick_eq, pickRes_eq]); grind (ematch := 40) (gen := 60) (splits := 20) -lia -linarith -ring -ac -order -mbtc -funCC [State.bbAdd_canon, State.fencePage_canon, State.out_canon, canon_pick, canon_pickRes, canon_next, canon_refused, canon_foldl, canon_foldl1, canon_foldlD, canon_upd]

theorem State.fwFault_canon {pq : List Instr} (s : State) (k : Nat) (now : Nat) (h_s : Canon pq s) :
    Canon pq (State.fwFault s k now) := by
  unfold State.fwFault; (try dsimp only); with_reducible repeat' first | assumption | exact canon_refused | apply canon_next | apply State.modFwp_canon | apply State.restartFw_canon | apply State.bucket_canon | apply State.err_canon | apply State.wr_canon | apply State.fatal_canon | apply canon_foldl | apply canon_foldl1 | intro _ _ _ | split

theorem State.accessFault_canon {pq : List Instr} (s : State) (k : Nat) (h_s : Canon pq s) :
    Canon pq (State.accessFault s k) := by
  unfold State.accessFault; (try simp only [pick_eq, pickRes_eq]); grind (ematch := 40) (gen := 60) (splits := 20) -lia -linarith -ring -ac -order -mbtc -funCC [State.draw_canon, State.fwFault_canon, canon_pick, canon_pickRes, canon_next, canon_refused, canon_foldl, canon_foldl1, canon_foldlD]

theorem State.actProgress_canon {pq : List Instr} (s : State) (h_s : Canon pq s) :
    Canon pq (State.actProgress s) := by
  unfold State.actProgress; (try simp only [pick_eq, pickRes_eq]); grind (ematch := 40) (gen := 60) (splits := 20) -lia -linarith -ring -ac -order -mbtc -funCC [State.wr_canon, State.vector_canon, State.fwLog_canon, canon_pick, canon_pickRes, canon_next, canon_refused, canon_foldl, canon_foldl1, canon_foldlD, canon_upd]

theorem State.activate_canon {pq : List Instr} (s : State) (slot : Nat) (mask : Nat) (h_s : Canon pq s) :
    Canon pq (State.activate s slot mask) := by
  unfold State.activate; (try simp only [pick_eq, pickRes_eq]); grind (ematch := 40) (gen := 60) (splits := 20) -lia -linarith -ring -ac -order -mbtc -funCC [State.modFwslot_canon, State.restartFw_canon, State.wr_canon, canon_pick, canon_pickRes, canon_next, canon_refused, canon_foldl, canon_foldl1, canon_foldlD]

theorem State.fwRead_canon {pq : List Instr} (s : State) (a : Nat) (n : Nat) (h_s : Canon pq s) :
    Canon pq (State.fwRead s a n).1 := by
  unfold State.fwRead; (try simp only [pick_eq, pickRes_eq]); grind (ematch := 40) (gen := 60) (splits := 20) -lia -linarith -ring -ac -order -mbtc -funCC [State.readMem_canon, canon_pick, canon_pickRes, canon_next, canon_refused, canon_foldl, canon_foldl1, canon_foldlD]

theorem State.readManifest_canon {pq : List Instr} (s : State) (manifest : Nat) (images : Nat) (h_s : Canon pq s) :
    Canon pq (State.readManifest s manifest images).1 := by
  unfold State.readManifest; (try simp only [pick_eq, pickRes_eq]); grind (ematch := 40) (gen := 60) (splits := 20) -lia -linarith -ring -ac -order -mbtc -funCC [State.fwRead_canon, State.rejectImage_canon, State.measureImage_canon, canon_pick, canon_pickRes, canon_next, canon_refused, canon_foldl, canon_foldl1, canon_foldlD]

theorem State.checkPlaced_canon {pq : List Instr} (s : State) (l : List Placed) (h_s : Canon pq s) :
    Canon pq (State.checkPlaced s l).1 := by
  unfold State.checkPlaced; (try simp only [pick_eq, pickRes_eq]); grind (ematch := 40) (gen := 60) (splits := 20) -lia -linarith -ring -ac -order -mbtc -funCC [State.fwRead_canon, canon_pick, canon_pickRes, canon_next, canon_refused, canon_foldl, canon_foldl1, canon_foldlD]

theorem State.writeTables_canon {pq : List Instr} (s : State) (l : List Placed) (a : Nat) (gcs : List Nat) (h_s : Canon pq s) :
    Canon pq (State.writeTables s l a gcs) := by
  induction gcs generalizing s a with
  | nil => exact h_s
  | cons gc gcs ih =>
    rw [State.writeTables]
    exact ih _ _ (State.wr_canon _ _ _ (State.wr_canon _ _ _ (State.writeMem_canon _ _ _ _ _ h_s)))

theorem execFwpCtlRestart_canon {pq : List Instr} (hub : Fin 2) (index : Fin 16) (s : State) (h_s : Canon pq s) :
    CanonRes pq (execFwpCtlRestart hub index s) := by
  unfold execFwpCtlRestart; (try simp only [pick_eq, pickRes_eq]); grind (ematch := 40) (gen := 60) (splits := 20) -lia -linarith -ring -ac -order -mbtc -funCC [withPage_canon, State.restartFw_canon, State.wr_canon, canon_pick, canon_pickRes, canon_next, canon_refused, canon_foldl, canon_foldl1, canon_foldlD]

theorem State.checkImage_canon {pq : List Instr} (s : State) (slot typ : Nat) (h_s : Canon pq s) :
    Canon pq (State.checkImage s slot typ).1 := by
  unfold State.checkImage
  split
  · exact h_s
  · exact State.rejectImage_canon _ _ _ h_s

theorem State.reloadCores_canon {pq : List Instr} (s : State) (gcs : List Nat) (h_s : Canon pq s) :
    Canon pq (State.reloadCores s gcs) := by
  unfold State.reloadCores; (try simp only [pick_eq, pickRes_eq]); grind (ematch := 40) (gen := 60) (splits := 20) -lia -linarith -ring -ac -order -mbtc -funCC [State.stubRun_canon, State.enableCore_canon, State.leaveReset_canon, State.enterReset_canon, canon_pick, canon_pickRes, canon_next, canon_refused, canon_foldl, canon_foldl1, canon_foldlD]

theorem State.runFw_canon {pq : List Instr} (s : State) (k : Nat) (slot : Nat) (h_s : Canon pq s) :
    Canon pq (State.runFw s k slot) := by
  unfold State.runFw; (try simp only [pick_eq, pickRes_eq]); grind (ematch := 40) (gen := 60) (splits := 20) -lia -linarith -ring -ac -order -mbtc -funCC [State.measureImage_canon, State.wr_canon, canon_pick, canon_pickRes, canon_next, canon_refused, canon_foldl, canon_foldl1, canon_foldlD]

theorem State.runPending_canon {pq : List Instr} (s : State) (h_s : Canon pq s) :
    Canon pq (State.runPending s) := by
  unfold State.runPending; (try simp only [pick_eq, pickRes_eq]); grind (ematch := 40) (gen := 60) (splits := 20) -lia -linarith -ring -ac -order -mbtc -funCC [State.activate_canon, canon_pick, canon_pickRes, canon_next, canon_refused, canon_foldl, canon_foldl1, canon_foldlD, canon_upd]

theorem execCoreLoad_canon {pq : List Instr} (hub : Fin 2) (page : Fin 64) (s : State) (h_s : Canon pq s) :
    CanonRes pq (execCoreLoad hub page s) := by
  unfold execCoreLoad; (try simp only [pick_eq, pickRes_eq]); grind (ematch := 40) (gen := 60) (splits := 20) -lia -linarith -ring -ac -order -mbtc -funCC [orHeld_canon, withMsg_canon, State.answer_canon, State.readManifest_canon, State.checkPlaced_canon, State.reloadCores_canon, State.writeTables_canon, canon_pick, canon_pickRes, canon_next, canon_refused, canon_foldl, canon_foldl1, canon_foldlD]

theorem execFwActivate_canon {pq : List Instr} (hub : Fin 2) (page : Fin 64) (s : State) (h_s : Canon pq s) :
    CanonRes pq (execFwActivate hub page s) := by
  unfold execFwActivate; (try simp only [pick_eq, pickRes_eq]); grind (ematch := 40) (gen := 60) (splits := 20) -lia -linarith -ring -ac -order -mbtc -funCC [withMsg_canon, State.answer_canon, State.wr_canon, State.activate_canon, canon_pick, canon_pickRes, canon_next, canon_refused, canon_foldl, canon_foldl1, canon_foldlD, canon_upd]

theorem execFwCommit_canon {pq : List Instr} (hub : Fin 2) (page : Fin 64) (s : State) (h_s : Canon pq s) :
    CanonRes pq (execFwCommit hub page s) := by
  unfold execFwCommit; (try simp only [pick_eq, pickRes_eq]); grind (ematch := 40) (gen := 60) (splits := 20) -lia -linarith -ring -ac -order -mbtc -funCC [withMsg_canon, State.answer_canon, State.checkImage_canon, State.modFwslot_canon, canon_pick, canon_pickRes, canon_next, canon_refused, canon_foldl, canon_foldl1, canon_foldlD]

theorem execFwConfirm_canon {pq : List Instr} (hub : Fin 2) (page : Fin 64) (s : State) (h_s : Canon pq s) :
    CanonRes pq (execFwConfirm hub page s) := by
  unfold execFwConfirm; (try simp only [pick_eq, pickRes_eq]); grind (ematch := 40) (gen := 60) (splits := 20) -lia -linarith -ring -ac -order -mbtc -funCC [withMsg_canon, State.answer_canon, State.setFwslot_canon, canon_pick, canon_pickRes, canon_next, canon_refused, canon_foldl, canon_foldl1, canon_foldlD]

theorem execFwUpdate_canon {pq : List Instr} (hub : Fin 2) (page : Fin 64) (s : State) (h_s : Canon pq s) :
    CanonRes pq (execFwUpdate hub page s) := by
  unfold execFwUpdate; (try simp only [pick_eq, pickRes_eq]); grind (ematch := 40) (gen := 60) (splits := 20) -lia -linarith -ring -ac -order -mbtc -funCC [withMsg_canon, State.answer_canon, State.setFwslot_canon, canon_pick, canon_pickRes, canon_next, canon_refused, canon_foldl, canon_foldl1, canon_foldlD]

theorem execFwpFault_canon {pq : List Instr} (hub : Fin 2) (index : Fin 16) (now : Nat) (s : State) (h_s : Canon pq s) :
    CanonRes pq (execFwpFault hub index now s) := by
  unfold execFwpFault; (try dsimp only); with_reducible repeat' first | assumption | exact canon_refused | apply canon_next | apply State.fwFault_canon | apply canon_foldl | apply canon_foldl1 | intro _ _ _ | split

theorem execFwpRestartDone_canon {pq : List Instr} (hub : Fin 2) (index : Fin 16) (s : State) (h_s : Canon pq s) :
    CanonRes pq (execFwpRestartDone hub index s) := by
  unfold execFwpRestartDone; (try dsimp only); with_reducible repeat' first | assumption | exact canon_refused | apply canon_next | apply State.checkImage_canon | apply State.actProgress_canon | apply State.wr_canon | apply State.runFw_canon | apply canon_foldl | apply canon_foldl1 | intro _ _ _ | split

theorem execFwpWatchdog_canon {pq : List Instr} (hub : Fin 2) (index : Fin 16) (s : State) (h_s : Canon pq s) :
    CanonRes pq (execFwpWatchdog hub index s) := by
  unfold execFwpWatchdog; (try simp only [pick_eq, pickRes_eq]); grind (ematch := 40) (gen := 60) (splits := 20) -lia -linarith -ring -ac -order -mbtc -funCC [State.restartFw_canon, canon_pick, canon_pickRes, canon_next, canon_refused, canon_foldl, canon_foldl1, canon_foldlD]

theorem execLamplighterTakeover_canon {pq : List Instr} (s : State) (h_s : Canon pq s) :
    CanonRes pq (execLamplighterTakeover s) := by
  unfold execLamplighterTakeover; (try simp only [pick_eq, pickRes_eq]); grind (ematch := 40) (gen := 60) (splits := 20) -lia -linarith -ring -ac -order -mbtc -funCC [State.wr_canon, State.bbAdd_canon, State.mbxReply_canon, canon_pick, canon_pickRes, canon_next, canon_refused, canon_foldl, canon_foldl1, canon_foldlD]

end Sys2Proof.Machine
end

