-- ==== Sys2Proof/Laws/CanonFaults.lean ====
section
/-! SUPPORT. Every function of Machine/Faults.lean keeps the queue and the canonical form of registers and memory. -/
set_option linter.unusedSimpArgs false
namespace Sys2Proof.Machine
open Sys2Proof

theorem State.arrayLost_canon {pq : List Instr} (s : State) (a : SramArray) (h_s : Canon pq s) :
    Canon pq (State.arrayLost s a) := by
  cases a with
  | tile gc k => exact State.modCore_canon _ _ _ h_s
  | alwaysOn => exact State.fatal_canon s 255 h_s
  | _ => exact h_s

theorem State.bbPage_canon {pq : List Instr} (s : State) (rs : List BbRec) (fail : BitVec 2) (h_s : Canon pq s) :
    Canon pq (State.bbPage s rs fail) := by
  unfold State.bbPage; grind (ematch := 40) (gen := 60) (splits := 20) -lia -linarith -ring -ac -order -mbtc -funCC [State.wr_canon, State.bucket_canon, State.err_canon, State.bump_canon, canon_pick, canon_pickRes, canon_next, canon_refused, canon_foldl, canon_foldl1, canon_foldlD, canon_upd]

theorem State.setD2d_canon {pq : List Instr} (s : State) (n : Nat) (w : D2dWord) (h_s : Canon pq s) :
    Canon pq (State.setD2d s n w) := by
  unfold State.setD2d; (try simp only [pick_eq, pickRes_eq]); grind (ematch := 40) (gen := 60) (splits := 20) -lia -linarith -ring -ac -order -mbtc -funCC [State.wr_canon, canon_pick, canon_pickRes, canon_next, canon_refused, canon_foldl, canon_foldl1, canon_foldlD]

theorem State.mapCore_canon {pq : List Instr} (s : State) (lc : Nat) (slot : Option Nat) (h_s : Canon pq s) :
    Canon pq (State.mapCore s lc slot) := by
  unfold State.mapCore; (try simp only [pick_eq, pickRes_eq]); grind (ematch := 40) (gen := 60) (splits := 20) -lia -linarith -ring -ac -order -mbtc -funCC [State.setReg_canon, canon_pick, canon_pickRes, canon_next, canon_refused, canon_foldl, canon_foldl1, canon_foldlD]

theorem State.showMem_canon {pq : List Instr} (s : State) (h_s : Canon pq s) :
    Canon pq (State.showMem s) := by
  unfold State.showMem; (try simp only [pick_eq, pickRes_eq]); grind (ematch := 40) (gen := 60) (splits := 20) -lia -linarith -ring -ac -order -mbtc -funCC [State.wr_canon, canon_pick, canon_pickRes, canon_next, canon_refused, canon_foldl, canon_foldl1, canon_foldlD]

theorem State.showLinks_canon {pq : List Instr} (s : State) (h_s : Canon pq s) :
    Canon pq (State.showLinks s) := by
  unfold State.showLinks; (try simp only [pick_eq, pickRes_eq]); grind (ematch := 40) (gen := 60) (splits := 20) -lia -linarith -ring -ac -order -mbtc -funCC [State.wr_canon, canon_pick, canon_pickRes, canon_next, canon_refused, canon_foldl, canon_foldl1, canon_foldlD]

theorem execD2dRetrain_canon {pq : List Instr} (page : Fin 42) (i : Fin 2) (s : State) (h_s : Canon pq s) :
    CanonRes pq (execD2dRetrain page i s) := by
  unfold execD2dRetrain; (try simp only [pick_eq, pickRes_eq]); grind (ematch := 40) (gen := 60) (splits := 20) -lia -linarith -ring -ac -order -mbtc -funCC [withPage_canon, State.showLinks_canon, State.setD2d_canon, State.wr_canon, canon_pick, canon_pickRes, canon_next, canon_refused, canon_foldl, canon_foldl1, canon_foldlD]

theorem State.bringSpare_canon {pq : List Instr} (s : State) (gc : Nat) (slot : Nat) (h_s : Canon pq s) :
    Canon pq (State.bringSpare s gc slot) := by
  unfold State.bringSpare; (try simp only [pick_eq, pickRes_eq]); grind (ematch := 40) (gen := 60) (splits := 20) -lia -linarith -ring -ac -order -mbtc -funCC [State.enableCore_canon, State.wr_canon, State.pageOn_canon, canon_pick, canon_pickRes, canon_next, canon_refused, canon_foldl, canon_foldl1, canon_foldlD]

theorem State.clearRetrain_canon {pq : List Instr} (s : State) (n : Nat) (h_s : Canon pq s) :
    Canon pq (State.clearRetrain s n) := by
  unfold State.clearRetrain; (try simp only [pick_eq, pickRes_eq]); grind (ematch := 40) (gen := 60) (splits := 20) -lia -linarith -ring -ac -order -mbtc -funCC [State.wr_canon, canon_pick, canon_pickRes, canon_next, canon_refused, canon_foldl, canon_foldl1, canon_foldlD]

theorem State.coreFail_canon {pq : List Instr} (s : State) (gc : Nat) (slot : Nat) (h_s : Canon pq s) :
    Canon pq (State.coreFail s gc slot) := by
  unfold State.coreFail; (try simp only [pick_eq, pickRes_eq]); grind (ematch := 40) (gen := 60) (splits := 20) -lia -linarith -ring -ac -order -mbtc -funCC [State.fencePage_canon, State.bbAdd_canon, State.mapCore_canon, State.ledgerAppend_canon, State.bringSpare_canon, canon_pick, canon_pickRes, canon_next, canon_refused, canon_foldl, canon_foldl1, canon_foldlD]

theorem State.d2dTrained_canon {pq : List Instr} (s : State) (n : Nat) (old : D2dWord) (w : D2dWord) (h_s : Canon pq s) :
    Canon pq (State.d2dTrained s n old w) := by
  unfold State.d2dTrained; (try simp only [pick_eq, pickRes_eq]); grind (ematch := 40) (gen := 60) (splits := 20) -lia -linarith -ring -ac -order -mbtc -funCC [State.showLinks_canon, State.setD2d_canon, State.bucket_canon, State.err_canon, State.bbAdd_canon, canon_pick, canon_pickRes, canon_next, canon_refused, canon_foldl, canon_foldl1, canon_foldlD]

theorem State.d2dReturn_canon {pq : List Instr} (s : State) (n : Nat) (width : Nat) (spares : Nat) (h_s : Canon pq s) :
    Canon pq (State.d2dReturn s n width spares) := by
  unfold State.d2dReturn; (try simp only [pick_eq, pickRes_eq]); grind (ematch := 40) (gen := 60) (splits := 20) -lia -linarith -ring -ac -order -mbtc -funCC [State.clearRetrain_canon, State.d2dTrained_canon, State.fatal_canon, canon_pick, canon_pickRes, canon_next, canon_refused, canon_foldl, canon_foldl1, canon_foldlD]

theorem State.showLost_canon {pq : List Instr} (s : State) (u : Nat) (part : Nat) (h_s : Canon pq s) :
    Canon pq (State.showLost s u part) := by
  unfold State.showLost; (try simp only [pick_eq, pickRes_eq]); grind (ematch := 40) (gen := 60) (splits := 20) -lia -linarith -ring -ac -order -mbtc -funCC [State.err_canon, State.wr_canon, canon_pick, canon_pickRes, canon_next, canon_refused, canon_foldl, canon_foldl1, canon_foldlD]

theorem State.unitLostRecord_canon {pq : List Instr} (s : State) (u : Nat) (h_s : Canon pq s) :
    Canon pq (State.unitLostRecord s u) := by
  unfold State.unitLostRecord; (try simp only [pick_eq, pickRes_eq]); grind (ematch := 40) (gen := 60) (splits := 20) -lia -linarith -ring -ac -order -mbtc -funCC [State.bbAdd_canon, canon_pick, canon_pickRes, canon_next, canon_refused, canon_foldl, canon_foldl1, canon_foldlD]

theorem execBbxPageProgram_canon {pq : List Instr} (fail : BitVec 2) (s : State) (h_s : Canon pq s) :
    CanonRes pq (execBbxPageProgram fail s) := by
  unfold execBbxPageProgram; (try simp only [pick_eq, pickRes_eq]); grind (ematch := 40) (gen := 60) (splits := 20) -lia -linarith -ring -ac -order -mbtc -funCC [State.bbPage_canon, canon_pick, canon_pickRes, canon_next, canon_refused, canon_foldl, canon_foldl1, canon_foldlD, canon_upd]

theorem execBbxRecord_canon {pq : List Instr} (typ : BitVec 16) (sev : BitVec 2) (src : Option Page) (part : Fin 16) (payload : List (BitVec 8)) (s : State) (h_s : Canon pq s) :
    CanonRes pq (execBbxRecord typ sev src part payload s) := by
  unfold execBbxRecord; (try simp only [pick_eq, pickRes_eq]); grind (ematch := 40) (gen := 60) (splits := 20) -lia -linarith -ring -ac -order -mbtc -funCC [State.bbAdd_canon, canon_pick, canon_pickRes, canon_next, canon_refused, canon_foldl, canon_foldl1, canon_foldlD]

theorem execClusterFail_canon {pq : List Instr} (gc : Fin 160) (s : State) (h_s : Canon pq s) :
    CanonRes pq (execClusterFail gc s) := by
  unfold execClusterFail; (try simp only [pick_eq, pickRes_eq]); grind (ematch := 40) (gen := 60) (splits := 20) -lia -linarith -ring -ac -order -mbtc -funCC [State.fencePage_canon, State.bbAdd_canon, State.ledgerAppend_canon, canon_pick, canon_pickRes, canon_next, canon_refused, canon_foldl, canon_foldl1, canon_foldlD]

theorem execCoreFail_canon {pq : List Instr} (gc : Fin 160) (slot : Fin 18) (s : State) (h_s : Canon pq s) :
    CanonRes pq (execCoreFail gc slot s) := by
  unfold execCoreFail; (try simp only [pick_eq, pickRes_eq]); grind (ematch := 40) (gen := 60) (splits := 20) -lia -linarith -ring -ac -order -mbtc -funCC [State.coreFail_canon, canon_pick, canon_pickRes, canon_next, canon_refused, canon_foldl, canon_foldl1, canon_foldlD]

theorem execCoreRetire_canon {pq : List Instr} (hub : Fin 2) (page : Fin 64) (s : State) (h_s : Canon pq s) :
    CanonRes pq (execCoreRetire hub page s) := by
  unfold execCoreRetire; (try simp only [pick_eq, pickRes_eq]); grind (ematch := 40) (gen := 60) (splits := 20) -lia -linarith -ring -ac -order -mbtc -funCC [withMsg_canon, State.answer_canon, State.coreFail_canon, canon_pick, canon_pickRes, canon_next, canon_refused, canon_foldl, canon_foldl1, canon_foldlD]

theorem execD2dLaneLoss_canon {pq : List Instr} (link : Fin 17) (width : Fin 3) (spares : Fin 9) (s : State) (h_s : Canon pq s) :
    CanonRes pq (execD2dLaneLoss link width spares s) := by
  unfold execD2dLaneLoss; (try simp only [pick_eq, pickRes_eq]); grind (ematch := 40) (gen := 60) (splits := 20) -lia -linarith -ring -ac -order -mbtc -funCC [State.d2dReturn_canon, canon_pick, canon_pickRes, canon_next, canon_refused, canon_foldl, canon_foldl1, canon_foldlD]

theorem execEvtRead_canon {pq : List Instr} (hub : Fin 2) (page : Fin 64) (s : State) (h_s : Canon pq s) :
    CanonRes pq (execEvtRead hub page s) := by
  unfold execEvtRead; (try simp only [pick_eq, pickRes_eq]); grind (ematch := 40) (gen := 60) (splits := 20) -lia -linarith -ring -ac -order -mbtc -funCC [withMsg_canon, State.answer_canon, canon_pick, canon_pickRes, canon_next, canon_refused, canon_foldl, canon_foldl1, canon_foldlD]

theorem execMemoryUnitLost_canon {pq : List Instr} (unit : Fin 112) (channels : BitVec 8) (s : State) (h_s : Canon pq s) :
    CanonRes pq (execMemoryUnitLost unit channels s) := by
  unfold execMemoryUnitLost; grind (ematch := 40) (gen := 60) (splits := 20) -lia -linarith -ring -ac -order -mbtc -funCC [State.wr_canon, State.showMem_canon, State.unitLostRecord_canon, State.err_canon, State.showLost_canon, canon_pick, canon_pickRes, canon_next, canon_refused, canon_foldl, canon_foldl1, canon_foldlD, canon_upd]

theorem execSramPatrolStep_canon {pq : List Instr} (a : SramArray) (upset : Nat) (conflict : Bool) (s : State) (h_s : Canon pq s) :
    CanonRes pq (execSramPatrolStep a upset conflict s) := by
  unfold execSramPatrolStep
  extract_lets p i u d clean t0 t t2
  have h1 : Canon pq d.state := State.decodeUnit_canon _ _ _ _ h_s
  clear_value d
  have h2 : Canon pq t := by
    simp only [t]
    split
    · exact ⟨h1.1, h1.2.1, h_s.2.2⟩
    · split
      · exact h1
      · exact State.freshUnit_canon _ _ h1
  clear_value t
  have h3 : Canon pq t2 := by
    simp only [t2]
    split
    · exact State.arrayLost_canon _ _ h2
    · exact h2
  clear_value t2
  exact canon_next (State.setSramPosOf_canon _ _ _ h3)

end Sys2Proof.Machine
end

