-- ==== Sys2Proof/Laws/CanonPower.lean ====
section
/-! SUPPORT. Every function of Machine/Power.lean keeps the queue and the canonical form of registers and memory. -/
set_option linter.unusedSimpArgs false
namespace Sys2Proof.Machine
open Sys2Proof

theorem execTelPairGo_canon {pq : List Instr} (hub : Fin 2) (s : State) (h_s : Canon pq s) :
    CanonRes pq (execTelPairGo hub s) := by
  unfold execTelPairGo; (try simp only [pick_eq, pickRes_eq]); grind (ematch := 40) (gen := 60) (splits := 20) -lia -linarith -ring -ac -order -mbtc -funCC [withPage_canon, State.ignoreWrite_canon, State.wr_canon, canon_pick, canon_pickRes, canon_next, canon_refused, canon_foldl, canon_foldl1, canon_foldlD]

theorem State.bothWr_canon {pq : List Instr} (s : State) (f : Nat → Fld) (v : Nat) (h_s : Canon pq s) :
    Canon pq (State.bothWr s f v) := by
  unfold State.bothWr; (try simp only [pick_eq, pickRes_eq]); grind (ematch := 40) (gen := 60) (splits := 20) -lia -linarith -ring -ac -order -mbtc -funCC [State.wr_canon, canon_pick, canon_pickRes, canon_next, canon_refused, canon_foldl, canon_foldl1, canon_foldlD]

theorem State.updatePoint_canon {pq : List Instr} (s : State) (d : Nat) (h_s : Canon pq s) :
    Canon pq (State.updatePoint s d) := by
  unfold State.updatePoint; (try simp only [pick_eq, pickRes_eq]); grind (ematch := 40) (gen := 60) (splits := 20) -lia -linarith -ring -ac -order -mbtc -funCC [State.bothWr_canon, canon_pick, canon_pickRes, canon_next, canon_refused, canon_foldl, canon_foldl1, canon_foldlD]

theorem State.updatePoints_canon {pq : List Instr} (s : State) (h_s : Canon pq s) :
    Canon pq (State.updatePoints s) := by
  unfold State.updatePoints; (try simp only [pick_eq, pickRes_eq]); grind (ematch := 40) (gen := 60) (splits := 20) -lia -linarith -ring -ac -order -mbtc -funCC [State.updatePoint_canon, canon_pick, canon_pickRes, canon_next, canon_refused, canon_foldl, canon_foldl1, canon_foldlD]

theorem State.charge_canon {pq : List Instr} (s : State) (lo : Nat → Fld) (n : Nat) (h_s : Canon pq s) :
    Canon pq (State.charge s lo n) := by
  unfold State.charge; (try simp only [pick_eq, pickRes_eq]); grind (ematch := 40) (gen := 60) (splits := 20) -lia -linarith -ring -ac -order -mbtc -funCC [State.step64_canon, canon_pick, canon_pickRes, canon_next, canon_refused, canon_foldl, canon_foldl1, canon_foldlD]

theorem State.cond_canon {pq : List Instr} (s : State) (i : Nat) (b : Bool) (h_s : Canon pq s) :
    Canon pq (State.cond s i b) := by
  unfold State.cond; (try simp only [pick_eq, pickRes_eq]); grind (ematch := 40) (gen := 60) (splits := 20) -lia -linarith -ring -ac -order -mbtc -funCC [canon_pick, canon_pickRes, canon_next, canon_refused, canon_foldl, canon_foldl1, canon_foldlD, canon_upd]

theorem State.crossing_canon {pq : List Instr} (s : State) (sensor : PldmSensor) (old : Option Int) (new : Option Int) (limit : Int) (h_s : Canon pq s) :
    Canon pq (State.crossing s sensor old new limit) := by
  unfold State.crossing; (try simp only [pick_eq, pickRes_eq]); grind (ematch := 40) (gen := 60) (splits := 20) -lia -linarith -ring -ac -order -mbtc -funCC [State.out_canon, canon_pick, canon_pickRes, canon_next, canon_refused, canon_foldl, canon_foldl1, canon_foldlD]

theorem State.emit_canon {pq : List Instr} (s : State) (h : Nat) (typ : Nat) (domain : Nat) (count : Nat) (payload : Bytes) (h_s : Canon pq s) :
    Canon pq (State.emit s h typ domain count payload) := by
  unfold State.emit; (try simp only [pick_eq, pickRes_eq]); grind (ematch := 40) (gen := 60) (splits := 20) -lia -linarith -ring -ac -order -mbtc -funCC [State.modTel_canon, State.err_canon, State.bump_canon, State.step1_canon, State.hostWrite_canon, canon_pick, canon_pickRes, canon_next, canon_refused, canon_foldl, canon_foldl1, canon_foldlD]

theorem State.event_canon {pq : List Instr} (s : State) (kind : Nat) (who : Nat) (h_s : Canon pq s) :
    Canon pq (State.event s kind who) := by
  have one (x : State) (h c : Nat) (l : Bytes) (hx : Canon pq x) :
      Canon pq (if (x.emit h 0x0005 0x0404 c l).rd (Reg.TEL_RING_HEAD h) = x.rd (Reg.TEL_RING_HEAD h) then x.emit h 0x0005 0x0404 c l
        else (x.emit h 0x0005 0x0404 c l).vector h 0 0) := by
    split
    · exact State.emit_canon x h _ _ c l hx
    · exact State.vector_canon _ h 0 0 (State.emit_canon x h _ _ c l hx)
  exact State.draw_canon _ (one _ _ _ _ (one _ _ _ _ h_s))

theorem State.emergSet_canon {pq : List Instr} (s : State) (on : Bool) (h_s : Canon pq s) :
    Canon pq (State.emergSet s on) := by
  unfold State.emergSet; (try simp only [pick_eq, pickRes_eq]); grind (ematch := 40) (gen := 60) (splits := 20) -lia -linarith -ring -ac -order -mbtc -funCC [State.bothWr_canon, State.updatePoints_canon, State.event_canon, State.err_canon, canon_pick, canon_pickRes, canon_next, canon_refused, canon_foldl, canon_foldl1, canon_foldlD, canon_upd]

theorem State.emergStart_canon {pq : List Instr} (s : State) (h_s : Canon pq s) :
    Canon pq (State.emergStart s) := by
  unfold State.emergStart; grind (ematch := 40) (gen := 60) (splits := 20) -lia -linarith -ring -ac -order -mbtc -funCC [State.emergSet_canon, canon_pick, canon_pickRes, canon_next, canon_refused, canon_foldl, canon_foldl1, canon_foldlD]

theorem State.exportPart_canon {pq : List Instr} (s : State) (h : Nat) (p : Nat) (count : Nat) (part : Nat) (die : Nat) (h_s : Canon pq s) :
    Canon pq (State.exportPart s h p count part die) := by
  unfold State.exportPart; (try simp only [pick_eq, pickRes_eq]); grind (ematch := 40) (gen := 60) (splits := 20) -lia -linarith -ring -ac -order -mbtc -funCC [State.offerHeld_canon, State.modTel_canon, State.draw_canon, canon_pick, canon_pickRes, canon_next, canon_refused, canon_foldl, canon_foldl1, canon_foldlD]

theorem State.modDie_canon {pq : List Instr} (s : State) (d : Nat) (f : DieP → DieP) (h_s : Canon pq s) :
    Canon pq (State.modDie s d f) := by
  unfold State.modDie; (try simp only [pick_eq, pickRes_eq]); grind (ematch := 40) (gen := 60) (splits := 20) -lia -linarith -ring -ac -order -mbtc -funCC [canon_pick, canon_pickRes, canon_next, canon_refused, canon_foldl, canon_foldl1, canon_foldlD, canon_upd]

theorem State.thermAlert_canon {pq : List Instr} (s : State) (h_s : Canon pq s) :
    Canon pq (State.thermAlert s) := by
  unfold State.thermAlert; (try simp only [pick_eq, pickRes_eq]); grind (ematch := 40) (gen := 60) (splits := 20) -lia -linarith -ring -ac -order -mbtc -funCC [State.modDie_canon, State.updatePoints_canon, State.emergStart_canon, State.event_canon, State.cond_canon, canon_pick, canon_pickRes, canon_next, canon_refused, canon_foldl, canon_foldl1, canon_foldlD]

theorem State.settleHold_canon {pq : List Instr} (s : State) (d : Nat) (h_s : Canon pq s) :
    Canon pq (State.settleHold s d) := by
  unfold State.settleHold; (try simp only [pick_eq, pickRes_eq]); grind (ematch := 40) (gen := 60) (splits := 20) -lia -linarith -ring -ac -order -mbtc -funCC [State.updatePoint_canon, State.event_canon, State.modDie_canon, canon_pick, canon_pickRes, canon_next, canon_refused, canon_foldl, canon_foldl1, canon_foldlD]

theorem State.trend_canon {pq : List Instr} (s : State) (d : Nat) (now : Nat) (h_s : Canon pq s) :
    Canon pq (State.trend s d now) := by
  unfold State.trend; (try simp only [pick_eq, pickRes_eq]); grind (ematch := 40) (gen := 60) (splits := 20) -lia -linarith -ring -ac -order -mbtc -funCC [State.modDie_canon, State.preWarn_canon, State.event_canon, State.err_canon, canon_pick, canon_pickRes, canon_next, canon_refused, canon_foldl, canon_foldl1, canon_foldlD]

theorem execDroopDetect_canon {pq : List Instr} (gc : Fin 160) (s : State) (h_s : Canon pq s) :
    CanonRes pq (execDroopDetect gc s) := by
  unfold execDroopDetect; (try simp only [pick_eq, pickRes_eq]); grind (ematch := 40) (gen := 60) (splits := 20) -lia -linarith -ring -ac -order -mbtc -funCC [State.modDie_canon, State.bump_canon, canon_pick, canon_pickRes, canon_next, canon_refused, canon_foldl, canon_foldl1, canon_foldlD]

theorem execDroopRecover_canon {pq : List Instr} (gc : Fin 160) (s : State) (h_s : Canon pq s) :
    CanonRes pq (execDroopRecover gc s) := by
  unfold execDroopRecover; (try simp only [pick_eq, pickRes_eq]); grind (ematch := 40) (gen := 60) (splits := 20) -lia -linarith -ring -ac -order -mbtc -funCC [State.modDie_canon, canon_pick, canon_pickRes, canon_next, canon_refused, canon_foldl, canon_foldl1, canon_foldlD]

theorem execDutyUpdate_canon {pq : List Instr} (part : Fin 12) (s : State) (h_s : Canon pq s) :
    CanonRes pq (execDutyUpdate part s) := by
  unfold execDutyUpdate; (try simp only [pick_eq, pickRes_eq]); grind (ematch := 40) (gen := 60) (splits := 20) -lia -linarith -ring -ac -order -mbtc -funCC [State.draw_canon, State.bothWr_canon, State.event_canon, canon_pick, canon_pickRes, canon_next, canon_refused, canon_foldl, canon_foldl1, canon_foldlD]

theorem execDvfsSwitch_canon {pq : List Instr} (die : Fin 10) (s : State) (h_s : Canon pq s) :
    CanonRes pq (execDvfsSwitch die s) := by
  unfold execDvfsSwitch; (try simp only [pick_eq, pickRes_eq]); grind (ematch := 40) (gen := 60) (splits := 20) -lia -linarith -ring -ac -order -mbtc -funCC [State.out_canon, State.bothWr_canon, canon_pick, canon_pickRes, canon_next, canon_refused, canon_foldl, canon_foldl1, canon_foldlD]

theorem execEmergencyEnd_canon {pq : List Instr} (s : State) (h_s : Canon pq s) :
    CanonRes pq (execEmergencyEnd s) := by
  unfold execEmergencyEnd; (try dsimp only); with_reducible repeat' first | assumption | exact canon_refused | apply canon_next | apply State.runPending_canon | apply State.emergSet_canon | apply canon_foldl | apply canon_foldl1 | intro _ _ _ | split

theorem execEmergencyStart_canon {pq : List Instr} (s : State) (h_s : Canon pq s) :
    CanonRes pq (execEmergencyStart s) := by
  unfold execEmergencyStart; (try simp only [pick_eq, pickRes_eq]); grind (ematch := 40) (gen := 60) (splits := 20) -lia -linarith -ring -ac -order -mbtc -funCC [State.emergStart_canon, canon_pick, canon_pickRes, canon_next, canon_refused, canon_foldl, canon_foldl1, canon_foldlD]

theorem execEnergyAccumulate_canon {pq : List Instr} (e : Energy) (s : State) (h_s : Canon pq s) :
    CanonRes pq (execEnergyAccumulate e s) := by
  unfold execEnergyAccumulate; (try simp only [pick_eq, pickRes_eq]); grind (ematch := 40) (gen := 60) (splits := 20) -lia -linarith -ring -ac -order -mbtc -funCC [State.charge_canon, State.bothWr_canon, canon_pick, canon_pickRes, canon_next, canon_refused, canon_foldl, canon_foldl1, canon_foldlD, canon_upd]

theorem execEstimatorScale_canon {pq : List Instr} (rail : Fin 12) (measured : Nat) (static : Nat) (counted : Nat) (s : State) (h_s : Canon pq s) :
    CanonRes pq (execEstimatorScale rail measured static counted s) := by
  unfold execEstimatorScale; (try simp only [pick_eq, pickRes_eq]); grind (ematch := 40) (gen := 60) (splits := 20) -lia -linarith -ring -ac -order -mbtc -funCC [canon_pick, canon_pickRes, canon_next, canon_refused, canon_foldl, canon_foldl1, canon_foldlD, canon_upd]

theorem pldm_canon {pq : List Instr} (s : State) (f : State → State × Pldm) (h_s : Canon pq s)
    (hf : ∀ s, Canon pq s → Canon pq (f s).1) : CanonRes pq (pldm s f) := by
  unfold pldm
  grind (ematch := 40) (gen := 60) [State.out_canon, canon_next]

theorem execGetpdr_canon {pq : List Instr} (handle : Nat) (s : State) (h_s : Canon pq s) :
    CanonRes pq (execGetpdr handle s) := by
  unfold execGetpdr; (try simp only [pick_eq, pickRes_eq]); grind (ematch := 40) (gen := 60) (splits := 20) -lia -linarith -ring -ac -order -mbtc -funCC [pldm_canon, canon_pick, canon_pickRes, canon_next, canon_refused, canon_foldl, canon_foldl1, canon_foldlD]

theorem execGetpdrrepositoryinfo_canon {pq : List Instr} (s : State) (h_s : Canon pq s) :
    CanonRes pq (execGetpdrrepositoryinfo s) := by
  unfold execGetpdrrepositoryinfo; (try simp only [pick_eq, pickRes_eq]); grind (ematch := 40) (gen := 60) (splits := 20) -lia -linarith -ring -ac -order -mbtc -funCC [pldm_canon, canon_pick, canon_pickRes, canon_next, canon_refused, canon_foldl, canon_foldl1, canon_foldlD]

theorem execGetsensorreading_canon {pq : List Instr} (sensor : PldmSensor) (s : State) (h_s : Canon pq s) :
    CanonRes pq (execGetsensorreading sensor s) := by
  unfold execGetsensorreading; (try simp only [pick_eq, pickRes_eq]); grind (ematch := 40) (gen := 60) (splits := 20) -lia -linarith -ring -ac -order -mbtc -funCC [pldm_canon, canon_pick, canon_pickRes, canon_next, canon_refused, canon_foldl, canon_foldl1, canon_foldlD]

theorem execGettid_canon {pq : List Instr} (s : State) (h_s : Canon pq s) :
    CanonRes pq (execGettid s) := by
  unfold execGettid; (try simp only [pick_eq, pickRes_eq]); grind (ematch := 40) (gen := 60) (splits := 20) -lia -linarith -ring -ac -order -mbtc -funCC [pldm_canon, canon_pick, canon_pickRes, canon_next, canon_refused, canon_foldl, canon_foldl1, canon_foldlD]

theorem execPairCaptureDone_canon {pq : List Instr} (hub : Fin 2) (a : BitVec 48) (b : BitVec 48) (s : State) (h_s : Canon pq s) :
    CanonRes pq (execPairCaptureDone hub a b s) := by
  unfold execPairCaptureDone; (try simp only [pick_eq, pickRes_eq]); grind (ematch := 40) (gen := 60) (splits := 20) -lia -linarith -ring -ac -order -mbtc -funCC [State.setClockOf_canon, State.wr_canon, State.step1_canon, canon_pick, canon_pickRes, canon_next, canon_refused, canon_foldl, canon_foldl1, canon_foldlD]

theorem execPowerLimitTick_canon {pq : List Instr} (watts : BitVec 16) (s : State) (h_s : Canon pq s) :
    CanonRes pq (execPowerLimitTick watts s) := by
  unfold execPowerLimitTick; (try simp only [pick_eq, pickRes_eq]); grind (ematch := 40) (gen := 60) (splits := 20) -lia -linarith -ring -ac -order -mbtc -funCC [State.bothWr_canon, State.cond_canon, State.modDie_canon, State.updatePoint_canon, canon_pick, canon_pickRes, canon_next, canon_refused, canon_foldl, canon_foldl1, canon_foldlD, canon_upd]

theorem execSensorSample_canon {pq : List Instr} (sensor : Sensor) (temp : BitVec 16) (now : Nat) (s : State) (h_s : Canon pq s) :
    CanonRes pq (execSensorSample sensor temp now s) := by
  unfold execSensorSample; (try simp only [pick_eq, pickRes_eq]); grind (ematch := 40) (gen := 60) (splits := 20) -lia -linarith -ring -ac -order -mbtc -funCC [State.modDie_canon, State.bothWr_canon, State.trend_canon, State.settleHold_canon, State.cond_canon, State.crossing_canon, State.wr_canon, canon_pick, canon_pickRes, canon_next, canon_refused, canon_foldl, canon_foldl1, canon_foldlD, canon_upd]

theorem execSeteventreceiver_canon {pq : List Instr} (polling : Bool) (receiver : Option (BitVec 8)) (s : State) (h_s : Canon pq s) :
    CanonRes pq (execSeteventreceiver polling receiver s) := by
  unfold execSeteventreceiver; (try simp only [pick_eq, pickRes_eq]); grind (ematch := 40) (gen := 60) (splits := 20) -lia -linarith -ring -ac -order -mbtc -funCC [pldm_canon, State.modTel_canon, canon_pick, canon_pickRes, canon_next, canon_refused, canon_foldl, canon_foldl1, canon_foldlD]

theorem execTelPeriod_canon {pq : List Instr} (hub : Fin 2) (count : BitVec 48) (pairs : List (BitVec 48 × BitVec 48)) (s : State) (h_s : Canon pq s) :
    CanonRes pq (execTelPeriod hub count pairs s) := by
  unfold execTelPeriod; (try simp only [pick_eq, pickRes_eq]); grind (ematch := 40) (gen := 60) (splits := 20) -lia -linarith -ring -ac -order -mbtc -funCC [State.setClockOf_canon, State.emit_canon, State.vector_canon, State.exportPart_canon, canon_pick, canon_pickRes, canon_next, canon_refused, canon_foldl, canon_foldl1, canon_foldlD]

theorem execThermAlertN_canon {pq : List Instr} (s : State) (h_s : Canon pq s) :
    CanonRes pq (execThermAlertN s) := by
  unfold execThermAlertN; (try simp only [pick_eq, pickRes_eq]); grind (ematch := 40) (gen := 60) (splits := 20) -lia -linarith -ring -ac -order -mbtc -funCC [State.thermAlert_canon, canon_pick, canon_pickRes, canon_next, canon_refused, canon_foldl, canon_foldl1, canon_foldlD, canon_upd]

theorem execThermAlertRelease_canon {pq : List Instr} (s : State) (h_s : Canon pq s) :
    CanonRes pq (execThermAlertRelease s) := by
  unfold execThermAlertRelease; (try simp only [pick_eq, pickRes_eq]); grind (ematch := 40) (gen := 60) (splits := 20) -lia -linarith -ring -ac -order -mbtc -funCC [State.cond_canon, State.settleHold_canon, canon_pick, canon_pickRes, canon_next, canon_refused, canon_foldl, canon_foldl1, canon_foldlD, canon_upd]

theorem execThermalLimitTick_canon {pq : List Instr} (die : Fin 10) (s : State) (h_s : Canon pq s) :
    CanonRes pq (execThermalLimitTick die s) := by
  unfold execThermalLimitTick; (try simp only [pick_eq, pickRes_eq]); grind (ematch := 40) (gen := 60) (splits := 20) -lia -linarith -ring -ac -order -mbtc -funCC [State.updatePoint_canon, State.modDie_canon, canon_pick, canon_pickRes, canon_next, canon_refused, canon_foldl, canon_foldl1, canon_foldlD]

end Sys2Proof.Machine
end

