-- ==== Sys2Proof/Laws/CanonBringup.lean ====
section
/-! SUPPORT. Every function of Machine/Bringup.lean keeps the queue and the canonical form of registers and memory. -/
set_option linter.unusedSimpArgs false
namespace Sys2Proof.Machine
open Sys2Proof

theorem State.stepBegin_canon {pq : List Instr} (s : State) (n : Nat) (h_s : Canon pq s) :
    Canon pq (State.stepBegin s n) := by
  unfold State.stepBegin; (try simp only [pick_eq, pickRes_eq]); grind (ematch := 40) (gen := 60) (splits := 20) -lia -linarith -ring -ac -order -mbtc -funCC [State.wr_canon, State.vector_canon, canon_pick, canon_pickRes, canon_next, canon_refused, canon_foldl, canon_foldl1, canon_foldlD, canon_upd]

theorem runStep_canon {pq : List Instr} (n : Nat) (s : State) (f : State → State) (h_s : Canon pq s)
    (hf : ∀ s, Canon pq s → Canon pq (f s)) : CanonRes pq (runStep n s f) := by
  unfold runStep
  grind (ematch := 40) (gen := 60) [State.ignoreWrite_canon, State.stepBegin_canon, canon_next]

theorem execTrainD2d_canon {pq : List Instr} (s : State) (h_s : Canon pq s) :
    CanonRes pq (execTrainD2d s) := by
  unfold execTrainD2d; (try simp only [pick_eq, pickRes_eq]); grind (ematch := 40) (gen := 60) (splits := 20) -lia -linarith -ring -ac -order -mbtc -funCC [runStep_canon, State.setD2d_canon, State.bringEnable_canon, canon_pick, canon_pickRes, canon_next, canon_refused, canon_foldl, canon_foldl1, canon_foldlD]

theorem State.retrainUnit_canon {pq : List Instr} (s : State) (u : Nat) (h_s : Canon pq s) :
    Canon pq (State.retrainUnit s u) := by
  unfold State.retrainUnit; (try simp only [pick_eq, pickRes_eq]); grind (ematch := 40) (gen := 60) (splits := 20) -lia -linarith -ring -ac -order -mbtc -funCC [canon_pick, canon_pickRes, canon_next, canon_refused, canon_foldl, canon_foldl1, canon_foldlD, canon_upd]

theorem State.trainMemory_canon {pq : List Instr} (s : State) (pages : List Page) (h_s : Canon pq s) :
    Canon pq (State.trainMemory s pages) := by
  unfold State.trainMemory; (try simp only [pick_eq, pickRes_eq]); grind (ematch := 40) (gen := 60) (splits := 20) -lia -linarith -ring -ac -order -mbtc -funCC [State.bringEnable_canon, State.retrainUnit_canon, canon_pick, canon_pickRes, canon_next, canon_refused, canon_foldl, canon_foldl1, canon_foldlD]

theorem execTrainHbm_canon {pq : List Instr} (s : State) (h_s : Canon pq s) :
    CanonRes pq (execTrainHbm s) := by
  unfold execTrainHbm; (try simp only [pick_eq, pickRes_eq]); grind (ematch := 40) (gen := 60) (splits := 20) -lia -linarith -ring -ac -order -mbtc -funCC [runStep_canon, State.trainMemory_canon, canon_pick, canon_pickRes, canon_next, canon_refused, canon_foldl, canon_foldl1, canon_foldlD]

theorem execTrainLpddr_canon {pq : List Instr} (s : State) (h_s : Canon pq s) :
    CanonRes pq (execTrainLpddr s) := by
  unfold execTrainLpddr; (try simp only [pick_eq, pickRes_eq]); grind (ematch := 40) (gen := 60) (splits := 20) -lia -linarith -ring -ac -order -mbtc -funCC [runStep_canon, State.trainMemory_canon, canon_pick, canon_pickRes, canon_next, canon_refused, canon_foldl, canon_foldl1, canon_foldlD]

theorem execTrainEth_canon {pq : List Instr} (s : State) (h_s : Canon pq s) :
    CanonRes pq (execTrainEth s) := by
  unfold execTrainEth; (try simp only [pick_eq, pickRes_eq]); grind (ematch := 40) (gen := 60) (splits := 20) -lia -linarith -ring -ac -order -mbtc -funCC [runStep_canon, State.readyPage_canon, State.bringEnable_canon, State.train800_canon, canon_pick, canon_pickRes, canon_next, canon_refused, canon_foldl, canon_foldl1, canon_foldlD]

theorem execTrainSsd_canon {pq : List Instr} (s : State) (h_s : Canon pq s) :
    CanonRes pq (execTrainSsd s) := by
  unfold execTrainSsd; (try simp only [pick_eq, pickRes_eq]); grind (ematch := 40) (gen := 60) (splits := 20) -lia -linarith -ring -ac -order -mbtc -funCC [runStep_canon, State.readyPage_canon, State.bringEnable_canon, State.modSlot_canon, State.slotOn_canon, canon_pick, canon_pickRes, canon_next, canon_refused, canon_foldl, canon_foldl1, canon_foldlD]

theorem State.degradeStep_canon {pq : List Instr} (s : State) (n : Nat) (h_s : Canon pq s) :
    Canon pq (State.degradeStep s n) := by
  unfold State.degradeStep; (try simp only [pick_eq, pickRes_eq]); grind (ematch := 40) (gen := 60) (splits := 20) -lia -linarith -ring -ac -order -mbtc -funCC [canon_pick, canon_pickRes, canon_next, canon_refused, canon_foldl, canon_foldl1, canon_foldlD, canon_upd]

theorem State.ledgerNew_canon {pq : List Instr} (s : State) (kind : BitVec 8) (location : Nat) (h_s : Canon pq s) :
    Canon pq (State.ledgerNew s kind location) := by
  unfold State.ledgerNew; (try simp only [pick_eq, pickRes_eq]); grind (ematch := 40) (gen := 60) (splits := 20) -lia -linarith -ring -ac -order -mbtc -funCC [State.ledgerAppend_canon, canon_pick, canon_pickRes, canon_next, canon_refused, canon_foldl, canon_foldl1, canon_foldlD]

theorem execSelfTest_canon {pq : List Instr} (found : SelfFound) (s : State) (h_s : Canon pq s) :
    CanonRes pq (execSelfTest found s) := by
  unfold execSelfTest; (try simp only [pick_eq, pickRes_eq]); grind (ematch := 40) (gen := 60) (splits := 20) -lia -linarith -ring -ac -order -mbtc -funCC [runStep_canon, State.degradeStep_canon, State.poisonRegions_canon, State.ledgerNew_canon, canon_pick, canon_pickRes, canon_next, canon_refused, canon_foldl, canon_foldl1, canon_foldlD, canon_upd]

theorem State.mapTier2_canon {pq : List Instr} (s : State) (h_s : Canon pq s) :
    Canon pq (State.mapTier2 s) := by
  unfold State.mapTier2; (try simp only [pick_eq, pickRes_eq]); grind (ematch := 40) (gen := 60) (splits := 20) -lia -linarith -ring -ac -order -mbtc -funCC [State.wr_canon, canon_pick, canon_pickRes, canon_next, canon_refused, canon_foldl, canon_foldl1, canon_foldlD, canon_upd]

theorem State.fixModes_canon {pq : List Instr} (s : State) (h_s : Canon pq s) :
    Canon pq (State.fixModes s) := by
  unfold State.fixModes; (try simp only [pick_eq, pickRes_eq]); grind (ematch := 40) (gen := 60) (splits := 20) -lia -linarith -ring -ac -order -mbtc -funCC [State.wr_canon, canon_pick, canon_pickRes, canon_next, canon_refused, canon_foldl, canon_foldl1, canon_foldlD]

theorem State.pageOff_canon {pq : List Instr} (s : State) (p : Page) (h_s : Canon pq s) :
    Canon pq (State.pageOff s p) := by
  unfold State.pageOff; (try simp only [pick_eq, pickRes_eq]); grind (ematch := 40) (gen := 60) (splits := 20) -lia -linarith -ring -ac -order -mbtc -funCC [State.wr_canon, canon_pick, canon_pickRes, canon_next, canon_refused, canon_foldl, canon_foldl1, canon_foldlD]

theorem State.mapCluster_canon {pq : List Instr} (s : State) (gc : Nat) (h_s : Canon pq s) :
    Canon pq (State.mapCluster s gc) := by
  unfold State.mapCluster; (try simp only [pick_eq, pickRes_eq]); grind (ematch := 40) (gen := 60) (splits := 20) -lia -linarith -ring -ac -order -mbtc -funCC [State.setReg_canon, State.mapCore_canon, State.pageOff_canon, canon_pick, canon_pickRes, canon_next, canon_refused, canon_foldl, canon_foldl1, canon_foldlD]

theorem execBuildMap_canon {pq : List Instr} (s : State) (h_s : Canon pq s) : CanonRes pq (execBuildMap s) := by
  unfold execBuildMap
  refine runStep_canon _ _ _ h_s fun s h_s => ?_
  extract_lets s1 s2 absent s3
  have h1 : Canon pq s1 := State.mapTier2_canon _ (State.fixModes_canon _ (canon_foldl _ _ _ h_s fun u gc h => State.mapCluster_canon _ _ h))
  clear_value s1
  have h2 : Canon pq s2 := by
    refine canon_foldl _ _ _ h1 fun u e h => ?_
    split
    · have h5 := State.retireInto_canon u e.location.toNat h
      cases hx : u.retireInto e.location.toNat with
      | none => exact h
      | some t => exact h5 t hx
    · exact h
  clear_value s2
  have h3 : Canon pq s3 := State.showMem_canon _ (State.wr_canon _ _ _ h2)
  clear_value s3
  split
  · exact h3
  · exact State.degradeStep_canon _ _ h3

theorem execMemFill_canon {pq : List Instr} (s : State) (h_s : Canon pq s) :
    CanonRes pq (execMemFill s) := by
  unfold execMemFill; (try simp only [pick_eq, pickRes_eq]); grind (ematch := 40) (gen := 60) (splits := 20) -lia -linarith -ring -ac -order -mbtc -funCC [runStep_canon, State.setRegion_canon, canon_pick, canon_pickRes, canon_next, canon_refused, canon_foldl, canon_foldl1, canon_foldlD]

theorem execLoadFw_canon {pq : List Instr} (s : State) (h_s : Canon pq s) : CanonRes pq (execLoadFw s) := by
  unfold execLoadFw
  refine runStep_canon _ _ _ h_s fun s h_s => ?_
  extract_lets manifest images tables result r c gcs s1 s2
  have hr : ∀ u st, Canon pq u → Canon pq (result u st) := fun u st h => h
  have h1 : Canon pq r.1 := canon_via (State.readManifest_canon _ _ _ h_s) rfl
  clear_value result r
  have h2 : Canon pq c.1 := canon_via (State.checkPlaced_canon _ _ h1) rfl
  clear_value c
  have h3 : Canon pq s1 := State.writeTables_canon _ _ _ _ h2
  clear_value s1
  have h4 : Canon pq s2 := canon_foldl _ _ _ h3 fun u gc h => State.wr_canon _ _ _ h
  clear_value s2
  split
  · exact hr _ _ h_s
  · split
    · exact hr _ _ h1
    · split
      · exact hr _ _ h2
      · refine canon_foldl _ _ _ h4 fun u gc h => canon_foldl _ _ _ h fun u k h => ?_
        split
        · exact State.enableCore_canon _ _ h
        · exact h

theorem execStart_canon {pq : List Instr} (s : State) (h_s : Canon pq s) :
    CanonRes pq (execStart s) := by
  unfold execStart; (try simp only [pick_eq, pickRes_eq]); grind (ematch := 40) (gen := 60) (splits := 20) -lia -linarith -ring -ac -order -mbtc -funCC [runStep_canon, State.err_canon, State.wr_canon, State.updateCto_canon, canon_pick, canon_pickRes, canon_next, canon_refused, canon_foldl, canon_foldl1, canon_foldlD, canon_upd]

theorem State.bootBoard_canon {pq : List Instr} (s : State) (f : RomFound) (h_s : Canon pq s) :
    Canon pq (State.bootBoard s f) := by
  unfold State.bootBoard; (try simp only [pick_eq, pickRes_eq]); grind (ematch := 40) (gen := 60) (splits := 20) -lia -linarith -ring -ac -order -mbtc -funCC [State.measureImage_canon, State.rejectImage_canon, canon_pick, canon_pickRes, canon_next, canon_refused, canon_foldl, canon_foldl1, canon_foldlD, canon_upd]

theorem State.bootIdentity_canon {pq : List Instr} (s : State) (idMatch : Bool) (h_s : Canon pq s) :
    Canon pq (State.bootIdentity s idMatch) := by
  unfold State.bootIdentity; (try simp only [pick_eq, pickRes_eq]); grind (ematch := 40) (gen := 60) (splits := 20) -lia -linarith -ring -ac -order -mbtc -funCC [State.wr_canon, State.showOwner_canon, State.err_canon, canon_pick, canon_pickRes, canon_next, canon_refused, canon_foldl, canon_foldl1, canon_foldlD, canon_upd]

theorem State.trySlot_canon {pq : List Instr} (s : State) (slot : Nat) (h_s : Canon pq s) :
    Canon pq (State.trySlot s slot).1 := by
  unfold State.trySlot; (try simp only [pick_eq, pickRes_eq]); grind (ematch := 40) (gen := 60) (splits := 20) -lia -linarith -ring -ac -order -mbtc -funCC [State.modFwslot_canon, State.checkImage_canon, canon_pick, canon_pickRes, canon_next, canon_refused, canon_foldl, canon_foldl1, canon_foldlD]

theorem State.bootSlot_canon {pq : List Instr} (s : State) (h_s : Canon pq s) :
    Canon pq (State.bootSlot s).1 := by
  unfold State.bootSlot; (try simp only [pick_eq, pickRes_eq]); grind (ematch := 40) (gen := 60) (splits := 20) -lia -linarith -ring -ac -order -mbtc -funCC [State.trySlot_canon, State.err_canon, canon_pick, canon_pickRes, canon_next, canon_refused, canon_foldl, canon_foldl1, canon_foldlD]

theorem State.bruOn_canon {pq : List Instr} (s : State) (h_s : Canon pq s) :
    Canon pq (State.bruOn s) := by
  unfold State.bruOn; (try simp only [pick_eq, pickRes_eq]); grind (ematch := 40) (gen := 60) (splits := 20) -lia -linarith -ring -ac -order -mbtc -funCC [State.wr_canon, State.pageOn_canon, canon_pick, canon_pickRes, canon_next, canon_refused, canon_foldl, canon_foldl1, canon_foldlD]

theorem State.kept_canon {pq : List Instr} (s : State) (pins : Pins) (warm : Bool) (h_s : Canon pq s) : Canon pq (s.kept pins warm) :=
  ⟨h_s.1, rfl, rfl⟩

theorem State.coldReset_canon {pq : List Instr} (s : State) (cause : BitVec 4) (h_s : Canon pq s) :
    Canon pq (State.coldReset s cause) := by
  unfold State.coldReset; (try simp only [pick_eq, pickRes_eq]); grind (ematch := 40) (gen := 60) (splits := 20) -lia -linarith -ring -ac -order -mbtc -funCC [State.kept_canon, canon_pick, canon_pickRes, canon_next, canon_refused, canon_foldl, canon_foldl1, canon_foldlD]

theorem State.darkCluster_canon {pq : List Instr} (s : State) (gc : Nat) (h_s : Canon pq s) :
    Canon pq (State.darkCluster s gc) := by
  unfold State.darkCluster; (try simp only [pick_eq, pickRes_eq]); grind (ematch := 40) (gen := 60) (splits := 20) -lia -linarith -ring -ac -order -mbtc -funCC [State.fencePage_canon, State.bbAdd_canon, canon_pick, canon_pickRes, canon_next, canon_refused, canon_foldl, canon_foldl1, canon_foldlD]

theorem State.darkSerdes_canon {pq : List Instr} (s : State) (h_s : Canon pq s) :
    Canon pq (State.darkSerdes s) := by
  unfold State.darkSerdes; (try simp only [pick_eq, pickRes_eq]); grind (ematch := 40) (gen := 60) (splits := 20) -lia -linarith -ring -ac -order -mbtc -funCC [State.err_canon, State.linkGone_canon, State.ethDown_canon, State.toSlot_canon, State.surprise_canon, canon_pick, canon_pickRes, canon_next, canon_refused, canon_foldl, canon_foldl1, canon_foldlD, canon_upd]

theorem State.darkUnit_canon {pq : List Instr} (s : State) (u : Nat) (h_s : Canon pq s) :
    Canon pq (State.darkUnit s u) := by
  unfold State.darkUnit; (try simp only [pick_eq, pickRes_eq]); grind (ematch := 40) (gen := 60) (splits := 20) -lia -linarith -ring -ac -order -mbtc -funCC [State.wr_canon, State.showLost_canon, State.unitLostRecord_canon, canon_pick, canon_pickRes, canon_next, canon_refused, canon_foldl, canon_foldl1, canon_foldlD, canon_upd]

theorem State.epochsUp_canon {pq : List Instr} (s : State) (old : State) (h_s : Canon pq s) :
    Canon pq (State.epochsUp s old) := by
  unfold State.epochsUp; (try simp only [pick_eq, pickRes_eq]); grind (ematch := 40) (gen := 60) (splits := 20) -lia -linarith -ring -ac -order -mbtc -funCC [State.wr_canon, canon_pick, canon_pickRes, canon_next, canon_refused, canon_foldl, canon_foldl1, canon_foldlD]

theorem State.flushBox_canon {pq : List Instr} (s : State) (h_s : Canon pq s) :
    Canon pq (State.flushBox s) := by
  unfold State.flushBox; (try simp only [pick_eq, pickRes_eq]); grind (ematch := 40) (gen := 60) (splits := 20) -lia -linarith -ring -ac -order -mbtc -funCC [State.bbAdd_canon, State.bbPage_canon, canon_pick, canon_pickRes, canon_next, canon_refused, canon_foldl, canon_foldl1, canon_foldlD, canon_upd]

theorem State.memTrained_canon {pq : List Instr} (s : State) (u : Nat) (channels : Nat) (degraded : Bool) (h_s : Canon pq s) :
    Canon pq (State.memTrained s u channels degraded) := by
  unfold State.memTrained; (try simp only [pick_eq, pickRes_eq]); grind (ematch := 40) (gen := 60) (splits := 20) -lia -linarith -ring -ac -order -mbtc -funCC [State.wr_canon, State.draw_canon, State.setT2key_canon, State.setRegion_canon, State.degradeStep_canon, State.showLost_canon, State.unitLostRecord_canon, State.readyPage_canon, State.showMem_canon, canon_pick, canon_pickRes, canon_next, canon_refused, canon_foldl, canon_foldl1, canon_foldlD, canon_upd]

theorem State.openBoot_canon {pq : List Instr} (s : State) (h_s : Canon pq s) :
    Canon pq (State.openBoot s) := by
  unfold State.openBoot; (try simp only [pick_eq, pickRes_eq]); grind (ematch := 40) (gen := 60) (splits := 20) -lia -linarith -ring -ac -order -mbtc -funCC [State.wr_canon, State.bbAdd_canon, canon_pick, canon_pickRes, canon_next, canon_refused, canon_foldl, canon_foldl1, canon_foldlD, canon_upd]

theorem State.openLinks_canon {pq : List Instr} (s : State) (h_s : Canon pq s) :
    Canon pq (State.openLinks s) := by
  unfold State.openLinks; (try simp only [pick_eq, pickRes_eq]); grind (ematch := 40) (gen := 60) (splits := 20) -lia -linarith -ring -ac -order -mbtc -funCC [State.updateCto_canon, State.modLink_canon, canon_pick, canon_pickRes, canon_next, canon_refused, canon_foldl, canon_foldl1, canon_foldlD]

theorem State.powerFail_canon {pq : List Instr} (s : State) (h_s : Canon pq s) :
    Canon pq (State.powerFail s) := by
  unfold State.powerFail; (try simp only [pick_eq, pickRes_eq]); grind (ematch := 40) (gen := 60) (splits := 20) -lia -linarith -ring -ac -order -mbtc -funCC [State.emergStart_canon, State.cond_canon, State.flushBox_canon, canon_pick, canon_pickRes, canon_next, canon_refused, canon_foldl, canon_foldl1, canon_foldlD]

theorem State.startFw_canon {pq : List Instr} (s : State) (slot : Nat) (h_s : Canon pq s) :
    Canon pq (State.startFw s slot) := by
  unfold State.startFw; (try dsimp only); with_reducible repeat' first | assumption | exact canon_refused | apply canon_next | apply State.runFw_canon | apply State.checkImage_canon | apply canon_foldl | apply canon_foldl1 | intro _ _ _ | split

theorem State.romPins_canon {pq : List Instr} (s : State) (h_s : Canon pq s) :
    Canon pq (State.romPins s) := by
  unfold State.romPins; grind (ematch := 40) (gen := 60) (splits := 20) -lia -linarith -ring -ac -order -mbtc -funCC [State.thermAlert_canon, State.powerFail_canon, canon_pick, canon_pickRes, canon_next, canon_refused, canon_foldl, canon_foldl1, canon_foldlD]

theorem State.romPagesOn_canon {pq : List Instr} (s : State) (h_s : Canon pq s) :
    Canon pq (State.romPagesOn s) := by
  unfold State.romPagesOn; grind (ematch := 40) (gen := 60) (splits := 20) -lia -linarith -ring -ac -order -mbtc -funCC [State.bruOn_canon, State.pageOn_canon, State.openLinks_canon, State.bothWr_canon, State.updatePoints_canon, canon_pick, canon_pickRes, canon_next, canon_refused, canon_foldl, canon_foldl1, canon_foldlD, canon_upd]

theorem State.stepDone_canon {pq : List Instr} (s : State) (n : Nat) (result : BitVec 8) (degraded : Bool) (h_s : Canon pq s) :
    Canon pq (State.stepDone s n result degraded) := by
  unfold State.stepDone; (try simp only [pick_eq, pickRes_eq]); grind (ematch := 40) (gen := 60) (splits := 20) -lia -linarith -ring -ac -order -mbtc -funCC [State.wr_canon, State.err_canon, State.vector_canon, canon_pick, canon_pickRes, canon_next, canon_refused, canon_foldl, canon_foldl1, canon_foldlD, canon_upd]

theorem State.romBoot_canon {pq : List Instr} (s : State) (f : RomFound) (slot : Nat) (h_s : Canon pq s) :
    Canon pq (State.romBoot s f slot) := by
  unfold State.romBoot; grind (ematch := 40) (gen := 60) (splits := 20) -lia -linarith -ring -ac -order -mbtc -funCC [State.startFw_canon, State.romPins_canon, State.romPagesOn_canon, State.bootBoard_canon, State.bootIdentity_canon, State.wr_canon, State.stepDone_canon, canon_pick, canon_pickRes, canon_next, canon_refused, canon_foldl, canon_foldl1, canon_foldlD, canon_upd]

theorem State.romEmpty_canon {pq : List Instr} (s : State) (h_s : Canon pq s) :
    Canon pq (State.romEmpty s) := by
  unfold State.romEmpty; grind (ematch := 40) (gen := 60) (splits := 20) -lia -linarith -ring -ac -order -mbtc -funCC [State.bruOn_canon, State.pageOn_canon, State.romPins_canon, State.openLinks_canon, State.wr_canon, State.stepDone_canon, canon_pick, canon_pickRes, canon_next, canon_refused, canon_foldl, canon_foldl1, canon_foldlD, canon_upd]

theorem State.romFound_canon {pq : List Instr} (f : RomFound) (b : State × Option Nat) (h_b : Canon pq b.1) :
    Canon pq (State.romFound f b) := by
  unfold State.romFound; grind (ematch := 40) (gen := 60) (splits := 20) -lia -linarith -ring -ac -order -mbtc -funCC [State.romEmpty_canon, State.romBoot_canon, canon_pick, canon_pickRes, canon_next, canon_refused, canon_foldl, canon_foldl1, canon_foldlD, canon_upd]

theorem State.romOpen_canon {pq : List Instr} (s : State) (f : RomFound) (h_s : Canon pq s) :
    Canon pq (State.romOpen s f) := by
  unfold State.romOpen; grind (ematch := 40) (gen := 60) (splits := 20) -lia -linarith -ring -ac -order -mbtc -funCC [State.openBoot_canon, State.flushBox_canon, State.modFwslot_canon, canon_pick, canon_pickRes, canon_next, canon_refused, canon_foldl, canon_foldl1, canon_foldlD, canon_upd]

theorem execBruStepFinish_canon {pq : List Instr} (step : Fin 12) (s : State) (h_s : Canon pq s) :
    CanonRes pq (execBruStepFinish step s) := by
  unfold execBruStepFinish; (try simp only [pick_eq, pickRes_eq]); grind (ematch := 40) (gen := 60) (splits := 20) -lia -linarith -ring -ac -order -mbtc -funCC [State.wr_canon, State.step1_canon, State.stepDone_canon, canon_pick, canon_pickRes, canon_next, canon_refused, canon_foldl, canon_foldl1, canon_foldlD, canon_upd]

theorem execPfailN_canon {pq : List Instr} (s : State) (h_s : Canon pq s) :
    CanonRes pq (execPfailN s) := by
  unfold execPfailN; (try simp only [pick_eq, pickRes_eq]); grind (ematch := 40) (gen := 60) (splits := 20) -lia -linarith -ring -ac -order -mbtc -funCC [State.powerFail_canon, canon_pick, canon_pickRes, canon_next, canon_refused, canon_foldl, canon_foldl1, canon_foldlD, canon_upd]

theorem execPfailRelease_canon {pq : List Instr} (s : State) (h_s : Canon pq s) :
    CanonRes pq (execPfailRelease s) := by
  unfold execPfailRelease; (try simp only [pick_eq, pickRes_eq]); grind (ematch := 40) (gen := 60) (splits := 20) -lia -linarith -ring -ac -order -mbtc -funCC [State.cond_canon, canon_pick, canon_pickRes, canon_next, canon_refused, canon_foldl, canon_foldl1, canon_foldlD, canon_upd]

theorem execPorstN_canon {pq : List Instr} (s : State) (h_s : Canon pq s) :
    CanonRes pq (execPorstN s) := by
  unfold execPorstN; (try simp only [pick_eq, pickRes_eq]); grind (ematch := 40) (gen := 60) (splits := 20) -lia -linarith -ring -ac -order -mbtc -funCC [State.coldReset_canon, canon_pick, canon_pickRes, canon_next, canon_refused, canon_foldl, canon_foldl1, canon_foldlD]

theorem execPowerUp_canon {pq : List Instr} (ok : Bool) (s : State) (h_s : Canon pq s) :
    CanonRes pq (execPowerUp ok s) := by
  unfold execPowerUp; (try simp only [pick_eq, pickRes_eq]); grind (ematch := 40) (gen := 60) (splits := 20) -lia -linarith -ring -ac -order -mbtc -funCC [State.coldReset_canon, canon_pick, canon_pickRes, canon_next, canon_refused, canon_foldl, canon_foldl1, canon_foldlD, canon_upd]

theorem execPwrOkAssert_canon {pq : List Instr} (i : Fin 16) (s : State) (h_s : Canon pq s) :
    CanonRes pq (execPwrOkAssert i s) := by
  unfold execPwrOkAssert; (try simp only [pick_eq, pickRes_eq]); grind (ematch := 40) (gen := 60) (splits := 20) -lia -linarith -ring -ac -order -mbtc -funCC [canon_pick, canon_pickRes, canon_next, canon_refused, canon_foldl, canon_foldl1, canon_foldlD, canon_upd]

theorem execPwrOkDeassert_canon {pq : List Instr} (i : Fin 16) (s : State) (h_s : Canon pq s) :
    CanonRes pq (execPwrOkDeassert i s) := by
  unfold execPwrOkDeassert; (try simp only [pick_eq, pickRes_eq]); grind (ematch := 40) (gen := 60) (splits := 20) -lia -linarith -ring -ac -order -mbtc -funCC [State.bbAdd_canon, State.coldReset_canon, State.fatal_canon, State.darkCluster_canon, State.showMem_canon, State.darkUnit_canon, State.d2dReturn_canon, State.darkSerdes_canon, canon_pick, canon_pickRes, canon_next, canon_refused, canon_foldl, canon_foldl1, canon_foldlD, canon_upd]

theorem execRefclkRestart_canon {pq : List Instr} (clk : Fin 5) (s : State) (h_s : Canon pq s) :
    CanonRes pq (execRefclkRestart clk s) := by
  unfold execRefclkRestart; (try simp only [pick_eq, pickRes_eq]); grind (ematch := 40) (gen := 60) (splits := 20) -lia -linarith -ring -ac -order -mbtc -funCC [State.modLink_canon, canon_pick, canon_pickRes, canon_next, canon_refused, canon_foldl, canon_foldl1, canon_foldlD, canon_upd]

theorem execRefclkStop_canon {pq : List Instr} (clk : Fin 5) (s : State) (h_s : Canon pq s) :
    CanonRes pq (execRefclkStop clk s) := by
  unfold execRefclkStop; (try simp only [pick_eq, pickRes_eq]); grind (ematch := 40) (gen := 60) (splits := 20) -lia -linarith -ring -ac -order -mbtc -funCC [State.coldReset_canon, State.modLink_canon, State.linkDown_canon, State.ethDown_canon, canon_pick, canon_pickRes, canon_next, canon_refused, canon_foldl, canon_foldl1, canon_foldlD, canon_upd]

theorem execRomCheck_canon {pq : List Instr} (f : RomFound) (s : State) (h_s : Canon pq s) :
    CanonRes pq (execRomCheck f s) := by
  unfold execRomCheck; grind (ematch := 40) (gen := 60) (splits := 20) -lia -linarith -ring -ac -order -mbtc -funCC [State.romFound_canon, State.bootSlot_canon, State.romOpen_canon, canon_pick, canon_pickRes, canon_next, canon_refused, canon_foldl, canon_foldl1, canon_foldlD]

theorem execUnitTrained_canon {pq : List Instr} (found : UnitFound) (fallback : Bool) (s : State) (h_s : Canon pq s) :
    CanonRes pq (execUnitTrained found fallback s) := by
  unfold execUnitTrained; (try simp only [pick_eq, pickRes_eq]); grind (ematch := 40) (gen := 60) (splits := 20) -lia -linarith -ring -ac -order -mbtc -funCC [State.err_canon, State.d2dReturn_canon, State.readyPage_canon, State.degradeStep_canon, State.memTrained_canon, canon_pick, canon_pickRes, canon_next, canon_refused, canon_foldl, canon_foldl1, canon_foldlD]

theorem execWrstN_canon {pq : List Instr} (s : State) (h_s : Canon pq s) :
    CanonRes pq (execWrstN s) := by
  unfold execWrstN; (try simp only [pick_eq, pickRes_eq]); grind (ematch := 40) (gen := 60) (splits := 20) -lia -linarith -ring -ac -order -mbtc -funCC [State.epochsUp_canon, State.kept_canon, State.wr_canon, canon_pick, canon_pickRes, canon_next, canon_refused, canon_foldl, canon_foldl1, canon_foldlD, canon_upd]

end Sys2Proof.Machine
end

