-- ==== Sys2Proof/Laws/CanonMatrix.lean ====
section
/-! SUPPORT. Every function of Machine/Matrix.lean keeps the queue and the canonical form of registers and memory. -/
set_option linter.unusedSimpArgs false
namespace Sys2Proof.Machine
open Sys2Proof

theorem State.storeBytes_canon {pq : List Instr} (s : State) (l : List (Nat × BitVec 8)) (h_s : Canon pq s) :
    Canon pq (State.storeBytes s l) := by
  unfold State.storeBytes; (try simp only [pick_eq, pickRes_eq]); grind (ematch := 40) (gen := 60) (splits := 20) -lia -linarith -ring -ac -order -mbtc -funCC [State.setByte_canon, State.freshUnit_canon, State.setClean_canon, State.putBytes_canon, canon_pick, canon_pickRes, canon_next, canon_refused, canon_foldl, canon_foldl1, canon_foldlD]

theorem State.drainWrite_canon {pq : List Instr} (s : State) (p : Nat) (o : MOp) (h_s : Canon pq s) :
    Canon pq (State.drainWrite s p o) := by
  unfold State.drainWrite; (try simp only [pick_eq, pickRes_eq]); grind (ematch := 40) (gen := 60) (splits := 20) -lia -linarith -ring -ac -order -mbtc -funCC [State.freshUnit_canon, State.poisonUnit_canon, State.storeBytes_canon, State.modCore_canon, canon_pick, canon_pickRes, canon_next, canon_refused, canon_foldl, canon_foldl1, canon_foldlD]

theorem State.freshTile_canon {pq : List Instr} (s : State) (p : Nat) (h_s : Canon pq s) :
    Canon pq (State.freshTile s p) := by
  unfold State.freshTile; (try simp only [pick_eq, pickRes_eq]); grind (ematch := 40) (gen := 60) (splits := 20) -lia -linarith -ring -ac -order -mbtc -funCC [State.setFilterOf_canon, canon_pick, canon_pickRes, canon_next, canon_refused, canon_foldl, canon_foldl1, canon_foldlD]

theorem State.lateFault_canon {pq : List Instr} (s : State) (p : Nat) (pc : BitVec 16) (h_s : Canon pq s) :
    Canon pq (State.lateFault s p pc) := by
  unfold State.lateFault; (try simp only [pick_eq, pickRes_eq]); grind (ematch := 40) (gen := 60) (splits := 20) -lia -linarith -ring -ac -order -mbtc -funCC [State.err_canon, State.modCore_canon, canon_pick, canon_pickRes, canon_next, canon_refused, canon_foldl, canon_foldl1, canon_foldlD]

theorem State.tileRead_canon {pq : List Instr} (s : State) (p : Nat) (found : List (Nat × Nat)) (h_s : Canon pq s) :
    Canon pq (State.tileRead s p found) := by
  unfold State.tileRead; (try simp only [pick_eq, pickRes_eq]); grind (ematch := 40) (gen := 60) (splits := 20) -lia -linarith -ring -ac -order -mbtc -funCC [State.decodeUnit_canon, State.modCore_canon, canon_pick, canon_pickRes, canon_next, canon_refused, canon_foldl, canon_foldl1, canon_foldlD]

theorem execMclrStart_canon {pq : List Instr} (gc : Fin 160) (slot : Fin 18) (s : State) (h_s : Canon pq s) :
    CanonRes pq (execMclrStart gc slot s) := by
  unfold execMclrStart; (try simp only [pick_eq, pickRes_eq]); grind (ematch := 40) (gen := 60) (splits := 20) -lia -linarith -ring -ac -order -mbtc -funCC [State.setCore_canon, State.freshTile_canon, canon_pick, canon_pickRes, canon_next, canon_refused, canon_foldl, canon_foldl1, canon_foldlD]

theorem execMdrainDone_canon {pq : List Instr} (gc : Fin 160) (slot : Fin 18) (s : State) (h_s : Canon pq s) :
    CanonRes pq (execMdrainDone gc slot s) := by
  unfold execMdrainDone; (try simp only [pick_eq, pickRes_eq]); grind (ematch := 40) (gen := 60) (splits := 20) -lia -linarith -ring -ac -order -mbtc -funCC [State.drainWrite_canon, State.setCore_canon, State.sigCluster_canon, canon_pick, canon_pickRes, canon_next, canon_refused, canon_foldl, canon_foldl1, canon_foldlD]

theorem execMdrainStart_canon {pq : List Instr} (gc : Fin 160) (slot : Fin 18) (found : List (Nat × Nat)) (s : State) (h_s : Canon pq s) :
    CanonRes pq (execMdrainStart gc slot found s) := by
  unfold execMdrainStart; (try simp only [pick_eq, pickRes_eq]); grind (ematch := 40) (gen := 60) (splits := 20) -lia -linarith -ring -ac -order -mbtc -funCC [State.tileRead_canon, State.draw_canon, State.setCore_canon, canon_pick, canon_pickRes, canon_next, canon_refused, canon_foldl, canon_foldl1, canon_foldlD]

theorem execMmaDone_canon {pq : List Instr} (gc : Fin 160) (slot : Fin 18) (found : List (Nat × Nat)) (s : State) (h_s : Canon pq s) :
    CanonRes pq (execMmaDone gc slot found s) := by
  unfold execMmaDone; (try simp only [pick_eq, pickRes_eq]); grind (ematch := 40) (gen := 60) (splits := 20) -lia -linarith -ring -ac -order -mbtc -funCC [State.tileRead_canon, State.draw_canon, State.setCore_canon, State.freshTile_canon, State.lateFault_canon, State.takeTrap_canon, State.sigCluster_canon, canon_pick, canon_pickRes, canon_next, canon_refused, canon_foldl, canon_foldl1, canon_foldlD]

theorem execMmaStart_canon {pq : List Instr} (gc : Fin 160) (slot : Fin 18) (s : State) (h_s : Canon pq s) :
    CanonRes pq (execMmaStart gc slot s) := by
  unfold execMmaStart; (try simp only [pick_eq, pickRes_eq]); grind (ematch := 40) (gen := 60) (splits := 20) -lia -linarith -ring -ac -order -mbtc -funCC [State.freshTile_canon, State.setCore_canon, canon_pick, canon_pickRes, canon_next, canon_refused, canon_foldl, canon_foldl1, canon_foldlD]

end Sys2Proof.Machine
end

