-- ==== Sys2Proof/Laws/CanonPages.lean ====
section
/-! SUPPORT. Every function of Machine/Pages.lean keeps the queue and the canonical form of registers and memory. -/
set_option linter.unusedSimpArgs false
namespace Sys2Proof.Machine
open Sys2Proof

theorem State.bucketCfg_canon {pq : List Instr} (s : State) (p : Page) (v : BitVec 32) (h_s : Canon pq s) :
    Canon pq (State.bucketCfg s p v) := by
  unfold State.bucketCfg; (try simp only [pick_eq, pickRes_eq]); grind (ematch := 40) (gen := 60) (splits := 20) -lia -linarith -ring -ac -order -mbtc -funCC [State.updateHalf_canon, State.setReg_canon, State.err_canon, canon_pick, canon_pickRes, canon_next, canon_refused, canon_foldl, canon_foldl1, canon_foldlD]

theorem State.crcRef_canon {pq : List Instr} (s : State) (p : Page) (v : BitVec 32) (h_s : Canon pq s) :
    Canon pq (State.crcRef s p v) := by
  unfold State.crcRef; (try simp only [pick_eq, pickRes_eq]); grind (ematch := 40) (gen := 60) (splits := 20) -lia -linarith -ring -ac -order -mbtc -funCC [State.wr_canon, State.setReg_canon, State.ignoreWrite_canon, canon_pick, canon_pickRes, canon_next, canon_refused, canon_foldl, canon_foldl1, canon_foldlD]

theorem State.ctrlDisable_canon {pq : List Instr} (s : State) (p : Page) (h_s : Canon pq s) :
    Canon pq (State.ctrlDisable s p) := by
  unfold State.ctrlDisable; (try simp only [pick_eq, pickRes_eq]); grind (ematch := 40) (gen := 60) (splits := 20) -lia -linarith -ring -ac -order -mbtc -funCC [State.enterReset_canon, canon_pick, canon_pickRes, canon_next, canon_refused, canon_foldl, canon_foldl1, canon_foldlD]

theorem State.drainCore_canon {pq : List Instr} (s : State) (k : Nat) (h_s : Canon pq s) :
    Canon pq (State.drainCore s k) := by
  unfold State.drainCore; (try simp only [pick_eq, pickRes_eq]); grind (ematch := 40) (gen := 60) (splits := 20) -lia -linarith -ring -ac -order -mbtc -funCC [State.holdChannels_canon, State.modCore_canon, State.landAll_canon, canon_pick, canon_pickRes, canon_next, canon_refused, canon_foldl, canon_foldl1, canon_foldlD]

theorem State.ctrlDrain_canon {pq : List Instr} (s : State) (p : Page) (h_s : Canon pq s) :
    Canon pq (State.ctrlDrain s p) := by
  unfold State.ctrlDrain; (try simp only [pick_eq, pickRes_eq]); grind (ematch := 40) (gen := 60) (splits := 20) -lia -linarith -ring -ac -order -mbtc -funCC [State.ignoreWrite_canon, State.wr_canon, State.drainCore_canon, State.ethLeave_canon, canon_pick, canon_pickRes, canon_next, canon_refused, canon_foldl, canon_foldl1, canon_foldlD]

theorem State.ctrlEnable_canon {pq : List Instr} (s : State) (p : Page) (h_s : Canon pq s) :
    Canon pq (State.ctrlEnable s p) := by
  unfold State.ctrlEnable; (try simp only [pick_eq, pickRes_eq]); grind (ematch := 40) (gen := 60) (splits := 20) -lia -linarith -ring -ac -order -mbtc -funCC [State.ignoreWrite_canon, State.enablePage_canon, State.wr_canon, canon_pick, canon_pickRes, canon_next, canon_refused, canon_foldl, canon_foldl1, canon_foldlD]

theorem State.errStat_canon {pq : List Instr} (s : State) (p : Page) (v : BitVec 32) (h_s : Canon pq s) :
    Canon pq (State.errStat s p v) := by
  unfold State.errStat; (try simp only [pick_eq, pickRes_eq]); grind (ematch := 40) (gen := 60) (splits := 20) -lia -linarith -ring -ac -order -mbtc -funCC [State.setReg_canon, canon_pick, canon_pickRes, canon_next, canon_refused, canon_foldl, canon_foldl1, canon_foldlD]

theorem State.upsetConfig_canon {pq : List Instr} (s : State) (p : Page) (flips : List (Nat × BitVec 32)) (h_s : Canon pq s) :
    Canon pq (State.upsetConfig s p flips) := by
  unfold State.upsetConfig; (try simp only [pick_eq, pickRes_eq]); grind (ematch := 40) (gen := 60) (splits := 20) -lia -linarith -ring -ac -order -mbtc -funCC [State.setReg_canon, canon_pick, canon_pickRes, canon_next, canon_refused, canon_foldl, canon_foldl1, canon_foldlD]

theorem execBlockDisable_canon {pq : List Instr} (p : Page) (s : State) (h_s : Canon pq s) :
    CanonRes pq (execBlockDisable p s) := by
  unfold execBlockDisable; (try simp only [pick_eq, pickRes_eq]); grind (ematch := 40) (gen := 60) (splits := 20) -lia -linarith -ring -ac -order -mbtc -funCC [State.ctrlDisable_canon, canon_pick, canon_pickRes, canon_next, canon_refused, canon_foldl, canon_foldl1, canon_foldlD]

theorem execBlockDrain_canon {pq : List Instr} (p : Page) (s : State) (h_s : Canon pq s) :
    CanonRes pq (execBlockDrain p s) := by
  unfold execBlockDrain; (try simp only [pick_eq, pickRes_eq]); grind (ematch := 40) (gen := 60) (splits := 20) -lia -linarith -ring -ac -order -mbtc -funCC [State.ctrlDrain_canon, canon_pick, canon_pickRes, canon_next, canon_refused, canon_foldl, canon_foldl1, canon_foldlD]

theorem execBlockEnable_canon {pq : List Instr} (p : Page) (s : State) (h_s : Canon pq s) :
    CanonRes pq (execBlockEnable p s) := by
  unfold execBlockEnable; (try simp only [pick_eq, pickRes_eq]); grind (ematch := 40) (gen := 60) (splits := 20) -lia -linarith -ring -ac -order -mbtc -funCC [State.ctrlEnable_canon, canon_pick, canon_pickRes, canon_next, canon_refused, canon_foldl, canon_foldl1, canon_foldlD]

theorem execBlockFence_canon {pq : List Instr} (p : Page) (bit : Option (Fin 16)) (s : State) (h_s : Canon pq s) :
    CanonRes pq (execBlockFence p bit s) := by
  unfold execBlockFence; (try simp only [pick_eq, pickRes_eq]); grind (ematch := 40) (gen := 60) (splits := 20) -lia -linarith -ring -ac -order -mbtc -funCC [State.fencePage_canon, State.blockErr_canon, canon_pick, canon_pickRes, canon_next, canon_refused, canon_foldl, canon_foldl1, canon_foldlD]

theorem execBlockReady_canon {pq : List Instr} (p : Page) (s : State) (h_s : Canon pq s) :
    CanonRes pq (execBlockReady p s) := by
  unfold execBlockReady; (try simp only [pick_eq, pickRes_eq]); grind (ematch := 40) (gen := 60) (splits := 20) -lia -linarith -ring -ac -order -mbtc -funCC [State.readyPage_canon, canon_pick, canon_pickRes, canon_next, canon_refused, canon_foldl, canon_foldl1, canon_foldlD]

theorem execBucketCfgWrite_canon {pq : List Instr} (p : Page) (v : BitVec 32) (s : State) (h_s : Canon pq s) :
    CanonRes pq (execBucketCfgWrite p v s) := by
  unfold execBucketCfgWrite; (try simp only [pick_eq, pickRes_eq]); grind (ematch := 40) (gen := 60) (splits := 20) -lia -linarith -ring -ac -order -mbtc -funCC [State.bucketCfg_canon, canon_pick, canon_pickRes, canon_next, canon_refused, canon_foldl, canon_foldl1, canon_foldlD]

theorem execBucketPeriodEnd_canon {pq : List Instr} (p : Page) (s : State) (h_s : Canon pq s) :
    CanonRes pq (execBucketPeriodEnd p s) := by
  unfold execBucketPeriodEnd; (try simp only [pick_eq, pickRes_eq]); grind (ematch := 40) (gen := 60) (splits := 20) -lia -linarith -ring -ac -order -mbtc -funCC [State.updateHalf_canon, State.wr_canon, canon_pick, canon_pickRes, canon_next, canon_refused, canon_foldl, canon_foldl1, canon_foldlD]

theorem execCfgCrcRefWrite_canon {pq : List Instr} (p : Page) (v : BitVec 32) (s : State) (h_s : Canon pq s) :
    CanonRes pq (execCfgCrcRefWrite p v s) := by
  unfold execCfgCrcRefWrite; (try simp only [pick_eq, pickRes_eq]); grind (ematch := 40) (gen := 60) (splits := 20) -lia -linarith -ring -ac -order -mbtc -funCC [State.crcRef_canon, canon_pick, canon_pickRes, canon_next, canon_refused, canon_foldl, canon_foldl1, canon_foldlD]

theorem execCrcSweepEnd_canon {pq : List Instr} (p : Page) (flips : List (Nat × BitVec 32)) (s : State) (h_s : Canon pq s) :
    CanonRes pq (execCrcSweepEnd p flips s) := by
  unfold execCrcSweepEnd; (try simp only [pick_eq, pickRes_eq]); grind (ematch := 40) (gen := 60) (splits := 20) -lia -linarith -ring -ac -order -mbtc -funCC [State.upsetConfig_canon, State.wr_canon, State.err_canon, canon_pick, canon_pickRes, canon_next, canon_refused, canon_foldl, canon_foldl1, canon_foldlD]

theorem execDrainDone_canon {pq : List Instr} (p : Page) (s : State) (h_s : Canon pq s) :
    CanonRes pq (execDrainDone p s) := by
  unfold execDrainDone; (try simp only [pick_eq, pickRes_eq]); grind (ematch := 40) (gen := 60) (splits := 20) -lia -linarith -ring -ac -order -mbtc -funCC [State.wr_canon, State.modCore_canon, State.landAll_canon, State.disarmAll_canon, canon_pick, canon_pickRes, canon_next, canon_refused, canon_foldl, canon_foldl1, canon_foldlD]

theorem execErrStatWrite_canon {pq : List Instr} (p : Page) (v : BitVec 32) (s : State) (h_s : Canon pq s) :
    CanonRes pq (execErrStatWrite p v s) := by
  unfold execErrStatWrite; (try simp only [pick_eq, pickRes_eq]); grind (ematch := 40) (gen := 60) (splits := 20) -lia -linarith -ring -ac -order -mbtc -funCC [State.errStat_canon, canon_pick, canon_pickRes, canon_next, canon_refused, canon_foldl, canon_foldl1, canon_foldlD]

theorem execResetDone_canon {pq : List Instr} (p : Page) (s : State) (h_s : Canon pq s) :
    CanonRes pq (execResetDone p s) := by
  unfold execResetDone; (try simp only [pick_eq, pickRes_eq]); grind (ematch := 40) (gen := 60) (splits := 20) -lia -linarith -ring -ac -order -mbtc -funCC [State.leaveReset_canon, canon_pick, canon_pickRes, canon_next, canon_refused, canon_foldl, canon_foldl1, canon_foldlD]

end Sys2Proof.Machine
end

