-- ==== Sys2Proof/Laws/CanonViews.lean ====
section
/-! SUPPORT. Every function of Machine/Views.lean keeps the queue and the canonical form of registers and memory. -/
set_option linter.unusedSimpArgs false
namespace Sys2Proof.Machine
open Sys2Proof

theorem State.busFault_canon {pq : List Instr} (s : State) (r : Req) (write : Bool) (h_s : Canon pq s) :
    Canon pq (State.busFault s r write) := by
  unfold State.busFault; (try simp only [pick_eq, pickRes_eq]); grind (ematch := 40) (gen := 60) (splits := 20) -lia -linarith -ring -ac -order -mbtc -funCC [State.out_canon, State.accessFault_canon, canon_pick, canon_pickRes, canon_next, canon_refused, canon_foldl, canon_foldl1, canon_foldlD]

theorem State.logUnimplemented_canon {pq : List Instr} (s : State) (r : Req) (a : Nat) (n : Nat) (h_s : Canon pq s) :
    Canon pq (State.logUnimplemented s r a n) := by
  unfold State.logUnimplemented; (try simp only [pick_eq, pickRes_eq]); grind (ematch := 40) (gen := 60) (splits := 20) -lia -linarith -ring -ac -order -mbtc -funCC [State.busErr_canon, canon_pick, canon_pickRes, canon_next, canon_refused, canon_foldl, canon_foldl1, canon_foldlD]

theorem State.unimplemented_canon {pq : List Instr} (s : State) (r : Req) (a : Nat) (n : Nat) (write : Bool) (h_s : Canon pq s) :
    Canon pq (State.unimplemented s r a n write) := by
  unfold State.unimplemented; (try simp only [pick_eq, pickRes_eq]); grind (ematch := 40) (gen := 60) (splits := 20) -lia -linarith -ring -ac -order -mbtc -funCC [State.busFault_canon, State.logUnimplemented_canon, canon_pick, canon_pickRes, canon_next, canon_refused, canon_foldl, canon_foldl1, canon_foldlD]

end Sys2Proof.Machine
end

