-- ==== Sys2Proof/Laws/CanonRegisters.lean ====
section
/-! SUPPORT. Every function of Machine/Registers.lean keeps the queue and the canonical form of registers and memory. -/
set_option linter.unusedSimpArgs false
namespace Sys2Proof.Machine
open Sys2Proof

theorem Res.stateOr_canon {pq : List Instr} (r : Res) (s : State) (h_r : CanonRes pq r) (h_s : Canon pq s) : Canon pq (Res.stateOr r s) := by
  cases r with
  | next t => exact h_r t rfl
  | fault _ => exact h_s
  | refused _ => exact h_s

theorem State.ack_canon {pq : List Instr} (s : State) (r : Req) (st : BitVec 8) (h_s : Canon pq s) :
    Canon pq (State.ack s r st) := by
  unfold State.ack; (try simp only [pick_eq, pickRes_eq]); grind (ematch := 40) (gen := 60) (splits := 20) -lia -linarith -ring -ac -order -mbtc -funCC [State.out_canon, canon_pick, canon_pickRes, canon_next, canon_refused, canon_foldl, canon_foldl1, canon_foldlD]

theorem State.splitWrite_canon {pq : List Instr} (s : State) (p : Page) (off : Nat) (row : WordRow) (v : BitVec 32) (h_s : Canon pq s) :
    Canon pq (State.splitWrite s p off row v) := by
  unfold State.splitWrite; (try simp only [pick_eq, pickRes_eq]); grind (ematch := 40) (gen := 60) (splits := 20) -lia -linarith -ring -ac -order -mbtc -funCC [State.setReg_canon, State.ignoreWrite_canon, canon_pick, canon_pickRes, canon_next, canon_refused, canon_foldl, canon_foldl1, canon_foldlD]

theorem State.corWrite_canon {pq : List Instr} (s : State) (k : Nat) (off : Nat) (v : BitVec 32) (h_s : Canon pq s) :
    Canon pq (State.corWrite s k off v) := by
  unfold State.corWrite; (try dsimp only); with_reducible repeat' first | assumption | exact canon_refused | apply canon_next | apply State.ignoreWrite_canon | apply State.setCore_canon | apply State.modChan_canon | apply canon_foldl | apply canon_foldl1 | intro _ _ _ | split

theorem State.stepWrite_canon {pq : List Instr} (s : State) (n : Nat) (aux : RegAux) (h_s : Canon pq s) :
    Canon pq (State.stepWrite s n aux) := by
  unfold State.stepWrite; (try simp only [pick_eq, pickRes_eq]); grind (ematch := 40) (gen := 60) (splits := 20) -lia -linarith -ring -ac -order -mbtc -funCC [Res.stateOr_canon, execTrainD2d_canon, execTrainHbm_canon, execTrainLpddr_canon, execTrainEth_canon, execTrainSsd_canon, execSelfTest_canon, execBuildMap_canon, execMemFill_canon, execLoadFw_canon, execStart_canon, State.ignoreWrite_canon, canon_pick, canon_pickRes, canon_next, canon_refused, canon_foldl, canon_foldl1, canon_foldlD]

theorem State.pwrWrite_canon {pq : List Instr} (s : State) (off : Nat) (row : WordRow) (v : BitVec 32) (h_s : Canon pq s) :
    Canon pq (State.pwrWrite s off row v) := by
  unfold State.pwrWrite; (try simp only [pick_eq, pickRes_eq]); grind (ematch := 40) (gen := 60) (splits := 20) -lia -linarith -ring -ac -order -mbtc -funCC [State.updatePoints_canon, State.splitWrite_canon, canon_pick, canon_pickRes, canon_next, canon_refused, canon_foldl, canon_foldl1, canon_foldlD]

theorem State.goWrite_canon {pq : List Instr} (s : State) (k : Nat) (r : Req) (aux : RegAux) (h_s : Canon pq s) :
    Canon pq (State.goWrite s k r aux) := by
  unfold State.goWrite; (try simp only [pick_eq, pickRes_eq]); grind (ematch := 40) (gen := 60) (splits := 20) -lia -linarith -ring -ac -order -mbtc -funCC [Res.stateOr_canon, execMbxGo_canon, canon_pick, canon_pickRes, canon_next, canon_refused, canon_foldl, canon_foldl1, canon_foldlD]

theorem State.blockWrite_canon {pq : List Instr} (s : State) (r : Req) (p : Page) (off : Nat) (row : WordRow) (v : BitVec 32) (aux : RegAux) (h_s : Canon pq s) :
    Canon pq (State.blockWrite s r p off row v aux) := by
  unfold State.blockWrite; (try simp only [pick_eq, pickRes_eq]); grind (ematch := 40) (gen := 60) (splits := 20) -lia -linarith -ring -ac -order -mbtc -funCC [State.splitWrite_canon, State.corWrite_canon, State.stepWrite_canon, State.updateCto_canon, State.updateInta_canon, State.flushPba_canon, Res.stateOr_canon, execPrpCtlEject_canon, execPrpCtlPower_canon, execEthRetrain_canon, execClsFence_canon, execTshCommitGcl_canon, execTshCommitWmap_canon, execTelPairGo_canon, State.pwrWrite_canon, State.syncPause_canon, execD2dRetrain_canon, execFwpCtlRestart_canon, execFwpHb_canon, State.goWrite_canon, State.partner_canon, State.ignoreWrite_canon, State.testCtlWrite_canon, State.setReg_canon, canon_pick, canon_pickRes, canon_next, canon_refused, canon_foldl, canon_foldl1, canon_foldlD]

theorem State.ctrlWrite_canon {pq : List Instr} (s : State) (p : Page) (v : BitVec 32) (h_s : Canon pq s) :
    Canon pq (State.ctrlWrite s p v) := by
  unfold State.ctrlWrite; (try simp only [pick_eq, pickRes_eq]); grind (ematch := 40) (gen := 60) (splits := 20) -lia -linarith -ring -ac -order -mbtc -funCC [State.ctrlDrain_canon, State.ctrlEnable_canon, State.ctrlDisable_canon, canon_pick, canon_pickRes, canon_next, canon_refused, canon_foldl, canon_foldl1, canon_foldlD]

theorem State.hostLost_canon {pq : List Instr} (s : State) (r : Req) (posted : Bool) (h_s : Canon pq s) :
    Canon pq (State.hostLost s r posted) := by
  unfold State.hostLost; (try simp only [pick_eq, pickRes_eq]); grind (ematch := 40) (gen := 60) (splits := 20) -lia -linarith -ring -ac -order -mbtc -funCC [State.notServed_canon, canon_pick, canon_pickRes, canon_next, canon_refused, canon_foldl, canon_foldl1, canon_foldlD]

theorem State.reply_canon {pq : List Instr} (s : State) (r : Req) (a : Nat) (st : BitVec 8) (data : Bytes) (poison : Bool) (h_s : Canon pq s) :
    Canon pq (State.reply s r a st data poison) := by
  unfold State.reply; (try simp only [pick_eq, pickRes_eq]); grind (ematch := 40) (gen := 60) (splits := 20) -lia -linarith -ring -ac -order -mbtc -funCC [canon_pick, canon_pickRes, canon_next, canon_refused, canon_foldl, canon_foldl1, canon_foldlD, canon_upd]

theorem State.hostRequest_canon {pq : List Instr} (s : State) (r : Req) (l : Nat) (a : Nat) (n : Nat) (slice : Nat) (tag : Nat) (h_s : Canon pq s) :
    Canon pq (State.hostRequest s r l a n slice tag) := by
  unfold State.hostRequest; (try simp only [pick_eq, pickRes_eq]); grind (ematch := 40) (gen := 60) (splits := 20) -lia -linarith -ring -ac -order -mbtc -funCC [State.reply_canon, State.atsUse_canon, State.modLink_canon, canon_pick, canon_pickRes, canon_next, canon_refused, canon_foldl, canon_foldl1, canon_foldlD]

theorem State.refuse_canon {pq : List Instr} (s : State) (r : Req) (a : Nat) (st : BitVec 8) (h_s : Canon pq s) :
    Canon pq (State.refuse s r a st) := by
  unfold State.refuse; (try simp only [pick_eq, pickRes_eq]); grind (ematch := 40) (gen := 60) (splits := 20) -lia -linarith -ring -ac -order -mbtc -funCC [State.accessFault_canon, State.reply_canon, canon_pick, canon_pickRes, canon_next, canon_refused, canon_foldl, canon_foldl1, canon_foldlD]

theorem State.turnAway_canon {pq : List Instr} (s : State) (r : Req) (a : Nat) (st : BitVec 8) (h_s : Canon pq s) :
    Canon pq (State.turnAway s r a st) := by
  unfold State.turnAway; (try simp only [pick_eq, pickRes_eq]); grind (ematch := 40) (gen := 60) (splits := 20) -lia -linarith -ring -ac -order -mbtc -funCC [State.refuse_canon, State.countAbsent_canon, canon_pick, canon_pickRes, canon_next, canon_refused, canon_foldl, canon_foldl1, canon_foldlD]

theorem State.memRead_canon {pq : List Instr} (s : State) (r : Req) (a : Nat) (n : Nat) (upset : Nat) (parity : Bool) (slice : Nat) (tag : Nat) (h_s : Canon pq s) :
    Canon pq (State.memRead s r a n upset parity slice tag) := by
  unfold State.memRead; (try simp only [pick_eq, pickRes_eq]); grind (ematch := 40) (gen := 60) (splits := 20) -lia -linarith -ring -ac -order -mbtc -funCC [State.hostLost_canon, State.hostRequest_canon, State.turnAway_canon, State.unimplemented_canon, State.reply_canon, State.logUnimplemented_canon, State.busFault_canon, State.loadAt_canon, State.draw_canon, State.readMem_canon, State.refuse_canon, canon_pick, canon_pickRes, canon_next, canon_refused, canon_foldl, canon_foldl1, canon_foldlD]

theorem State.fnUnimplemented_canon {pq : List Instr} (s : State) (l : Nat) (off : Nat) (n : Nat) (write : Bool) (h_s : Canon pq s) :
    Canon pq (State.fnUnimplemented s l off n write) := by
  unfold State.fnUnimplemented; (try simp only [pick_eq, pickRes_eq]); grind (ematch := 40) (gen := 60) (splits := 20) -lia -linarith -ring -ac -order -mbtc -funCC [State.busErr_canon, State.out_canon, canon_pick, canon_pickRes, canon_next, canon_refused, canon_foldl, canon_foldl1, canon_foldlD]

theorem State.fnAccess_canon {pq : List Instr} (s : State) (l : Fin 2) (fn : Nat) (off : Nat) (n : Nat) (h_s : Canon pq s) :
    Canon pq (State.fnAccess s l fn off n) := by
  unfold State.fnAccess; (try simp only [pick_eq, pickRes_eq]); grind (ematch := 40) (gen := 60) (splits := 20) -lia -linarith -ring -ac -order -mbtc -funCC [State.memRead_canon, State.notServed_canon, State.draw_canon, State.reply_canon, State.fnUnimplemented_canon, canon_pick, canon_pickRes, canon_next, canon_refused, canon_foldl, canon_foldl1, canon_foldlD]

theorem State.refuseReg_canon {pq : List Instr} (s : State) (r : Req) (a : Nat) (st : BitVec 8) (h_s : Canon pq s) :
    Canon pq (State.refuseReg s r a st) := by
  unfold State.refuseReg; (try simp only [pick_eq, pickRes_eq]); grind (ematch := 40) (gen := 60) (splits := 20) -lia -linarith -ring -ac -order -mbtc -funCC [State.countAbsent_canon, State.accessFault_canon, State.ack_canon, canon_pick, canon_pickRes, canon_next, canon_refused, canon_foldl, canon_foldl1, canon_foldlD]

theorem State.writeWord_canon {pq : List Instr} (s : State) (r : Req) (p : Page) (off : Nat) (v : BitVec 32) (aux : RegAux) (h_s : Canon pq s) :
    Canon pq (State.writeWord s r p off v aux) := by
  unfold State.writeWord; (try simp only [pick_eq, pickRes_eq]); grind (ematch := 40) (gen := 60) (splits := 20) -lia -linarith -ring -ac -order -mbtc -funCC [State.ctrlWrite_canon, State.crcRef_canon, State.errStat_canon, State.bucketCfg_canon, State.splitWrite_canon, State.ignoreWrite_canon, State.blockWrite_canon, canon_pick, canon_pickRes, canon_next, canon_refused, canon_foldl, canon_foldl1, canon_foldlD]

theorem State.regWrite1_canon {pq : List Instr} (s : State) (r : Req) (a : Nat) (v : BitVec 32) (aux : RegAux) (h_s : Canon pq s) :
    Canon pq (State.regWrite1 s r a v aux).1 := by
  unfold State.regWrite1; (try simp only [pick_eq, pickRes_eq]); grind (ematch := 40) (gen := 60) (splits := 20) -lia -linarith -ring -ac -order -mbtc -funCC [State.writeWord_canon, State.logUnimplemented_canon, canon_pick, canon_pickRes, canon_next, canon_refused, canon_foldl, canon_foldl1, canon_foldlD]

theorem execMemoryRead_canon {pq : List Instr} (m : MemAt) (upset : Nat) (parity : Bool) (slice : Fin 256) (tag : Fin 16384) (s : State) (h_s : Canon pq s) :
    CanonRes pq (execMemoryRead m upset parity slice tag s) := by
  unfold execMemoryRead; (try simp only [pick_eq, pickRes_eq]); grind (ematch := 40) (gen := 60) (splits := 20) -lia -linarith -ring -ac -order -mbtc -funCC [State.memRead_canon, State.decodeUnit_canon, State.fatal_canon, State.fnAccess_canon, State.out_canon, canon_pick, canon_pickRes, canon_next, canon_refused, canon_foldl, canon_foldl1, canon_foldlD]

theorem execMemoryWrite_canon {pq : List Instr} (r : Req) (line : BitVec 42) (mask : BitVec 4) (data : List (BitVec 8)) (marks : BitVec 4) (slice : Fin 256) (host : HostWrite) (s : State) (h_s : Canon pq s) :
    CanonRes pq (execMemoryWrite r line mask data marks slice host s) := by
  unfold execMemoryWrite; (try simp only [pick_eq, pickRes_eq]); grind (ematch := 40) (gen := 60) (splits := 20) -lia -linarith -ring -ac -order -mbtc -funCC [State.hostLost_canon, State.reply_canon, State.hostPut_canon, State.unimplemented_canon, State.turnAway_canon, State.writeRuns_canon, State.refuse_canon, canon_pick, canon_pickRes, canon_next, canon_refused, canon_foldl, canon_foldl1, canon_foldlD, canon_foldlW]

theorem execRegisterWrite_canon {pq : List Instr} (r : Req) (a : BitVec 26) (v : BitVec 32) (second : Option (BitVec 32)) (aux : RegAux) (s : State) (h_s : Canon pq s) :
    CanonRes pq (execRegisterWrite r a v second aux s) := by
  unfold execRegisterWrite; (try simp only [pick_eq, pickRes_eq]); grind (ematch := 40) (gen := 60) (splits := 20) -lia -linarith -ring -ac -order -mbtc -funCC [State.hostLost_canon, State.refuseReg_canon, State.unimplemented_canon, State.regWrite1_canon, State.ack_canon, State.busFault_canon, canon_pick, canon_pickRes, canon_next, canon_refused, canon_foldl, canon_foldl1, canon_foldlD]

theorem execReplyRx_canon {pq : List Instr} (r : Req) (s : State) (h_s : Canon pq s) :
    CanonRes pq (execReplyRx r s) := by
  unfold execReplyRx; (try simp only [pick_eq, pickRes_eq]); grind (ematch := 40) (gen := 60) (splits := 20) -lia -linarith -ring -ac -order -mbtc -funCC [State.bump_canon, State.out_canon, canon_pick, canon_pickRes, canon_next, canon_refused, canon_foldl, canon_foldl1, canon_foldlD, canon_upd]

theorem execUnimplementedAccess_canon {pq : List Instr} (x : RegPlace) (n : Nat) (write : Bool) (s : State) (h_s : Canon pq s) :
    CanonRes pq (execUnimplementedAccess x n write s) := by
  unfold execUnimplementedAccess; (try simp only [pick_eq, pickRes_eq]); grind (ematch := 40) (gen := 60) (splits := 20) -lia -linarith -ring -ac -order -mbtc -funCC [State.hostLost_canon, State.unimplemented_canon, State.refuseReg_canon, State.notServed_canon, State.fnUnimplemented_canon, canon_pick, canon_pickRes, canon_next, canon_refused, canon_foldl, canon_foldl1, canon_foldlD]

end Sys2Proof.Machine
end

