-- ==== Sys2Proof/Laws/CanonVector.lean ====
section
/-! SUPPORT. Every function of Machine/Vector.lean keeps the queue and the canonical form of registers and memory. -/
set_option linter.unusedSimpArgs false
namespace Sys2Proof.Machine
open Sys2Proof

theorem State.applyV_canon {pq : List Instr} (s : State) (p : Nat) (t : Nat) (o : VOut) (h_s : Canon pq s) :
    Canon pq (State.applyV s p t o) := by
  unfold State.applyV; (try simp only [pick_eq, pickRes_eq]); grind (ematch := 40) (gen := 60) (splits := 20) -lia -linarith -ring -ac -order -mbtc -funCC [State.dmemWrite_canon, State.modCore_canon, canon_pick, canon_pickRes, canon_next, canon_refused, canon_foldl, canon_foldl1, canon_foldlD]

end Sys2Proof.Machine
end

