-- ==== Sys2Proof/Laws/CanonSequencer.lean ====
section
/-! SUPPORT. Every function of Machine/Sequencer.lean keeps the queue and the canonical form of registers and memory. -/
set_option linter.unusedSimpArgs false
namespace Sys2Proof.Machine
open Sys2Proof

theorem State.queueM_canon {pq : List Instr} (s0 : State) (p : Nat) (c : Core) (k : MKind) (w : Nat) (s : State) (h_s : Canon pq s) :
    Canon pq (State.queueM s0 p c k w s) := by
  unfold State.queueM; (try simp only [pick_eq, pickRes_eq]); grind (ematch := 40) (gen := 60) (splits := 20) -lia -linarith -ring -ac -order -mbtc -funCC [State.modCore_canon, canon_pick, canon_pickRes, canon_next, canon_refused, canon_foldl, canon_foldl1, canon_foldlD]

theorem State.act_canon {pq : List Instr} (s0 : State) (gc slot : Nat) (c : Core) (a n : Nat) (y : Syl) (s : State) (h_s : Canon pq s) :
    Canon pq (State.act s0 gc slot c a n y s) := by
  have h1 := fun f => State.modCore_canon s (slotKey gc slot) f h_s
  have h2 := fun ch f => State.modChan_canon s (slotKey gc slot) ch f h_s
  have h3 := fun i v => State.beaconAdd_canon s i v h_s
  have h4 := fun i v => State.sigCluster_canon s gc i v h_s
  have h5 := fun o => State.applyV_canon s (slotKey gc slot) c.clock o h_s
  cases y <;> dsimp only [State.act] <;> with_reducible first
    | exact h_s
    | exact h1 _
    | exact h2 _ _
    | exact h3 _ _
    | exact h4 _ _
    | exact h5 _
    | exact State.queueM_canon _ _ _ _ _ _ h_s
    | exact State.xstop_canon _ _ _ _ h_s
    | exact State.beaconSet_canon _ _ _ h_s
    | exact State.dmemWrite_canon _ _ _ _ _ h_s

theorem State.advance_canon {pq : List Instr} (s : State) (p : Nat) (c : Core) (n : Nat) (b : List Syl) (h_s : Canon pq s) :
    Canon pq (State.advance s p c n b) := by
  unfold State.advance; (try simp only [pick_eq, pickRes_eq]); grind (ematch := 40) (gen := 60) (splits := 20) -lia -linarith -ring -ac -order -mbtc -funCC [State.modCore_canon, canon_pick, canon_pickRes, canon_next, canon_refused, canon_foldl, canon_foldl1, canon_foldlD]

theorem State.holdClock_canon {pq : List Instr} (s : State) (p : Nat) (h_s : Canon pq s) :
    Canon pq (State.holdClock s p) := by
  unfold State.holdClock; (try simp only [pick_eq, pickRes_eq]); grind (ematch := 40) (gen := 60) (splits := 20) -lia -linarith -ring -ac -order -mbtc -funCC [State.modCore_canon, State.landDue_canon, canon_pick, canon_pickRes, canon_next, canon_refused, canon_foldl, canon_foldl1, canon_foldlD]

theorem State.issue_canon {pq : List Instr} (s : State) (gc : Nat) (slot : Nat) (b : List Syl) (h_s : Canon pq s) :
    Canon pq (State.issue s gc slot b) := by
  unfold State.issue; (try simp only [pick_eq, pickRes_eq]); grind (ematch := 40) (gen := 60) (splits := 20) -lia -linarith -ring -ac -order -mbtc -funCC [State.advance_canon, State.landDue_canon, State.act_canon, State.draw_canon, State.modCore_canon, State.landAll_canon, canon_pick, canon_pickRes, canon_next, canon_refused, canon_foldl, canon_foldl1, canon_foldlD]

theorem State.presentBundle_canon {pq : List Instr} (s : State) (gc : Nat) (slot : Nat) (b0 : List Syl) (h_s : Canon pq s) :
    Canon pq (State.presentBundle s gc slot b0) := by
  unfold State.presentBundle; (try simp only [pick_eq, pickRes_eq]); grind (ematch := 40) (gen := 60) (splits := 20) -lia -linarith -ring -ac -order -mbtc -funCC [State.holdClock_canon, State.takeTrap_canon, State.issue_canon, canon_pick, canon_pickRes, canon_next, canon_refused, canon_foldl, canon_foldl1, canon_foldlD]

theorem State.runBundle_canon {pq : List Instr} (s : State) (p : Nat) (h_s : Canon pq s) :
    Canon pq (State.runBundle s p) := by
  unfold State.runBundle; (try simp only [pick_eq, pickRes_eq]); grind (ematch := 40) (gen := 60) (splits := 20) -lia -linarith -ring -ac -order -mbtc -funCC [State.presentBundle_canon, canon_pick, canon_pickRes, canon_next, canon_refused, canon_foldl, canon_foldl1, canon_foldlD]

theorem State.idle_canon {pq : List Instr} (s : State) (h_s : Canon pq s) :
    Canon pq (State.idle s) := by
  unfold State.idle; (try simp only [pick_eq, pickRes_eq]); grind (ematch := 40) (gen := 60) (splits := 20) -lia -linarith -ring -ac -order -mbtc -funCC [State.runBundle_canon, canon_pick, canon_pickRes, canon_next, canon_refused, canon_foldl, canon_foldl1, canon_foldlD, canon_upd]

theorem State.present_canon {pq : List Instr} (gc : Fin 160) (slot : Fin 18) (stop : Bool) (y : Syl) (s : State) (h_s : Canon pq s) :
    CanonRes pq (State.present gc slot stop y s) := by
  unfold State.present; (try simp only [pick_eq, pickRes_eq]); grind (ematch := 40) (gen := 60) (splits := 20) -lia -linarith -ring -ac -order -mbtc -funCC [State.presentBundle_canon, State.setCore_canon, canon_pick, canon_pickRes, canon_next, canon_refused, canon_foldl, canon_foldl1, canon_foldlD]

theorem execRegisterWriteLands_canon {pq : List Instr} (gc : Fin 160) (slot : Fin 18) (s : State) (h_s : Canon pq s) :
    CanonRes pq (execRegisterWriteLands gc slot s) := by
  unfold execRegisterWriteLands; (try simp only [pick_eq, pickRes_eq]); grind (ematch := 40) (gen := 60) (splits := 20) -lia -linarith -ring -ac -order -mbtc -funCC [State.modCore_canon, State.landDue_canon, canon_pick, canon_pickRes, canon_next, canon_refused, canon_foldl, canon_foldl1, canon_foldlD]

end Sys2Proof.Machine
end

