-- ==== Sys2Proof/Laws/CanonSyllables.lean ====
section
/-! SUPPORT. Every function of Machine/Syllables.lean keeps the queue and the canonical form of registers and memory. -/
set_option linter.unusedSimpArgs false
namespace Sys2Proof.Machine
open Sys2Proof

theorem execAdd_canon {pq : List Instr} (gc : Fin 160) (slot : Fin 18) (stop : Bool) (rd : BitVec 4) (ra : BitVec 4) (rb : BitVec 4) (s : State) (h_s : Canon pq s) :
    CanonRes pq (execAdd gc slot stop rd ra rb s) := by
  unfold execAdd; (try simp only [pick_eq, pickRes_eq]); grind (ematch := 40) (gen := 60) (splits := 20) -lia -linarith -ring -ac -order -mbtc -funCC [State.present_canon, canon_pick, canon_pickRes, canon_next, canon_refused, canon_foldl, canon_foldl1, canon_foldlD]

theorem execAddi_canon {pq : List Instr} (gc : Fin 160) (slot : Fin 18) (stop : Bool) (rd : BitVec 4) (ra : BitVec 4) (imm : BitVec 14) (s : State) (h_s : Canon pq s) :
    CanonRes pq (execAddi gc slot stop rd ra imm s) := by
  unfold execAddi; (try simp only [pick_eq, pickRes_eq]); grind (ematch := 40) (gen := 60) (splits := 20) -lia -linarith -ring -ac -order -mbtc -funCC [State.present_canon, canon_pick, canon_pickRes, canon_next, canon_refused, canon_foldl, canon_foldl1, canon_foldlD]

theorem execAnd_canon {pq : List Instr} (gc : Fin 160) (slot : Fin 18) (stop : Bool) (rd : BitVec 4) (ra : BitVec 4) (rb : BitVec 4) (s : State) (h_s : Canon pq s) :
    CanonRes pq (execAnd gc slot stop rd ra rb s) := by
  unfold execAnd; (try simp only [pick_eq, pickRes_eq]); grind (ematch := 40) (gen := 60) (splits := 20) -lia -linarith -ring -ac -order -mbtc -funCC [State.present_canon, canon_pick, canon_pickRes, canon_next, canon_refused, canon_foldl, canon_foldl1, canon_foldlD]

theorem execAndi_canon {pq : List Instr} (gc : Fin 160) (slot : Fin 18) (stop : Bool) (rd : BitVec 4) (ra : BitVec 4) (imm : BitVec 14) (s : State) (h_s : Canon pq s) :
    CanonRes pq (execAndi gc slot stop rd ra imm s) := by
  unfold execAndi; (try simp only [pick_eq, pickRes_eq]); grind (ematch := 40) (gen := 60) (splits := 20) -lia -linarith -ring -ac -order -mbtc -funCC [State.present_canon, canon_pick, canon_pickRes, canon_next, canon_refused, canon_foldl, canon_foldl1, canon_foldlD]

theorem execBeq_canon {pq : List Instr} (gc : Fin 160) (slot : Fin 18) (stop : Bool) (ra : BitVec 4) (rb : BitVec 4) (off : BitVec 12) (s : State) (h_s : Canon pq s) :
    CanonRes pq (execBeq gc slot stop ra rb off s) := by
  unfold execBeq; (try simp only [pick_eq, pickRes_eq]); grind (ematch := 40) (gen := 60) (splits := 20) -lia -linarith -ring -ac -order -mbtc -funCC [State.present_canon, canon_pick, canon_pickRes, canon_next, canon_refused, canon_foldl, canon_foldl1, canon_foldlD]

theorem execBge_canon {pq : List Instr} (gc : Fin 160) (slot : Fin 18) (stop : Bool) (ra : BitVec 4) (rb : BitVec 4) (off : BitVec 12) (s : State) (h_s : Canon pq s) :
    CanonRes pq (execBge gc slot stop ra rb off s) := by
  unfold execBge; (try simp only [pick_eq, pickRes_eq]); grind (ematch := 40) (gen := 60) (splits := 20) -lia -linarith -ring -ac -order -mbtc -funCC [State.present_canon, canon_pick, canon_pickRes, canon_next, canon_refused, canon_foldl, canon_foldl1, canon_foldlD]

theorem execBgeu_canon {pq : List Instr} (gc : Fin 160) (slot : Fin 18) (stop : Bool) (ra : BitVec 4) (rb : BitVec 4) (off : BitVec 12) (s : State) (h_s : Canon pq s) :
    CanonRes pq (execBgeu gc slot stop ra rb off s) := by
  unfold execBgeu; (try simp only [pick_eq, pickRes_eq]); grind (ematch := 40) (gen := 60) (splits := 20) -lia -linarith -ring -ac -order -mbtc -funCC [State.present_canon, canon_pick, canon_pickRes, canon_next, canon_refused, canon_foldl, canon_foldl1, canon_foldlD]

theorem execBlt_canon {pq : List Instr} (gc : Fin 160) (slot : Fin 18) (stop : Bool) (ra : BitVec 4) (rb : BitVec 4) (off : BitVec 12) (s : State) (h_s : Canon pq s) :
    CanonRes pq (execBlt gc slot stop ra rb off s) := by
  unfold execBlt; (try simp only [pick_eq, pickRes_eq]); grind (ematch := 40) (gen := 60) (splits := 20) -lia -linarith -ring -ac -order -mbtc -funCC [State.present_canon, canon_pick, canon_pickRes, canon_next, canon_refused, canon_foldl, canon_foldl1, canon_foldlD]

theorem execBltu_canon {pq : List Instr} (gc : Fin 160) (slot : Fin 18) (stop : Bool) (ra : BitVec 4) (rb : BitVec 4) (off : BitVec 12) (s : State) (h_s : Canon pq s) :
    CanonRes pq (execBltu gc slot stop ra rb off s) := by
  unfold execBltu; (try simp only [pick_eq, pickRes_eq]); grind (ematch := 40) (gen := 60) (splits := 20) -lia -linarith -ring -ac -order -mbtc -funCC [State.present_canon, canon_pick, canon_pickRes, canon_next, canon_refused, canon_foldl, canon_foldl1, canon_foldlD]

theorem execBne_canon {pq : List Instr} (gc : Fin 160) (slot : Fin 18) (stop : Bool) (ra : BitVec 4) (rb : BitVec 4) (off : BitVec 12) (s : State) (h_s : Canon pq s) :
    CanonRes pq (execBne gc slot stop ra rb off s) := by
  unfold execBne; (try simp only [pick_eq, pickRes_eq]); grind (ematch := 40) (gen := 60) (splits := 20) -lia -linarith -ring -ac -order -mbtc -funCC [State.present_canon, canon_pick, canon_pickRes, canon_next, canon_refused, canon_foldl, canon_foldl1, canon_foldlD]

theorem execBrd_canon {pq : List Instr} (gc : Fin 160) (slot : Fin 18) (stop : Bool) (rd : BitVec 4) (rb : BitVec 4) (hi : BitVec 1) (s : State) (h_s : Canon pq s) :
    CanonRes pq (execBrd gc slot stop rd rb hi s) := by
  unfold execBrd; (try simp only [pick_eq, pickRes_eq]); grind (ematch := 40) (gen := 60) (splits := 20) -lia -linarith -ring -ac -order -mbtc -funCC [State.present_canon, canon_pick, canon_pickRes, canon_next, canon_refused, canon_foldl, canon_foldl1, canon_foldlD]

theorem execFill_canon {pq : List Instr} (gc : Fin 160) (slot : Fin 18) (stop : Bool) (ch : BitVec 2) (s : State) (h_s : Canon pq s) :
    CanonRes pq (execFill gc slot stop ch s) := by
  unfold execFill; (try simp only [pick_eq, pickRes_eq]); grind (ematch := 40) (gen := 60) (splits := 20) -lia -linarith -ring -ac -order -mbtc -funCC [State.present_canon, canon_pick, canon_pickRes, canon_next, canon_refused, canon_foldl, canon_foldl1, canon_foldlD]

theorem execGather_canon {pq : List Instr} (gc : Fin 160) (slot : Fin 18) (stop : Bool) (ch : BitVec 2) (s : State) (h_s : Canon pq s) :
    CanonRes pq (execGather gc slot stop ch s) := by
  unfold execGather; (try simp only [pick_eq, pickRes_eq]); grind (ematch := 40) (gen := 60) (splits := 20) -lia -linarith -ring -ac -order -mbtc -funCC [State.present_canon, canon_pick, canon_pickRes, canon_next, canon_refused, canon_foldl, canon_foldl1, canon_foldlD]

theorem execHalt_canon {pq : List Instr} (gc : Fin 160) (slot : Fin 18) (stop : Bool) (s : State) (h_s : Canon pq s) :
    CanonRes pq (execHalt gc slot stop s) := by
  unfold execHalt; (try simp only [pick_eq, pickRes_eq]); grind (ematch := 40) (gen := 60) (splits := 20) -lia -linarith -ring -ac -order -mbtc -funCC [State.present_canon, canon_pick, canon_pickRes, canon_next, canon_refused, canon_foldl, canon_foldl1, canon_foldlD]

theorem execJ_canon {pq : List Instr} (gc : Fin 160) (slot : Fin 18) (stop : Bool) (target : BitVec 16) (s : State) (h_s : Canon pq s) :
    CanonRes pq (execJ gc slot stop target s) := by
  unfold execJ; (try simp only [pick_eq, pickRes_eq]); grind (ematch := 40) (gen := 60) (splits := 20) -lia -linarith -ring -ac -order -mbtc -funCC [State.present_canon, canon_pick, canon_pickRes, canon_next, canon_refused, canon_foldl, canon_foldl1, canon_foldlD]

theorem execJal_canon {pq : List Instr} (gc : Fin 160) (slot : Fin 18) (stop : Bool) (rd : BitVec 4) (target : BitVec 16) (s : State) (h_s : Canon pq s) :
    CanonRes pq (execJal gc slot stop rd target s) := by
  unfold execJal; (try simp only [pick_eq, pickRes_eq]); grind (ematch := 40) (gen := 60) (splits := 20) -lia -linarith -ring -ac -order -mbtc -funCC [State.present_canon, canon_pick, canon_pickRes, canon_next, canon_refused, canon_foldl, canon_foldl1, canon_foldlD]

theorem execJr_canon {pq : List Instr} (gc : Fin 160) (slot : Fin 18) (stop : Bool) (ra : BitVec 4) (s : State) (h_s : Canon pq s) :
    CanonRes pq (execJr gc slot stop ra s) := by
  unfold execJr; (try simp only [pick_eq, pickRes_eq]); grind (ematch := 40) (gen := 60) (splits := 20) -lia -linarith -ring -ac -order -mbtc -funCC [State.present_canon, canon_pick, canon_pickRes, canon_next, canon_refused, canon_foldl, canon_foldl1, canon_foldlD]

theorem execLdb_canon {pq : List Instr} (gc : Fin 160) (slot : Fin 18) (stop : Bool) (rd : BitVec 4) (ra : BitVec 4) (off : BitVec 10) (byte : BitVec 4) (s : State) (h_s : Canon pq s) :
    CanonRes pq (execLdb gc slot stop rd ra off byte s) := by
  unfold execLdb; (try simp only [pick_eq, pickRes_eq]); grind (ematch := 40) (gen := 60) (splits := 20) -lia -linarith -ring -ac -order -mbtc -funCC [State.present_canon, canon_pick, canon_pickRes, canon_next, canon_refused, canon_foldl, canon_foldl1, canon_foldlD]

theorem execLdbu_canon {pq : List Instr} (gc : Fin 160) (slot : Fin 18) (stop : Bool) (rd : BitVec 4) (ra : BitVec 4) (off : BitVec 10) (byte : BitVec 4) (s : State) (h_s : Canon pq s) :
    CanonRes pq (execLdbu gc slot stop rd ra off byte s) := by
  unfold execLdbu; (try simp only [pick_eq, pickRes_eq]); grind (ematch := 40) (gen := 60) (splits := 20) -lia -linarith -ring -ac -order -mbtc -funCC [State.present_canon, canon_pick, canon_pickRes, canon_next, canon_refused, canon_foldl, canon_foldl1, canon_foldlD]

theorem execLdh_canon {pq : List Instr} (gc : Fin 160) (slot : Fin 18) (stop : Bool) (rd : BitVec 4) (ra : BitVec 4) (off : BitVec 10) (byte : BitVec 4) (s : State) (h_s : Canon pq s) :
    CanonRes pq (execLdh gc slot stop rd ra off byte s) := by
  unfold execLdh; (try simp only [pick_eq, pickRes_eq]); grind (ematch := 40) (gen := 60) (splits := 20) -lia -linarith -ring -ac -order -mbtc -funCC [State.present_canon, canon_pick, canon_pickRes, canon_next, canon_refused, canon_foldl, canon_foldl1, canon_foldlD]

theorem execLi_canon {pq : List Instr} (gc : Fin 160) (slot : Fin 18) (stop : Bool) (rd : BitVec 4) (imm : BitVec 16) (s : State) (h_s : Canon pq s) :
    CanonRes pq (execLi gc slot stop rd imm s) := by
  unfold execLi; (try simp only [pick_eq, pickRes_eq]); grind (ematch := 40) (gen := 60) (splits := 20) -lia -linarith -ring -ac -order -mbtc -funCC [State.present_canon, canon_pick, canon_pickRes, canon_next, canon_refused, canon_foldl, canon_foldl1, canon_foldlD]

theorem execLoop_canon {pq : List Instr} (gc : Fin 160) (slot : Fin 18) (stop : Bool) (level : BitVec 1) (ra : BitVec 4) (last : BitVec 12) (s : State) (h_s : Canon pq s) :
    CanonRes pq (execLoop gc slot stop level ra last s) := by
  unfold execLoop; (try simp only [pick_eq, pickRes_eq]); grind (ematch := 40) (gen := 60) (splits := 20) -lia -linarith -ring -ac -order -mbtc -funCC [State.present_canon, canon_pick, canon_pickRes, canon_next, canon_refused, canon_foldl, canon_foldl1, canon_foldlD]

theorem execLoopi_canon {pq : List Instr} (gc : Fin 160) (slot : Fin 18) (stop : Bool) (level : BitVec 1) (count : BitVec 9) (last : BitVec 12) (s : State) (h_s : Canon pq s) :
    CanonRes pq (execLoopi gc slot stop level count last s) := by
  unfold execLoopi; (try simp only [pick_eq, pickRes_eq]); grind (ematch := 40) (gen := 60) (splits := 20) -lia -linarith -ring -ac -order -mbtc -funCC [State.present_canon, canon_pick, canon_pickRes, canon_next, canon_refused, canon_foldl, canon_foldl1, canon_foldlD]

theorem execMclr_canon {pq : List Instr} (gc : Fin 160) (slot : Fin 18) (stop : Bool) (reg : BitVec 1) (ra : BitVec 4) (addr : BitVec 16) (s : State) (h_s : Canon pq s) :
    CanonRes pq (execMclr gc slot stop reg ra addr s) := by
  unfold execMclr; (try simp only [pick_eq, pickRes_eq]); grind (ematch := 40) (gen := 60) (splits := 20) -lia -linarith -ring -ac -order -mbtc -funCC [State.present_canon, canon_pick, canon_pickRes, canon_next, canon_refused, canon_foldl, canon_foldl1, canon_foldlD]

theorem execMdrain_canon {pq : List Instr} (gc : Fin 160) (slot : Fin 18) (stop : Bool) (reg : BitVec 1) (ra : BitVec 4) (addr : BitVec 16) (s : State) (h_s : Canon pq s) :
    CanonRes pq (execMdrain gc slot stop reg ra addr s) := by
  unfold execMdrain; (try simp only [pick_eq, pickRes_eq]); grind (ematch := 40) (gen := 60) (splits := 20) -lia -linarith -ring -ac -order -mbtc -funCC [State.present_canon, canon_pick, canon_pickRes, canon_next, canon_refused, canon_foldl, canon_foldl1, canon_foldlD]

theorem execMfsr_canon {pq : List Instr} (gc : Fin 160) (slot : Fin 18) (stop : Bool) (rd : BitVec 4) (code : BitVec 6) (s : State) (h_s : Canon pq s) :
    CanonRes pq (execMfsr gc slot stop rd code s) := by
  unfold execMfsr; (try simp only [pick_eq, pickRes_eq]); grind (ematch := 40) (gen := 60) (splits := 20) -lia -linarith -ring -ac -order -mbtc -funCC [State.present_canon, canon_pick, canon_pickRes, canon_next, canon_refused, canon_foldl, canon_foldl1, canon_foldlD]

theorem execMma_canon {pq : List Instr} (gc : Fin 160) (slot : Fin 18) (stop : Bool) (reg : BitVec 1) (ra : BitVec 4) (addr : BitVec 16) (s : State) (h_s : Canon pq s) :
    CanonRes pq (execMma gc slot stop reg ra addr s) := by
  unfold execMma; (try simp only [pick_eq, pickRes_eq]); grind (ematch := 40) (gen := 60) (splits := 20) -lia -linarith -ring -ac -order -mbtc -funCC [State.present_canon, canon_pick, canon_pickRes, canon_next, canon_refused, canon_foldl, canon_foldl1, canon_foldlD]

theorem execMovs_canon {pq : List Instr} (gc : Fin 160) (slot : Fin 18) (stop : Bool) (ch : BitVec 2) (s : State) (h_s : Canon pq s) :
    CanonRes pq (execMovs gc slot stop ch s) := by
  unfold execMovs; (try simp only [pick_eq, pickRes_eq]); grind (ematch := 40) (gen := 60) (splits := 20) -lia -linarith -ring -ac -order -mbtc -funCC [State.present_canon, canon_pick, canon_pickRes, canon_next, canon_refused, canon_foldl, canon_foldl1, canon_foldlD]

theorem execMtsr_canon {pq : List Instr} (gc : Fin 160) (slot : Fin 18) (stop : Bool) (ra : BitVec 4) (code : BitVec 6) (s : State) (h_s : Canon pq s) :
    CanonRes pq (execMtsr gc slot stop ra code s) := by
  unfold execMtsr; (try simp only [pick_eq, pickRes_eq]); grind (ematch := 40) (gen := 60) (splits := 20) -lia -linarith -ring -ac -order -mbtc -funCC [State.present_canon, canon_pick, canon_pickRes, canon_next, canon_refused, canon_foldl, canon_foldl1, canon_foldlD]

theorem execMul_canon {pq : List Instr} (gc : Fin 160) (slot : Fin 18) (stop : Bool) (rd : BitVec 4) (ra : BitVec 4) (rb : BitVec 4) (s : State) (h_s : Canon pq s) :
    CanonRes pq (execMul gc slot stop rd ra rb s) := by
  unfold execMul; (try simp only [pick_eq, pickRes_eq]); grind (ematch := 40) (gen := 60) (splits := 20) -lia -linarith -ring -ac -order -mbtc -funCC [State.present_canon, canon_pick, canon_pickRes, canon_next, canon_refused, canon_foldl, canon_foldl1, canon_foldlD]

theorem execMulhu_canon {pq : List Instr} (gc : Fin 160) (slot : Fin 18) (stop : Bool) (rd : BitVec 4) (ra : BitVec 4) (rb : BitVec 4) (s : State) (h_s : Canon pq s) :
    CanonRes pq (execMulhu gc slot stop rd ra rb s) := by
  unfold execMulhu; (try simp only [pick_eq, pickRes_eq]); grind (ematch := 40) (gen := 60) (splits := 20) -lia -linarith -ring -ac -order -mbtc -funCC [State.present_canon, canon_pick, canon_pickRes, canon_next, canon_refused, canon_foldl, canon_foldl1, canon_foldlD]

theorem execNop_canon {pq : List Instr} (gc : Fin 160) (slot : Fin 18) (stop : Bool) (s : State) (h_s : Canon pq s) :
    CanonRes pq (execNop gc slot stop s) := by
  unfold execNop; (try simp only [pick_eq, pickRes_eq]); grind (ematch := 40) (gen := 60) (splits := 20) -lia -linarith -ring -ac -order -mbtc -funCC [State.present_canon, canon_pick, canon_pickRes, canon_next, canon_refused, canon_foldl, canon_foldl1, canon_foldlD]

theorem execOr_canon {pq : List Instr} (gc : Fin 160) (slot : Fin 18) (stop : Bool) (rd : BitVec 4) (ra : BitVec 4) (rb : BitVec 4) (s : State) (h_s : Canon pq s) :
    CanonRes pq (execOr gc slot stop rd ra rb s) := by
  unfold execOr; (try simp only [pick_eq, pickRes_eq]); grind (ematch := 40) (gen := 60) (splits := 20) -lia -linarith -ring -ac -order -mbtc -funCC [State.present_canon, canon_pick, canon_pickRes, canon_next, canon_refused, canon_foldl, canon_foldl1, canon_foldlD]

theorem execOri_canon {pq : List Instr} (gc : Fin 160) (slot : Fin 18) (stop : Bool) (rd : BitVec 4) (ra : BitVec 4) (imm : BitVec 14) (s : State) (h_s : Canon pq s) :
    CanonRes pq (execOri gc slot stop rd ra imm s) := by
  unfold execOri; (try simp only [pick_eq, pickRes_eq]); grind (ematch := 40) (gen := 60) (splits := 20) -lia -linarith -ring -ac -order -mbtc -funCC [State.present_canon, canon_pick, canon_pickRes, canon_next, canon_refused, canon_foldl, canon_foldl1, canon_foldlD]

theorem execRsig_canon {pq : List Instr} (gc : Fin 160) (slot : Fin 18) (stop : Bool) (ra : BitVec 4) (rb : BitVec 4) (s : State) (h_s : Canon pq s) :
    CanonRes pq (execRsig gc slot stop ra rb s) := by
  unfold execRsig; (try simp only [pick_eq, pickRes_eq]); grind (ematch := 40) (gen := 60) (splits := 20) -lia -linarith -ring -ac -order -mbtc -funCC [State.present_canon, canon_pick, canon_pickRes, canon_next, canon_refused, canon_foldl, canon_foldl1, canon_foldlD]

theorem execRsigi_canon {pq : List Instr} (gc : Fin 160) (slot : Fin 18) (stop : Bool) (id : BitVec 15) (imm : BitVec 7) (s : State) (h_s : Canon pq s) :
    CanonRes pq (execRsigi gc slot stop id imm s) := by
  unfold execRsigi; (try simp only [pick_eq, pickRes_eq]); grind (ematch := 40) (gen := 60) (splits := 20) -lia -linarith -ring -ac -order -mbtc -funCC [State.present_canon, canon_pick, canon_pickRes, canon_next, canon_refused, canon_foldl, canon_foldl1, canon_foldlD]

theorem execSetb_canon {pq : List Instr} (gc : Fin 160) (slot : Fin 18) (stop : Bool) (ra : BitVec 4) (rb : BitVec 4) (rc : BitVec 4) (s : State) (h_s : Canon pq s) :
    CanonRes pq (execSetb gc slot stop ra rb rc s) := by
  unfold execSetb; (try simp only [pick_eq, pickRes_eq]); grind (ematch := 40) (gen := 60) (splits := 20) -lia -linarith -ring -ac -order -mbtc -funCC [State.present_canon, canon_pick, canon_pickRes, canon_next, canon_refused, canon_foldl, canon_foldl1, canon_foldlD]

theorem execShl_canon {pq : List Instr} (gc : Fin 160) (slot : Fin 18) (stop : Bool) (rd : BitVec 4) (ra : BitVec 4) (rb : BitVec 4) (s : State) (h_s : Canon pq s) :
    CanonRes pq (execShl gc slot stop rd ra rb s) := by
  unfold execShl; (try simp only [pick_eq, pickRes_eq]); grind (ematch := 40) (gen := 60) (splits := 20) -lia -linarith -ring -ac -order -mbtc -funCC [State.present_canon, canon_pick, canon_pickRes, canon_next, canon_refused, canon_foldl, canon_foldl1, canon_foldlD]

theorem execShli_canon {pq : List Instr} (gc : Fin 160) (slot : Fin 18) (stop : Bool) (rd : BitVec 4) (ra : BitVec 4) (imm : BitVec 14) (s : State) (h_s : Canon pq s) :
    CanonRes pq (execShli gc slot stop rd ra imm s) := by
  unfold execShli; (try simp only [pick_eq, pickRes_eq]); grind (ematch := 40) (gen := 60) (splits := 20) -lia -linarith -ring -ac -order -mbtc -funCC [State.present_canon, canon_pick, canon_pickRes, canon_next, canon_refused, canon_foldl, canon_foldl1, canon_foldlD]

theorem execShr_canon {pq : List Instr} (gc : Fin 160) (slot : Fin 18) (stop : Bool) (rd : BitVec 4) (ra : BitVec 4) (rb : BitVec 4) (s : State) (h_s : Canon pq s) :
    CanonRes pq (execShr gc slot stop rd ra rb s) := by
  unfold execShr; (try simp only [pick_eq, pickRes_eq]); grind (ematch := 40) (gen := 60) (splits := 20) -lia -linarith -ring -ac -order -mbtc -funCC [State.present_canon, canon_pick, canon_pickRes, canon_next, canon_refused, canon_foldl, canon_foldl1, canon_foldlD]

theorem execShri_canon {pq : List Instr} (gc : Fin 160) (slot : Fin 18) (stop : Bool) (rd : BitVec 4) (ra : BitVec 4) (imm : BitVec 14) (s : State) (h_s : Canon pq s) :
    CanonRes pq (execShri gc slot stop rd ra imm s) := by
  unfold execShri; (try simp only [pick_eq, pickRes_eq]); grind (ematch := 40) (gen := 60) (splits := 20) -lia -linarith -ring -ac -order -mbtc -funCC [State.present_canon, canon_pick, canon_pickRes, canon_next, canon_refused, canon_foldl, canon_foldl1, canon_foldlD]

theorem execSig_canon {pq : List Instr} (gc : Fin 160) (slot : Fin 18) (stop : Bool) (ra : BitVec 4) (rb : BitVec 4) (s : State) (h_s : Canon pq s) :
    CanonRes pq (execSig gc slot stop ra rb s) := by
  unfold execSig; (try simp only [pick_eq, pickRes_eq]); grind (ematch := 40) (gen := 60) (splits := 20) -lia -linarith -ring -ac -order -mbtc -funCC [State.present_canon, canon_pick, canon_pickRes, canon_next, canon_refused, canon_foldl, canon_foldl1, canon_foldlD]

theorem execSigi_canon {pq : List Instr} (gc : Fin 160) (slot : Fin 18) (stop : Bool) (n : BitVec 7) (imm : BitVec 15) (s : State) (h_s : Canon pq s) :
    CanonRes pq (execSigi gc slot stop n imm s) := by
  unfold execSigi; (try simp only [pick_eq, pickRes_eq]); grind (ematch := 40) (gen := 60) (splits := 20) -lia -linarith -ring -ac -order -mbtc -funCC [State.present_canon, canon_pick, canon_pickRes, canon_next, canon_refused, canon_foldl, canon_foldl1, canon_foldlD]

theorem execSlt_canon {pq : List Instr} (gc : Fin 160) (slot : Fin 18) (stop : Bool) (rd : BitVec 4) (ra : BitVec 4) (rb : BitVec 4) (s : State) (h_s : Canon pq s) :
    CanonRes pq (execSlt gc slot stop rd ra rb s) := by
  unfold execSlt; (try simp only [pick_eq, pickRes_eq]); grind (ematch := 40) (gen := 60) (splits := 20) -lia -linarith -ring -ac -order -mbtc -funCC [State.present_canon, canon_pick, canon_pickRes, canon_next, canon_refused, canon_foldl, canon_foldl1, canon_foldlD]

theorem execSltu_canon {pq : List Instr} (gc : Fin 160) (slot : Fin 18) (stop : Bool) (rd : BitVec 4) (ra : BitVec 4) (rb : BitVec 4) (s : State) (h_s : Canon pq s) :
    CanonRes pq (execSltu gc slot stop rd ra rb s) := by
  unfold execSltu; (try simp only [pick_eq, pickRes_eq]); grind (ematch := 40) (gen := 60) (splits := 20) -lia -linarith -ring -ac -order -mbtc -funCC [State.present_canon, canon_pick, canon_pickRes, canon_next, canon_refused, canon_foldl, canon_foldl1, canon_foldlD]

theorem execSra_canon {pq : List Instr} (gc : Fin 160) (slot : Fin 18) (stop : Bool) (rd : BitVec 4) (ra : BitVec 4) (rb : BitVec 4) (s : State) (h_s : Canon pq s) :
    CanonRes pq (execSra gc slot stop rd ra rb s) := by
  unfold execSra; (try simp only [pick_eq, pickRes_eq]); grind (ematch := 40) (gen := 60) (splits := 20) -lia -linarith -ring -ac -order -mbtc -funCC [State.present_canon, canon_pick, canon_pickRes, canon_next, canon_refused, canon_foldl, canon_foldl1, canon_foldlD]

theorem execSrai_canon {pq : List Instr} (gc : Fin 160) (slot : Fin 18) (stop : Bool) (rd : BitVec 4) (ra : BitVec 4) (imm : BitVec 14) (s : State) (h_s : Canon pq s) :
    CanonRes pq (execSrai gc slot stop rd ra imm s) := by
  unfold execSrai; (try simp only [pick_eq, pickRes_eq]); grind (ematch := 40) (gen := 60) (splits := 20) -lia -linarith -ring -ac -order -mbtc -funCC [State.present_canon, canon_pick, canon_pickRes, canon_next, canon_refused, canon_foldl, canon_foldl1, canon_foldlD]

theorem execStb_canon {pq : List Instr} (gc : Fin 160) (slot : Fin 18) (stop : Bool) (rs : BitVec 4) (ra : BitVec 4) (off : BitVec 10) (byte : BitVec 4) (s : State) (h_s : Canon pq s) :
    CanonRes pq (execStb gc slot stop rs ra off byte s) := by
  unfold execStb; (try simp only [pick_eq, pickRes_eq]); grind (ematch := 40) (gen := 60) (splits := 20) -lia -linarith -ring -ac -order -mbtc -funCC [State.present_canon, canon_pick, canon_pickRes, canon_next, canon_refused, canon_foldl, canon_foldl1, canon_foldlD]

theorem execSth_canon {pq : List Instr} (gc : Fin 160) (slot : Fin 18) (stop : Bool) (rs : BitVec 4) (ra : BitVec 4) (off : BitVec 10) (byte : BitVec 4) (s : State) (h_s : Canon pq s) :
    CanonRes pq (execSth gc slot stop rs ra off byte s) := by
  unfold execSth; (try simp only [pick_eq, pickRes_eq]); grind (ematch := 40) (gen := 60) (splits := 20) -lia -linarith -ring -ac -order -mbtc -funCC [State.present_canon, canon_pick, canon_pickRes, canon_next, canon_refused, canon_foldl, canon_foldl1, canon_foldlD]

theorem execSub_canon {pq : List Instr} (gc : Fin 160) (slot : Fin 18) (stop : Bool) (rd : BitVec 4) (ra : BitVec 4) (rb : BitVec 4) (s : State) (h_s : Canon pq s) :
    CanonRes pq (execSub gc slot stop rd ra rb s) := by
  unfold execSub; (try simp only [pick_eq, pickRes_eq]); grind (ematch := 40) (gen := 60) (splits := 20) -lia -linarith -ring -ac -order -mbtc -funCC [State.present_canon, canon_pick, canon_pickRes, canon_next, canon_refused, canon_foldl, canon_foldl1, canon_foldlD]

theorem execVabs_canon {pq : List Instr} (gc : Fin 160) (slot : Fin 18) (stop : Bool) (a : VrArgs) (s : State) (h_s : Canon pq s) :
    CanonRes pq (execVabs gc slot stop a s) := by
  unfold execVabs; (try simp only [pick_eq, pickRes_eq]); grind (ematch := 40) (gen := 60) (splits := 20) -lia -linarith -ring -ac -order -mbtc -funCC [State.present_canon, canon_pick, canon_pickRes, canon_next, canon_refused, canon_foldl, canon_foldl1, canon_foldlD]

theorem execVadd_canon {pq : List Instr} (gc : Fin 160) (slot : Fin 18) (stop : Bool) (a : VrArgs) (s : State) (h_s : Canon pq s) :
    CanonRes pq (execVadd gc slot stop a s) := by
  unfold execVadd; (try simp only [pick_eq, pickRes_eq]); grind (ematch := 40) (gen := 60) (splits := 20) -lia -linarith -ring -ac -order -mbtc -funCC [State.present_canon, canon_pick, canon_pickRes, canon_next, canon_refused, canon_foldl, canon_foldl1, canon_foldlD]

theorem execVand_canon {pq : List Instr} (gc : Fin 160) (slot : Fin 18) (stop : Bool) (a : VrArgs) (s : State) (h_s : Canon pq s) :
    CanonRes pq (execVand gc slot stop a s) := by
  unfold execVand; (try simp only [pick_eq, pickRes_eq]); grind (ematch := 40) (gen := 60) (splits := 20) -lia -linarith -ring -ac -order -mbtc -funCC [State.present_canon, canon_pick, canon_pickRes, canon_next, canon_refused, canon_foldl, canon_foldl1, canon_foldlD]

theorem execVcmpeq_canon {pq : List Instr} (gc : Fin 160) (slot : Fin 18) (stop : Bool) (a : VrArgs) (s : State) (h_s : Canon pq s) :
    CanonRes pq (execVcmpeq gc slot stop a s) := by
  unfold execVcmpeq; (try simp only [pick_eq, pickRes_eq]); grind (ematch := 40) (gen := 60) (splits := 20) -lia -linarith -ring -ac -order -mbtc -funCC [State.present_canon, canon_pick, canon_pickRes, canon_next, canon_refused, canon_foldl, canon_foldl1, canon_foldlD]

theorem execVcmple_canon {pq : List Instr} (gc : Fin 160) (slot : Fin 18) (stop : Bool) (a : VrArgs) (s : State) (h_s : Canon pq s) :
    CanonRes pq (execVcmple gc slot stop a s) := by
  unfold execVcmple; (try simp only [pick_eq, pickRes_eq]); grind (ematch := 40) (gen := 60) (splits := 20) -lia -linarith -ring -ac -order -mbtc -funCC [State.present_canon, canon_pick, canon_pickRes, canon_next, canon_refused, canon_foldl, canon_foldl1, canon_foldlD]

theorem execVcmplt_canon {pq : List Instr} (gc : Fin 160) (slot : Fin 18) (stop : Bool) (a : VrArgs) (s : State) (h_s : Canon pq s) :
    CanonRes pq (execVcmplt gc slot stop a s) := by
  unfold execVcmplt; (try simp only [pick_eq, pickRes_eq]); grind (ematch := 40) (gen := 60) (splits := 20) -lia -linarith -ring -ac -order -mbtc -funCC [State.present_canon, canon_pick, canon_pickRes, canon_next, canon_refused, canon_foldl, canon_foldl1, canon_foldlD]

theorem execVcmpne_canon {pq : List Instr} (gc : Fin 160) (slot : Fin 18) (stop : Bool) (a : VrArgs) (s : State) (h_s : Canon pq s) :
    CanonRes pq (execVcmpne gc slot stop a s) := by
  unfold execVcmpne; (try simp only [pick_eq, pickRes_eq]); grind (ematch := 40) (gen := 60) (splits := 20) -lia -linarith -ring -ac -order -mbtc -funCC [State.present_canon, canon_pick, canon_pickRes, canon_next, canon_refused, canon_foldl, canon_foldl1, canon_foldlD]

theorem execVcvt_canon {pq : List Instr} (gc : Fin 160) (slot : Fin 18) (stop : Bool) (vd : BitVec 5) (vs : BitVec 5) (dtype : BitVec 4) (stype : BitVec 4) (part : BitVec 2) (s : State) (h_s : Canon pq s) :
    CanonRes pq (execVcvt gc slot stop vd vs dtype stype part s) := by
  unfold execVcvt; (try simp only [pick_eq, pickRes_eq]); grind (ematch := 40) (gen := 60) (splits := 20) -lia -linarith -ring -ac -order -mbtc -funCC [State.present_canon, canon_pick, canon_pickRes, canon_next, canon_refused, canon_foldl, canon_foldl1, canon_foldlD]

theorem execVdiv_canon {pq : List Instr} (gc : Fin 160) (slot : Fin 18) (stop : Bool) (a : VrArgs) (s : State) (h_s : Canon pq s) :
    CanonRes pq (execVdiv gc slot stop a s) := by
  unfold execVdiv; (try simp only [pick_eq, pickRes_eq]); grind (ematch := 40) (gen := 60) (splits := 20) -lia -linarith -ring -ac -order -mbtc -funCC [State.present_canon, canon_pick, canon_pickRes, canon_next, canon_refused, canon_foldl, canon_foldl1, canon_foldlD]

theorem execVexp_canon {pq : List Instr} (gc : Fin 160) (slot : Fin 18) (stop : Bool) (a : VrArgs) (s : State) (h_s : Canon pq s) :
    CanonRes pq (execVexp gc slot stop a s) := by
  unfold execVexp; (try simp only [pick_eq, pickRes_eq]); grind (ematch := 40) (gen := 60) (splits := 20) -lia -linarith -ring -ac -order -mbtc -funCC [State.present_canon, canon_pick, canon_pickRes, canon_next, canon_refused, canon_foldl, canon_foldl1, canon_foldlD]

theorem execVext_canon {pq : List Instr} (gc : Fin 160) (slot : Fin 18) (stop : Bool) (sd : BitVec 4) (vs : BitVec 5) (lane : BitVec 7) (type : BitVec 4) (s : State) (h_s : Canon pq s) :
    CanonRes pq (execVext gc slot stop sd vs lane type s) := by
  unfold execVext; (try simp only [pick_eq, pickRes_eq]); grind (ematch := 40) (gen := 60) (splits := 20) -lia -linarith -ring -ac -order -mbtc -funCC [State.present_canon, canon_pick, canon_pickRes, canon_next, canon_refused, canon_foldl, canon_foldl1, canon_foldlD]

theorem execVflg_canon {pq : List Instr} (gc : Fin 160) (slot : Fin 18) (stop : Bool) (a : VrArgs) (s : State) (h_s : Canon pq s) :
    CanonRes pq (execVflg gc slot stop a s) := by
  unfold execVflg; (try simp only [pick_eq, pickRes_eq]); grind (ematch := 40) (gen := 60) (splits := 20) -lia -linarith -ring -ac -order -mbtc -funCC [State.present_canon, canon_pick, canon_pickRes, canon_next, canon_refused, canon_foldl, canon_foldl1, canon_foldlD]

theorem execVflgc_canon {pq : List Instr} (gc : Fin 160) (slot : Fin 18) (stop : Bool) (a : VrArgs) (s : State) (h_s : Canon pq s) :
    CanonRes pq (execVflgc gc slot stop a s) := by
  unfold execVflgc; (try simp only [pick_eq, pickRes_eq]); grind (ematch := 40) (gen := 60) (splits := 20) -lia -linarith -ring -ac -order -mbtc -funCC [State.present_canon, canon_pick, canon_pickRes, canon_next, canon_refused, canon_foldl, canon_foldl1, canon_foldlD]

theorem execVfma_canon {pq : List Instr} (gc : Fin 160) (slot : Fin 18) (stop : Bool) (a : VrArgs) (s : State) (h_s : Canon pq s) :
    CanonRes pq (execVfma gc slot stop a s) := by
  unfold execVfma; (try simp only [pick_eq, pickRes_eq]); grind (ematch := 40) (gen := 60) (splits := 20) -lia -linarith -ring -ac -order -mbtc -funCC [State.present_canon, canon_pick, canon_pickRes, canon_next, canon_refused, canon_foldl, canon_foldl1, canon_foldlD]

theorem execVld_canon {pq : List Instr} (gc : Fin 160) (slot : Fin 18) (stop : Bool) (v : BitVec 5) (ra : BitVec 4) (off : BitVec 13) (s : State) (h_s : Canon pq s) :
    CanonRes pq (execVld gc slot stop v ra off s) := by
  unfold execVld; (try simp only [pick_eq, pickRes_eq]); grind (ematch := 40) (gen := 60) (splits := 20) -lia -linarith -ring -ac -order -mbtc -funCC [State.present_canon, canon_pick, canon_pickRes, canon_next, canon_refused, canon_foldl, canon_foldl1, canon_foldlD]

theorem execVlog_canon {pq : List Instr} (gc : Fin 160) (slot : Fin 18) (stop : Bool) (a : VrArgs) (s : State) (h_s : Canon pq s) :
    CanonRes pq (execVlog gc slot stop a s) := by
  unfold execVlog; (try simp only [pick_eq, pickRes_eq]); grind (ematch := 40) (gen := 60) (splits := 20) -lia -linarith -ring -ac -order -mbtc -funCC [State.present_canon, canon_pick, canon_pickRes, canon_next, canon_refused, canon_foldl, canon_foldl1, canon_foldlD]

theorem execVmax_canon {pq : List Instr} (gc : Fin 160) (slot : Fin 18) (stop : Bool) (a : VrArgs) (s : State) (h_s : Canon pq s) :
    CanonRes pq (execVmax gc slot stop a s) := by
  unfold execVmax; (try simp only [pick_eq, pickRes_eq]); grind (ematch := 40) (gen := 60) (splits := 20) -lia -linarith -ring -ac -order -mbtc -funCC [State.present_canon, canon_pick, canon_pickRes, canon_next, canon_refused, canon_foldl, canon_foldl1, canon_foldlD]

theorem execVmin_canon {pq : List Instr} (gc : Fin 160) (slot : Fin 18) (stop : Bool) (a : VrArgs) (s : State) (h_s : Canon pq s) :
    CanonRes pq (execVmin gc slot stop a s) := by
  unfold execVmin; (try simp only [pick_eq, pickRes_eq]); grind (ematch := 40) (gen := 60) (splits := 20) -lia -linarith -ring -ac -order -mbtc -funCC [State.present_canon, canon_pick, canon_pickRes, canon_next, canon_refused, canon_foldl, canon_foldl1, canon_foldlD]

theorem execVmul_canon {pq : List Instr} (gc : Fin 160) (slot : Fin 18) (stop : Bool) (a : VrArgs) (s : State) (h_s : Canon pq s) :
    CanonRes pq (execVmul gc slot stop a s) := by
  unfold execVmul; (try simp only [pick_eq, pickRes_eq]); grind (ematch := 40) (gen := 60) (splits := 20) -lia -linarith -ring -ac -order -mbtc -funCC [State.present_canon, canon_pick, canon_pickRes, canon_next, canon_refused, canon_foldl, canon_foldl1, canon_foldlD]

theorem execVneg_canon {pq : List Instr} (gc : Fin 160) (slot : Fin 18) (stop : Bool) (a : VrArgs) (s : State) (h_s : Canon pq s) :
    CanonRes pq (execVneg gc slot stop a s) := by
  unfold execVneg; (try simp only [pick_eq, pickRes_eq]); grind (ematch := 40) (gen := 60) (splits := 20) -lia -linarith -ring -ac -order -mbtc -funCC [State.present_canon, canon_pick, canon_pickRes, canon_next, canon_refused, canon_foldl, canon_foldl1, canon_foldlD]

theorem execVnot_canon {pq : List Instr} (gc : Fin 160) (slot : Fin 18) (stop : Bool) (a : VrArgs) (s : State) (h_s : Canon pq s) :
    CanonRes pq (execVnot gc slot stop a s) := by
  unfold execVnot; (try simp only [pick_eq, pickRes_eq]); grind (ematch := 40) (gen := 60) (splits := 20) -lia -linarith -ring -ac -order -mbtc -funCC [State.present_canon, canon_pick, canon_pickRes, canon_next, canon_refused, canon_foldl, canon_foldl1, canon_foldlD]

theorem execVor_canon {pq : List Instr} (gc : Fin 160) (slot : Fin 18) (stop : Bool) (a : VrArgs) (s : State) (h_s : Canon pq s) :
    CanonRes pq (execVor gc slot stop a s) := by
  unfold execVor; (try simp only [pick_eq, pickRes_eq]); grind (ematch := 40) (gen := 60) (splits := 20) -lia -linarith -ring -ac -order -mbtc -funCC [State.present_canon, canon_pick, canon_pickRes, canon_next, canon_refused, canon_foldl, canon_foldl1, canon_foldlD]

theorem execVperm_canon {pq : List Instr} (gc : Fin 160) (slot : Fin 18) (stop : Bool) (a : VrArgs) (s : State) (h_s : Canon pq s) :
    CanonRes pq (execVperm gc slot stop a s) := by
  unfold execVperm; (try simp only [pick_eq, pickRes_eq]); grind (ematch := 40) (gen := 60) (splits := 20) -lia -linarith -ring -ac -order -mbtc -funCC [State.present_canon, canon_pick, canon_pickRes, canon_next, canon_refused, canon_foldl, canon_foldl1, canon_foldlD]

theorem execVqcfg_canon {pq : List Instr} (gc : Fin 160) (slot : Fin 18) (stop : Bool) (a : VrArgs) (s : State) (h_s : Canon pq s) :
    CanonRes pq (execVqcfg gc slot stop a s) := by
  unfold execVqcfg; (try simp only [pick_eq, pickRes_eq]); grind (ematch := 40) (gen := 60) (splits := 20) -lia -linarith -ring -ac -order -mbtc -funCC [State.present_canon, canon_pick, canon_pickRes, canon_next, canon_refused, canon_foldl, canon_foldl1, canon_foldlD]

theorem execVqnt_canon {pq : List Instr} (gc : Fin 160) (slot : Fin 18) (stop : Bool) (a : VrArgs) (s : State) (h_s : Canon pq s) :
    CanonRes pq (execVqnt gc slot stop a s) := by
  unfold execVqnt; (try simp only [pick_eq, pickRes_eq]); grind (ematch := 40) (gen := 60) (splits := 20) -lia -linarith -ring -ac -order -mbtc -funCC [State.present_canon, canon_pick, canon_pickRes, canon_next, canon_refused, canon_foldl, canon_foldl1, canon_foldlD]

theorem execVqrd_canon {pq : List Instr} (gc : Fin 160) (slot : Fin 18) (stop : Bool) (a : VrArgs) (s : State) (h_s : Canon pq s) :
    CanonRes pq (execVqrd gc slot stop a s) := by
  unfold execVqrd; (try simp only [pick_eq, pickRes_eq]); grind (ematch := 40) (gen := 60) (splits := 20) -lia -linarith -ring -ac -order -mbtc -funCC [State.present_canon, canon_pick, canon_pickRes, canon_next, canon_refused, canon_foldl, canon_foldl1, canon_foldlD]

theorem execVrailAdd_canon {pq : List Instr} (gc : Fin 160) (slot : Fin 18) (stop : Bool) (a : VrArgs) (s : State) (h_s : Canon pq s) :
    CanonRes pq (execVrailAdd gc slot stop a s) := by
  unfold execVrailAdd; (try simp only [pick_eq, pickRes_eq]); grind (ematch := 40) (gen := 60) (splits := 20) -lia -linarith -ring -ac -order -mbtc -funCC [State.present_canon, canon_pick, canon_pickRes, canon_next, canon_refused, canon_foldl, canon_foldl1, canon_foldlD]

theorem execVrailFin_canon {pq : List Instr} (gc : Fin 160) (slot : Fin 18) (stop : Bool) (a : VrArgs) (s : State) (h_s : Canon pq s) :
    CanonRes pq (execVrailFin gc slot stop a s) := by
  unfold execVrailFin; (try simp only [pick_eq, pickRes_eq]); grind (ematch := 40) (gen := 60) (splits := 20) -lia -linarith -ring -ac -order -mbtc -funCC [State.present_canon, canon_pick, canon_pickRes, canon_next, canon_refused, canon_foldl, canon_foldl1, canon_foldlD]

theorem execVrmax_canon {pq : List Instr} (gc : Fin 160) (slot : Fin 18) (stop : Bool) (a : VrArgs) (s : State) (h_s : Canon pq s) :
    CanonRes pq (execVrmax gc slot stop a s) := by
  unfold execVrmax; (try simp only [pick_eq, pickRes_eq]); grind (ematch := 40) (gen := 60) (splits := 20) -lia -linarith -ring -ac -order -mbtc -funCC [State.present_canon, canon_pick, canon_pickRes, canon_next, canon_refused, canon_foldl, canon_foldl1, canon_foldlD]

theorem execVrmin_canon {pq : List Instr} (gc : Fin 160) (slot : Fin 18) (stop : Bool) (a : VrArgs) (s : State) (h_s : Canon pq s) :
    CanonRes pq (execVrmin gc slot stop a s) := by
  unfold execVrmin; (try simp only [pick_eq, pickRes_eq]); grind (ematch := 40) (gen := 60) (splits := 20) -lia -linarith -ring -ac -order -mbtc -funCC [State.present_canon, canon_pick, canon_pickRes, canon_next, canon_refused, canon_foldl, canon_foldl1, canon_foldlD]

theorem execVrsum_canon {pq : List Instr} (gc : Fin 160) (slot : Fin 18) (stop : Bool) (a : VrArgs) (s : State) (h_s : Canon pq s) :
    CanonRes pq (execVrsum gc slot stop a s) := by
  unfold execVrsum; (try simp only [pick_eq, pickRes_eq]); grind (ematch := 40) (gen := 60) (splits := 20) -lia -linarith -ring -ac -order -mbtc -funCC [State.present_canon, canon_pick, canon_pickRes, canon_next, canon_refused, canon_foldl, canon_foldl1, canon_foldlD]

theorem execVseed_canon {pq : List Instr} (gc : Fin 160) (slot : Fin 18) (stop : Bool) (a : VrArgs) (s : State) (h_s : Canon pq s) :
    CanonRes pq (execVseed gc slot stop a s) := by
  unfold execVseed; (try simp only [pick_eq, pickRes_eq]); grind (ematch := 40) (gen := 60) (splits := 20) -lia -linarith -ring -ac -order -mbtc -funCC [State.present_canon, canon_pick, canon_pickRes, canon_next, canon_refused, canon_foldl, canon_foldl1, canon_foldlD]

theorem execVsel_canon {pq : List Instr} (gc : Fin 160) (slot : Fin 18) (stop : Bool) (vd : BitVec 5) (va : BitVec 5) (vb : BitVec 5) (vm : BitVec 5) (s : State) (h_s : Canon pq s) :
    CanonRes pq (execVsel gc slot stop vd va vb vm s) := by
  unfold execVsel; (try simp only [pick_eq, pickRes_eq]); grind (ematch := 40) (gen := 60) (splits := 20) -lia -linarith -ring -ac -order -mbtc -funCC [State.present_canon, canon_pick, canon_pickRes, canon_next, canon_refused, canon_foldl, canon_foldl1, canon_foldlD]

theorem execVshl_canon {pq : List Instr} (gc : Fin 160) (slot : Fin 18) (stop : Bool) (a : VrArgs) (s : State) (h_s : Canon pq s) :
    CanonRes pq (execVshl gc slot stop a s) := by
  unfold execVshl; (try simp only [pick_eq, pickRes_eq]); grind (ematch := 40) (gen := 60) (splits := 20) -lia -linarith -ring -ac -order -mbtc -funCC [State.present_canon, canon_pick, canon_pickRes, canon_next, canon_refused, canon_foldl, canon_foldl1, canon_foldlD]

theorem execVshr_canon {pq : List Instr} (gc : Fin 160) (slot : Fin 18) (stop : Bool) (a : VrArgs) (s : State) (h_s : Canon pq s) :
    CanonRes pq (execVshr gc slot stop a s) := by
  unfold execVshr; (try simp only [pick_eq, pickRes_eq]); grind (ematch := 40) (gen := 60) (splits := 20) -lia -linarith -ring -ac -order -mbtc -funCC [State.present_canon, canon_pick, canon_pickRes, canon_next, canon_refused, canon_foldl, canon_foldl1, canon_foldlD]

theorem execVsplat_canon {pq : List Instr} (gc : Fin 160) (slot : Fin 18) (stop : Bool) (vd : BitVec 5) (sx : BitVec 4) (type : BitVec 4) (s : State) (h_s : Canon pq s) :
    CanonRes pq (execVsplat gc slot stop vd sx type s) := by
  unfold execVsplat; (try simp only [pick_eq, pickRes_eq]); grind (ematch := 40) (gen := 60) (splits := 20) -lia -linarith -ring -ac -order -mbtc -funCC [State.present_canon, canon_pick, canon_pickRes, canon_next, canon_refused, canon_foldl, canon_foldl1, canon_foldlD]

theorem execVsqrt_canon {pq : List Instr} (gc : Fin 160) (slot : Fin 18) (stop : Bool) (a : VrArgs) (s : State) (h_s : Canon pq s) :
    CanonRes pq (execVsqrt gc slot stop a s) := by
  unfold execVsqrt; (try simp only [pick_eq, pickRes_eq]); grind (ematch := 40) (gen := 60) (splits := 20) -lia -linarith -ring -ac -order -mbtc -funCC [State.present_canon, canon_pick, canon_pickRes, canon_next, canon_refused, canon_foldl, canon_foldl1, canon_foldlD]

theorem execVsra_canon {pq : List Instr} (gc : Fin 160) (slot : Fin 18) (stop : Bool) (a : VrArgs) (s : State) (h_s : Canon pq s) :
    CanonRes pq (execVsra gc slot stop a s) := by
  unfold execVsra; (try simp only [pick_eq, pickRes_eq]); grind (ematch := 40) (gen := 60) (splits := 20) -lia -linarith -ring -ac -order -mbtc -funCC [State.present_canon, canon_pick, canon_pickRes, canon_next, canon_refused, canon_foldl, canon_foldl1, canon_foldlD]

theorem execVst_canon {pq : List Instr} (gc : Fin 160) (slot : Fin 18) (stop : Bool) (v : BitVec 5) (ra : BitVec 4) (off : BitVec 13) (s : State) (h_s : Canon pq s) :
    CanonRes pq (execVst gc slot stop v ra off s) := by
  unfold execVst; (try simp only [pick_eq, pickRes_eq]); grind (ematch := 40) (gen := 60) (splits := 20) -lia -linarith -ring -ac -order -mbtc -funCC [State.present_canon, canon_pick, canon_pickRes, canon_next, canon_refused, canon_foldl, canon_foldl1, canon_foldlD]

theorem execVsub_canon {pq : List Instr} (gc : Fin 160) (slot : Fin 18) (stop : Bool) (a : VrArgs) (s : State) (h_s : Canon pq s) :
    CanonRes pq (execVsub gc slot stop a s) := by
  unfold execVsub; (try simp only [pick_eq, pickRes_eq]); grind (ematch := 40) (gen := 60) (splits := 20) -lia -linarith -ring -ac -order -mbtc -funCC [State.present_canon, canon_pick, canon_pickRes, canon_next, canon_refused, canon_foldl, canon_foldl1, canon_foldlD]

theorem execVxor_canon {pq : List Instr} (gc : Fin 160) (slot : Fin 18) (stop : Bool) (a : VrArgs) (s : State) (h_s : Canon pq s) :
    CanonRes pq (execVxor gc slot stop a s) := by
  unfold execVxor; (try simp only [pick_eq, pickRes_eq]); grind (ematch := 40) (gen := 60) (splits := 20) -lia -linarith -ring -ac -order -mbtc -funCC [State.present_canon, canon_pick, canon_pickRes, canon_next, canon_refused, canon_foldl, canon_foldl1, canon_foldlD]

theorem execWait_canon {pq : List Instr} (gc : Fin 160) (slot : Fin 18) (stop : Bool) (ra : BitVec 4) (rb : BitVec 4) (rc : BitVec 4) (s : State) (h_s : Canon pq s) :
    CanonRes pq (execWait gc slot stop ra rb rc s) := by
  unfold execWait; (try simp only [pick_eq, pickRes_eq]); grind (ematch := 40) (gen := 60) (splits := 20) -lia -linarith -ring -ac -order -mbtc -funCC [State.present_canon, canon_pick, canon_pickRes, canon_next, canon_refused, canon_foldl, canon_foldl1, canon_foldlD]

theorem execWaiti_canon {pq : List Instr} (gc : Fin 160) (slot : Fin 18) (stop : Bool) (n : BitVec 7) (imm : BitVec 15) (s : State) (h_s : Canon pq s) :
    CanonRes pq (execWaiti gc slot stop n imm s) := by
  unfold execWaiti; (try simp only [pick_eq, pickRes_eq]); grind (ematch := 40) (gen := 60) (splits := 20) -lia -linarith -ring -ac -order -mbtc -funCC [State.present_canon, canon_pick, canon_pickRes, canon_next, canon_refused, canon_foldl, canon_foldl1, canon_foldlD]

theorem execWpull_canon {pq : List Instr} (gc : Fin 160) (slot : Fin 18) (stop : Bool) (ch : BitVec 2) (s : State) (h_s : Canon pq s) :
    CanonRes pq (execWpull gc slot stop ch s) := by
  unfold execWpull; (try simp only [pick_eq, pickRes_eq]); grind (ematch := 40) (gen := 60) (splits := 20) -lia -linarith -ring -ac -order -mbtc -funCC [State.present_canon, canon_pick, canon_pickRes, canon_next, canon_refused, canon_foldl, canon_foldl1, canon_foldlD]

theorem execXclr_canon {pq : List Instr} (gc : Fin 160) (slot : Fin 18) (stop : Bool) (ch : BitVec 2) (s : State) (h_s : Canon pq s) :
    CanonRes pq (execXclr gc slot stop ch s) := by
  unfold execXclr; (try simp only [pick_eq, pickRes_eq]); grind (ematch := 40) (gen := 60) (splits := 20) -lia -linarith -ring -ac -order -mbtc -funCC [State.present_canon, canon_pick, canon_pickRes, canon_next, canon_refused, canon_foldl, canon_foldl1, canon_foldlD]

theorem execXget_canon {pq : List Instr} (gc : Fin 160) (slot : Fin 18) (stop : Bool) (ch : BitVec 2) (field : BitVec 3) (part : BitVec 2) (rd : BitVec 4) (s : State) (h_s : Canon pq s) :
    CanonRes pq (execXget gc slot stop ch field part rd s) := by
  unfold execXget; (try simp only [pick_eq, pickRes_eq]); grind (ematch := 40) (gen := 60) (splits := 20) -lia -linarith -ring -ac -order -mbtc -funCC [State.present_canon, canon_pick, canon_pickRes, canon_next, canon_refused, canon_foldl, canon_foldl1, canon_foldlD]

theorem execXor_canon {pq : List Instr} (gc : Fin 160) (slot : Fin 18) (stop : Bool) (rd : BitVec 4) (ra : BitVec 4) (rb : BitVec 4) (s : State) (h_s : Canon pq s) :
    CanonRes pq (execXor gc slot stop rd ra rb s) := by
  unfold execXor; (try simp only [pick_eq, pickRes_eq]); grind (ematch := 40) (gen := 60) (splits := 20) -lia -linarith -ring -ac -order -mbtc -funCC [State.present_canon, canon_pick, canon_pickRes, canon_next, canon_refused, canon_foldl, canon_foldl1, canon_foldlD]

theorem execXori_canon {pq : List Instr} (gc : Fin 160) (slot : Fin 18) (stop : Bool) (rd : BitVec 4) (ra : BitVec 4) (imm : BitVec 14) (s : State) (h_s : Canon pq s) :
    CanonRes pq (execXori gc slot stop rd ra imm s) := by
  unfold execXori; (try simp only [pick_eq, pickRes_eq]); grind (ematch := 40) (gen := 60) (splits := 20) -lia -linarith -ring -ac -order -mbtc -funCC [State.present_canon, canon_pick, canon_pickRes, canon_next, canon_refused, canon_foldl, canon_foldl1, canon_foldlD]

theorem execXset_canon {pq : List Instr} (gc : Fin 160) (slot : Fin 18) (stop : Bool) (ch : BitVec 2) (field : BitVec 3) (part : BitVec 2) (rs : BitVec 4) (s : State) (h_s : Canon pq s) :
    CanonRes pq (execXset gc slot stop ch field part rs s) := by
  unfold execXset; (try simp only [pick_eq, pickRes_eq]); grind (ematch := 40) (gen := 60) (splits := 20) -lia -linarith -ring -ac -order -mbtc -funCC [State.present_canon, canon_pick, canon_pickRes, canon_next, canon_refused, canon_foldl, canon_foldl1, canon_foldlD]

theorem execXstop_canon {pq : List Instr} (gc : Fin 160) (slot : Fin 18) (stop : Bool) (ch : BitVec 2) (s : State) (h_s : Canon pq s) :
    CanonRes pq (execXstop gc slot stop ch s) := by
  unfold execXstop; (try simp only [pick_eq, pickRes_eq]); grind (ematch := 40) (gen := 60) (splits := 20) -lia -linarith -ring -ac -order -mbtc -funCC [State.present_canon, canon_pick, canon_pickRes, canon_next, canon_refused, canon_foldl, canon_foldl1, canon_foldlD]

end Sys2Proof.Machine
end

