-- ==== Sys2Proof/Laws/Mailbox.lean ====
section
/-! SUPPORT. What serving a mailbox command does. -/
namespace Sys2Proof.Machine
open Sys2Proof

/-- A command that may begin runs its meaning on the state in which it has begun. -/
theorem withMsg_serves {op : Nat} {hub : Fin 2} {page : Fin 64} {s : State} {f : State → Msg → State}
    (h : s.serves op hub page = true) :
    withMsg op hub page s f = .next ((f (s.begun op hub page) (s.message hub page)).settled hub page) := by
  simp only [State.serves, Bool.and_eq_true, Bool.or_eq_true, Bool.not_eq_true', decide_eq_true_eq,
    Bool.and_eq_false_iff, State.message] at h
  obtain ⟨⟨⟨⟨⟨⟨⟨h1, h2⟩, h3⟩, h4⟩, h5⟩, h6⟩, h7⟩, h8⟩ := h
  replace h3 := of_decide_eq_true h3
  have c1 : ¬(!s.mbxWaits (hub.val * 64 + page.val) ∨ (s.mbx (hub.val * 64 + page.val)).started ∨
      (Msg.mk (s.srcOf hub page) (s.mbx (hub.val * 64 + page.val)).held).opcode ≠ op ∨
      !(s.fwState (s.mbxOwner (hub.val * 64 + page.val)) = Fw.running || s.romServes op (hub.val * 64 + page.val)) ∨
      !s.mbxFirst (hub.val * 64 + page.val) ∨
      (!(s.mbx (hub.val * 64 + page.val)).mctp ∧ s.linkLost (Msg.mk (s.srcOf hub page) (s.mbx (hub.val * 64 + page.val)).held).src.link) ∨
      (s.bbx.suspended ∧ flashOpcodes.contains op)) := by
    simp only [h1, h2, h5]
    rcases h4 with h4 | h4 <;> rcases h6 with h6 | h6 <;> rcases h7 with h7 | h7 <;> simp_all
  have c2 : ¬(0x200 ≤ op ∧ op < 0x600 ∧ !(s.begun op hub page).bru.started) := by
    have : (s.begun op hub page).bru = s.bru := by
      unfold State.begun; split <;> rfl
    rw [this]
    rcases h8 with (h8 | h8) | h8
    · omega
    · omega
    · simp [h8]
  unfold withMsg
  rw [if_neg c1]
  simp only [h3]
  show Host.Outcome.next (State.settled (if 0x200 ≤ op ∧ op < 0x600 ∧ !(s.begun op hub page).bru.started then _ else _) hub page) = _
  rw [if_neg c2]
  rfl

end Sys2Proof.Machine
end

