-- ==== Sys2Proof/Laws/State.lean ====
section
/-! SUPPORT. What each update of one entry of a keyed collection leaves: the entry reads what was set, every other entry and
every other field reads as before. -/
namespace Sys2Proof.Machine
open Sys2Proof

@[simp] theorem State.setFilledRegion_filledRegion (s : State) (k : Nat) (x : Bool) : (s.setFilledRegion k x).filledRegion k = x := SMap.get_set_self _ _ _ _
theorem State.setFilledRegion_filledRegion_ne (s : State) {k j : Nat} (x : Bool) (h : j ≠ k) : (s.setFilledRegion k x).filledRegion j = s.filledRegion j :=
  SMap.get_set_ne _ _ _ h
@[simp] theorem State.setFilledRegion_pending (s : State) (k : Nat) (x : Bool) : (s.setFilledRegion k x).pending = s.pending := rfl
@[simp] theorem State.setFilledRegion_regs (s : State) (k : Nat) (x : Bool) : (s.setFilledRegion k x).regs = s.regs := rfl
@[simp] theorem State.setFilledRegion_mem (s : State) (k : Nat) (x : Bool) : (s.setFilledRegion k x).mem = s.mem := rfl
@[simp] theorem State.setFilledRegion_cores (s : State) (k : Nat) (x : Bool) : (s.setFilledRegion k x).cores = s.cores := rfl
@[simp] theorem State.setFilledRegion_clusters (s : State) (k : Nat) (x : Bool) : (s.setFilledRegion k x).clusters = s.clusters := rfl
@[simp] theorem State.setFilledRegion_beacons (s : State) (k : Nat) (x : Bool) : (s.setFilledRegion k x).beacons = s.beacons := rfl
@[simp] theorem State.setFilledRegion_signals (s : State) (k : Nat) (x : Bool) : (s.setFilledRegion k x).signals = s.signals := rfl
@[simp] theorem State.setFilledRegion_outs (s : State) (k : Nat) (x : Bool) : (s.setFilledRegion k x).outs = s.outs := rfl
@[simp] theorem State.setFilledRegion_freeCtr (s : State) (k : Nat) (x : Bool) : (s.setFilledRegion k x).freeCtr = s.freeCtr := rfl
@[simp] theorem State.setFilledRegion_parts (s : State) (k : Nat) (x : Bool) : (s.setFilledRegion k x).parts = s.parts := rfl
@[simp] theorem State.setFilledRegion_links (s : State) (k : Nat) (x : Bool) : (s.setFilledRegion k x).links = s.links := rfl
@[simp] theorem State.setFilledRegion_mbxs (s : State) (k : Nat) (x : Bool) : (s.setFilledRegion k x).mbxs = s.mbxs := rfl
@[simp] theorem State.setFilledRegion_hostMem (s : State) (k : Nat) (x : Bool) : (s.setFilledRegion k x).hostMem = s.hostMem := rfl
@[simp] theorem State.setFilledRegion_holdHit (s : State) (k : Nat) (x : Bool) : (s.setFilledRegion k x).holdHit = s.holdHit := rfl
@[simp] theorem State.setFilledRegion_pins (s : State) (k : Nat) (x : Bool) : (s.setFilledRegion k x).pins = s.pins := rfl
@[simp] theorem State.setFilledRegion_bru (s : State) (k : Nat) (x : Bool) : (s.setFilledRegion k x).bru = s.bru := rfl
@[simp] theorem State.setFilledRegion_sec (s : State) (k : Nat) (x : Bool) : (s.setFilledRegion k x).sec = s.sec := rfl
@[simp] theorem State.setFilledRegion_pwr (s : State) (k : Nat) (x : Bool) : (s.setFilledRegion k x).pwr = s.pwr := rfl

@[simp] theorem State.setChkOf_chkOf (s : State) (k : Nat) (x : BitVec 64) : (s.setChkOf k x).chkOf k = x := SMap.get_set_self _ _ _ _
theorem State.setChkOf_chkOf_ne (s : State) {k j : Nat} (x : BitVec 64) (h : j ≠ k) : (s.setChkOf k x).chkOf j = s.chkOf j :=
  SMap.get_set_ne _ _ _ h
@[simp] theorem State.setChkOf_pending (s : State) (k : Nat) (x : BitVec 64) : (s.setChkOf k x).pending = s.pending := rfl
@[simp] theorem State.setChkOf_regs (s : State) (k : Nat) (x : BitVec 64) : (s.setChkOf k x).regs = s.regs := rfl
@[simp] theorem State.setChkOf_mem (s : State) (k : Nat) (x : BitVec 64) : (s.setChkOf k x).mem = s.mem := rfl
@[simp] theorem State.setChkOf_cores (s : State) (k : Nat) (x : BitVec 64) : (s.setChkOf k x).cores = s.cores := rfl
@[simp] theorem State.setChkOf_clusters (s : State) (k : Nat) (x : BitVec 64) : (s.setChkOf k x).clusters = s.clusters := rfl
@[simp] theorem State.setChkOf_beacons (s : State) (k : Nat) (x : BitVec 64) : (s.setChkOf k x).beacons = s.beacons := rfl
@[simp] theorem State.setChkOf_signals (s : State) (k : Nat) (x : BitVec 64) : (s.setChkOf k x).signals = s.signals := rfl
@[simp] theorem State.setChkOf_outs (s : State) (k : Nat) (x : BitVec 64) : (s.setChkOf k x).outs = s.outs := rfl
@[simp] theorem State.setChkOf_freeCtr (s : State) (k : Nat) (x : BitVec 64) : (s.setChkOf k x).freeCtr = s.freeCtr := rfl
@[simp] theorem State.setChkOf_parts (s : State) (k : Nat) (x : BitVec 64) : (s.setChkOf k x).parts = s.parts := rfl
@[simp] theorem State.setChkOf_links (s : State) (k : Nat) (x : BitVec 64) : (s.setChkOf k x).links = s.links := rfl
@[simp] theorem State.setChkOf_mbxs (s : State) (k : Nat) (x : BitVec 64) : (s.setChkOf k x).mbxs = s.mbxs := rfl
@[simp] theorem State.setChkOf_hostMem (s : State) (k : Nat) (x : BitVec 64) : (s.setChkOf k x).hostMem = s.hostMem := rfl
@[simp] theorem State.setChkOf_holdHit (s : State) (k : Nat) (x : BitVec 64) : (s.setChkOf k x).holdHit = s.holdHit := rfl
@[simp] theorem State.setChkOf_pins (s : State) (k : Nat) (x : BitVec 64) : (s.setChkOf k x).pins = s.pins := rfl
@[simp] theorem State.setChkOf_bru (s : State) (k : Nat) (x : BitVec 64) : (s.setChkOf k x).bru = s.bru := rfl
@[simp] theorem State.setChkOf_sec (s : State) (k : Nat) (x : BitVec 64) : (s.setChkOf k x).sec = s.sec := rfl
@[simp] theorem State.setChkOf_pwr (s : State) (k : Nat) (x : BitVec 64) : (s.setChkOf k x).pwr = s.pwr := rfl

@[simp] theorem State.setRawLine_rawLine (s : State) (k : Nat) (x : Option (BitVec 512)) : (s.setRawLine k x).rawLine k = x := SMap.get_set_self _ _ _ _
theorem State.setRawLine_rawLine_ne (s : State) {k j : Nat} (x : Option (BitVec 512)) (h : j ≠ k) : (s.setRawLine k x).rawLine j = s.rawLine j :=
  SMap.get_set_ne _ _ _ h
@[simp] theorem State.setRawLine_pending (s : State) (k : Nat) (x : Option (BitVec 512)) : (s.setRawLine k x).pending = s.pending := rfl
@[simp] theorem State.setRawLine_regs (s : State) (k : Nat) (x : Option (BitVec 512)) : (s.setRawLine k x).regs = s.regs := rfl
@[simp] theorem State.setRawLine_mem (s : State) (k : Nat) (x : Option (BitVec 512)) : (s.setRawLine k x).mem = s.mem := rfl
@[simp] theorem State.setRawLine_cores (s : State) (k : Nat) (x : Option (BitVec 512)) : (s.setRawLine k x).cores = s.cores := rfl
@[simp] theorem State.setRawLine_clusters (s : State) (k : Nat) (x : Option (BitVec 512)) : (s.setRawLine k x).clusters = s.clusters := rfl
@[simp] theorem State.setRawLine_beacons (s : State) (k : Nat) (x : Option (BitVec 512)) : (s.setRawLine k x).beacons = s.beacons := rfl
@[simp] theorem State.setRawLine_signals (s : State) (k : Nat) (x : Option (BitVec 512)) : (s.setRawLine k x).signals = s.signals := rfl
@[simp] theorem State.setRawLine_outs (s : State) (k : Nat) (x : Option (BitVec 512)) : (s.setRawLine k x).outs = s.outs := rfl
@[simp] theorem State.setRawLine_freeCtr (s : State) (k : Nat) (x : Option (BitVec 512)) : (s.setRawLine k x).freeCtr = s.freeCtr := rfl
@[simp] theorem State.setRawLine_parts (s : State) (k : Nat) (x : Option (BitVec 512)) : (s.setRawLine k x).parts = s.parts := rfl
@[simp] theorem State.setRawLine_links (s : State) (k : Nat) (x : Option (BitVec 512)) : (s.setRawLine k x).links = s.links := rfl
@[simp] theorem State.setRawLine_mbxs (s : State) (k : Nat) (x : Option (BitVec 512)) : (s.setRawLine k x).mbxs = s.mbxs := rfl
@[simp] theorem State.setRawLine_hostMem (s : State) (k : Nat) (x : Option (BitVec 512)) : (s.setRawLine k x).hostMem = s.hostMem := rfl
@[simp] theorem State.setRawLine_holdHit (s : State) (k : Nat) (x : Option (BitVec 512)) : (s.setRawLine k x).holdHit = s.holdHit := rfl
@[simp] theorem State.setRawLine_pins (s : State) (k : Nat) (x : Option (BitVec 512)) : (s.setRawLine k x).pins = s.pins := rfl
@[simp] theorem State.setRawLine_bru (s : State) (k : Nat) (x : Option (BitVec 512)) : (s.setRawLine k x).bru = s.bru := rfl
@[simp] theorem State.setRawLine_sec (s : State) (k : Nat) (x : Option (BitVec 512)) : (s.setRawLine k x).sec = s.sec := rfl
@[simp] theorem State.setRawLine_pwr (s : State) (k : Nat) (x : Option (BitVec 512)) : (s.setRawLine k x).pwr = s.pwr := rfl

@[simp] theorem State.setT2key_t2key (s : State) (k : Nat) (x : BitVec 256) : (s.setT2key k x).t2key k = x := SMap.get_set_self _ _ _ _
theorem State.setT2key_t2key_ne (s : State) {k j : Nat} (x : BitVec 256) (h : j ≠ k) : (s.setT2key k x).t2key j = s.t2key j :=
  SMap.get_set_ne _ _ _ h
@[simp] theorem State.setT2key_pending (s : State) (k : Nat) (x : BitVec 256) : (s.setT2key k x).pending = s.pending := rfl
@[simp] theorem State.setT2key_regs (s : State) (k : Nat) (x : BitVec 256) : (s.setT2key k x).regs = s.regs := rfl
@[simp] theorem State.setT2key_mem (s : State) (k : Nat) (x : BitVec 256) : (s.setT2key k x).mem = s.mem := rfl
@[simp] theorem State.setT2key_cores (s : State) (k : Nat) (x : BitVec 256) : (s.setT2key k x).cores = s.cores := rfl
@[simp] theorem State.setT2key_clusters (s : State) (k : Nat) (x : BitVec 256) : (s.setT2key k x).clusters = s.clusters := rfl
@[simp] theorem State.setT2key_beacons (s : State) (k : Nat) (x : BitVec 256) : (s.setT2key k x).beacons = s.beacons := rfl
@[simp] theorem State.setT2key_signals (s : State) (k : Nat) (x : BitVec 256) : (s.setT2key k x).signals = s.signals := rfl
@[simp] theorem State.setT2key_outs (s : State) (k : Nat) (x : BitVec 256) : (s.setT2key k x).outs = s.outs := rfl
@[simp] theorem State.setT2key_freeCtr (s : State) (k : Nat) (x : BitVec 256) : (s.setT2key k x).freeCtr = s.freeCtr := rfl
@[simp] theorem State.setT2key_parts (s : State) (k : Nat) (x : BitVec 256) : (s.setT2key k x).parts = s.parts := rfl
@[simp] theorem State.setT2key_links (s : State) (k : Nat) (x : BitVec 256) : (s.setT2key k x).links = s.links := rfl
@[simp] theorem State.setT2key_mbxs (s : State) (k : Nat) (x : BitVec 256) : (s.setT2key k x).mbxs = s.mbxs := rfl
@[simp] theorem State.setT2key_hostMem (s : State) (k : Nat) (x : BitVec 256) : (s.setT2key k x).hostMem = s.hostMem := rfl
@[simp] theorem State.setT2key_holdHit (s : State) (k : Nat) (x : BitVec 256) : (s.setT2key k x).holdHit = s.holdHit := rfl
@[simp] theorem State.setT2key_pins (s : State) (k : Nat) (x : BitVec 256) : (s.setT2key k x).pins = s.pins := rfl
@[simp] theorem State.setT2key_bru (s : State) (k : Nat) (x : BitVec 256) : (s.setT2key k x).bru = s.bru := rfl
@[simp] theorem State.setT2key_sec (s : State) (k : Nat) (x : BitVec 256) : (s.setT2key k x).sec = s.sec := rfl
@[simp] theorem State.setT2key_pwr (s : State) (k : Nat) (x : BitVec 256) : (s.setT2key k x).pwr = s.pwr := rfl

@[simp] theorem State.setCore_core (s : State) (k : Nat) (x : Core) : (s.setCore k x).core k = x := SMap.get_set_self _ _ _ _
theorem State.setCore_core_ne (s : State) {k j : Nat} (x : Core) (h : j ≠ k) : (s.setCore k x).core j = s.core j :=
  SMap.get_set_ne _ _ _ h
@[simp] theorem State.setCore_pending (s : State) (k : Nat) (x : Core) : (s.setCore k x).pending = s.pending := rfl
@[simp] theorem State.setCore_regs (s : State) (k : Nat) (x : Core) : (s.setCore k x).regs = s.regs := rfl
@[simp] theorem State.setCore_mem (s : State) (k : Nat) (x : Core) : (s.setCore k x).mem = s.mem := rfl
@[simp] theorem State.setCore_clusters (s : State) (k : Nat) (x : Core) : (s.setCore k x).clusters = s.clusters := rfl
@[simp] theorem State.setCore_beacons (s : State) (k : Nat) (x : Core) : (s.setCore k x).beacons = s.beacons := rfl
@[simp] theorem State.setCore_signals (s : State) (k : Nat) (x : Core) : (s.setCore k x).signals = s.signals := rfl
@[simp] theorem State.setCore_outs (s : State) (k : Nat) (x : Core) : (s.setCore k x).outs = s.outs := rfl
@[simp] theorem State.setCore_freeCtr (s : State) (k : Nat) (x : Core) : (s.setCore k x).freeCtr = s.freeCtr := rfl
@[simp] theorem State.setCore_parts (s : State) (k : Nat) (x : Core) : (s.setCore k x).parts = s.parts := rfl
@[simp] theorem State.setCore_links (s : State) (k : Nat) (x : Core) : (s.setCore k x).links = s.links := rfl
@[simp] theorem State.setCore_mbxs (s : State) (k : Nat) (x : Core) : (s.setCore k x).mbxs = s.mbxs := rfl
@[simp] theorem State.setCore_hostMem (s : State) (k : Nat) (x : Core) : (s.setCore k x).hostMem = s.hostMem := rfl
@[simp] theorem State.setCore_holdHit (s : State) (k : Nat) (x : Core) : (s.setCore k x).holdHit = s.holdHit := rfl
@[simp] theorem State.setCore_pins (s : State) (k : Nat) (x : Core) : (s.setCore k x).pins = s.pins := rfl
@[simp] theorem State.setCore_bru (s : State) (k : Nat) (x : Core) : (s.setCore k x).bru = s.bru := rfl
@[simp] theorem State.setCore_sec (s : State) (k : Nat) (x : Core) : (s.setCore k x).sec = s.sec := rfl
@[simp] theorem State.setCore_pwr (s : State) (k : Nat) (x : Core) : (s.setCore k x).pwr = s.pwr := rfl

@[simp] theorem State.setCluster_cluster (s : State) (k : Nat) (x : Cluster) : (s.setCluster k x).cluster k = x := SMap.get_set_self _ _ _ _
theorem State.setCluster_cluster_ne (s : State) {k j : Nat} (x : Cluster) (h : j ≠ k) : (s.setCluster k x).cluster j = s.cluster j :=
  SMap.get_set_ne _ _ _ h
@[simp] theorem State.setCluster_pending (s : State) (k : Nat) (x : Cluster) : (s.setCluster k x).pending = s.pending := rfl
@[simp] theorem State.setCluster_regs (s : State) (k : Nat) (x : Cluster) : (s.setCluster k x).regs = s.regs := rfl
@[simp] theorem State.setCluster_mem (s : State) (k : Nat) (x : Cluster) : (s.setCluster k x).mem = s.mem := rfl
@[simp] theorem State.setCluster_cores (s : State) (k : Nat) (x : Cluster) : (s.setCluster k x).cores = s.cores := rfl
@[simp] theorem State.setCluster_beacons (s : State) (k : Nat) (x : Cluster) : (s.setCluster k x).beacons = s.beacons := rfl
@[simp] theorem State.setCluster_signals (s : State) (k : Nat) (x : Cluster) : (s.setCluster k x).signals = s.signals := rfl
@[simp] theorem State.setCluster_outs (s : State) (k : Nat) (x : Cluster) : (s.setCluster k x).outs = s.outs := rfl
@[simp] theorem State.setCluster_freeCtr (s : State) (k : Nat) (x : Cluster) : (s.setCluster k x).freeCtr = s.freeCtr := rfl
@[simp] theorem State.setCluster_parts (s : State) (k : Nat) (x : Cluster) : (s.setCluster k x).parts = s.parts := rfl
@[simp] theorem State.setCluster_links (s : State) (k : Nat) (x : Cluster) : (s.setCluster k x).links = s.links := rfl
@[simp] theorem State.setCluster_mbxs (s : State) (k : Nat) (x : Cluster) : (s.setCluster k x).mbxs = s.mbxs := rfl
@[simp] theorem State.setCluster_hostMem (s : State) (k : Nat) (x : Cluster) : (s.setCluster k x).hostMem = s.hostMem := rfl
@[simp] theorem State.setCluster_holdHit (s : State) (k : Nat) (x : Cluster) : (s.setCluster k x).holdHit = s.holdHit := rfl
@[simp] theorem State.setCluster_pins (s : State) (k : Nat) (x : Cluster) : (s.setCluster k x).pins = s.pins := rfl
@[simp] theorem State.setCluster_bru (s : State) (k : Nat) (x : Cluster) : (s.setCluster k x).bru = s.bru := rfl
@[simp] theorem State.setCluster_sec (s : State) (k : Nat) (x : Cluster) : (s.setCluster k x).sec = s.sec := rfl
@[simp] theorem State.setCluster_pwr (s : State) (k : Nat) (x : Cluster) : (s.setCluster k x).pwr = s.pwr := rfl

@[simp] theorem State.setBeacon_beacon (s : State) (k : Nat) (x : BitVec 32) : (s.setBeacon k x).beacon k = x := SMap.get_set_self _ _ _ _
theorem State.setBeacon_beacon_ne (s : State) {k j : Nat} (x : BitVec 32) (h : j ≠ k) : (s.setBeacon k x).beacon j = s.beacon j :=
  SMap.get_set_ne _ _ _ h
@[simp] theorem State.setBeacon_pending (s : State) (k : Nat) (x : BitVec 32) : (s.setBeacon k x).pending = s.pending := rfl
@[simp] theorem State.setBeacon_regs (s : State) (k : Nat) (x : BitVec 32) : (s.setBeacon k x).regs = s.regs := rfl
@[simp] theorem State.setBeacon_mem (s : State) (k : Nat) (x : BitVec 32) : (s.setBeacon k x).mem = s.mem := rfl
@[simp] theorem State.setBeacon_cores (s : State) (k : Nat) (x : BitVec 32) : (s.setBeacon k x).cores = s.cores := rfl
@[simp] theorem State.setBeacon_clusters (s : State) (k : Nat) (x : BitVec 32) : (s.setBeacon k x).clusters = s.clusters := rfl
@[simp] theorem State.setBeacon_signals (s : State) (k : Nat) (x : BitVec 32) : (s.setBeacon k x).signals = s.signals := rfl
@[simp] theorem State.setBeacon_outs (s : State) (k : Nat) (x : BitVec 32) : (s.setBeacon k x).outs = s.outs := rfl
@[simp] theorem State.setBeacon_freeCtr (s : State) (k : Nat) (x : BitVec 32) : (s.setBeacon k x).freeCtr = s.freeCtr := rfl
@[simp] theorem State.setBeacon_parts (s : State) (k : Nat) (x : BitVec 32) : (s.setBeacon k x).parts = s.parts := rfl
@[simp] theorem State.setBeacon_links (s : State) (k : Nat) (x : BitVec 32) : (s.setBeacon k x).links = s.links := rfl
@[simp] theorem State.setBeacon_mbxs (s : State) (k : Nat) (x : BitVec 32) : (s.setBeacon k x).mbxs = s.mbxs := rfl
@[simp] theorem State.setBeacon_hostMem (s : State) (k : Nat) (x : BitVec 32) : (s.setBeacon k x).hostMem = s.hostMem := rfl
@[simp] theorem State.setBeacon_holdHit (s : State) (k : Nat) (x : BitVec 32) : (s.setBeacon k x).holdHit = s.holdHit := rfl
@[simp] theorem State.setBeacon_pins (s : State) (k : Nat) (x : BitVec 32) : (s.setBeacon k x).pins = s.pins := rfl
@[simp] theorem State.setBeacon_bru (s : State) (k : Nat) (x : BitVec 32) : (s.setBeacon k x).bru = s.bru := rfl
@[simp] theorem State.setBeacon_sec (s : State) (k : Nat) (x : BitVec 32) : (s.setBeacon k x).sec = s.sec := rfl
@[simp] theorem State.setBeacon_pwr (s : State) (k : Nat) (x : BitVec 32) : (s.setBeacon k x).pwr = s.pwr := rfl

@[simp] theorem State.setHubSum_hubSum (s : State) (k : Nat) (x : BitVec 32) : (s.setHubSum k x).hubSum k = x := SMap.get_set_self _ _ _ _
theorem State.setHubSum_hubSum_ne (s : State) {k j : Nat} (x : BitVec 32) (h : j ≠ k) : (s.setHubSum k x).hubSum j = s.hubSum j :=
  SMap.get_set_ne _ _ _ h
@[simp] theorem State.setHubSum_pending (s : State) (k : Nat) (x : BitVec 32) : (s.setHubSum k x).pending = s.pending := rfl
@[simp] theorem State.setHubSum_regs (s : State) (k : Nat) (x : BitVec 32) : (s.setHubSum k x).regs = s.regs := rfl
@[simp] theorem State.setHubSum_mem (s : State) (k : Nat) (x : BitVec 32) : (s.setHubSum k x).mem = s.mem := rfl
@[simp] theorem State.setHubSum_cores (s : State) (k : Nat) (x : BitVec 32) : (s.setHubSum k x).cores = s.cores := rfl
@[simp] theorem State.setHubSum_clusters (s : State) (k : Nat) (x : BitVec 32) : (s.setHubSum k x).clusters = s.clusters := rfl
@[simp] theorem State.setHubSum_beacons (s : State) (k : Nat) (x : BitVec 32) : (s.setHubSum k x).beacons = s.beacons := rfl
@[simp] theorem State.setHubSum_signals (s : State) (k : Nat) (x : BitVec 32) : (s.setHubSum k x).signals = s.signals := rfl
@[simp] theorem State.setHubSum_outs (s : State) (k : Nat) (x : BitVec 32) : (s.setHubSum k x).outs = s.outs := rfl
@[simp] theorem State.setHubSum_freeCtr (s : State) (k : Nat) (x : BitVec 32) : (s.setHubSum k x).freeCtr = s.freeCtr := rfl
@[simp] theorem State.setHubSum_parts (s : State) (k : Nat) (x : BitVec 32) : (s.setHubSum k x).parts = s.parts := rfl
@[simp] theorem State.setHubSum_links (s : State) (k : Nat) (x : BitVec 32) : (s.setHubSum k x).links = s.links := rfl
@[simp] theorem State.setHubSum_mbxs (s : State) (k : Nat) (x : BitVec 32) : (s.setHubSum k x).mbxs = s.mbxs := rfl
@[simp] theorem State.setHubSum_hostMem (s : State) (k : Nat) (x : BitVec 32) : (s.setHubSum k x).hostMem = s.hostMem := rfl
@[simp] theorem State.setHubSum_holdHit (s : State) (k : Nat) (x : BitVec 32) : (s.setHubSum k x).holdHit = s.holdHit := rfl
@[simp] theorem State.setHubSum_pins (s : State) (k : Nat) (x : BitVec 32) : (s.setHubSum k x).pins = s.pins := rfl
@[simp] theorem State.setHubSum_bru (s : State) (k : Nat) (x : BitVec 32) : (s.setHubSum k x).bru = s.bru := rfl
@[simp] theorem State.setHubSum_sec (s : State) (k : Nat) (x : BitVec 32) : (s.setHubSum k x).sec = s.sec := rfl
@[simp] theorem State.setHubSum_pwr (s : State) (k : Nat) (x : BitVec 32) : (s.setHubSum k x).pwr = s.pwr := rfl

@[simp] theorem State.setDoorbellOf_doorbellOf (s : State) (k : Nat) (x : BitVec 16) : (s.setDoorbellOf k x).doorbellOf k = x := SMap.get_set_self _ _ _ _
theorem State.setDoorbellOf_doorbellOf_ne (s : State) {k j : Nat} (x : BitVec 16) (h : j ≠ k) : (s.setDoorbellOf k x).doorbellOf j = s.doorbellOf j :=
  SMap.get_set_ne _ _ _ h
@[simp] theorem State.setDoorbellOf_pending (s : State) (k : Nat) (x : BitVec 16) : (s.setDoorbellOf k x).pending = s.pending := rfl
@[simp] theorem State.setDoorbellOf_regs (s : State) (k : Nat) (x : BitVec 16) : (s.setDoorbellOf k x).regs = s.regs := rfl
@[simp] theorem State.setDoorbellOf_mem (s : State) (k : Nat) (x : BitVec 16) : (s.setDoorbellOf k x).mem = s.mem := rfl
@[simp] theorem State.setDoorbellOf_cores (s : State) (k : Nat) (x : BitVec 16) : (s.setDoorbellOf k x).cores = s.cores := rfl
@[simp] theorem State.setDoorbellOf_clusters (s : State) (k : Nat) (x : BitVec 16) : (s.setDoorbellOf k x).clusters = s.clusters := rfl
@[simp] theorem State.setDoorbellOf_beacons (s : State) (k : Nat) (x : BitVec 16) : (s.setDoorbellOf k x).beacons = s.beacons := rfl
@[simp] theorem State.setDoorbellOf_signals (s : State) (k : Nat) (x : BitVec 16) : (s.setDoorbellOf k x).signals = s.signals := rfl
@[simp] theorem State.setDoorbellOf_outs (s : State) (k : Nat) (x : BitVec 16) : (s.setDoorbellOf k x).outs = s.outs := rfl
@[simp] theorem State.setDoorbellOf_freeCtr (s : State) (k : Nat) (x : BitVec 16) : (s.setDoorbellOf k x).freeCtr = s.freeCtr := rfl
@[simp] theorem State.setDoorbellOf_parts (s : State) (k : Nat) (x : BitVec 16) : (s.setDoorbellOf k x).parts = s.parts := rfl
@[simp] theorem State.setDoorbellOf_links (s : State) (k : Nat) (x : BitVec 16) : (s.setDoorbellOf k x).links = s.links := rfl
@[simp] theorem State.setDoorbellOf_mbxs (s : State) (k : Nat) (x : BitVec 16) : (s.setDoorbellOf k x).mbxs = s.mbxs := rfl
@[simp] theorem State.setDoorbellOf_hostMem (s : State) (k : Nat) (x : BitVec 16) : (s.setDoorbellOf k x).hostMem = s.hostMem := rfl
@[simp] theorem State.setDoorbellOf_holdHit (s : State) (k : Nat) (x : BitVec 16) : (s.setDoorbellOf k x).holdHit = s.holdHit := rfl
@[simp] theorem State.setDoorbellOf_pins (s : State) (k : Nat) (x : BitVec 16) : (s.setDoorbellOf k x).pins = s.pins := rfl
@[simp] theorem State.setDoorbellOf_bru (s : State) (k : Nat) (x : BitVec 16) : (s.setDoorbellOf k x).bru = s.bru := rfl
@[simp] theorem State.setDoorbellOf_sec (s : State) (k : Nat) (x : BitVec 16) : (s.setDoorbellOf k x).sec = s.sec := rfl
@[simp] theorem State.setDoorbellOf_pwr (s : State) (k : Nat) (x : BitVec 16) : (s.setDoorbellOf k x).pwr = s.pwr := rfl

@[simp] theorem State.setTurnOf_turnOf (s : State) (k : Nat) (x : Turn) : (s.setTurnOf k x).turnOf k = x := SMap.get_set_self _ _ _ _
theorem State.setTurnOf_turnOf_ne (s : State) {k j : Nat} (x : Turn) (h : j ≠ k) : (s.setTurnOf k x).turnOf j = s.turnOf j :=
  SMap.get_set_ne _ _ _ h
@[simp] theorem State.setTurnOf_pending (s : State) (k : Nat) (x : Turn) : (s.setTurnOf k x).pending = s.pending := rfl
@[simp] theorem State.setTurnOf_regs (s : State) (k : Nat) (x : Turn) : (s.setTurnOf k x).regs = s.regs := rfl
@[simp] theorem State.setTurnOf_mem (s : State) (k : Nat) (x : Turn) : (s.setTurnOf k x).mem = s.mem := rfl
@[simp] theorem State.setTurnOf_cores (s : State) (k : Nat) (x : Turn) : (s.setTurnOf k x).cores = s.cores := rfl
@[simp] theorem State.setTurnOf_clusters (s : State) (k : Nat) (x : Turn) : (s.setTurnOf k x).clusters = s.clusters := rfl
@[simp] theorem State.setTurnOf_beacons (s : State) (k : Nat) (x : Turn) : (s.setTurnOf k x).beacons = s.beacons := rfl
@[simp] theorem State.setTurnOf_signals (s : State) (k : Nat) (x : Turn) : (s.setTurnOf k x).signals = s.signals := rfl
@[simp] theorem State.setTurnOf_outs (s : State) (k : Nat) (x : Turn) : (s.setTurnOf k x).outs = s.outs := rfl
@[simp] theorem State.setTurnOf_freeCtr (s : State) (k : Nat) (x : Turn) : (s.setTurnOf k x).freeCtr = s.freeCtr := rfl
@[simp] theorem State.setTurnOf_parts (s : State) (k : Nat) (x : Turn) : (s.setTurnOf k x).parts = s.parts := rfl
@[simp] theorem State.setTurnOf_links (s : State) (k : Nat) (x : Turn) : (s.setTurnOf k x).links = s.links := rfl
@[simp] theorem State.setTurnOf_mbxs (s : State) (k : Nat) (x : Turn) : (s.setTurnOf k x).mbxs = s.mbxs := rfl
@[simp] theorem State.setTurnOf_hostMem (s : State) (k : Nat) (x : Turn) : (s.setTurnOf k x).hostMem = s.hostMem := rfl
@[simp] theorem State.setTurnOf_holdHit (s : State) (k : Nat) (x : Turn) : (s.setTurnOf k x).holdHit = s.holdHit := rfl
@[simp] theorem State.setTurnOf_pins (s : State) (k : Nat) (x : Turn) : (s.setTurnOf k x).pins = s.pins := rfl
@[simp] theorem State.setTurnOf_bru (s : State) (k : Nat) (x : Turn) : (s.setTurnOf k x).bru = s.bru := rfl
@[simp] theorem State.setTurnOf_sec (s : State) (k : Nat) (x : Turn) : (s.setTurnOf k x).sec = s.sec := rfl
@[simp] theorem State.setTurnOf_pwr (s : State) (k : Nat) (x : Turn) : (s.setTurnOf k x).pwr = s.pwr := rfl

@[simp] theorem State.setAnswered_answered (s : State) (k : Nat) (x : Option WatchAnswer) : (s.setAnswered k x).answered k = x := SMap.get_set_self _ _ _ _
theorem State.setAnswered_answered_ne (s : State) {k j : Nat} (x : Option WatchAnswer) (h : j ≠ k) : (s.setAnswered k x).answered j = s.answered j :=
  SMap.get_set_ne _ _ _ h
@[simp] theorem State.setAnswered_pending (s : State) (k : Nat) (x : Option WatchAnswer) : (s.setAnswered k x).pending = s.pending := rfl
@[simp] theorem State.setAnswered_regs (s : State) (k : Nat) (x : Option WatchAnswer) : (s.setAnswered k x).regs = s.regs := rfl
@[simp] theorem State.setAnswered_mem (s : State) (k : Nat) (x : Option WatchAnswer) : (s.setAnswered k x).mem = s.mem := rfl
@[simp] theorem State.setAnswered_cores (s : State) (k : Nat) (x : Option WatchAnswer) : (s.setAnswered k x).cores = s.cores := rfl
@[simp] theorem State.setAnswered_clusters (s : State) (k : Nat) (x : Option WatchAnswer) : (s.setAnswered k x).clusters = s.clusters := rfl
@[simp] theorem State.setAnswered_beacons (s : State) (k : Nat) (x : Option WatchAnswer) : (s.setAnswered k x).beacons = s.beacons := rfl
@[simp] theorem State.setAnswered_signals (s : State) (k : Nat) (x : Option WatchAnswer) : (s.setAnswered k x).signals = s.signals := rfl
@[simp] theorem State.setAnswered_outs (s : State) (k : Nat) (x : Option WatchAnswer) : (s.setAnswered k x).outs = s.outs := rfl
@[simp] theorem State.setAnswered_freeCtr (s : State) (k : Nat) (x : Option WatchAnswer) : (s.setAnswered k x).freeCtr = s.freeCtr := rfl
@[simp] theorem State.setAnswered_parts (s : State) (k : Nat) (x : Option WatchAnswer) : (s.setAnswered k x).parts = s.parts := rfl
@[simp] theorem State.setAnswered_links (s : State) (k : Nat) (x : Option WatchAnswer) : (s.setAnswered k x).links = s.links := rfl
@[simp] theorem State.setAnswered_mbxs (s : State) (k : Nat) (x : Option WatchAnswer) : (s.setAnswered k x).mbxs = s.mbxs := rfl
@[simp] theorem State.setAnswered_hostMem (s : State) (k : Nat) (x : Option WatchAnswer) : (s.setAnswered k x).hostMem = s.hostMem := rfl
@[simp] theorem State.setAnswered_holdHit (s : State) (k : Nat) (x : Option WatchAnswer) : (s.setAnswered k x).holdHit = s.holdHit := rfl
@[simp] theorem State.setAnswered_pins (s : State) (k : Nat) (x : Option WatchAnswer) : (s.setAnswered k x).pins = s.pins := rfl
@[simp] theorem State.setAnswered_bru (s : State) (k : Nat) (x : Option WatchAnswer) : (s.setAnswered k x).bru = s.bru := rfl
@[simp] theorem State.setAnswered_sec (s : State) (k : Nat) (x : Option WatchAnswer) : (s.setAnswered k x).sec = s.sec := rfl
@[simp] theorem State.setAnswered_pwr (s : State) (k : Nat) (x : Option WatchAnswer) : (s.setAnswered k x).pwr = s.pwr := rfl

@[simp] theorem State.setDisOf_disOf (s : State) (k : Nat) (x : Dis) : (s.setDisOf k x).disOf k = x := SMap.get_set_self _ _ _ _
theorem State.setDisOf_disOf_ne (s : State) {k j : Nat} (x : Dis) (h : j ≠ k) : (s.setDisOf k x).disOf j = s.disOf j :=
  SMap.get_set_ne _ _ _ h
@[simp] theorem State.setDisOf_pending (s : State) (k : Nat) (x : Dis) : (s.setDisOf k x).pending = s.pending := rfl
@[simp] theorem State.setDisOf_regs (s : State) (k : Nat) (x : Dis) : (s.setDisOf k x).regs = s.regs := rfl
@[simp] theorem State.setDisOf_mem (s : State) (k : Nat) (x : Dis) : (s.setDisOf k x).mem = s.mem := rfl
@[simp] theorem State.setDisOf_cores (s : State) (k : Nat) (x : Dis) : (s.setDisOf k x).cores = s.cores := rfl
@[simp] theorem State.setDisOf_clusters (s : State) (k : Nat) (x : Dis) : (s.setDisOf k x).clusters = s.clusters := rfl
@[simp] theorem State.setDisOf_beacons (s : State) (k : Nat) (x : Dis) : (s.setDisOf k x).beacons = s.beacons := rfl
@[simp] theorem State.setDisOf_signals (s : State) (k : Nat) (x : Dis) : (s.setDisOf k x).signals = s.signals := rfl
@[simp] theorem State.setDisOf_outs (s : State) (k : Nat) (x : Dis) : (s.setDisOf k x).outs = s.outs := rfl
@[simp] theorem State.setDisOf_freeCtr (s : State) (k : Nat) (x : Dis) : (s.setDisOf k x).freeCtr = s.freeCtr := rfl
@[simp] theorem State.setDisOf_parts (s : State) (k : Nat) (x : Dis) : (s.setDisOf k x).parts = s.parts := rfl
@[simp] theorem State.setDisOf_links (s : State) (k : Nat) (x : Dis) : (s.setDisOf k x).links = s.links := rfl
@[simp] theorem State.setDisOf_mbxs (s : State) (k : Nat) (x : Dis) : (s.setDisOf k x).mbxs = s.mbxs := rfl
@[simp] theorem State.setDisOf_hostMem (s : State) (k : Nat) (x : Dis) : (s.setDisOf k x).hostMem = s.hostMem := rfl
@[simp] theorem State.setDisOf_holdHit (s : State) (k : Nat) (x : Dis) : (s.setDisOf k x).holdHit = s.holdHit := rfl
@[simp] theorem State.setDisOf_pins (s : State) (k : Nat) (x : Dis) : (s.setDisOf k x).pins = s.pins := rfl
@[simp] theorem State.setDisOf_bru (s : State) (k : Nat) (x : Dis) : (s.setDisOf k x).bru = s.bru := rfl
@[simp] theorem State.setDisOf_sec (s : State) (k : Nat) (x : Dis) : (s.setDisOf k x).sec = s.sec := rfl
@[simp] theorem State.setDisOf_pwr (s : State) (k : Nat) (x : Dis) : (s.setDisOf k x).pwr = s.pwr := rfl

@[simp] theorem State.setMovRing_movRing (s : State) (k : Nat) (x : Ring) : (s.setMovRing k x).movRing k = x := SMap.get_set_self _ _ _ _
theorem State.setMovRing_movRing_ne (s : State) {k j : Nat} (x : Ring) (h : j ≠ k) : (s.setMovRing k x).movRing j = s.movRing j :=
  SMap.get_set_ne _ _ _ h
@[simp] theorem State.setMovRing_pending (s : State) (k : Nat) (x : Ring) : (s.setMovRing k x).pending = s.pending := rfl
@[simp] theorem State.setMovRing_regs (s : State) (k : Nat) (x : Ring) : (s.setMovRing k x).regs = s.regs := rfl
@[simp] theorem State.setMovRing_mem (s : State) (k : Nat) (x : Ring) : (s.setMovRing k x).mem = s.mem := rfl
@[simp] theorem State.setMovRing_cores (s : State) (k : Nat) (x : Ring) : (s.setMovRing k x).cores = s.cores := rfl
@[simp] theorem State.setMovRing_clusters (s : State) (k : Nat) (x : Ring) : (s.setMovRing k x).clusters = s.clusters := rfl
@[simp] theorem State.setMovRing_beacons (s : State) (k : Nat) (x : Ring) : (s.setMovRing k x).beacons = s.beacons := rfl
@[simp] theorem State.setMovRing_signals (s : State) (k : Nat) (x : Ring) : (s.setMovRing k x).signals = s.signals := rfl
@[simp] theorem State.setMovRing_outs (s : State) (k : Nat) (x : Ring) : (s.setMovRing k x).outs = s.outs := rfl
@[simp] theorem State.setMovRing_freeCtr (s : State) (k : Nat) (x : Ring) : (s.setMovRing k x).freeCtr = s.freeCtr := rfl
@[simp] theorem State.setMovRing_parts (s : State) (k : Nat) (x : Ring) : (s.setMovRing k x).parts = s.parts := rfl
@[simp] theorem State.setMovRing_links (s : State) (k : Nat) (x : Ring) : (s.setMovRing k x).links = s.links := rfl
@[simp] theorem State.setMovRing_mbxs (s : State) (k : Nat) (x : Ring) : (s.setMovRing k x).mbxs = s.mbxs := rfl
@[simp] theorem State.setMovRing_hostMem (s : State) (k : Nat) (x : Ring) : (s.setMovRing k x).hostMem = s.hostMem := rfl
@[simp] theorem State.setMovRing_holdHit (s : State) (k : Nat) (x : Ring) : (s.setMovRing k x).holdHit = s.holdHit := rfl
@[simp] theorem State.setMovRing_pins (s : State) (k : Nat) (x : Ring) : (s.setMovRing k x).pins = s.pins := rfl
@[simp] theorem State.setMovRing_bru (s : State) (k : Nat) (x : Ring) : (s.setMovRing k x).bru = s.bru := rfl
@[simp] theorem State.setMovRing_sec (s : State) (k : Nat) (x : Ring) : (s.setMovRing k x).sec = s.sec := rfl
@[simp] theorem State.setMovRing_pwr (s : State) (k : Nat) (x : Ring) : (s.setMovRing k x).pwr = s.pwr := rfl

@[simp] theorem State.setPfxRing_pfxRing (s : State) (k : Nat) (x : Ring) : (s.setPfxRing k x).pfxRing k = x := SMap.get_set_self _ _ _ _
theorem State.setPfxRing_pfxRing_ne (s : State) {k j : Nat} (x : Ring) (h : j ≠ k) : (s.setPfxRing k x).pfxRing j = s.pfxRing j :=
  SMap.get_set_ne _ _ _ h
@[simp] theorem State.setPfxRing_pending (s : State) (k : Nat) (x : Ring) : (s.setPfxRing k x).pending = s.pending := rfl
@[simp] theorem State.setPfxRing_regs (s : State) (k : Nat) (x : Ring) : (s.setPfxRing k x).regs = s.regs := rfl
@[simp] theorem State.setPfxRing_mem (s : State) (k : Nat) (x : Ring) : (s.setPfxRing k x).mem = s.mem := rfl
@[simp] theorem State.setPfxRing_cores (s : State) (k : Nat) (x : Ring) : (s.setPfxRing k x).cores = s.cores := rfl
@[simp] theorem State.setPfxRing_clusters (s : State) (k : Nat) (x : Ring) : (s.setPfxRing k x).clusters = s.clusters := rfl
@[simp] theorem State.setPfxRing_beacons (s : State) (k : Nat) (x : Ring) : (s.setPfxRing k x).beacons = s.beacons := rfl
@[simp] theorem State.setPfxRing_signals (s : State) (k : Nat) (x : Ring) : (s.setPfxRing k x).signals = s.signals := rfl
@[simp] theorem State.setPfxRing_outs (s : State) (k : Nat) (x : Ring) : (s.setPfxRing k x).outs = s.outs := rfl
@[simp] theorem State.setPfxRing_freeCtr (s : State) (k : Nat) (x : Ring) : (s.setPfxRing k x).freeCtr = s.freeCtr := rfl
@[simp] theorem State.setPfxRing_parts (s : State) (k : Nat) (x : Ring) : (s.setPfxRing k x).parts = s.parts := rfl
@[simp] theorem State.setPfxRing_links (s : State) (k : Nat) (x : Ring) : (s.setPfxRing k x).links = s.links := rfl
@[simp] theorem State.setPfxRing_mbxs (s : State) (k : Nat) (x : Ring) : (s.setPfxRing k x).mbxs = s.mbxs := rfl
@[simp] theorem State.setPfxRing_hostMem (s : State) (k : Nat) (x : Ring) : (s.setPfxRing k x).hostMem = s.hostMem := rfl
@[simp] theorem State.setPfxRing_holdHit (s : State) (k : Nat) (x : Ring) : (s.setPfxRing k x).holdHit = s.holdHit := rfl
@[simp] theorem State.setPfxRing_pins (s : State) (k : Nat) (x : Ring) : (s.setPfxRing k x).pins = s.pins := rfl
@[simp] theorem State.setPfxRing_bru (s : State) (k : Nat) (x : Ring) : (s.setPfxRing k x).bru = s.bru := rfl
@[simp] theorem State.setPfxRing_sec (s : State) (k : Nat) (x : Ring) : (s.setPfxRing k x).sec = s.sec := rfl
@[simp] theorem State.setPfxRing_pwr (s : State) (k : Nat) (x : Ring) : (s.setPfxRing k x).pwr = s.pwr := rfl

@[simp] theorem State.setFilterOf_filterOf (s : State) (k : Nat) (x : Filter) : (s.setFilterOf k x).filterOf k = x := SMap.get_set_self _ _ _ _
theorem State.setFilterOf_filterOf_ne (s : State) {k j : Nat} (x : Filter) (h : j ≠ k) : (s.setFilterOf k x).filterOf j = s.filterOf j :=
  SMap.get_set_ne _ _ _ h
@[simp] theorem State.setFilterOf_pending (s : State) (k : Nat) (x : Filter) : (s.setFilterOf k x).pending = s.pending := rfl
@[simp] theorem State.setFilterOf_regs (s : State) (k : Nat) (x : Filter) : (s.setFilterOf k x).regs = s.regs := rfl
@[simp] theorem State.setFilterOf_mem (s : State) (k : Nat) (x : Filter) : (s.setFilterOf k x).mem = s.mem := rfl
@[simp] theorem State.setFilterOf_cores (s : State) (k : Nat) (x : Filter) : (s.setFilterOf k x).cores = s.cores := rfl
@[simp] theorem State.setFilterOf_clusters (s : State) (k : Nat) (x : Filter) : (s.setFilterOf k x).clusters = s.clusters := rfl
@[simp] theorem State.setFilterOf_beacons (s : State) (k : Nat) (x : Filter) : (s.setFilterOf k x).beacons = s.beacons := rfl
@[simp] theorem State.setFilterOf_signals (s : State) (k : Nat) (x : Filter) : (s.setFilterOf k x).signals = s.signals := rfl
@[simp] theorem State.setFilterOf_outs (s : State) (k : Nat) (x : Filter) : (s.setFilterOf k x).outs = s.outs := rfl
@[simp] theorem State.setFilterOf_freeCtr (s : State) (k : Nat) (x : Filter) : (s.setFilterOf k x).freeCtr = s.freeCtr := rfl
@[simp] theorem State.setFilterOf_parts (s : State) (k : Nat) (x : Filter) : (s.setFilterOf k x).parts = s.parts := rfl
@[simp] theorem State.setFilterOf_links (s : State) (k : Nat) (x : Filter) : (s.setFilterOf k x).links = s.links := rfl
@[simp] theorem State.setFilterOf_mbxs (s : State) (k : Nat) (x : Filter) : (s.setFilterOf k x).mbxs = s.mbxs := rfl
@[simp] theorem State.setFilterOf_hostMem (s : State) (k : Nat) (x : Filter) : (s.setFilterOf k x).hostMem = s.hostMem := rfl
@[simp] theorem State.setFilterOf_holdHit (s : State) (k : Nat) (x : Filter) : (s.setFilterOf k x).holdHit = s.holdHit := rfl
@[simp] theorem State.setFilterOf_pins (s : State) (k : Nat) (x : Filter) : (s.setFilterOf k x).pins = s.pins := rfl
@[simp] theorem State.setFilterOf_bru (s : State) (k : Nat) (x : Filter) : (s.setFilterOf k x).bru = s.bru := rfl
@[simp] theorem State.setFilterOf_sec (s : State) (k : Nat) (x : Filter) : (s.setFilterOf k x).sec = s.sec := rfl
@[simp] theorem State.setFilterOf_pwr (s : State) (k : Nat) (x : Filter) : (s.setFilterOf k x).pwr = s.pwr := rfl

@[simp] theorem State.setPatrol_patrol (s : State) (k : Nat) (x : Patrol) : (s.setPatrol k x).patrol k = x := SMap.get_set_self _ _ _ _
theorem State.setPatrol_patrol_ne (s : State) {k j : Nat} (x : Patrol) (h : j ≠ k) : (s.setPatrol k x).patrol j = s.patrol j :=
  SMap.get_set_ne _ _ _ h
@[simp] theorem State.setPatrol_pending (s : State) (k : Nat) (x : Patrol) : (s.setPatrol k x).pending = s.pending := rfl
@[simp] theorem State.setPatrol_regs (s : State) (k : Nat) (x : Patrol) : (s.setPatrol k x).regs = s.regs := rfl
@[simp] theorem State.setPatrol_mem (s : State) (k : Nat) (x : Patrol) : (s.setPatrol k x).mem = s.mem := rfl
@[simp] theorem State.setPatrol_cores (s : State) (k : Nat) (x : Patrol) : (s.setPatrol k x).cores = s.cores := rfl
@[simp] theorem State.setPatrol_clusters (s : State) (k : Nat) (x : Patrol) : (s.setPatrol k x).clusters = s.clusters := rfl
@[simp] theorem State.setPatrol_beacons (s : State) (k : Nat) (x : Patrol) : (s.setPatrol k x).beacons = s.beacons := rfl
@[simp] theorem State.setPatrol_signals (s : State) (k : Nat) (x : Patrol) : (s.setPatrol k x).signals = s.signals := rfl
@[simp] theorem State.setPatrol_outs (s : State) (k : Nat) (x : Patrol) : (s.setPatrol k x).outs = s.outs := rfl
@[simp] theorem State.setPatrol_freeCtr (s : State) (k : Nat) (x : Patrol) : (s.setPatrol k x).freeCtr = s.freeCtr := rfl
@[simp] theorem State.setPatrol_parts (s : State) (k : Nat) (x : Patrol) : (s.setPatrol k x).parts = s.parts := rfl
@[simp] theorem State.setPatrol_links (s : State) (k : Nat) (x : Patrol) : (s.setPatrol k x).links = s.links := rfl
@[simp] theorem State.setPatrol_mbxs (s : State) (k : Nat) (x : Patrol) : (s.setPatrol k x).mbxs = s.mbxs := rfl
@[simp] theorem State.setPatrol_hostMem (s : State) (k : Nat) (x : Patrol) : (s.setPatrol k x).hostMem = s.hostMem := rfl
@[simp] theorem State.setPatrol_holdHit (s : State) (k : Nat) (x : Patrol) : (s.setPatrol k x).holdHit = s.holdHit := rfl
@[simp] theorem State.setPatrol_pins (s : State) (k : Nat) (x : Patrol) : (s.setPatrol k x).pins = s.pins := rfl
@[simp] theorem State.setPatrol_bru (s : State) (k : Nat) (x : Patrol) : (s.setPatrol k x).bru = s.bru := rfl
@[simp] theorem State.setPatrol_sec (s : State) (k : Nat) (x : Patrol) : (s.setPatrol k x).sec = s.sec := rfl
@[simp] theorem State.setPatrol_pwr (s : State) (k : Nat) (x : Patrol) : (s.setPatrol k x).pwr = s.pwr := rfl

@[simp] theorem State.setSramPosOf_sramPosOf (s : State) (k : Nat) (x : Nat) : (s.setSramPosOf k x).sramPosOf k = x := SMap.get_set_self _ _ _ _
theorem State.setSramPosOf_sramPosOf_ne (s : State) {k j : Nat} (x : Nat) (h : j ≠ k) : (s.setSramPosOf k x).sramPosOf j = s.sramPosOf j :=
  SMap.get_set_ne _ _ _ h
@[simp] theorem State.setSramPosOf_pending (s : State) (k : Nat) (x : Nat) : (s.setSramPosOf k x).pending = s.pending := rfl
@[simp] theorem State.setSramPosOf_regs (s : State) (k : Nat) (x : Nat) : (s.setSramPosOf k x).regs = s.regs := rfl
@[simp] theorem State.setSramPosOf_mem (s : State) (k : Nat) (x : Nat) : (s.setSramPosOf k x).mem = s.mem := rfl
@[simp] theorem State.setSramPosOf_cores (s : State) (k : Nat) (x : Nat) : (s.setSramPosOf k x).cores = s.cores := rfl
@[simp] theorem State.setSramPosOf_clusters (s : State) (k : Nat) (x : Nat) : (s.setSramPosOf k x).clusters = s.clusters := rfl
@[simp] theorem State.setSramPosOf_beacons (s : State) (k : Nat) (x : Nat) : (s.setSramPosOf k x).beacons = s.beacons := rfl
@[simp] theorem State.setSramPosOf_signals (s : State) (k : Nat) (x : Nat) : (s.setSramPosOf k x).signals = s.signals := rfl
@[simp] theorem State.setSramPosOf_outs (s : State) (k : Nat) (x : Nat) : (s.setSramPosOf k x).outs = s.outs := rfl
@[simp] theorem State.setSramPosOf_freeCtr (s : State) (k : Nat) (x : Nat) : (s.setSramPosOf k x).freeCtr = s.freeCtr := rfl
@[simp] theorem State.setSramPosOf_parts (s : State) (k : Nat) (x : Nat) : (s.setSramPosOf k x).parts = s.parts := rfl
@[simp] theorem State.setSramPosOf_links (s : State) (k : Nat) (x : Nat) : (s.setSramPosOf k x).links = s.links := rfl
@[simp] theorem State.setSramPosOf_mbxs (s : State) (k : Nat) (x : Nat) : (s.setSramPosOf k x).mbxs = s.mbxs := rfl
@[simp] theorem State.setSramPosOf_hostMem (s : State) (k : Nat) (x : Nat) : (s.setSramPosOf k x).hostMem = s.hostMem := rfl
@[simp] theorem State.setSramPosOf_holdHit (s : State) (k : Nat) (x : Nat) : (s.setSramPosOf k x).holdHit = s.holdHit := rfl
@[simp] theorem State.setSramPosOf_pins (s : State) (k : Nat) (x : Nat) : (s.setSramPosOf k x).pins = s.pins := rfl
@[simp] theorem State.setSramPosOf_bru (s : State) (k : Nat) (x : Nat) : (s.setSramPosOf k x).bru = s.bru := rfl
@[simp] theorem State.setSramPosOf_sec (s : State) (k : Nat) (x : Nat) : (s.setSramPosOf k x).sec = s.sec := rfl
@[simp] theorem State.setSramPosOf_pwr (s : State) (k : Nat) (x : Nat) : (s.setSramPosOf k x).pwr = s.pwr := rfl

@[simp] theorem State.setPart_part (s : State) (k : Nat) (x : Part) : (s.setPart k x).part k = x := SMap.get_set_self _ _ _ _
theorem State.setPart_part_ne (s : State) {k j : Nat} (x : Part) (h : j ≠ k) : (s.setPart k x).part j = s.part j :=
  SMap.get_set_ne _ _ _ h
@[simp] theorem State.setPart_pending (s : State) (k : Nat) (x : Part) : (s.setPart k x).pending = s.pending := rfl
@[simp] theorem State.setPart_regs (s : State) (k : Nat) (x : Part) : (s.setPart k x).regs = s.regs := rfl
@[simp] theorem State.setPart_mem (s : State) (k : Nat) (x : Part) : (s.setPart k x).mem = s.mem := rfl
@[simp] theorem State.setPart_cores (s : State) (k : Nat) (x : Part) : (s.setPart k x).cores = s.cores := rfl
@[simp] theorem State.setPart_clusters (s : State) (k : Nat) (x : Part) : (s.setPart k x).clusters = s.clusters := rfl
@[simp] theorem State.setPart_beacons (s : State) (k : Nat) (x : Part) : (s.setPart k x).beacons = s.beacons := rfl
@[simp] theorem State.setPart_signals (s : State) (k : Nat) (x : Part) : (s.setPart k x).signals = s.signals := rfl
@[simp] theorem State.setPart_outs (s : State) (k : Nat) (x : Part) : (s.setPart k x).outs = s.outs := rfl
@[simp] theorem State.setPart_freeCtr (s : State) (k : Nat) (x : Part) : (s.setPart k x).freeCtr = s.freeCtr := rfl
@[simp] theorem State.setPart_links (s : State) (k : Nat) (x : Part) : (s.setPart k x).links = s.links := rfl
@[simp] theorem State.setPart_mbxs (s : State) (k : Nat) (x : Part) : (s.setPart k x).mbxs = s.mbxs := rfl
@[simp] theorem State.setPart_hostMem (s : State) (k : Nat) (x : Part) : (s.setPart k x).hostMem = s.hostMem := rfl
@[simp] theorem State.setPart_holdHit (s : State) (k : Nat) (x : Part) : (s.setPart k x).holdHit = s.holdHit := rfl
@[simp] theorem State.setPart_pins (s : State) (k : Nat) (x : Part) : (s.setPart k x).pins = s.pins := rfl
@[simp] theorem State.setPart_bru (s : State) (k : Nat) (x : Part) : (s.setPart k x).bru = s.bru := rfl
@[simp] theorem State.setPart_sec (s : State) (k : Nat) (x : Part) : (s.setPart k x).sec = s.sec := rfl
@[simp] theorem State.setPart_pwr (s : State) (k : Nat) (x : Part) : (s.setPart k x).pwr = s.pwr := rfl

@[simp] theorem State.setSlice_slice (s : State) (k : Nat) (x : Option Slice) : (s.setSlice k x).slice k = x := SMap.get_set_self _ _ _ _
theorem State.setSlice_slice_ne (s : State) {k j : Nat} (x : Option Slice) (h : j ≠ k) : (s.setSlice k x).slice j = s.slice j :=
  SMap.get_set_ne _ _ _ h
@[simp] theorem State.setSlice_pending (s : State) (k : Nat) (x : Option Slice) : (s.setSlice k x).pending = s.pending := rfl
@[simp] theorem State.setSlice_regs (s : State) (k : Nat) (x : Option Slice) : (s.setSlice k x).regs = s.regs := rfl
@[simp] theorem State.setSlice_mem (s : State) (k : Nat) (x : Option Slice) : (s.setSlice k x).mem = s.mem := rfl
@[simp] theorem State.setSlice_cores (s : State) (k : Nat) (x : Option Slice) : (s.setSlice k x).cores = s.cores := rfl
@[simp] theorem State.setSlice_clusters (s : State) (k : Nat) (x : Option Slice) : (s.setSlice k x).clusters = s.clusters := rfl
@[simp] theorem State.setSlice_beacons (s : State) (k : Nat) (x : Option Slice) : (s.setSlice k x).beacons = s.beacons := rfl
@[simp] theorem State.setSlice_signals (s : State) (k : Nat) (x : Option Slice) : (s.setSlice k x).signals = s.signals := rfl
@[simp] theorem State.setSlice_outs (s : State) (k : Nat) (x : Option Slice) : (s.setSlice k x).outs = s.outs := rfl
@[simp] theorem State.setSlice_freeCtr (s : State) (k : Nat) (x : Option Slice) : (s.setSlice k x).freeCtr = s.freeCtr := rfl
@[simp] theorem State.setSlice_parts (s : State) (k : Nat) (x : Option Slice) : (s.setSlice k x).parts = s.parts := rfl
@[simp] theorem State.setSlice_links (s : State) (k : Nat) (x : Option Slice) : (s.setSlice k x).links = s.links := rfl
@[simp] theorem State.setSlice_mbxs (s : State) (k : Nat) (x : Option Slice) : (s.setSlice k x).mbxs = s.mbxs := rfl
@[simp] theorem State.setSlice_hostMem (s : State) (k : Nat) (x : Option Slice) : (s.setSlice k x).hostMem = s.hostMem := rfl
@[simp] theorem State.setSlice_holdHit (s : State) (k : Nat) (x : Option Slice) : (s.setSlice k x).holdHit = s.holdHit := rfl
@[simp] theorem State.setSlice_pins (s : State) (k : Nat) (x : Option Slice) : (s.setSlice k x).pins = s.pins := rfl
@[simp] theorem State.setSlice_bru (s : State) (k : Nat) (x : Option Slice) : (s.setSlice k x).bru = s.bru := rfl
@[simp] theorem State.setSlice_sec (s : State) (k : Nat) (x : Option Slice) : (s.setSlice k x).sec = s.sec := rfl
@[simp] theorem State.setSlice_pwr (s : State) (k : Nat) (x : Option Slice) : (s.setSlice k x).pwr = s.pwr := rfl

@[simp] theorem State.setLink_link (s : State) (k : Nat) (x : Link) : (s.setLink k x).link k = x := SMap.get_set_self _ _ _ _
theorem State.setLink_link_ne (s : State) {k j : Nat} (x : Link) (h : j ≠ k) : (s.setLink k x).link j = s.link j :=
  SMap.get_set_ne _ _ _ h
@[simp] theorem State.setLink_pending (s : State) (k : Nat) (x : Link) : (s.setLink k x).pending = s.pending := rfl
@[simp] theorem State.setLink_regs (s : State) (k : Nat) (x : Link) : (s.setLink k x).regs = s.regs := rfl
@[simp] theorem State.setLink_mem (s : State) (k : Nat) (x : Link) : (s.setLink k x).mem = s.mem := rfl
@[simp] theorem State.setLink_cores (s : State) (k : Nat) (x : Link) : (s.setLink k x).cores = s.cores := rfl
@[simp] theorem State.setLink_clusters (s : State) (k : Nat) (x : Link) : (s.setLink k x).clusters = s.clusters := rfl
@[simp] theorem State.setLink_beacons (s : State) (k : Nat) (x : Link) : (s.setLink k x).beacons = s.beacons := rfl
@[simp] theorem State.setLink_signals (s : State) (k : Nat) (x : Link) : (s.setLink k x).signals = s.signals := rfl
@[simp] theorem State.setLink_outs (s : State) (k : Nat) (x : Link) : (s.setLink k x).outs = s.outs := rfl
@[simp] theorem State.setLink_freeCtr (s : State) (k : Nat) (x : Link) : (s.setLink k x).freeCtr = s.freeCtr := rfl
@[simp] theorem State.setLink_parts (s : State) (k : Nat) (x : Link) : (s.setLink k x).parts = s.parts := rfl
@[simp] theorem State.setLink_mbxs (s : State) (k : Nat) (x : Link) : (s.setLink k x).mbxs = s.mbxs := rfl
@[simp] theorem State.setLink_hostMem (s : State) (k : Nat) (x : Link) : (s.setLink k x).hostMem = s.hostMem := rfl
@[simp] theorem State.setLink_holdHit (s : State) (k : Nat) (x : Link) : (s.setLink k x).holdHit = s.holdHit := rfl
@[simp] theorem State.setLink_pins (s : State) (k : Nat) (x : Link) : (s.setLink k x).pins = s.pins := rfl
@[simp] theorem State.setLink_bru (s : State) (k : Nat) (x : Link) : (s.setLink k x).bru = s.bru := rfl
@[simp] theorem State.setLink_sec (s : State) (k : Nat) (x : Link) : (s.setLink k x).sec = s.sec := rfl
@[simp] theorem State.setLink_pwr (s : State) (k : Nat) (x : Link) : (s.setLink k x).pwr = s.pwr := rfl

@[simp] theorem State.setJobq_jobq (s : State) (k : Nat) (x : Option JobQ) : (s.setJobq k x).jobq k = x := SMap.get_set_self _ _ _ _
theorem State.setJobq_jobq_ne (s : State) {k j : Nat} (x : Option JobQ) (h : j ≠ k) : (s.setJobq k x).jobq j = s.jobq j :=
  SMap.get_set_ne _ _ _ h
@[simp] theorem State.setJobq_pending (s : State) (k : Nat) (x : Option JobQ) : (s.setJobq k x).pending = s.pending := rfl
@[simp] theorem State.setJobq_regs (s : State) (k : Nat) (x : Option JobQ) : (s.setJobq k x).regs = s.regs := rfl
@[simp] theorem State.setJobq_mem (s : State) (k : Nat) (x : Option JobQ) : (s.setJobq k x).mem = s.mem := rfl
@[simp] theorem State.setJobq_cores (s : State) (k : Nat) (x : Option JobQ) : (s.setJobq k x).cores = s.cores := rfl
@[simp] theorem State.setJobq_clusters (s : State) (k : Nat) (x : Option JobQ) : (s.setJobq k x).clusters = s.clusters := rfl
@[simp] theorem State.setJobq_beacons (s : State) (k : Nat) (x : Option JobQ) : (s.setJobq k x).beacons = s.beacons := rfl
@[simp] theorem State.setJobq_signals (s : State) (k : Nat) (x : Option JobQ) : (s.setJobq k x).signals = s.signals := rfl
@[simp] theorem State.setJobq_outs (s : State) (k : Nat) (x : Option JobQ) : (s.setJobq k x).outs = s.outs := rfl
@[simp] theorem State.setJobq_freeCtr (s : State) (k : Nat) (x : Option JobQ) : (s.setJobq k x).freeCtr = s.freeCtr := rfl
@[simp] theorem State.setJobq_parts (s : State) (k : Nat) (x : Option JobQ) : (s.setJobq k x).parts = s.parts := rfl
@[simp] theorem State.setJobq_links (s : State) (k : Nat) (x : Option JobQ) : (s.setJobq k x).links = s.links := rfl
@[simp] theorem State.setJobq_mbxs (s : State) (k : Nat) (x : Option JobQ) : (s.setJobq k x).mbxs = s.mbxs := rfl
@[simp] theorem State.setJobq_hostMem (s : State) (k : Nat) (x : Option JobQ) : (s.setJobq k x).hostMem = s.hostMem := rfl
@[simp] theorem State.setJobq_holdHit (s : State) (k : Nat) (x : Option JobQ) : (s.setJobq k x).holdHit = s.holdHit := rfl
@[simp] theorem State.setJobq_pins (s : State) (k : Nat) (x : Option JobQ) : (s.setJobq k x).pins = s.pins := rfl
@[simp] theorem State.setJobq_bru (s : State) (k : Nat) (x : Option JobQ) : (s.setJobq k x).bru = s.bru := rfl
@[simp] theorem State.setJobq_sec (s : State) (k : Nat) (x : Option JobQ) : (s.setJobq k x).sec = s.sec := rfl
@[simp] theorem State.setJobq_pwr (s : State) (k : Nat) (x : Option JobQ) : (s.setJobq k x).pwr = s.pwr := rfl

@[simp] theorem State.setClsOf_clsOf (s : State) (k : Nat) (x : Cls) : (s.setClsOf k x).clsOf k = x := SMap.get_set_self _ _ _ _
theorem State.setClsOf_clsOf_ne (s : State) {k j : Nat} (x : Cls) (h : j ≠ k) : (s.setClsOf k x).clsOf j = s.clsOf j :=
  SMap.get_set_ne _ _ _ h
@[simp] theorem State.setClsOf_pending (s : State) (k : Nat) (x : Cls) : (s.setClsOf k x).pending = s.pending := rfl
@[simp] theorem State.setClsOf_regs (s : State) (k : Nat) (x : Cls) : (s.setClsOf k x).regs = s.regs := rfl
@[simp] theorem State.setClsOf_mem (s : State) (k : Nat) (x : Cls) : (s.setClsOf k x).mem = s.mem := rfl
@[simp] theorem State.setClsOf_cores (s : State) (k : Nat) (x : Cls) : (s.setClsOf k x).cores = s.cores := rfl
@[simp] theorem State.setClsOf_clusters (s : State) (k : Nat) (x : Cls) : (s.setClsOf k x).clusters = s.clusters := rfl
@[simp] theorem State.setClsOf_beacons (s : State) (k : Nat) (x : Cls) : (s.setClsOf k x).beacons = s.beacons := rfl
@[simp] theorem State.setClsOf_signals (s : State) (k : Nat) (x : Cls) : (s.setClsOf k x).signals = s.signals := rfl
@[simp] theorem State.setClsOf_outs (s : State) (k : Nat) (x : Cls) : (s.setClsOf k x).outs = s.outs := rfl
@[simp] theorem State.setClsOf_freeCtr (s : State) (k : Nat) (x : Cls) : (s.setClsOf k x).freeCtr = s.freeCtr := rfl
@[simp] theorem State.setClsOf_parts (s : State) (k : Nat) (x : Cls) : (s.setClsOf k x).parts = s.parts := rfl
@[simp] theorem State.setClsOf_links (s : State) (k : Nat) (x : Cls) : (s.setClsOf k x).links = s.links := rfl
@[simp] theorem State.setClsOf_mbxs (s : State) (k : Nat) (x : Cls) : (s.setClsOf k x).mbxs = s.mbxs := rfl
@[simp] theorem State.setClsOf_hostMem (s : State) (k : Nat) (x : Cls) : (s.setClsOf k x).hostMem = s.hostMem := rfl
@[simp] theorem State.setClsOf_holdHit (s : State) (k : Nat) (x : Cls) : (s.setClsOf k x).holdHit = s.holdHit := rfl
@[simp] theorem State.setClsOf_pins (s : State) (k : Nat) (x : Cls) : (s.setClsOf k x).pins = s.pins := rfl
@[simp] theorem State.setClsOf_bru (s : State) (k : Nat) (x : Cls) : (s.setClsOf k x).bru = s.bru := rfl
@[simp] theorem State.setClsOf_sec (s : State) (k : Nat) (x : Cls) : (s.setClsOf k x).sec = s.sec := rfl
@[simp] theorem State.setClsOf_pwr (s : State) (k : Nat) (x : Cls) : (s.setClsOf k x).pwr = s.pwr := rfl

@[simp] theorem State.setPort_port (s : State) (k : Nat) (x : Port) : (s.setPort k x).port k = x := SMap.get_set_self _ _ _ _
theorem State.setPort_port_ne (s : State) {k j : Nat} (x : Port) (h : j ≠ k) : (s.setPort k x).port j = s.port j :=
  SMap.get_set_ne _ _ _ h
@[simp] theorem State.setPort_pending (s : State) (k : Nat) (x : Port) : (s.setPort k x).pending = s.pending := rfl
@[simp] theorem State.setPort_regs (s : State) (k : Nat) (x : Port) : (s.setPort k x).regs = s.regs := rfl
@[simp] theorem State.setPort_mem (s : State) (k : Nat) (x : Port) : (s.setPort k x).mem = s.mem := rfl
@[simp] theorem State.setPort_cores (s : State) (k : Nat) (x : Port) : (s.setPort k x).cores = s.cores := rfl
@[simp] theorem State.setPort_clusters (s : State) (k : Nat) (x : Port) : (s.setPort k x).clusters = s.clusters := rfl
@[simp] theorem State.setPort_beacons (s : State) (k : Nat) (x : Port) : (s.setPort k x).beacons = s.beacons := rfl
@[simp] theorem State.setPort_signals (s : State) (k : Nat) (x : Port) : (s.setPort k x).signals = s.signals := rfl
@[simp] theorem State.setPort_outs (s : State) (k : Nat) (x : Port) : (s.setPort k x).outs = s.outs := rfl
@[simp] theorem State.setPort_freeCtr (s : State) (k : Nat) (x : Port) : (s.setPort k x).freeCtr = s.freeCtr := rfl
@[simp] theorem State.setPort_parts (s : State) (k : Nat) (x : Port) : (s.setPort k x).parts = s.parts := rfl
@[simp] theorem State.setPort_links (s : State) (k : Nat) (x : Port) : (s.setPort k x).links = s.links := rfl
@[simp] theorem State.setPort_mbxs (s : State) (k : Nat) (x : Port) : (s.setPort k x).mbxs = s.mbxs := rfl
@[simp] theorem State.setPort_hostMem (s : State) (k : Nat) (x : Port) : (s.setPort k x).hostMem = s.hostMem := rfl
@[simp] theorem State.setPort_holdHit (s : State) (k : Nat) (x : Port) : (s.setPort k x).holdHit = s.holdHit := rfl
@[simp] theorem State.setPort_pins (s : State) (k : Nat) (x : Port) : (s.setPort k x).pins = s.pins := rfl
@[simp] theorem State.setPort_bru (s : State) (k : Nat) (x : Port) : (s.setPort k x).bru = s.bru := rfl
@[simp] theorem State.setPort_sec (s : State) (k : Nat) (x : Port) : (s.setPort k x).sec = s.sec := rfl
@[simp] theorem State.setPort_pwr (s : State) (k : Nat) (x : Port) : (s.setPort k x).pwr = s.pwr := rfl

@[simp] theorem State.setLane_lane (s : State) (k : Nat) (x : Lane) : (s.setLane k x).lane k = x := SMap.get_set_self _ _ _ _
theorem State.setLane_lane_ne (s : State) {k j : Nat} (x : Lane) (h : j ≠ k) : (s.setLane k x).lane j = s.lane j :=
  SMap.get_set_ne _ _ _ h
@[simp] theorem State.setLane_pending (s : State) (k : Nat) (x : Lane) : (s.setLane k x).pending = s.pending := rfl
@[simp] theorem State.setLane_regs (s : State) (k : Nat) (x : Lane) : (s.setLane k x).regs = s.regs := rfl
@[simp] theorem State.setLane_mem (s : State) (k : Nat) (x : Lane) : (s.setLane k x).mem = s.mem := rfl
@[simp] theorem State.setLane_cores (s : State) (k : Nat) (x : Lane) : (s.setLane k x).cores = s.cores := rfl
@[simp] theorem State.setLane_clusters (s : State) (k : Nat) (x : Lane) : (s.setLane k x).clusters = s.clusters := rfl
@[simp] theorem State.setLane_beacons (s : State) (k : Nat) (x : Lane) : (s.setLane k x).beacons = s.beacons := rfl
@[simp] theorem State.setLane_signals (s : State) (k : Nat) (x : Lane) : (s.setLane k x).signals = s.signals := rfl
@[simp] theorem State.setLane_outs (s : State) (k : Nat) (x : Lane) : (s.setLane k x).outs = s.outs := rfl
@[simp] theorem State.setLane_freeCtr (s : State) (k : Nat) (x : Lane) : (s.setLane k x).freeCtr = s.freeCtr := rfl
@[simp] theorem State.setLane_parts (s : State) (k : Nat) (x : Lane) : (s.setLane k x).parts = s.parts := rfl
@[simp] theorem State.setLane_links (s : State) (k : Nat) (x : Lane) : (s.setLane k x).links = s.links := rfl
@[simp] theorem State.setLane_mbxs (s : State) (k : Nat) (x : Lane) : (s.setLane k x).mbxs = s.mbxs := rfl
@[simp] theorem State.setLane_hostMem (s : State) (k : Nat) (x : Lane) : (s.setLane k x).hostMem = s.hostMem := rfl
@[simp] theorem State.setLane_holdHit (s : State) (k : Nat) (x : Lane) : (s.setLane k x).holdHit = s.holdHit := rfl
@[simp] theorem State.setLane_pins (s : State) (k : Nat) (x : Lane) : (s.setLane k x).pins = s.pins := rfl
@[simp] theorem State.setLane_bru (s : State) (k : Nat) (x : Lane) : (s.setLane k x).bru = s.bru := rfl
@[simp] theorem State.setLane_sec (s : State) (k : Nat) (x : Lane) : (s.setLane k x).sec = s.sec := rfl
@[simp] theorem State.setLane_pwr (s : State) (k : Nat) (x : Lane) : (s.setLane k x).pwr = s.pwr := rfl

@[simp] theorem State.setNode_node (s : State) (k : Nat) (x : Node) : (s.setNode k x).node k = x := SMap.get_set_self _ _ _ _
theorem State.setNode_node_ne (s : State) {k j : Nat} (x : Node) (h : j ≠ k) : (s.setNode k x).node j = s.node j :=
  SMap.get_set_ne _ _ _ h
@[simp] theorem State.setNode_pending (s : State) (k : Nat) (x : Node) : (s.setNode k x).pending = s.pending := rfl
@[simp] theorem State.setNode_regs (s : State) (k : Nat) (x : Node) : (s.setNode k x).regs = s.regs := rfl
@[simp] theorem State.setNode_mem (s : State) (k : Nat) (x : Node) : (s.setNode k x).mem = s.mem := rfl
@[simp] theorem State.setNode_cores (s : State) (k : Nat) (x : Node) : (s.setNode k x).cores = s.cores := rfl
@[simp] theorem State.setNode_clusters (s : State) (k : Nat) (x : Node) : (s.setNode k x).clusters = s.clusters := rfl
@[simp] theorem State.setNode_beacons (s : State) (k : Nat) (x : Node) : (s.setNode k x).beacons = s.beacons := rfl
@[simp] theorem State.setNode_signals (s : State) (k : Nat) (x : Node) : (s.setNode k x).signals = s.signals := rfl
@[simp] theorem State.setNode_outs (s : State) (k : Nat) (x : Node) : (s.setNode k x).outs = s.outs := rfl
@[simp] theorem State.setNode_freeCtr (s : State) (k : Nat) (x : Node) : (s.setNode k x).freeCtr = s.freeCtr := rfl
@[simp] theorem State.setNode_parts (s : State) (k : Nat) (x : Node) : (s.setNode k x).parts = s.parts := rfl
@[simp] theorem State.setNode_links (s : State) (k : Nat) (x : Node) : (s.setNode k x).links = s.links := rfl
@[simp] theorem State.setNode_mbxs (s : State) (k : Nat) (x : Node) : (s.setNode k x).mbxs = s.mbxs := rfl
@[simp] theorem State.setNode_hostMem (s : State) (k : Nat) (x : Node) : (s.setNode k x).hostMem = s.hostMem := rfl
@[simp] theorem State.setNode_holdHit (s : State) (k : Nat) (x : Node) : (s.setNode k x).holdHit = s.holdHit := rfl
@[simp] theorem State.setNode_pins (s : State) (k : Nat) (x : Node) : (s.setNode k x).pins = s.pins := rfl
@[simp] theorem State.setNode_bru (s : State) (k : Nat) (x : Node) : (s.setNode k x).bru = s.bru := rfl
@[simp] theorem State.setNode_sec (s : State) (k : Nat) (x : Node) : (s.setNode k x).sec = s.sec := rfl
@[simp] theorem State.setNode_pwr (s : State) (k : Nat) (x : Node) : (s.setNode k x).pwr = s.pwr := rfl

@[simp] theorem State.setNicqp_nicqp (s : State) (k : Nat) (x : Option NicQp) : (s.setNicqp k x).nicqp k = x := SMap.get_set_self _ _ _ _
theorem State.setNicqp_nicqp_ne (s : State) {k j : Nat} (x : Option NicQp) (h : j ≠ k) : (s.setNicqp k x).nicqp j = s.nicqp j :=
  SMap.get_set_ne _ _ _ h
@[simp] theorem State.setNicqp_pending (s : State) (k : Nat) (x : Option NicQp) : (s.setNicqp k x).pending = s.pending := rfl
@[simp] theorem State.setNicqp_regs (s : State) (k : Nat) (x : Option NicQp) : (s.setNicqp k x).regs = s.regs := rfl
@[simp] theorem State.setNicqp_mem (s : State) (k : Nat) (x : Option NicQp) : (s.setNicqp k x).mem = s.mem := rfl
@[simp] theorem State.setNicqp_cores (s : State) (k : Nat) (x : Option NicQp) : (s.setNicqp k x).cores = s.cores := rfl
@[simp] theorem State.setNicqp_clusters (s : State) (k : Nat) (x : Option NicQp) : (s.setNicqp k x).clusters = s.clusters := rfl
@[simp] theorem State.setNicqp_beacons (s : State) (k : Nat) (x : Option NicQp) : (s.setNicqp k x).beacons = s.beacons := rfl
@[simp] theorem State.setNicqp_signals (s : State) (k : Nat) (x : Option NicQp) : (s.setNicqp k x).signals = s.signals := rfl
@[simp] theorem State.setNicqp_outs (s : State) (k : Nat) (x : Option NicQp) : (s.setNicqp k x).outs = s.outs := rfl
@[simp] theorem State.setNicqp_freeCtr (s : State) (k : Nat) (x : Option NicQp) : (s.setNicqp k x).freeCtr = s.freeCtr := rfl
@[simp] theorem State.setNicqp_parts (s : State) (k : Nat) (x : Option NicQp) : (s.setNicqp k x).parts = s.parts := rfl
@[simp] theorem State.setNicqp_links (s : State) (k : Nat) (x : Option NicQp) : (s.setNicqp k x).links = s.links := rfl
@[simp] theorem State.setNicqp_mbxs (s : State) (k : Nat) (x : Option NicQp) : (s.setNicqp k x).mbxs = s.mbxs := rfl
@[simp] theorem State.setNicqp_hostMem (s : State) (k : Nat) (x : Option NicQp) : (s.setNicqp k x).hostMem = s.hostMem := rfl
@[simp] theorem State.setNicqp_holdHit (s : State) (k : Nat) (x : Option NicQp) : (s.setNicqp k x).holdHit = s.holdHit := rfl
@[simp] theorem State.setNicqp_pins (s : State) (k : Nat) (x : Option NicQp) : (s.setNicqp k x).pins = s.pins := rfl
@[simp] theorem State.setNicqp_bru (s : State) (k : Nat) (x : Option NicQp) : (s.setNicqp k x).bru = s.bru := rfl
@[simp] theorem State.setNicqp_sec (s : State) (k : Nat) (x : Option NicQp) : (s.setNicqp k x).sec = s.sec := rfl
@[simp] theorem State.setNicqp_pwr (s : State) (k : Nat) (x : Option NicQp) : (s.setNicqp k x).pwr = s.pwr := rfl

@[simp] theorem State.setSa_sa (s : State) (k : Nat) (x : Option Sa) : (s.setSa k x).sa k = x := SMap.get_set_self _ _ _ _
theorem State.setSa_sa_ne (s : State) {k j : Nat} (x : Option Sa) (h : j ≠ k) : (s.setSa k x).sa j = s.sa j :=
  SMap.get_set_ne _ _ _ h
@[simp] theorem State.setSa_pending (s : State) (k : Nat) (x : Option Sa) : (s.setSa k x).pending = s.pending := rfl
@[simp] theorem State.setSa_regs (s : State) (k : Nat) (x : Option Sa) : (s.setSa k x).regs = s.regs := rfl
@[simp] theorem State.setSa_mem (s : State) (k : Nat) (x : Option Sa) : (s.setSa k x).mem = s.mem := rfl
@[simp] theorem State.setSa_cores (s : State) (k : Nat) (x : Option Sa) : (s.setSa k x).cores = s.cores := rfl
@[simp] theorem State.setSa_clusters (s : State) (k : Nat) (x : Option Sa) : (s.setSa k x).clusters = s.clusters := rfl
@[simp] theorem State.setSa_beacons (s : State) (k : Nat) (x : Option Sa) : (s.setSa k x).beacons = s.beacons := rfl
@[simp] theorem State.setSa_signals (s : State) (k : Nat) (x : Option Sa) : (s.setSa k x).signals = s.signals := rfl
@[simp] theorem State.setSa_outs (s : State) (k : Nat) (x : Option Sa) : (s.setSa k x).outs = s.outs := rfl
@[simp] theorem State.setSa_freeCtr (s : State) (k : Nat) (x : Option Sa) : (s.setSa k x).freeCtr = s.freeCtr := rfl
@[simp] theorem State.setSa_parts (s : State) (k : Nat) (x : Option Sa) : (s.setSa k x).parts = s.parts := rfl
@[simp] theorem State.setSa_links (s : State) (k : Nat) (x : Option Sa) : (s.setSa k x).links = s.links := rfl
@[simp] theorem State.setSa_mbxs (s : State) (k : Nat) (x : Option Sa) : (s.setSa k x).mbxs = s.mbxs := rfl
@[simp] theorem State.setSa_hostMem (s : State) (k : Nat) (x : Option Sa) : (s.setSa k x).hostMem = s.hostMem := rfl
@[simp] theorem State.setSa_holdHit (s : State) (k : Nat) (x : Option Sa) : (s.setSa k x).holdHit = s.holdHit := rfl
@[simp] theorem State.setSa_pins (s : State) (k : Nat) (x : Option Sa) : (s.setSa k x).pins = s.pins := rfl
@[simp] theorem State.setSa_bru (s : State) (k : Nat) (x : Option Sa) : (s.setSa k x).bru = s.bru := rfl
@[simp] theorem State.setSa_sec (s : State) (k : Nat) (x : Option Sa) : (s.setSa k x).sec = s.sec := rfl
@[simp] theorem State.setSa_pwr (s : State) (k : Nat) (x : Option Sa) : (s.setSa k x).pwr = s.pwr := rfl

@[simp] theorem State.setConn_conn (s : State) (k : Nat) (x : Conn) : (s.setConn k x).conn k = x := SMap.get_set_self _ _ _ _
theorem State.setConn_conn_ne (s : State) {k j : Nat} (x : Conn) (h : j ≠ k) : (s.setConn k x).conn j = s.conn j :=
  SMap.get_set_ne _ _ _ h
@[simp] theorem State.setConn_pending (s : State) (k : Nat) (x : Conn) : (s.setConn k x).pending = s.pending := rfl
@[simp] theorem State.setConn_regs (s : State) (k : Nat) (x : Conn) : (s.setConn k x).regs = s.regs := rfl
@[simp] theorem State.setConn_mem (s : State) (k : Nat) (x : Conn) : (s.setConn k x).mem = s.mem := rfl
@[simp] theorem State.setConn_cores (s : State) (k : Nat) (x : Conn) : (s.setConn k x).cores = s.cores := rfl
@[simp] theorem State.setConn_clusters (s : State) (k : Nat) (x : Conn) : (s.setConn k x).clusters = s.clusters := rfl
@[simp] theorem State.setConn_beacons (s : State) (k : Nat) (x : Conn) : (s.setConn k x).beacons = s.beacons := rfl
@[simp] theorem State.setConn_signals (s : State) (k : Nat) (x : Conn) : (s.setConn k x).signals = s.signals := rfl
@[simp] theorem State.setConn_outs (s : State) (k : Nat) (x : Conn) : (s.setConn k x).outs = s.outs := rfl
@[simp] theorem State.setConn_freeCtr (s : State) (k : Nat) (x : Conn) : (s.setConn k x).freeCtr = s.freeCtr := rfl
@[simp] theorem State.setConn_parts (s : State) (k : Nat) (x : Conn) : (s.setConn k x).parts = s.parts := rfl
@[simp] theorem State.setConn_links (s : State) (k : Nat) (x : Conn) : (s.setConn k x).links = s.links := rfl
@[simp] theorem State.setConn_mbxs (s : State) (k : Nat) (x : Conn) : (s.setConn k x).mbxs = s.mbxs := rfl
@[simp] theorem State.setConn_hostMem (s : State) (k : Nat) (x : Conn) : (s.setConn k x).hostMem = s.hostMem := rfl
@[simp] theorem State.setConn_holdHit (s : State) (k : Nat) (x : Conn) : (s.setConn k x).holdHit = s.holdHit := rfl
@[simp] theorem State.setConn_pins (s : State) (k : Nat) (x : Conn) : (s.setConn k x).pins = s.pins := rfl
@[simp] theorem State.setConn_bru (s : State) (k : Nat) (x : Conn) : (s.setConn k x).bru = s.bru := rfl
@[simp] theorem State.setConn_sec (s : State) (k : Nat) (x : Conn) : (s.setConn k x).sec = s.sec := rfl
@[simp] theorem State.setConn_pwr (s : State) (k : Nat) (x : Conn) : (s.setConn k x).pwr = s.pwr := rfl

@[simp] theorem State.setSkey_skey (s : State) (k : Nat) (x : Option SpaceKey) : (s.setSkey k x).skey k = x := SMap.get_set_self _ _ _ _
theorem State.setSkey_skey_ne (s : State) {k j : Nat} (x : Option SpaceKey) (h : j ≠ k) : (s.setSkey k x).skey j = s.skey j :=
  SMap.get_set_ne _ _ _ h
@[simp] theorem State.setSkey_pending (s : State) (k : Nat) (x : Option SpaceKey) : (s.setSkey k x).pending = s.pending := rfl
@[simp] theorem State.setSkey_regs (s : State) (k : Nat) (x : Option SpaceKey) : (s.setSkey k x).regs = s.regs := rfl
@[simp] theorem State.setSkey_mem (s : State) (k : Nat) (x : Option SpaceKey) : (s.setSkey k x).mem = s.mem := rfl
@[simp] theorem State.setSkey_cores (s : State) (k : Nat) (x : Option SpaceKey) : (s.setSkey k x).cores = s.cores := rfl
@[simp] theorem State.setSkey_clusters (s : State) (k : Nat) (x : Option SpaceKey) : (s.setSkey k x).clusters = s.clusters := rfl
@[simp] theorem State.setSkey_beacons (s : State) (k : Nat) (x : Option SpaceKey) : (s.setSkey k x).beacons = s.beacons := rfl
@[simp] theorem State.setSkey_signals (s : State) (k : Nat) (x : Option SpaceKey) : (s.setSkey k x).signals = s.signals := rfl
@[simp] theorem State.setSkey_outs (s : State) (k : Nat) (x : Option SpaceKey) : (s.setSkey k x).outs = s.outs := rfl
@[simp] theorem State.setSkey_freeCtr (s : State) (k : Nat) (x : Option SpaceKey) : (s.setSkey k x).freeCtr = s.freeCtr := rfl
@[simp] theorem State.setSkey_parts (s : State) (k : Nat) (x : Option SpaceKey) : (s.setSkey k x).parts = s.parts := rfl
@[simp] theorem State.setSkey_links (s : State) (k : Nat) (x : Option SpaceKey) : (s.setSkey k x).links = s.links := rfl
@[simp] theorem State.setSkey_mbxs (s : State) (k : Nat) (x : Option SpaceKey) : (s.setSkey k x).mbxs = s.mbxs := rfl
@[simp] theorem State.setSkey_hostMem (s : State) (k : Nat) (x : Option SpaceKey) : (s.setSkey k x).hostMem = s.hostMem := rfl
@[simp] theorem State.setSkey_holdHit (s : State) (k : Nat) (x : Option SpaceKey) : (s.setSkey k x).holdHit = s.holdHit := rfl
@[simp] theorem State.setSkey_pins (s : State) (k : Nat) (x : Option SpaceKey) : (s.setSkey k x).pins = s.pins := rfl
@[simp] theorem State.setSkey_bru (s : State) (k : Nat) (x : Option SpaceKey) : (s.setSkey k x).bru = s.bru := rfl
@[simp] theorem State.setSkey_sec (s : State) (k : Nat) (x : Option SpaceKey) : (s.setSkey k x).sec = s.sec := rfl
@[simp] theorem State.setSkey_pwr (s : State) (k : Nat) (x : Option SpaceKey) : (s.setSkey k x).pwr = s.pwr := rfl

@[simp] theorem State.setNvme_nvme (s : State) (k : Nat) (x : Nvme) : (s.setNvme k x).nvme k = x := SMap.get_set_self _ _ _ _
theorem State.setNvme_nvme_ne (s : State) {k j : Nat} (x : Nvme) (h : j ≠ k) : (s.setNvme k x).nvme j = s.nvme j :=
  SMap.get_set_ne _ _ _ h
@[simp] theorem State.setNvme_pending (s : State) (k : Nat) (x : Nvme) : (s.setNvme k x).pending = s.pending := rfl
@[simp] theorem State.setNvme_regs (s : State) (k : Nat) (x : Nvme) : (s.setNvme k x).regs = s.regs := rfl
@[simp] theorem State.setNvme_mem (s : State) (k : Nat) (x : Nvme) : (s.setNvme k x).mem = s.mem := rfl
@[simp] theorem State.setNvme_cores (s : State) (k : Nat) (x : Nvme) : (s.setNvme k x).cores = s.cores := rfl
@[simp] theorem State.setNvme_clusters (s : State) (k : Nat) (x : Nvme) : (s.setNvme k x).clusters = s.clusters := rfl
@[simp] theorem State.setNvme_beacons (s : State) (k : Nat) (x : Nvme) : (s.setNvme k x).beacons = s.beacons := rfl
@[simp] theorem State.setNvme_signals (s : State) (k : Nat) (x : Nvme) : (s.setNvme k x).signals = s.signals := rfl
@[simp] theorem State.setNvme_outs (s : State) (k : Nat) (x : Nvme) : (s.setNvme k x).outs = s.outs := rfl
@[simp] theorem State.setNvme_freeCtr (s : State) (k : Nat) (x : Nvme) : (s.setNvme k x).freeCtr = s.freeCtr := rfl
@[simp] theorem State.setNvme_parts (s : State) (k : Nat) (x : Nvme) : (s.setNvme k x).parts = s.parts := rfl
@[simp] theorem State.setNvme_links (s : State) (k : Nat) (x : Nvme) : (s.setNvme k x).links = s.links := rfl
@[simp] theorem State.setNvme_mbxs (s : State) (k : Nat) (x : Nvme) : (s.setNvme k x).mbxs = s.mbxs := rfl
@[simp] theorem State.setNvme_hostMem (s : State) (k : Nat) (x : Nvme) : (s.setNvme k x).hostMem = s.hostMem := rfl
@[simp] theorem State.setNvme_holdHit (s : State) (k : Nat) (x : Nvme) : (s.setNvme k x).holdHit = s.holdHit := rfl
@[simp] theorem State.setNvme_pins (s : State) (k : Nat) (x : Nvme) : (s.setNvme k x).pins = s.pins := rfl
@[simp] theorem State.setNvme_bru (s : State) (k : Nat) (x : Nvme) : (s.setNvme k x).bru = s.bru := rfl
@[simp] theorem State.setNvme_sec (s : State) (k : Nat) (x : Nvme) : (s.setNvme k x).sec = s.sec := rfl
@[simp] theorem State.setNvme_pwr (s : State) (k : Nat) (x : Nvme) : (s.setNvme k x).pwr = s.pwr := rfl

@[simp] theorem State.setNs_ns (s : State) (k : Nat) (x : Option Ns) : (s.setNs k x).ns k = x := SMap.get_set_self _ _ _ _
theorem State.setNs_ns_ne (s : State) {k j : Nat} (x : Option Ns) (h : j ≠ k) : (s.setNs k x).ns j = s.ns j :=
  SMap.get_set_ne _ _ _ h
@[simp] theorem State.setNs_pending (s : State) (k : Nat) (x : Option Ns) : (s.setNs k x).pending = s.pending := rfl
@[simp] theorem State.setNs_regs (s : State) (k : Nat) (x : Option Ns) : (s.setNs k x).regs = s.regs := rfl
@[simp] theorem State.setNs_mem (s : State) (k : Nat) (x : Option Ns) : (s.setNs k x).mem = s.mem := rfl
@[simp] theorem State.setNs_cores (s : State) (k : Nat) (x : Option Ns) : (s.setNs k x).cores = s.cores := rfl
@[simp] theorem State.setNs_clusters (s : State) (k : Nat) (x : Option Ns) : (s.setNs k x).clusters = s.clusters := rfl
@[simp] theorem State.setNs_beacons (s : State) (k : Nat) (x : Option Ns) : (s.setNs k x).beacons = s.beacons := rfl
@[simp] theorem State.setNs_signals (s : State) (k : Nat) (x : Option Ns) : (s.setNs k x).signals = s.signals := rfl
@[simp] theorem State.setNs_outs (s : State) (k : Nat) (x : Option Ns) : (s.setNs k x).outs = s.outs := rfl
@[simp] theorem State.setNs_freeCtr (s : State) (k : Nat) (x : Option Ns) : (s.setNs k x).freeCtr = s.freeCtr := rfl
@[simp] theorem State.setNs_parts (s : State) (k : Nat) (x : Option Ns) : (s.setNs k x).parts = s.parts := rfl
@[simp] theorem State.setNs_links (s : State) (k : Nat) (x : Option Ns) : (s.setNs k x).links = s.links := rfl
@[simp] theorem State.setNs_mbxs (s : State) (k : Nat) (x : Option Ns) : (s.setNs k x).mbxs = s.mbxs := rfl
@[simp] theorem State.setNs_hostMem (s : State) (k : Nat) (x : Option Ns) : (s.setNs k x).hostMem = s.hostMem := rfl
@[simp] theorem State.setNs_holdHit (s : State) (k : Nat) (x : Option Ns) : (s.setNs k x).holdHit = s.holdHit := rfl
@[simp] theorem State.setNs_pins (s : State) (k : Nat) (x : Option Ns) : (s.setNs k x).pins = s.pins := rfl
@[simp] theorem State.setNs_bru (s : State) (k : Nat) (x : Option Ns) : (s.setNs k x).bru = s.bru := rfl
@[simp] theorem State.setNs_sec (s : State) (k : Nat) (x : Option Ns) : (s.setNs k x).sec = s.sec := rfl
@[simp] theorem State.setNs_pwr (s : State) (k : Nat) (x : Option Ns) : (s.setNs k x).pwr = s.pwr := rfl

@[simp] theorem State.setSlot_slot (s : State) (k : Nat) (x : Slot) : (s.setSlot k x).slot k = x := SMap.get_set_self _ _ _ _
theorem State.setSlot_slot_ne (s : State) {k j : Nat} (x : Slot) (h : j ≠ k) : (s.setSlot k x).slot j = s.slot j :=
  SMap.get_set_ne _ _ _ h
@[simp] theorem State.setSlot_pending (s : State) (k : Nat) (x : Slot) : (s.setSlot k x).pending = s.pending := rfl
@[simp] theorem State.setSlot_regs (s : State) (k : Nat) (x : Slot) : (s.setSlot k x).regs = s.regs := rfl
@[simp] theorem State.setSlot_mem (s : State) (k : Nat) (x : Slot) : (s.setSlot k x).mem = s.mem := rfl
@[simp] theorem State.setSlot_cores (s : State) (k : Nat) (x : Slot) : (s.setSlot k x).cores = s.cores := rfl
@[simp] theorem State.setSlot_clusters (s : State) (k : Nat) (x : Slot) : (s.setSlot k x).clusters = s.clusters := rfl
@[simp] theorem State.setSlot_beacons (s : State) (k : Nat) (x : Slot) : (s.setSlot k x).beacons = s.beacons := rfl
@[simp] theorem State.setSlot_signals (s : State) (k : Nat) (x : Slot) : (s.setSlot k x).signals = s.signals := rfl
@[simp] theorem State.setSlot_outs (s : State) (k : Nat) (x : Slot) : (s.setSlot k x).outs = s.outs := rfl
@[simp] theorem State.setSlot_freeCtr (s : State) (k : Nat) (x : Slot) : (s.setSlot k x).freeCtr = s.freeCtr := rfl
@[simp] theorem State.setSlot_parts (s : State) (k : Nat) (x : Slot) : (s.setSlot k x).parts = s.parts := rfl
@[simp] theorem State.setSlot_links (s : State) (k : Nat) (x : Slot) : (s.setSlot k x).links = s.links := rfl
@[simp] theorem State.setSlot_mbxs (s : State) (k : Nat) (x : Slot) : (s.setSlot k x).mbxs = s.mbxs := rfl
@[simp] theorem State.setSlot_hostMem (s : State) (k : Nat) (x : Slot) : (s.setSlot k x).hostMem = s.hostMem := rfl
@[simp] theorem State.setSlot_holdHit (s : State) (k : Nat) (x : Slot) : (s.setSlot k x).holdHit = s.holdHit := rfl
@[simp] theorem State.setSlot_pins (s : State) (k : Nat) (x : Slot) : (s.setSlot k x).pins = s.pins := rfl
@[simp] theorem State.setSlot_bru (s : State) (k : Nat) (x : Slot) : (s.setSlot k x).bru = s.bru := rfl
@[simp] theorem State.setSlot_sec (s : State) (k : Nat) (x : Slot) : (s.setSlot k x).sec = s.sec := rfl
@[simp] theorem State.setSlot_pwr (s : State) (k : Nat) (x : Slot) : (s.setSlot k x).pwr = s.pwr := rfl

@[simp] theorem State.setKey_key (s : State) (k : Nat) (x : Option KeySlot) : (s.setKey k x).key k = x := SMap.get_set_self _ _ _ _
theorem State.setKey_key_ne (s : State) {k j : Nat} (x : Option KeySlot) (h : j ≠ k) : (s.setKey k x).key j = s.key j :=
  SMap.get_set_ne _ _ _ h
@[simp] theorem State.setKey_pending (s : State) (k : Nat) (x : Option KeySlot) : (s.setKey k x).pending = s.pending := rfl
@[simp] theorem State.setKey_regs (s : State) (k : Nat) (x : Option KeySlot) : (s.setKey k x).regs = s.regs := rfl
@[simp] theorem State.setKey_mem (s : State) (k : Nat) (x : Option KeySlot) : (s.setKey k x).mem = s.mem := rfl
@[simp] theorem State.setKey_cores (s : State) (k : Nat) (x : Option KeySlot) : (s.setKey k x).cores = s.cores := rfl
@[simp] theorem State.setKey_clusters (s : State) (k : Nat) (x : Option KeySlot) : (s.setKey k x).clusters = s.clusters := rfl
@[simp] theorem State.setKey_beacons (s : State) (k : Nat) (x : Option KeySlot) : (s.setKey k x).beacons = s.beacons := rfl
@[simp] theorem State.setKey_signals (s : State) (k : Nat) (x : Option KeySlot) : (s.setKey k x).signals = s.signals := rfl
@[simp] theorem State.setKey_outs (s : State) (k : Nat) (x : Option KeySlot) : (s.setKey k x).outs = s.outs := rfl
@[simp] theorem State.setKey_freeCtr (s : State) (k : Nat) (x : Option KeySlot) : (s.setKey k x).freeCtr = s.freeCtr := rfl
@[simp] theorem State.setKey_parts (s : State) (k : Nat) (x : Option KeySlot) : (s.setKey k x).parts = s.parts := rfl
@[simp] theorem State.setKey_links (s : State) (k : Nat) (x : Option KeySlot) : (s.setKey k x).links = s.links := rfl
@[simp] theorem State.setKey_mbxs (s : State) (k : Nat) (x : Option KeySlot) : (s.setKey k x).mbxs = s.mbxs := rfl
@[simp] theorem State.setKey_hostMem (s : State) (k : Nat) (x : Option KeySlot) : (s.setKey k x).hostMem = s.hostMem := rfl
@[simp] theorem State.setKey_holdHit (s : State) (k : Nat) (x : Option KeySlot) : (s.setKey k x).holdHit = s.holdHit := rfl
@[simp] theorem State.setKey_pins (s : State) (k : Nat) (x : Option KeySlot) : (s.setKey k x).pins = s.pins := rfl
@[simp] theorem State.setKey_bru (s : State) (k : Nat) (x : Option KeySlot) : (s.setKey k x).bru = s.bru := rfl
@[simp] theorem State.setKey_sec (s : State) (k : Nat) (x : Option KeySlot) : (s.setKey k x).sec = s.sec := rfl
@[simp] theorem State.setKey_pwr (s : State) (k : Nat) (x : Option KeySlot) : (s.setKey k x).pwr = s.pwr := rfl

@[simp] theorem State.setCphOf_cphOf (s : State) (k : Nat) (x : Cph) : (s.setCphOf k x).cphOf k = x := SMap.get_set_self _ _ _ _
theorem State.setCphOf_cphOf_ne (s : State) {k j : Nat} (x : Cph) (h : j ≠ k) : (s.setCphOf k x).cphOf j = s.cphOf j :=
  SMap.get_set_ne _ _ _ h
@[simp] theorem State.setCphOf_pending (s : State) (k : Nat) (x : Cph) : (s.setCphOf k x).pending = s.pending := rfl
@[simp] theorem State.setCphOf_regs (s : State) (k : Nat) (x : Cph) : (s.setCphOf k x).regs = s.regs := rfl
@[simp] theorem State.setCphOf_mem (s : State) (k : Nat) (x : Cph) : (s.setCphOf k x).mem = s.mem := rfl
@[simp] theorem State.setCphOf_cores (s : State) (k : Nat) (x : Cph) : (s.setCphOf k x).cores = s.cores := rfl
@[simp] theorem State.setCphOf_clusters (s : State) (k : Nat) (x : Cph) : (s.setCphOf k x).clusters = s.clusters := rfl
@[simp] theorem State.setCphOf_beacons (s : State) (k : Nat) (x : Cph) : (s.setCphOf k x).beacons = s.beacons := rfl
@[simp] theorem State.setCphOf_signals (s : State) (k : Nat) (x : Cph) : (s.setCphOf k x).signals = s.signals := rfl
@[simp] theorem State.setCphOf_outs (s : State) (k : Nat) (x : Cph) : (s.setCphOf k x).outs = s.outs := rfl
@[simp] theorem State.setCphOf_freeCtr (s : State) (k : Nat) (x : Cph) : (s.setCphOf k x).freeCtr = s.freeCtr := rfl
@[simp] theorem State.setCphOf_parts (s : State) (k : Nat) (x : Cph) : (s.setCphOf k x).parts = s.parts := rfl
@[simp] theorem State.setCphOf_links (s : State) (k : Nat) (x : Cph) : (s.setCphOf k x).links = s.links := rfl
@[simp] theorem State.setCphOf_mbxs (s : State) (k : Nat) (x : Cph) : (s.setCphOf k x).mbxs = s.mbxs := rfl
@[simp] theorem State.setCphOf_hostMem (s : State) (k : Nat) (x : Cph) : (s.setCphOf k x).hostMem = s.hostMem := rfl
@[simp] theorem State.setCphOf_holdHit (s : State) (k : Nat) (x : Cph) : (s.setCphOf k x).holdHit = s.holdHit := rfl
@[simp] theorem State.setCphOf_pins (s : State) (k : Nat) (x : Cph) : (s.setCphOf k x).pins = s.pins := rfl
@[simp] theorem State.setCphOf_bru (s : State) (k : Nat) (x : Cph) : (s.setCphOf k x).bru = s.bru := rfl
@[simp] theorem State.setCphOf_sec (s : State) (k : Nat) (x : Cph) : (s.setCphOf k x).sec = s.sec := rfl
@[simp] theorem State.setCphOf_pwr (s : State) (k : Nat) (x : Cph) : (s.setCphOf k x).pwr = s.pwr := rfl

@[simp] theorem State.setMbx_mbx (s : State) (k : Nat) (x : Mbx) : (s.setMbx k x).mbx k = x := SMap.get_set_self _ _ _ _
theorem State.setMbx_mbx_ne (s : State) {k j : Nat} (x : Mbx) (h : j ≠ k) : (s.setMbx k x).mbx j = s.mbx j :=
  SMap.get_set_ne _ _ _ h
@[simp] theorem State.setMbx_pending (s : State) (k : Nat) (x : Mbx) : (s.setMbx k x).pending = s.pending := rfl
@[simp] theorem State.setMbx_regs (s : State) (k : Nat) (x : Mbx) : (s.setMbx k x).regs = s.regs := rfl
@[simp] theorem State.setMbx_mem (s : State) (k : Nat) (x : Mbx) : (s.setMbx k x).mem = s.mem := rfl
@[simp] theorem State.setMbx_cores (s : State) (k : Nat) (x : Mbx) : (s.setMbx k x).cores = s.cores := rfl
@[simp] theorem State.setMbx_clusters (s : State) (k : Nat) (x : Mbx) : (s.setMbx k x).clusters = s.clusters := rfl
@[simp] theorem State.setMbx_beacons (s : State) (k : Nat) (x : Mbx) : (s.setMbx k x).beacons = s.beacons := rfl
@[simp] theorem State.setMbx_signals (s : State) (k : Nat) (x : Mbx) : (s.setMbx k x).signals = s.signals := rfl
@[simp] theorem State.setMbx_outs (s : State) (k : Nat) (x : Mbx) : (s.setMbx k x).outs = s.outs := rfl
@[simp] theorem State.setMbx_freeCtr (s : State) (k : Nat) (x : Mbx) : (s.setMbx k x).freeCtr = s.freeCtr := rfl
@[simp] theorem State.setMbx_parts (s : State) (k : Nat) (x : Mbx) : (s.setMbx k x).parts = s.parts := rfl
@[simp] theorem State.setMbx_links (s : State) (k : Nat) (x : Mbx) : (s.setMbx k x).links = s.links := rfl
@[simp] theorem State.setMbx_hostMem (s : State) (k : Nat) (x : Mbx) : (s.setMbx k x).hostMem = s.hostMem := rfl
@[simp] theorem State.setMbx_holdHit (s : State) (k : Nat) (x : Mbx) : (s.setMbx k x).holdHit = s.holdHit := rfl
@[simp] theorem State.setMbx_pins (s : State) (k : Nat) (x : Mbx) : (s.setMbx k x).pins = s.pins := rfl
@[simp] theorem State.setMbx_bru (s : State) (k : Nat) (x : Mbx) : (s.setMbx k x).bru = s.bru := rfl
@[simp] theorem State.setMbx_sec (s : State) (k : Nat) (x : Mbx) : (s.setMbx k x).sec = s.sec := rfl
@[simp] theorem State.setMbx_pwr (s : State) (k : Nat) (x : Mbx) : (s.setMbx k x).pwr = s.pwr := rfl

@[simp] theorem State.setFwp_fwp (s : State) (k : Nat) (x : Fwp) : (s.setFwp k x).fwp k = x := SMap.get_set_self _ _ _ _
theorem State.setFwp_fwp_ne (s : State) {k j : Nat} (x : Fwp) (h : j ≠ k) : (s.setFwp k x).fwp j = s.fwp j :=
  SMap.get_set_ne _ _ _ h
@[simp] theorem State.setFwp_pending (s : State) (k : Nat) (x : Fwp) : (s.setFwp k x).pending = s.pending := rfl
@[simp] theorem State.setFwp_regs (s : State) (k : Nat) (x : Fwp) : (s.setFwp k x).regs = s.regs := rfl
@[simp] theorem State.setFwp_mem (s : State) (k : Nat) (x : Fwp) : (s.setFwp k x).mem = s.mem := rfl
@[simp] theorem State.setFwp_cores (s : State) (k : Nat) (x : Fwp) : (s.setFwp k x).cores = s.cores := rfl
@[simp] theorem State.setFwp_clusters (s : State) (k : Nat) (x : Fwp) : (s.setFwp k x).clusters = s.clusters := rfl
@[simp] theorem State.setFwp_beacons (s : State) (k : Nat) (x : Fwp) : (s.setFwp k x).beacons = s.beacons := rfl
@[simp] theorem State.setFwp_signals (s : State) (k : Nat) (x : Fwp) : (s.setFwp k x).signals = s.signals := rfl
@[simp] theorem State.setFwp_outs (s : State) (k : Nat) (x : Fwp) : (s.setFwp k x).outs = s.outs := rfl
@[simp] theorem State.setFwp_freeCtr (s : State) (k : Nat) (x : Fwp) : (s.setFwp k x).freeCtr = s.freeCtr := rfl
@[simp] theorem State.setFwp_parts (s : State) (k : Nat) (x : Fwp) : (s.setFwp k x).parts = s.parts := rfl
@[simp] theorem State.setFwp_links (s : State) (k : Nat) (x : Fwp) : (s.setFwp k x).links = s.links := rfl
@[simp] theorem State.setFwp_mbxs (s : State) (k : Nat) (x : Fwp) : (s.setFwp k x).mbxs = s.mbxs := rfl
@[simp] theorem State.setFwp_hostMem (s : State) (k : Nat) (x : Fwp) : (s.setFwp k x).hostMem = s.hostMem := rfl
@[simp] theorem State.setFwp_holdHit (s : State) (k : Nat) (x : Fwp) : (s.setFwp k x).holdHit = s.holdHit := rfl
@[simp] theorem State.setFwp_pins (s : State) (k : Nat) (x : Fwp) : (s.setFwp k x).pins = s.pins := rfl
@[simp] theorem State.setFwp_bru (s : State) (k : Nat) (x : Fwp) : (s.setFwp k x).bru = s.bru := rfl
@[simp] theorem State.setFwp_sec (s : State) (k : Nat) (x : Fwp) : (s.setFwp k x).sec = s.sec := rfl
@[simp] theorem State.setFwp_pwr (s : State) (k : Nat) (x : Fwp) : (s.setFwp k x).pwr = s.pwr := rfl

@[simp] theorem State.setFwslot_fwslot (s : State) (k : Nat) (x : FwSlot) : (s.setFwslot k x).fwslot k = x := SMap.get_set_self _ _ _ _
theorem State.setFwslot_fwslot_ne (s : State) {k j : Nat} (x : FwSlot) (h : j ≠ k) : (s.setFwslot k x).fwslot j = s.fwslot j :=
  SMap.get_set_ne _ _ _ h
@[simp] theorem State.setFwslot_pending (s : State) (k : Nat) (x : FwSlot) : (s.setFwslot k x).pending = s.pending := rfl
@[simp] theorem State.setFwslot_regs (s : State) (k : Nat) (x : FwSlot) : (s.setFwslot k x).regs = s.regs := rfl
@[simp] theorem State.setFwslot_mem (s : State) (k : Nat) (x : FwSlot) : (s.setFwslot k x).mem = s.mem := rfl
@[simp] theorem State.setFwslot_cores (s : State) (k : Nat) (x : FwSlot) : (s.setFwslot k x).cores = s.cores := rfl
@[simp] theorem State.setFwslot_clusters (s : State) (k : Nat) (x : FwSlot) : (s.setFwslot k x).clusters = s.clusters := rfl
@[simp] theorem State.setFwslot_beacons (s : State) (k : Nat) (x : FwSlot) : (s.setFwslot k x).beacons = s.beacons := rfl
@[simp] theorem State.setFwslot_signals (s : State) (k : Nat) (x : FwSlot) : (s.setFwslot k x).signals = s.signals := rfl
@[simp] theorem State.setFwslot_outs (s : State) (k : Nat) (x : FwSlot) : (s.setFwslot k x).outs = s.outs := rfl
@[simp] theorem State.setFwslot_freeCtr (s : State) (k : Nat) (x : FwSlot) : (s.setFwslot k x).freeCtr = s.freeCtr := rfl
@[simp] theorem State.setFwslot_parts (s : State) (k : Nat) (x : FwSlot) : (s.setFwslot k x).parts = s.parts := rfl
@[simp] theorem State.setFwslot_links (s : State) (k : Nat) (x : FwSlot) : (s.setFwslot k x).links = s.links := rfl
@[simp] theorem State.setFwslot_mbxs (s : State) (k : Nat) (x : FwSlot) : (s.setFwslot k x).mbxs = s.mbxs := rfl
@[simp] theorem State.setFwslot_hostMem (s : State) (k : Nat) (x : FwSlot) : (s.setFwslot k x).hostMem = s.hostMem := rfl
@[simp] theorem State.setFwslot_holdHit (s : State) (k : Nat) (x : FwSlot) : (s.setFwslot k x).holdHit = s.holdHit := rfl
@[simp] theorem State.setFwslot_pins (s : State) (k : Nat) (x : FwSlot) : (s.setFwslot k x).pins = s.pins := rfl
@[simp] theorem State.setFwslot_bru (s : State) (k : Nat) (x : FwSlot) : (s.setFwslot k x).bru = s.bru := rfl
@[simp] theorem State.setFwslot_sec (s : State) (k : Nat) (x : FwSlot) : (s.setFwslot k x).sec = s.sec := rfl
@[simp] theorem State.setFwslot_pwr (s : State) (k : Nat) (x : FwSlot) : (s.setFwslot k x).pwr = s.pwr := rfl

@[simp] theorem State.setJournalAt_journalAt (s : State) (k : Nat) (x : BitVec 16) : (s.setJournalAt k x).journalAt k = x := SMap.get_set_self _ _ _ _
theorem State.setJournalAt_journalAt_ne (s : State) {k j : Nat} (x : BitVec 16) (h : j ≠ k) : (s.setJournalAt k x).journalAt j = s.journalAt j :=
  SMap.get_set_ne _ _ _ h
@[simp] theorem State.setJournalAt_pending (s : State) (k : Nat) (x : BitVec 16) : (s.setJournalAt k x).pending = s.pending := rfl
@[simp] theorem State.setJournalAt_regs (s : State) (k : Nat) (x : BitVec 16) : (s.setJournalAt k x).regs = s.regs := rfl
@[simp] theorem State.setJournalAt_mem (s : State) (k : Nat) (x : BitVec 16) : (s.setJournalAt k x).mem = s.mem := rfl
@[simp] theorem State.setJournalAt_cores (s : State) (k : Nat) (x : BitVec 16) : (s.setJournalAt k x).cores = s.cores := rfl
@[simp] theorem State.setJournalAt_clusters (s : State) (k : Nat) (x : BitVec 16) : (s.setJournalAt k x).clusters = s.clusters := rfl
@[simp] theorem State.setJournalAt_beacons (s : State) (k : Nat) (x : BitVec 16) : (s.setJournalAt k x).beacons = s.beacons := rfl
@[simp] theorem State.setJournalAt_signals (s : State) (k : Nat) (x : BitVec 16) : (s.setJournalAt k x).signals = s.signals := rfl
@[simp] theorem State.setJournalAt_outs (s : State) (k : Nat) (x : BitVec 16) : (s.setJournalAt k x).outs = s.outs := rfl
@[simp] theorem State.setJournalAt_freeCtr (s : State) (k : Nat) (x : BitVec 16) : (s.setJournalAt k x).freeCtr = s.freeCtr := rfl
@[simp] theorem State.setJournalAt_parts (s : State) (k : Nat) (x : BitVec 16) : (s.setJournalAt k x).parts = s.parts := rfl
@[simp] theorem State.setJournalAt_links (s : State) (k : Nat) (x : BitVec 16) : (s.setJournalAt k x).links = s.links := rfl
@[simp] theorem State.setJournalAt_mbxs (s : State) (k : Nat) (x : BitVec 16) : (s.setJournalAt k x).mbxs = s.mbxs := rfl
@[simp] theorem State.setJournalAt_hostMem (s : State) (k : Nat) (x : BitVec 16) : (s.setJournalAt k x).hostMem = s.hostMem := rfl
@[simp] theorem State.setJournalAt_holdHit (s : State) (k : Nat) (x : BitVec 16) : (s.setJournalAt k x).holdHit = s.holdHit := rfl
@[simp] theorem State.setJournalAt_pins (s : State) (k : Nat) (x : BitVec 16) : (s.setJournalAt k x).pins = s.pins := rfl
@[simp] theorem State.setJournalAt_bru (s : State) (k : Nat) (x : BitVec 16) : (s.setJournalAt k x).bru = s.bru := rfl
@[simp] theorem State.setJournalAt_sec (s : State) (k : Nat) (x : BitVec 16) : (s.setJournalAt k x).sec = s.sec := rfl
@[simp] theorem State.setJournalAt_pwr (s : State) (k : Nat) (x : BitVec 16) : (s.setJournalAt k x).pwr = s.pwr := rfl

@[simp] theorem State.setLossOf_lossOf (s : State) (k : Nat) (x : LossState) : (s.setLossOf k x).lossOf k = x := SMap.get_set_self _ _ _ _
theorem State.setLossOf_lossOf_ne (s : State) {k j : Nat} (x : LossState) (h : j ≠ k) : (s.setLossOf k x).lossOf j = s.lossOf j :=
  SMap.get_set_ne _ _ _ h
@[simp] theorem State.setLossOf_pending (s : State) (k : Nat) (x : LossState) : (s.setLossOf k x).pending = s.pending := rfl
@[simp] theorem State.setLossOf_regs (s : State) (k : Nat) (x : LossState) : (s.setLossOf k x).regs = s.regs := rfl
@[simp] theorem State.setLossOf_mem (s : State) (k : Nat) (x : LossState) : (s.setLossOf k x).mem = s.mem := rfl
@[simp] theorem State.setLossOf_cores (s : State) (k : Nat) (x : LossState) : (s.setLossOf k x).cores = s.cores := rfl
@[simp] theorem State.setLossOf_clusters (s : State) (k : Nat) (x : LossState) : (s.setLossOf k x).clusters = s.clusters := rfl
@[simp] theorem State.setLossOf_beacons (s : State) (k : Nat) (x : LossState) : (s.setLossOf k x).beacons = s.beacons := rfl
@[simp] theorem State.setLossOf_signals (s : State) (k : Nat) (x : LossState) : (s.setLossOf k x).signals = s.signals := rfl
@[simp] theorem State.setLossOf_outs (s : State) (k : Nat) (x : LossState) : (s.setLossOf k x).outs = s.outs := rfl
@[simp] theorem State.setLossOf_freeCtr (s : State) (k : Nat) (x : LossState) : (s.setLossOf k x).freeCtr = s.freeCtr := rfl
@[simp] theorem State.setLossOf_parts (s : State) (k : Nat) (x : LossState) : (s.setLossOf k x).parts = s.parts := rfl
@[simp] theorem State.setLossOf_links (s : State) (k : Nat) (x : LossState) : (s.setLossOf k x).links = s.links := rfl
@[simp] theorem State.setLossOf_mbxs (s : State) (k : Nat) (x : LossState) : (s.setLossOf k x).mbxs = s.mbxs := rfl
@[simp] theorem State.setLossOf_hostMem (s : State) (k : Nat) (x : LossState) : (s.setLossOf k x).hostMem = s.hostMem := rfl
@[simp] theorem State.setLossOf_holdHit (s : State) (k : Nat) (x : LossState) : (s.setLossOf k x).holdHit = s.holdHit := rfl
@[simp] theorem State.setLossOf_pins (s : State) (k : Nat) (x : LossState) : (s.setLossOf k x).pins = s.pins := rfl
@[simp] theorem State.setLossOf_bru (s : State) (k : Nat) (x : LossState) : (s.setLossOf k x).bru = s.bru := rfl
@[simp] theorem State.setLossOf_sec (s : State) (k : Nat) (x : LossState) : (s.setLossOf k x).sec = s.sec := rfl
@[simp] theorem State.setLossOf_pwr (s : State) (k : Nat) (x : LossState) : (s.setLossOf k x).pwr = s.pwr := rfl

@[simp] theorem State.setSnap_snap (s : State) (k : Nat) (x : Snap) : (s.setSnap k x).snap k = x := SMap.get_set_self _ _ _ _
theorem State.setSnap_snap_ne (s : State) {k j : Nat} (x : Snap) (h : j ≠ k) : (s.setSnap k x).snap j = s.snap j :=
  SMap.get_set_ne _ _ _ h
@[simp] theorem State.setSnap_pending (s : State) (k : Nat) (x : Snap) : (s.setSnap k x).pending = s.pending := rfl
@[simp] theorem State.setSnap_regs (s : State) (k : Nat) (x : Snap) : (s.setSnap k x).regs = s.regs := rfl
@[simp] theorem State.setSnap_mem (s : State) (k : Nat) (x : Snap) : (s.setSnap k x).mem = s.mem := rfl
@[simp] theorem State.setSnap_cores (s : State) (k : Nat) (x : Snap) : (s.setSnap k x).cores = s.cores := rfl
@[simp] theorem State.setSnap_clusters (s : State) (k : Nat) (x : Snap) : (s.setSnap k x).clusters = s.clusters := rfl
@[simp] theorem State.setSnap_beacons (s : State) (k : Nat) (x : Snap) : (s.setSnap k x).beacons = s.beacons := rfl
@[simp] theorem State.setSnap_signals (s : State) (k : Nat) (x : Snap) : (s.setSnap k x).signals = s.signals := rfl
@[simp] theorem State.setSnap_outs (s : State) (k : Nat) (x : Snap) : (s.setSnap k x).outs = s.outs := rfl
@[simp] theorem State.setSnap_freeCtr (s : State) (k : Nat) (x : Snap) : (s.setSnap k x).freeCtr = s.freeCtr := rfl
@[simp] theorem State.setSnap_parts (s : State) (k : Nat) (x : Snap) : (s.setSnap k x).parts = s.parts := rfl
@[simp] theorem State.setSnap_links (s : State) (k : Nat) (x : Snap) : (s.setSnap k x).links = s.links := rfl
@[simp] theorem State.setSnap_mbxs (s : State) (k : Nat) (x : Snap) : (s.setSnap k x).mbxs = s.mbxs := rfl
@[simp] theorem State.setSnap_hostMem (s : State) (k : Nat) (x : Snap) : (s.setSnap k x).hostMem = s.hostMem := rfl
@[simp] theorem State.setSnap_holdHit (s : State) (k : Nat) (x : Snap) : (s.setSnap k x).holdHit = s.holdHit := rfl
@[simp] theorem State.setSnap_pins (s : State) (k : Nat) (x : Snap) : (s.setSnap k x).pins = s.pins := rfl
@[simp] theorem State.setSnap_bru (s : State) (k : Nat) (x : Snap) : (s.setSnap k x).bru = s.bru := rfl
@[simp] theorem State.setSnap_sec (s : State) (k : Nat) (x : Snap) : (s.setSnap k x).sec = s.sec := rfl
@[simp] theorem State.setSnap_pwr (s : State) (k : Nat) (x : Snap) : (s.setSnap k x).pwr = s.pwr := rfl

@[simp] theorem State.setTel_tel (s : State) (k : Nat) (x : Tel) : (s.setTel k x).tel k = x := SMap.get_set_self _ _ _ _
theorem State.setTel_tel_ne (s : State) {k j : Nat} (x : Tel) (h : j ≠ k) : (s.setTel k x).tel j = s.tel j :=
  SMap.get_set_ne _ _ _ h
@[simp] theorem State.setTel_pending (s : State) (k : Nat) (x : Tel) : (s.setTel k x).pending = s.pending := rfl
@[simp] theorem State.setTel_regs (s : State) (k : Nat) (x : Tel) : (s.setTel k x).regs = s.regs := rfl
@[simp] theorem State.setTel_mem (s : State) (k : Nat) (x : Tel) : (s.setTel k x).mem = s.mem := rfl
@[simp] theorem State.setTel_cores (s : State) (k : Nat) (x : Tel) : (s.setTel k x).cores = s.cores := rfl
@[simp] theorem State.setTel_clusters (s : State) (k : Nat) (x : Tel) : (s.setTel k x).clusters = s.clusters := rfl
@[simp] theorem State.setTel_beacons (s : State) (k : Nat) (x : Tel) : (s.setTel k x).beacons = s.beacons := rfl
@[simp] theorem State.setTel_signals (s : State) (k : Nat) (x : Tel) : (s.setTel k x).signals = s.signals := rfl
@[simp] theorem State.setTel_outs (s : State) (k : Nat) (x : Tel) : (s.setTel k x).outs = s.outs := rfl
@[simp] theorem State.setTel_freeCtr (s : State) (k : Nat) (x : Tel) : (s.setTel k x).freeCtr = s.freeCtr := rfl
@[simp] theorem State.setTel_parts (s : State) (k : Nat) (x : Tel) : (s.setTel k x).parts = s.parts := rfl
@[simp] theorem State.setTel_links (s : State) (k : Nat) (x : Tel) : (s.setTel k x).links = s.links := rfl
@[simp] theorem State.setTel_mbxs (s : State) (k : Nat) (x : Tel) : (s.setTel k x).mbxs = s.mbxs := rfl
@[simp] theorem State.setTel_hostMem (s : State) (k : Nat) (x : Tel) : (s.setTel k x).hostMem = s.hostMem := rfl
@[simp] theorem State.setTel_holdHit (s : State) (k : Nat) (x : Tel) : (s.setTel k x).holdHit = s.holdHit := rfl
@[simp] theorem State.setTel_pins (s : State) (k : Nat) (x : Tel) : (s.setTel k x).pins = s.pins := rfl
@[simp] theorem State.setTel_bru (s : State) (k : Nat) (x : Tel) : (s.setTel k x).bru = s.bru := rfl
@[simp] theorem State.setTel_sec (s : State) (k : Nat) (x : Tel) : (s.setTel k x).sec = s.sec := rfl
@[simp] theorem State.setTel_pwr (s : State) (k : Nat) (x : Tel) : (s.setTel k x).pwr = s.pwr := rfl

@[simp] theorem State.setClockOf_clockOf (s : State) (k : Nat) (x : BitVec 48) : (s.setClockOf k x).clockOf k = x := SMap.get_set_self _ _ _ _
theorem State.setClockOf_clockOf_ne (s : State) {k j : Nat} (x : BitVec 48) (h : j ≠ k) : (s.setClockOf k x).clockOf j = s.clockOf j :=
  SMap.get_set_ne _ _ _ h
@[simp] theorem State.setClockOf_pending (s : State) (k : Nat) (x : BitVec 48) : (s.setClockOf k x).pending = s.pending := rfl
@[simp] theorem State.setClockOf_regs (s : State) (k : Nat) (x : BitVec 48) : (s.setClockOf k x).regs = s.regs := rfl
@[simp] theorem State.setClockOf_mem (s : State) (k : Nat) (x : BitVec 48) : (s.setClockOf k x).mem = s.mem := rfl
@[simp] theorem State.setClockOf_cores (s : State) (k : Nat) (x : BitVec 48) : (s.setClockOf k x).cores = s.cores := rfl
@[simp] theorem State.setClockOf_clusters (s : State) (k : Nat) (x : BitVec 48) : (s.setClockOf k x).clusters = s.clusters := rfl
@[simp] theorem State.setClockOf_beacons (s : State) (k : Nat) (x : BitVec 48) : (s.setClockOf k x).beacons = s.beacons := rfl
@[simp] theorem State.setClockOf_signals (s : State) (k : Nat) (x : BitVec 48) : (s.setClockOf k x).signals = s.signals := rfl
@[simp] theorem State.setClockOf_outs (s : State) (k : Nat) (x : BitVec 48) : (s.setClockOf k x).outs = s.outs := rfl
@[simp] theorem State.setClockOf_freeCtr (s : State) (k : Nat) (x : BitVec 48) : (s.setClockOf k x).freeCtr = s.freeCtr := rfl
@[simp] theorem State.setClockOf_parts (s : State) (k : Nat) (x : BitVec 48) : (s.setClockOf k x).parts = s.parts := rfl
@[simp] theorem State.setClockOf_links (s : State) (k : Nat) (x : BitVec 48) : (s.setClockOf k x).links = s.links := rfl
@[simp] theorem State.setClockOf_mbxs (s : State) (k : Nat) (x : BitVec 48) : (s.setClockOf k x).mbxs = s.mbxs := rfl
@[simp] theorem State.setClockOf_hostMem (s : State) (k : Nat) (x : BitVec 48) : (s.setClockOf k x).hostMem = s.hostMem := rfl
@[simp] theorem State.setClockOf_holdHit (s : State) (k : Nat) (x : BitVec 48) : (s.setClockOf k x).holdHit = s.holdHit := rfl
@[simp] theorem State.setClockOf_pins (s : State) (k : Nat) (x : BitVec 48) : (s.setClockOf k x).pins = s.pins := rfl
@[simp] theorem State.setClockOf_bru (s : State) (k : Nat) (x : BitVec 48) : (s.setClockOf k x).bru = s.bru := rfl
@[simp] theorem State.setClockOf_sec (s : State) (k : Nat) (x : BitVec 48) : (s.setClockOf k x).sec = s.sec := rfl
@[simp] theorem State.setClockOf_pwr (s : State) (k : Nat) (x : BitVec 48) : (s.setClockOf k x).pwr = s.pwr := rfl

@[simp] theorem State.modFilledRegion_eq (s : State) (k : Nat) (f : Bool → Bool) : s.modFilledRegion k f = s.setFilledRegion k (f (s.filledRegion k)) := rfl
@[simp] theorem State.modChkOf_eq (s : State) (k : Nat) (f : BitVec 64 → BitVec 64) : s.modChkOf k f = s.setChkOf k (f (s.chkOf k)) := rfl
@[simp] theorem State.modRawLine_eq (s : State) (k : Nat) (f : Option (BitVec 512) → Option (BitVec 512)) : s.modRawLine k f = s.setRawLine k (f (s.rawLine k)) := rfl
@[simp] theorem State.modT2key_eq (s : State) (k : Nat) (f : BitVec 256 → BitVec 256) : s.modT2key k f = s.setT2key k (f (s.t2key k)) := rfl
@[simp] theorem State.modCore_eq (s : State) (k : Nat) (f : Core → Core) : s.modCore k f = s.setCore k (f (s.core k)) := rfl
@[simp] theorem State.modCluster_eq (s : State) (k : Nat) (f : Cluster → Cluster) : s.modCluster k f = s.setCluster k (f (s.cluster k)) := rfl
@[simp] theorem State.modBeacon_eq (s : State) (k : Nat) (f : BitVec 32 → BitVec 32) : s.modBeacon k f = s.setBeacon k (f (s.beacon k)) := rfl
@[simp] theorem State.modHubSum_eq (s : State) (k : Nat) (f : BitVec 32 → BitVec 32) : s.modHubSum k f = s.setHubSum k (f (s.hubSum k)) := rfl
@[simp] theorem State.modDisOf_eq (s : State) (k : Nat) (f : Dis → Dis) : s.modDisOf k f = s.setDisOf k (f (s.disOf k)) := rfl
@[simp] theorem State.modMovRing_eq (s : State) (k : Nat) (f : Ring → Ring) : s.modMovRing k f = s.setMovRing k (f (s.movRing k)) := rfl
@[simp] theorem State.modPfxRing_eq (s : State) (k : Nat) (f : Ring → Ring) : s.modPfxRing k f = s.setPfxRing k (f (s.pfxRing k)) := rfl
@[simp] theorem State.modFilterOf_eq (s : State) (k : Nat) (f : Filter → Filter) : s.modFilterOf k f = s.setFilterOf k (f (s.filterOf k)) := rfl
@[simp] theorem State.modPatrol_eq (s : State) (k : Nat) (f : Patrol → Patrol) : s.modPatrol k f = s.setPatrol k (f (s.patrol k)) := rfl
@[simp] theorem State.modSramPosOf_eq (s : State) (k : Nat) (f : Nat → Nat) : s.modSramPosOf k f = s.setSramPosOf k (f (s.sramPosOf k)) := rfl
@[simp] theorem State.modPart_eq (s : State) (k : Nat) (f : Part → Part) : s.modPart k f = s.setPart k (f (s.part k)) := rfl
@[simp] theorem State.modSlice_eq (s : State) (k : Nat) (f : Option Slice → Option Slice) : s.modSlice k f = s.setSlice k (f (s.slice k)) := rfl
@[simp] theorem State.modLink_eq (s : State) (k : Nat) (f : Link → Link) : s.modLink k f = s.setLink k (f (s.link k)) := rfl
@[simp] theorem State.modJobq_eq (s : State) (k : Nat) (f : Option JobQ → Option JobQ) : s.modJobq k f = s.setJobq k (f (s.jobq k)) := rfl
@[simp] theorem State.modClsOf_eq (s : State) (k : Nat) (f : Cls → Cls) : s.modClsOf k f = s.setClsOf k (f (s.clsOf k)) := rfl
@[simp] theorem State.modPort_eq (s : State) (k : Nat) (f : Port → Port) : s.modPort k f = s.setPort k (f (s.port k)) := rfl
@[simp] theorem State.modLane_eq (s : State) (k : Nat) (f : Lane → Lane) : s.modLane k f = s.setLane k (f (s.lane k)) := rfl
@[simp] theorem State.modNode_eq (s : State) (k : Nat) (f : Node → Node) : s.modNode k f = s.setNode k (f (s.node k)) := rfl
@[simp] theorem State.modNicqp_eq (s : State) (k : Nat) (f : Option NicQp → Option NicQp) : s.modNicqp k f = s.setNicqp k (f (s.nicqp k)) := rfl
@[simp] theorem State.modSa_eq (s : State) (k : Nat) (f : Option Sa → Option Sa) : s.modSa k f = s.setSa k (f (s.sa k)) := rfl
@[simp] theorem State.modConn_eq (s : State) (k : Nat) (f : Conn → Conn) : s.modConn k f = s.setConn k (f (s.conn k)) := rfl
@[simp] theorem State.modSkey_eq (s : State) (k : Nat) (f : Option SpaceKey → Option SpaceKey) : s.modSkey k f = s.setSkey k (f (s.skey k)) := rfl
@[simp] theorem State.modNvme_eq (s : State) (k : Nat) (f : Nvme → Nvme) : s.modNvme k f = s.setNvme k (f (s.nvme k)) := rfl
@[simp] theorem State.modNs_eq (s : State) (k : Nat) (f : Option Ns → Option Ns) : s.modNs k f = s.setNs k (f (s.ns k)) := rfl
@[simp] theorem State.modSlot_eq (s : State) (k : Nat) (f : Slot → Slot) : s.modSlot k f = s.setSlot k (f (s.slot k)) := rfl
@[simp] theorem State.modKey_eq (s : State) (k : Nat) (f : Option KeySlot → Option KeySlot) : s.modKey k f = s.setKey k (f (s.key k)) := rfl
@[simp] theorem State.modCphOf_eq (s : State) (k : Nat) (f : Cph → Cph) : s.modCphOf k f = s.setCphOf k (f (s.cphOf k)) := rfl
@[simp] theorem State.modMbx_eq (s : State) (k : Nat) (f : Mbx → Mbx) : s.modMbx k f = s.setMbx k (f (s.mbx k)) := rfl
@[simp] theorem State.modFwp_eq (s : State) (k : Nat) (f : Fwp → Fwp) : s.modFwp k f = s.setFwp k (f (s.fwp k)) := rfl
@[simp] theorem State.modFwslot_eq (s : State) (k : Nat) (f : FwSlot → FwSlot) : s.modFwslot k f = s.setFwslot k (f (s.fwslot k)) := rfl
@[simp] theorem State.modJournalAt_eq (s : State) (k : Nat) (f : BitVec 16 → BitVec 16) : s.modJournalAt k f = s.setJournalAt k (f (s.journalAt k)) := rfl
@[simp] theorem State.modLossOf_eq (s : State) (k : Nat) (f : LossState → LossState) : s.modLossOf k f = s.setLossOf k (f (s.lossOf k)) := rfl
@[simp] theorem State.modSnap_eq (s : State) (k : Nat) (f : Snap → Snap) : s.modSnap k f = s.setSnap k (f (s.snap k)) := rfl
@[simp] theorem State.modTel_eq (s : State) (k : Nat) (f : Tel → Tel) : s.modTel k f = s.setTel k (f (s.tel k)) := rfl
@[simp] theorem State.modClockOf_eq (s : State) (k : Nat) (f : BitVec 48 → BitVec 48) : s.modClockOf k f = s.setClockOf k (f (s.clockOf k)) := rfl
@[simp] theorem State.setReg_pending (s : State) (a : Nat) (v : BitVec 32) : (s.setReg a v).pending = s.pending := rfl
@[simp] theorem State.setReg_mem (s : State) (a : Nat) (v : BitVec 32) : (s.setReg a v).mem = s.mem := rfl
@[simp] theorem State.setReg_cores (s : State) (a : Nat) (v : BitVec 32) : (s.setReg a v).cores = s.cores := rfl
@[simp] theorem State.setReg_clusters (s : State) (a : Nat) (v : BitVec 32) : (s.setReg a v).clusters = s.clusters := rfl
@[simp] theorem State.setReg_beacons (s : State) (a : Nat) (v : BitVec 32) : (s.setReg a v).beacons = s.beacons := rfl
@[simp] theorem State.setReg_signals (s : State) (a : Nat) (v : BitVec 32) : (s.setReg a v).signals = s.signals := rfl
@[simp] theorem State.setReg_outs (s : State) (a : Nat) (v : BitVec 32) : (s.setReg a v).outs = s.outs := rfl
@[simp] theorem State.setReg_freeCtr (s : State) (a : Nat) (v : BitVec 32) : (s.setReg a v).freeCtr = s.freeCtr := rfl
@[simp] theorem State.setReg_parts (s : State) (a : Nat) (v : BitVec 32) : (s.setReg a v).parts = s.parts := rfl
@[simp] theorem State.setReg_links (s : State) (a : Nat) (v : BitVec 32) : (s.setReg a v).links = s.links := rfl
@[simp] theorem State.setReg_mbxs (s : State) (a : Nat) (v : BitVec 32) : (s.setReg a v).mbxs = s.mbxs := rfl
@[simp] theorem State.setReg_hostMem (s : State) (a : Nat) (v : BitVec 32) : (s.setReg a v).hostMem = s.hostMem := rfl
@[simp] theorem State.setReg_holdHit (s : State) (a : Nat) (v : BitVec 32) : (s.setReg a v).holdHit = s.holdHit := rfl
@[simp] theorem State.setReg_pins (s : State) (a : Nat) (v : BitVec 32) : (s.setReg a v).pins = s.pins := rfl
@[simp] theorem State.setReg_bru (s : State) (a : Nat) (v : BitVec 32) : (s.setReg a v).bru = s.bru := rfl
@[simp] theorem State.setReg_sec (s : State) (a : Nat) (v : BitVec 32) : (s.setReg a v).sec = s.sec := rfl
@[simp] theorem State.setReg_pwr (s : State) (a : Nat) (v : BitVec 32) : (s.setReg a v).pwr = s.pwr := rfl
@[simp] theorem State.out_pending (s : State) (o : Out) : (s.out o).pending = s.pending := rfl
@[simp] theorem State.out_mem (s : State) (o : Out) : (s.out o).mem = s.mem := rfl
@[simp] theorem State.out_cores (s : State) (o : Out) : (s.out o).cores = s.cores := rfl
@[simp] theorem State.out_clusters (s : State) (o : Out) : (s.out o).clusters = s.clusters := rfl
@[simp] theorem State.out_beacons (s : State) (o : Out) : (s.out o).beacons = s.beacons := rfl
@[simp] theorem State.out_signals (s : State) (o : Out) : (s.out o).signals = s.signals := rfl
@[simp] theorem State.out_freeCtr (s : State) (o : Out) : (s.out o).freeCtr = s.freeCtr := rfl
@[simp] theorem State.out_parts (s : State) (o : Out) : (s.out o).parts = s.parts := rfl
@[simp] theorem State.out_links (s : State) (o : Out) : (s.out o).links = s.links := rfl
@[simp] theorem State.out_mbxs (s : State) (o : Out) : (s.out o).mbxs = s.mbxs := rfl
@[simp] theorem State.out_hostMem (s : State) (o : Out) : (s.out o).hostMem = s.hostMem := rfl
@[simp] theorem State.out_holdHit (s : State) (o : Out) : (s.out o).holdHit = s.holdHit := rfl
@[simp] theorem State.out_pins (s : State) (o : Out) : (s.out o).pins = s.pins := rfl
@[simp] theorem State.out_bru (s : State) (o : Out) : (s.out o).bru = s.bru := rfl
@[simp] theorem State.out_sec (s : State) (o : Out) : (s.out o).sec = s.sec := rfl
@[simp] theorem State.out_pwr (s : State) (o : Out) : (s.out o).pwr = s.pwr := rfl
@[simp] theorem State.out_regs (s : State) (o : Out) : (s.out o).regs = s.regs := rfl
@[simp] theorem State.draw_pending (s : State) : (s.draw).pending = s.pending := rfl
@[simp] theorem State.draw_mem (s : State) : (s.draw).mem = s.mem := rfl
@[simp] theorem State.draw_cores (s : State) : (s.draw).cores = s.cores := rfl
@[simp] theorem State.draw_clusters (s : State) : (s.draw).clusters = s.clusters := rfl
@[simp] theorem State.draw_beacons (s : State) : (s.draw).beacons = s.beacons := rfl
@[simp] theorem State.draw_signals (s : State) : (s.draw).signals = s.signals := rfl
@[simp] theorem State.draw_outs (s : State) : (s.draw).outs = s.outs := rfl
@[simp] theorem State.draw_parts (s : State) : (s.draw).parts = s.parts := rfl
@[simp] theorem State.draw_links (s : State) : (s.draw).links = s.links := rfl
@[simp] theorem State.draw_mbxs (s : State) : (s.draw).mbxs = s.mbxs := rfl
@[simp] theorem State.draw_hostMem (s : State) : (s.draw).hostMem = s.hostMem := rfl
@[simp] theorem State.draw_holdHit (s : State) : (s.draw).holdHit = s.holdHit := rfl
@[simp] theorem State.draw_pins (s : State) : (s.draw).pins = s.pins := rfl
@[simp] theorem State.draw_bru (s : State) : (s.draw).bru = s.bru := rfl
@[simp] theorem State.draw_sec (s : State) : (s.draw).sec = s.sec := rfl
@[simp] theorem State.draw_pwr (s : State) : (s.draw).pwr = s.pwr := rfl
@[simp] theorem State.draw_regs (s : State) : (s.draw).regs = s.regs := rfl
@[simp] theorem State.setByte_pending (s : State) (a : Nat) (b : BitVec 8) : (s.setByte a b).pending = s.pending := rfl
@[simp] theorem State.setByte_cores (s : State) (a : Nat) (b : BitVec 8) : (s.setByte a b).cores = s.cores := rfl
@[simp] theorem State.setByte_clusters (s : State) (a : Nat) (b : BitVec 8) : (s.setByte a b).clusters = s.clusters := rfl
@[simp] theorem State.setByte_beacons (s : State) (a : Nat) (b : BitVec 8) : (s.setByte a b).beacons = s.beacons := rfl
@[simp] theorem State.setByte_signals (s : State) (a : Nat) (b : BitVec 8) : (s.setByte a b).signals = s.signals := rfl
@[simp] theorem State.setByte_outs (s : State) (a : Nat) (b : BitVec 8) : (s.setByte a b).outs = s.outs := rfl
@[simp] theorem State.setByte_freeCtr (s : State) (a : Nat) (b : BitVec 8) : (s.setByte a b).freeCtr = s.freeCtr := rfl
@[simp] theorem State.setByte_parts (s : State) (a : Nat) (b : BitVec 8) : (s.setByte a b).parts = s.parts := rfl
@[simp] theorem State.setByte_links (s : State) (a : Nat) (b : BitVec 8) : (s.setByte a b).links = s.links := rfl
@[simp] theorem State.setByte_mbxs (s : State) (a : Nat) (b : BitVec 8) : (s.setByte a b).mbxs = s.mbxs := rfl
@[simp] theorem State.setByte_hostMem (s : State) (a : Nat) (b : BitVec 8) : (s.setByte a b).hostMem = s.hostMem := rfl
@[simp] theorem State.setByte_holdHit (s : State) (a : Nat) (b : BitVec 8) : (s.setByte a b).holdHit = s.holdHit := rfl
@[simp] theorem State.setByte_pins (s : State) (a : Nat) (b : BitVec 8) : (s.setByte a b).pins = s.pins := rfl
@[simp] theorem State.setByte_bru (s : State) (a : Nat) (b : BitVec 8) : (s.setByte a b).bru = s.bru := rfl
@[simp] theorem State.setByte_sec (s : State) (a : Nat) (b : BitVec 8) : (s.setByte a b).sec = s.sec := rfl
@[simp] theorem State.setByte_pwr (s : State) (a : Nat) (b : BitVec 8) : (s.setByte a b).pwr = s.pwr := rfl
@[simp] theorem State.setByte_regs (s : State) (a : Nat) (b : BitVec 8) : (s.setByte a b).regs = s.regs := rfl
@[simp] theorem State.wr_pending (s : State) (f : Fld) (v : Nat) : (s.wr f v).pending = s.pending := rfl
@[simp] theorem State.wr_mem (s : State) (f : Fld) (v : Nat) : (s.wr f v).mem = s.mem := rfl
@[simp] theorem State.wr_cores (s : State) (f : Fld) (v : Nat) : (s.wr f v).cores = s.cores := rfl
@[simp] theorem State.wr_clusters (s : State) (f : Fld) (v : Nat) : (s.wr f v).clusters = s.clusters := rfl
@[simp] theorem State.wr_beacons (s : State) (f : Fld) (v : Nat) : (s.wr f v).beacons = s.beacons := rfl
@[simp] theorem State.wr_signals (s : State) (f : Fld) (v : Nat) : (s.wr f v).signals = s.signals := rfl
@[simp] theorem State.wr_outs (s : State) (f : Fld) (v : Nat) : (s.wr f v).outs = s.outs := rfl
@[simp] theorem State.wr_freeCtr (s : State) (f : Fld) (v : Nat) : (s.wr f v).freeCtr = s.freeCtr := rfl
@[simp] theorem State.wr_parts (s : State) (f : Fld) (v : Nat) : (s.wr f v).parts = s.parts := rfl
@[simp] theorem State.wr_links (s : State) (f : Fld) (v : Nat) : (s.wr f v).links = s.links := rfl
@[simp] theorem State.wr_mbxs (s : State) (f : Fld) (v : Nat) : (s.wr f v).mbxs = s.mbxs := rfl
@[simp] theorem State.wr_hostMem (s : State) (f : Fld) (v : Nat) : (s.wr f v).hostMem = s.hostMem := rfl
@[simp] theorem State.wr_holdHit (s : State) (f : Fld) (v : Nat) : (s.wr f v).holdHit = s.holdHit := rfl
@[simp] theorem State.wr_pins (s : State) (f : Fld) (v : Nat) : (s.wr f v).pins = s.pins := rfl
@[simp] theorem State.wr_bru (s : State) (f : Fld) (v : Nat) : (s.wr f v).bru = s.bru := rfl
@[simp] theorem State.wr_sec (s : State) (f : Fld) (v : Nat) : (s.wr f v).sec = s.sec := rfl
@[simp] theorem State.wr_pwr (s : State) (f : Fld) (v : Nat) : (s.wr f v).pwr = s.pwr := rfl

end Sys2Proof.Machine
end

