-- ==== Sys2Proof/Laws/Ops.lean ====
section
/-! SUPPORT. What the shared operations over registers, bytes and landings do, said once. -/
namespace Sys2Proof.Machine
open Sys2Proof

/-! ## Registers -/

@[simp] theorem State.setReg_reg (s : State) (a : Nat) (v : BitVec 32) : (s.setReg a v).reg a = v := SMap.get_set_self _ _ _ _

theorem State.setReg_reg_ne (s : State) {a b : Nat} (v : BitVec 32) (h : b ≠ a) : (s.setReg a v).reg b = s.reg b :=
  SMap.get_set_ne _ _ _ h

/-- Another register reads as before a field is written. -/
theorem State.wr_reg_ne (s : State) {f : Fld} {b : Nat} (v : Nat) (h : b ≠ f.addr) : (s.wr f v).reg b = s.reg b :=
  s.setReg_reg_ne _ h

theorem State.wr_rd_ne (s : State) {f g : Fld} (v : Nat) (h : g.addr ≠ f.addr) : (s.wr f v).rd g = s.rd g := by
  unfold State.rd; rw [s.wr_reg_ne v h]

/-- The bits of a word after one of its fields is replaced. -/
theorem putBits_getLsbD (x : BitVec 32) (lo len v i : Nat) (hi : i < 32) :
    (putBits x lo len v).getLsbD i = if lo ≤ i ∧ i < lo + len then v.testBit (i - lo) else x.getLsbD i := by
  have hm : ((2 ^ len - 1) * 2 ^ lo).testBit i = decide (lo ≤ i ∧ i < lo + len) := by
    rw [Nat.testBit_mul_two_pow, Nat.testBit_two_pow_sub_one]
    by_cases h : lo ≤ i
    · simp only [h, decide_true, Bool.true_and, true_and, decide_eq_decide]; omega
    · simp [h]
  simp only [putBits, BitVec.getLsbD_or, BitVec.getLsbD_and, BitVec.getLsbD_not, BitVec.getLsbD_ofNat, hm,
    Nat.testBit_mul_two_pow, hi, decide_true, Bool.true_and]
  by_cases h : lo ≤ i ∧ i < lo + len
  · simp [h]
  · simp [h]

/-- A field reads what was written to it, within its width. -/
theorem State.wr_rd (s : State) (f : Fld) (v : Nat) (h : f.lo + f.len ≤ 32) : (s.wr f v).rd f = v % 2 ^ f.len := by
  unfold State.rd State.wr
  rw [State.setReg_reg]
  apply Nat.eq_of_testBit_eq
  intro i
  rw [natBits, Nat.testBit_mod_two_pow, Nat.testBit_mod_two_pow, Nat.testBit_shiftRight]
  by_cases hi : i < f.len
  · have := putBits_getLsbD (s.reg f.addr) f.lo f.len v (f.lo + i) (by omega)
    rw [BitVec.getLsbD] at this
    simp only [hi, decide_true, Bool.true_and]
    rw [this]
    simp [hi]
  · simp [hi]

/-- Two fields of one register that share no bit: writing one leaves the other. -/
theorem State.wr_rd_disjoint (s : State) (f g : Fld) (v : Nat) (hg : g.lo + g.len ≤ 32)
    (h : g.lo + g.len ≤ f.lo ∨ f.lo + f.len ≤ g.lo) : (s.wr f v).rd g = s.rd g := by
  by_cases e : g.addr = f.addr
  · unfold State.rd State.wr
    rw [e, State.setReg_reg]
    apply Nat.eq_of_testBit_eq
    intro i
    rw [natBits, natBits, Nat.testBit_mod_two_pow, Nat.testBit_mod_two_pow, Nat.testBit_shiftRight, Nat.testBit_shiftRight]
    by_cases hi : i < g.len
    · have := putBits_getLsbD (s.reg f.addr) f.lo f.len v (g.lo + i) (by omega)
      rw [BitVec.getLsbD, BitVec.getLsbD] at this
      simp only [hi, decide_true, Bool.true_and]
      rw [this, if_neg (by omega)]
    · simp [hi]
  · exact s.wr_rd_ne v e

/-! ## Bytes -/

@[simp] theorem State.setByte_byteAt (s : State) (k : Nat) (b : BitVec 8) : (s.setByte k b).byteAt k = b :=
  SMap.get_set_self _ _ _ _

theorem State.setByte_byteAt_ne (s : State) {k j : Nat} (b : BitVec 8) (h : j ≠ k) : (s.setByte k b).byteAt j = s.byteAt j :=
  SMap.get_set_ne _ _ _ h

/-- Bytes put from k on read back, and every byte outside them reads as before. -/
theorem State.putBytes_byteAt (s : State) (k : Nat) (bs : Bytes) (j : Nat) :
    (s.putBytes k bs).byteAt j = if h : k ≤ j ∧ j < k + bs.length then bs[j - k]'(by omega) else s.byteAt j := by
  induction bs generalizing s k with
  | nil => simp only [State.putBytes, List.length_nil]; split
           · omega
           · rfl
  | cons b bs ih =>
    rw [State.putBytes, ih]
    by_cases h1 : k + 1 ≤ j ∧ j < k + 1 + bs.length
    · have h2 : k ≤ j ∧ j < k + (b :: bs).length := by simp only [List.length_cons]; omega
      rw [dif_pos h1, dif_pos h2]
      have : j - k = j - (k + 1) + 1 := by omega
      simp only [this, List.getElem_cons_succ]
    · rw [dif_neg h1]
      by_cases e : j = k
      · subst e
        have h2 : j ≤ j ∧ j < j + (b :: bs).length := by simp
        rw [dif_pos h2]; simp
      · rw [State.setByte_byteAt_ne _ _ e, dif_neg]
        simp only [List.length_cons]; omega

/-! ## Writes at their homes -/

/-- The units of a range that lies within one unit. -/
theorem unitsOf_one {k n : Nat} (h0 : 0 < n) (h : k % unitSize k + n ≤ unitSize k) : unitsOf k n = [unitOf k] := by
  have hz : 0 < unitSize k := by unfold unitSize; split <;> omega
  have h1 : (k + n - 1) / unitSize k = k / unitSize k := by
    have e := Nat.div_add_mod k (unitSize k)
    rw [show k + n - 1 = (k % unitSize k + n - 1) + unitSize k * (k / unitSize k) by omega, Nat.add_mul_div_left _ _ hz,
      Nat.div_eq_of_lt (by omega)]
    omega
  unfold unitsOf unitOf
  rw [if_neg (by omega)]
  simp [h1]

theorem unitSize_unitOf_dmem {k : Nat} (h : 2 ^ 48 ≤ k) : unitSize (unitOf k) = 8 ∧ unitSize k = 8 := by
  have h1 : unitSize k = 8 := by unfold unitSize; rw [if_neg]; unfold t2Base t2Size; omega
  refine ⟨?_, h1⟩
  unfold unitOf
  rw [h1]
  unfold unitSize; rw [if_neg]; unfold t2Base t2Size; omega

/-- A write of part of one 8-byte unit of a core's memory: its bytes in a clean unit, nothing in a unit that holds the poison
word (R268). -/
theorem State.writeHome_part (s : State) {k : Nat} {bs : Bytes} (hk : 2 ^ 48 ≤ k) (h0 : 0 < bs.length) (h8 : bs.length < 8)
    (h : k % 8 + bs.length ≤ 8) :
    s.writeHome k bs false = if s.isClean (unitOf k) then (s.putBytes k bs).clearChk (unitOf k) else s := by
  have hz := (unitSize_unitOf_dmem hk).2
  have hun : unitOf k = k / 8 * 8 := by unfold unitOf; rw [hz]
  have ho : overlap (unitOf k) 8 k bs = (k, bs) := by
    unfold overlap
    have e1 : max (unitOf k) k = k := by omega
    have e2 : min (unitOf k + 8) (k + bs.length) = k + bs.length := by omega
    simp only [e1, e2, Nat.sub_self, List.drop_zero, Nat.add_sub_cancel_left, List.take_length]
  unfold State.writeHome
  rw [unitsOf_one h0 (by rw [hz]; omega)]
  simp only [List.foldl_cons, List.foldl_nil, hz, ho, Bool.false_eq_true, if_false]
  rw [if_neg (by omega)]

theorem State.clearChk_byteAt (s : State) (u j : Nat) : (s.clearChk u).byteAt j = s.byteAt j := by
  unfold State.clearChk; dsimp only; split <;> rfl

theorem State.clearChk_isClean (s : State) (u j : Nat) : (s.clearChk u).isClean j = s.isClean j := by
  unfold State.clearChk; dsimp only; split <;> rfl

/-! ## Landing -/

/-- With nothing pending, nothing lands. -/
theorem State.landDue_nil (s : State) (p t : Nat) (h : (s.core p).pend = []) :
    s.landDue p t = s.setCore p { s.core p with pend := [] } := by
  simp [State.landDue, h]

theorem State.landAll_nil (s : State) (p : Nat) (h : (s.core p).pend = []) : s.landAll p = s := by
  simp [State.landAll, h]

end Sys2Proof.Machine
end

