-- ==== Sys2Proof/Laws/Sequencer.lean ====
section
/-! SUPPORT. A bundle of one syllable on a core that is ready: when it traps, when it waits, and what it leaves. -/
namespace Sys2Proof.Machine
open Sys2Proof

/-! ## What no syllable changes -/

theorem State.foldl_regs {α : Type} (l : List α) (f : State → α → State) (s : State) (h : ∀ s x, (f s x).regs = s.regs) :
    (l.foldl f s).regs = s.regs := by
  induction l generalizing s with
  | nil => rfl
  | cons x l ih => rw [List.foldl_cons, ih, h]

theorem State.putBytes_regs (s : State) (k : Nat) (bs : Bytes) : (s.putBytes k bs).regs = s.regs := by
  induction bs generalizing s k with
  | nil => rfl
  | cons b bs ih => rw [State.putBytes, ih]; rfl

theorem State.clearChk_regs (s : State) (u : Nat) : (s.clearChk u).regs = s.regs := by
  unfold State.clearChk; dsimp only; split <;> rfl

theorem State.unfilter_regs (s : State) (u : Nat) : (s.unfilter u).regs = s.regs := by
  unfold State.unfilter; dsimp only; split <;> rfl

theorem State.freshUnit_regs (s : State) (u : Nat) : (s.freshUnit u).regs = s.regs := by
  unfold State.freshUnit; rw [State.unfilter_regs, State.clearChk_regs]

theorem State.poisonUnit_regs (s : State) (u : Nat) : (s.poisonUnit u).regs = s.regs := State.putBytes_regs _ _ _

theorem State.writeHome_regs (s : State) (k : Nat) (bs : Bytes) (mark : Bool) : (s.writeHome k bs mark).regs = s.regs := by
  refine State.foldl_regs _ _ _ fun s u => ?_
  dsimp only
  split
  · rw [State.freshUnit_regs, State.poisonUnit_regs]
  · split
    · rw [State.freshUnit_regs]; exact State.putBytes_regs _ _ _
    · split
      · rw [State.clearChk_regs, State.putBytes_regs]
      · rfl

theorem State.dmemWrite_regs (s : State) (p off : Nat) (bs : Bytes) (mark : Bool) : (s.dmemWrite p off bs mark).regs = s.regs :=
  State.writeHome_regs _ _ _ _

theorem State.fireWatches_regs (s : State) (id : Nat) : (s.fireWatches id).regs = s.regs := by
  unfold State.fireWatches
  dsimp only
  split
  · exact State.foldl_regs _ _ _ fun _ _ => rfl
  · exact State.foldl_regs _ _ _ fun _ _ => rfl

theorem State.beaconSet_regs (s : State) (id : Nat) (v : BitVec 32) : (s.beaconSet id v).regs = s.regs := State.fireWatches_regs _ _

theorem State.sigCluster_regs (s : State) (gc id : Nat) (n : BitVec 32) : (s.sigCluster gc id n).regs = s.regs := by
  unfold State.sigCluster; split <;> rfl

theorem State.xstop_regs (s : State) (gc slot ch : Nat) : (s.xstop gc slot ch).regs = s.regs := by
  unfold State.xstop
  dsimp only
  split
  · rfl
  · split
    · rfl
    · split <;> rfl

theorem State.applyV_regs (s : State) (p t : Nat) (o : VOut) : (s.applyV p t o).regs = s.regs :=
  State.foldl_regs _ _ _ fun _ _ => State.dmemWrite_regs _ _ _ _ _

/-- No syllable writes a register of BAR0 as it acts. -/
theorem State.act_regs (s0 : State) (gc slot : Nat) (c : Core) (a n : Nat) (y : Syl) (s : State) :
    (s0.act gc slot c a n y s).regs = s.regs := by
  cases y <;> first
    | rfl
    | exact State.dmemWrite_regs _ _ _ _ _
    | exact State.beaconSet_regs _ _ _
    | exact State.sigCluster_regs _ _ _ _
    | exact State.xstop_regs _ _ _ _
    | exact State.applyV_regs _ _ _ _

/-! ## Presenting -/

/-- A syllable alone in its bundle, without a trap and with its wait met, issues. -/
theorem State.present_issue {gc : Fin 160} {slot : Fin 18} {y : Syl} {s : State} (h : Ready gc slot s)
    (ht : NoTrap gc slot y s) (hw : ∀ w, (s.core (slotKey gc slot)).waitOf gc y = some w → reaches (s.beacon w.1) w.2 = true) :
    State.present gc slot true y s = .next (s.issue gc slot [y]) := by
  obtain ⟨h1, h2, h3, h4, h5, h6, h7, h8, h9⟩ := h
  simp only [State.present, h1, Bool.not_true, Bool.false_eq_true, if_false, if_true, h2, List.nil_append]
  simp only [State.presentBundle, List.length_singleton, List.range_one, List.zip_cons_cons, List.zip_nil_right,
    List.map_cons, List.map_nil, Nat.add_zero, h5, if_true, List.findSome?_cons, List.findSome?_nil]
  unfold NoTrap at ht
  cases hv : (s.core (slotKey gc slot)).waitOf gc y with
  | none => simp [ht, h9]
  | some w => simp [ht, hw w hv, h9]

/-- A syllable that waits holds its core for one clock. -/
theorem State.present_hold {gc : Fin 160} {slot : Fin 18} {y : Syl} {s : State} (h : Ready gc slot s)
    (ht : s.bundleTrap gc slot (s.core (slotKey gc slot)) false [] [y] = none) (w : Nat × BitVec 32)
    (hv : (s.core (slotKey gc slot)).waitOf gc y = some w) (hw : reaches (s.beacon w.1) w.2 = false) :
    State.present gc slot true y s = .next (s.holdClock (slotKey gc slot)) := by
  obtain ⟨h1, h2, h3, h4, h5, h6, h7, h8, h9⟩ := h
  simp only [State.present, h1, Bool.not_true, Bool.false_eq_true, if_false, if_true, h2, List.nil_append]
  simp only [State.presentBundle, List.length_singleton, List.range_one, List.zip_cons_cons, List.zip_nil_right,
    List.map_cons, List.map_nil, Nat.add_zero, h5, if_true, List.findSome?_cons, List.findSome?_nil]
  simp [hv, hw, ht, h9]

/-- A bundle that traps. -/
theorem State.present_trap {gc : Fin 160} {slot : Fin 18} {y : Syl} {s : State} (h : Ready gc slot s)
    (cause : BitVec 4) (unit : BitVec 3) (hw : (s.core (slotKey gc slot)).waitOf gc y = none)
    (ht : s.bundleTrap gc slot (s.core (slotKey gc slot)) true [] [y] = some (cause, unit)) :
    State.present gc slot true y s =
      .next (s.takeTrap (slotKey gc slot) cause (s.core (slotKey gc slot)).pc unit false) := by
  obtain ⟨h1, h2, h3, h4, h5, h6, h7, h8, h9⟩ := h
  simp only [State.present, h1, Bool.not_true, Bool.false_eq_true, if_false, if_true, h2, List.nil_append]
  simp only [State.presentBundle, List.length_singleton, List.range_one, List.zip_cons_cons, List.zip_nil_right,
    List.map_cons, List.map_nil, Nat.add_zero, h5, if_true, List.findSome?_cons, List.findSome?_nil]
  simp [hw, ht, h9]

/-! ## Issue -/

/-- The core on which a syllable alone in its bundle acts. -/
def State.movedCore (s : State) (p : Nat) (y : Syl) : Core :=
  (s.setCore p { s.core p with pend := [] }).goOn p (s.core p) 1 [y] { s.core p with pend := [] }

/-- The state in which a syllable alone in its bundle acts. -/
def State.moved (s : State) (p : Nat) (y : Syl) : State :=
  (s.setCore p { s.core p with pend := [] }).setCore p (s.movedCore p y)

/-- A syllable alone in its bundle, other than HALT: it acts, and the clock advances. -/
theorem State.issue_one {gc : Fin 160} {slot : Fin 18} {y : Syl} {s : State} (h : Ready gc slot s) (hh : y ≠ .halt) :
    s.issue gc slot [y] =
      ((s.act gc slot (s.core (slotKey gc slot)) (s.core (slotKey gc slot)).pc.toNat 1 y (s.moved (slotKey gc slot) y)).modCore
        (slotKey gc slot) fun x => { x with clock := (s.core (slotKey gc slot)).clock + 1, bundle := [] }).draw := by
  obtain ⟨h1, h2, h3, h4, h5, h6, h7, h8, h9⟩ := h
  have e : (s.landDue (slotKey gc slot) (s.core (slotKey gc slot)).clock).advance (slotKey gc slot) (s.core (slotKey gc slot)) 1 [y]
      = s.moved (slotKey gc slot) y := by
    rw [State.landDue_nil _ _ _ h3]
    simp [State.advance, State.moved, State.movedCore]
  have hh' : ([y].any fun x => decide (x = .halt)) = false := by simp [hh]
  unfold State.issue
  simp only [List.length_singleton, e, List.range_one, List.zip_cons_cons, List.zip_nil_right, List.foldl_cons, List.foldl_nil,
    Nat.add_zero, hh', Bool.false_eq_true, if_false]
  rw [if_neg]
  intro hc
  apply h6
  rw [← hc.1]
  unfold State.st State.rd State.reg
  simp only [State.draw_regs, State.modCore_eq, State.setCore_regs, State.act_regs, State.moved]

/-- A syllable that is no branch and no loop moves the pc on by one. -/
theorem State.movedCore_plain {gc : Fin 160} {slot : Fin 18} {y : Syl} {s : State} (h : Ready gc slot s)
    (hb : (s.core (slotKey gc slot)).target y = none) (hl : y.loads = none) :
    s.movedCore (slotKey gc slot) y = { s.core (slotKey gc slot) with pc := (s.core (slotKey gc slot)).pc + 1#16 } := by
  obtain ⟨h1, h2, h3, h4, h5, h6, h7, h8, h9⟩ := h
  have hs : ∀ a, (s.core (slotKey gc slot)).skipTo a y = none := by
    intro a; cases y <;> simp_all [Syl.loads, Core.skipTo]
  unfold State.movedCore State.goOn State.loopOn
  simp [hb, h4, hl, h7, h8, hs, List.range_one]
  rw [← h3]

/-- A syllable whose branch is taken. -/
theorem State.movedCore_branch {gc : Fin 160} {slot : Fin 18} {y : Syl} {s : State} {t : BitVec 16} (h : Ready gc slot s)
    (hb : (s.core (slotKey gc slot)).target y = some t) :
    s.movedCore (slotKey gc slot) y =
      { s.core (slotKey gc slot) with pc := (s.core (slotKey gc slot)).pc + 1#16, branch := some (t, 2) } := by
  obtain ⟨h1, h2, h3, h4, h5, h6, h7, h8, h9⟩ := h
  unfold State.movedCore State.goOn
  simp [hb]
  rw [← h3]

/-- Only the core changes when it is set. -/
theorem OnlyCore.setCore {p : Nat} {c x : Core} {s t : State} (h : OnlyCore p c s t) : OnlyCore p x s (t.setCore p x) := by
  obtain ⟨_, h2, h3⟩ := h
  refine ⟨State.setCore_core _ _ _, fun q hq => ?_, ?_⟩
  · rw [State.setCore_core_ne _ _ hq, h2 q hq]
  · rw [h3]; rfl

theorem OnlyCore.draw {p : Nat} {c : Core} {s t : State} (h : OnlyCore p c s t) : OnlyCore p c s t.draw := by
  obtain ⟨h1, h2, h3⟩ := h
  refine ⟨h1, h2, ?_⟩
  rw [h3]; rfl

theorem OnlyCore.refl (p : Nat) (s : State) : OnlyCore p (s.core p) s s := ⟨rfl, fun _ _ => rfl, rfl⟩

/-- The state in which a syllable acts differs from the state before in the core alone. -/
theorem State.moved_only (s : State) (p : Nat) (y : Syl) : OnlyCore p (s.movedCore p y) s (s.moved p y) :=
  (OnlyCore.refl p s).setCore.setCore

/-- What a syllable leaves when all it does is to change its own core. -/
theorem State.leaves {gc : Fin 160} {slot : Fin 18} {y : Syl} {s : State} {c : Core} (h : Ready gc slot s) (hh : y ≠ .halt)
    (ht : NoTrap gc slot y s) (hw : ∀ w, (s.core (slotKey gc slot)).waitOf gc y = some w → reaches (s.beacon w.1) w.2 = true)
    (x : Core)
    (ha : OnlyCore (slotKey gc slot) x s
      (s.act gc slot (s.core (slotKey gc slot)) (s.core (slotKey gc slot)).pc.toNat 1 y (s.moved (slotKey gc slot) y)))
    (hc : { x with clock := (s.core (slotKey gc slot)).clock + 1, bundle := [] } = c) :
    Leaves (State.present gc slot true y s) gc slot c s := by
  refine ⟨_, State.present_issue h ht hw, ?_⟩
  rw [State.issue_one h hh, State.modCore_eq, ha.1, hc]
  exact ha.setCore.draw

/-- A syllable alone in its bundle raises no trap when it has no cause of its own. -/
theorem noTrap_of {gc : Fin 160} {slot : Fin 18} {y : Syl} {s : State} (h : Ready gc slot s)
    (h1 : (s.core (slotKey gc slot)).illegalSyl y = false) (h2 : (s.core (slotKey gc slot)).busSyl y = false)
    (h3 : s.beaconSyl gc (s.core (slotKey gc slot)) y = false)
    (h4 : s.lateCause gc slot (s.core (slotKey gc slot)) y = none) : NoTrap gc slot y s := by
  have hb := h.2.2.2.1
  simp [NoTrap, State.bundleTrap, State.sylCause, h1, h2, h3, h4, hb]

/-- A cause that a syllable alone in its bundle raises is taken with its UNIT. -/
theorem bundleTrap_one {gc : Fin 160} {slot : Fin 18} {y : Syl} {s : State} {cause : BitVec 4} (late : Bool)
    (h : s.sylCause gc slot (s.core (slotKey gc slot)) late [] y = some cause) :
    s.bundleTrap gc slot (s.core (slotKey gc slot)) late [] [y] = some (cause, y.unit) := by
  simp [State.bundleTrap, h]

/-- The core in the state in which a syllable acts. -/
theorem State.moved_core (s : State) (p : Nat) (y : Syl) : (s.moved p y).core p = s.movedCore p y := State.setCore_core _ _ _

/-- A result written to s0 is discarded; any other lands beside the pc and the clock. -/
theorem Core.setSr_stepped (c : Core) (r : BitVec 4) (v : BitVec 16) :
    (c.setSr r v).stepped = { Core.setSr { c with pc := c.pc + 1#16 } r v with clock := c.clock + 1 } := by
  unfold Core.setSr Core.stepped; split <;> rfl

theorem Core.setSr_bundle (c : Core) (r : BitVec 4) (v : BitVec 16) : (c.setSr r v).bundle = c.bundle := by
  unfold Core.setSr; split <;> rfl

theorem Core.setSr_clock (c : Core) (r : BitVec 4) (v : BitVec 16) : (c.setSr r v).clock = c.clock := by
  unfold Core.setSr; split <;> rfl

/-- A syllable whose whole effect is a scalar result, on a core that moves on by one. -/
theorem State.leaves_reg {gc : Fin 160} {slot : Fin 18} {y : Syl} {s : State} {rd : BitVec 4} {v : BitVec 16}
    (h : Ready gc slot s) (hh : y ≠ .halt) (ht : NoTrap gc slot y s) (hw : (s.core (slotKey gc slot)).waitOf gc y = none)
    (hb : (s.core (slotKey gc slot)).target y = none) (hl : y.loads = none)
    (ha : ∀ t, s.act gc slot (s.core (slotKey gc slot)) (s.core (slotKey gc slot)).pc.toNat 1 y t =
      t.modCore (slotKey gc slot) (·.setSr rd v)) :
    Leaves (State.present gc slot true y s) gc slot ((s.core (slotKey gc slot)).setSr rd v).stepped s := by
  refine State.leaves h hh ht (by simp [hw]) (Core.setSr { s.core (slotKey gc slot) with pc := (s.core (slotKey gc slot)).pc + 1#16 } rd v) ?_ ?_
  · rw [ha, State.modCore_eq, State.moved_core, State.movedCore_plain h hb hl]
    exact (State.moved_only _ _ _).setCore
  · have h2 := h.2.1
    rw [Core.setSr_stepped]
    unfold Core.setSr
    split <;> simp_all [Core.setSreg]

/-- A syllable that only moves its core on by one. -/
theorem State.leaves_plain {gc : Fin 160} {slot : Fin 18} {y : Syl} {s : State}
    (h : Ready gc slot s) (hh : y ≠ .halt) (ht : NoTrap gc slot y s)
    (hw : ∀ w, (s.core (slotKey gc slot)).waitOf gc y = some w → reaches (s.beacon w.1) w.2 = true)
    (hb : (s.core (slotKey gc slot)).target y = none) (hl : y.loads = none)
    (ha : ∀ t, s.act gc slot (s.core (slotKey gc slot)) (s.core (slotKey gc slot)).pc.toNat 1 y t = t) :
    Leaves (State.present gc slot true y s) gc slot (s.core (slotKey gc slot)).stepped s := by
  refine State.leaves h hh ht hw { s.core (slotKey gc slot) with pc := (s.core (slotKey gc slot)).pc + 1#16 } ?_ ?_
  · rw [ha, ← State.movedCore_plain h hb hl]
    exact State.moved_only _ _ _
  · have h2 := h.2.1
    simp [Core.stepped, h2]

/-- A syllable whose effect is one change of its own core, on a core that moves on by one. -/
theorem State.leaves_core {gc : Fin 160} {slot : Fin 18} {y : Syl} {s : State} {f : Core → Core}
    (h : Ready gc slot s) (hh : y ≠ .halt) (ht : NoTrap gc slot y s) (hw : (s.core (slotKey gc slot)).waitOf gc y = none)
    (hb : (s.core (slotKey gc slot)).target y = none) (hl : y.loads = none)
    (ha : ∀ t, s.act gc slot (s.core (slotKey gc slot)) (s.core (slotKey gc slot)).pc.toNat 1 y t =
      t.modCore (slotKey gc slot) f)
    (hf : ({ f { s.core (slotKey gc slot) with pc := (s.core (slotKey gc slot)).pc + 1#16 } with
      clock := (s.core (slotKey gc slot)).clock + 1, bundle := [] } : Core) = (f (s.core (slotKey gc slot))).stepped) :
    Leaves (State.present gc slot true y s) gc slot (f (s.core (slotKey gc slot))).stepped s := by
  refine State.leaves h hh ht (by simp [hw]) (f { s.core (slotKey gc slot) with pc := (s.core (slotKey gc slot)).pc + 1#16 }) ?_ hf
  rw [ha, State.modCore_eq, State.moved_core, State.movedCore_plain h hb hl]
  exact (State.moved_only _ _ _).setCore

/-- A syllable that traps by itself. -/
theorem State.traps {gc : Fin 160} {slot : Fin 18} {y : Syl} {s : State} {cause : BitVec 4} (h : Ready gc slot s)
    (hw : (s.core (slotKey gc slot)).waitOf gc y = none)
    (hc : s.sylCause gc slot (s.core (slotKey gc slot)) true [] y = some cause) :
    State.present gc slot true y s =
      .next (s.takeTrap (slotKey gc slot) cause (s.core (slotKey gc slot)).pc y.unit false) :=
  State.present_trap h _ _ hw (bundleTrap_one true hc)

end Sys2Proof.Machine
end

