-- ==== Sys2Proof/WellFormed.lean ====
section
/-! DEFINITION. Which commands name something: the page of a command exists (R42, R47), a register write carries what its
own command reads outside the device (R459, R490), and an unimplemented access is to no implemented location (R43). -/
namespace Sys2Proof
open Sys2Proof.Machine

/-- The page that a command names, where it names one. -/
def Instr.page (i : Instr) : Option Page :=
  match i with
  | .blockEnable p => some p
  | .blockReady p => some p
  | .blockDisable p => some p
  | .blockDrain p => some p
  | .drainDone p => some p
  | .resetDone p => some p
  | .blockFence p _ => some p
  | .crcSweepEnd p _ => some p
  | .bucketPeriodEnd p => some p
  | .errStatWrite p _ => some p
  | .cfgCrcRefWrite p _ => some p
  | .bucketCfgWrite p _ => some p
  | .bbxRecord _ _ src _ _ => src
  | _ => none

/-- A register write that starts a command carries what that command reads. -/
def auxCarried (a : BitVec 26) (v : BitVec 32) (aux : RegAux) : Bool :=
  match wordAt a.toNat with
  | some (p, off) => !auxMissing p off v aux
  | none => true

/-- A well-formed command. Every operand of a fixed range has a type of that range; these are the relations that remain. -/
def WellFormed (i : Instr) : Bool :=
  (match i.page with
   | some p => p.exists?
   | none => true) &&
  (match i with
   | .registerWrite _ a v _ aux => auxCarried a v aux
   | .unimplementedAccess (.pages _ a) n write => !implemented a.toNat n write
   | _ => true)

end Sys2Proof
end

