-- ==== Sys2Proof/Tests/Slice0.lean ====
section
/-! SUPPORT. The model's own tests: a state and operands that meet the hypotheses of each obligation, the worked examples of the spec, and
ill-formed commands. -/
namespace Sys2Proof.Tests
open Sys2Proof Sys2Proof.Machine
set_option Elab.async false
set_option maxRecDepth 100000

/-! ## States of the tests -/

/-- Pages in a state of R52. -/
def pages (n : Nat) (l : List Page) (s : State) : State := l.foldl (fun s p => s.wr (Reg.STATE_STATE p) n) s

/-- Firmware processors in RUNNING. -/
def fws (l : List Nat) (s : State) : State := l.foldl (fun s k => s.wr (Reg.FWP_RUN_STATE k) Fw.running) s

/-- Core 0 of cluster 0 runs; its page and its cluster's page are ENABLED. -/
def one : State :=
  (pages 3 [⟨.cor, 0⟩, ⟨.clu, 0⟩] State.reset).setCore 0 { Core.reset with run := .running }

/-- Partition 0 is ACTIVE and holds cluster 0, HBM unit 0 and package 0. -/
def owned (s : State) : State :=
  s.setPart 0 { Part.reset with state := .active, clusters := 1#160, hbm := 1#80, t2 := 1#32 }

/-- The data memory of core 0 is filled with zeros. -/
def filled : State := one.setFilledRegion 272 true

/-- Core 0 with a change. -/
def with0 (s : State) (f : Core → Core) : State := s.setCore 0 (f (s.core 0))

/-- The registers of `board` that differ from reset: pages of hub 0, firmware processors, pages of hub 1 and of die 0, the first word of the
core map, and the first cluster and core. -/
def boardRegs : List (Nat × BitVec 32) :=
  let on (l : List Nat) : List (Nat × BitVec 32) := l.map fun a => (a * 4096 + 12, 3#32)
  on [0x100, 0x101, 0x102, 0x103, 0x110, 0x114, 0x115, 0x116, 0x117, 0x118, 0x119, 0x11A, 0x11B, 0x120, 0x121, 0x122, 0x123, 0x124, 0x125,
    0x126, 0x127] ++ ((List.range 6).map fun k => (0x130040 + 4096 * k, 2#32)) ++ on [0x140, 0x200, 0x202, 0x1008] ++ [(0x100C100, 0#32)] ++
    on [0x1100, 0x1101]

/-- A device in service: the pages of its first units ENABLED, firmware RUNNING, every memory unit up, the links up and master, and
partition 0, on link 0, with cluster 0, all HBM and tier 2 and hub SRAM granules 32-47; memories filled. -/
def board : State :=
  let s := { State.reset with regs := boardRegs }
  let s := s.setPart 0 { Part.reset with
    state := .active, clusters := 1#160, hbm := BitVec.allOnes 80, t2 := BitVec.allOnes 32, sdtCount := 16, subqCount := 16, keyCount := 32, sramBase := 32, sramCount := 16 }
  let fn : Fn := { Fn.reset with bme := true }
  let link : Link := { Link.reset with up := true, configReady := true, fns := [(0, fn), (1, fn)] }
  let s := (s.setCore 0 { Core.reset with run := .running }).modLink 0 fun _ => link
  { s with
    bru := { s.bru with memDone := BitVec.allOnes 112, mapBuilt := true, t2Mapped := BitVec.allOnes 32, started := true }
    filled := [(0, true), (80, true), (112, true), (272, true), (6032, true), (6064, true)]
    pins := { s.pins with porst := false, wrst := false, perst := 0#2, romDone := true } }


/-- Those registers are what the words of R52, R515 and R168 make of the reset state. -/
theorem test_boardRegs :
    boardRegs = ((fws [0, 1, 2, 3, 4, 5] (pages 3 [⟨.hub, 0⟩, ⟨.hub, 1⟩, ⟨.bru, 0⟩, ⟨.pce, 0⟩, ⟨.pce, 1⟩, ⟨.prp, 0⟩, ⟨.eth, 0⟩, ⟨.cls, 0⟩,
      ⟨.nic, 0⟩, ⟨.tsh, 0⟩, ⟨.pol, 0⟩, ⟨.sdt, 0⟩, ⟨.nvc, 0⟩, ⟨.cph, 0⟩, ⟨.lpc, 0⟩, ⟨.tel, 0⟩, ⟨.pwr, 0⟩, ⟨.sec, 0⟩, ⟨.bbx, 0⟩, ⟨.snp, 0⟩,
      ⟨.dis, 0⟩, ⟨.mov, 0⟩, ⟨.pfx, 0⟩, ⟨.mbx, 0⟩, ⟨.hmc, 0⟩, ⟨.clu, 0⟩, ⟨.cor, 0⟩] State.reset)).setReg (mapFld 0).addr 0).regs := by
  decide +kernel
/-! ## Witnesses: states and operands that meet the hypotheses of each statement, at the ends of their ranges -/

theorem meets_ScalarResults :
    Ready 0 0 one ∧ (15#14).toNat < 16 ∧ 16 ≤ (16#14).toNat := by
  unfold Ready; decide +kernel

theorem meets_LoadsAndStores :
    let top := with0 filled fun c => c.setSr 1 65535
    (Ready 0 0 filled ∧ 0 ≤ ((filled.core 0).sr 0).toNat + (0#10).toInt ∧ filled.dmemPoison 0 0 = false) ∧
    (Ready 0 0 top ∧ ((top.core 0).sr 1).toNat + (0#10).toInt = 65535 ∧ top.dmemPoison 0 65535 = false) ∧
    (Ready 0 0 top ∧ ((top.core 0).sr 1).toNat + (1#10).toInt = 65536) ∧
    (Ready 0 0 filled ∧ ((filled.core 0).sr 0).toNat + (-1#10).toInt = -1) ∧
    (Ready 0 0 one ∧ one.dmemPoison 0 0 = true) ∧ (14#4).toNat % 2 = 0 ∧ (15#4).toNat % 2 = 1 := by
  unfold Ready; decide +kernel

theorem meets_BranchesAndLoops :
    let s := with0 one fun c => c.setSr 1 1
    Ready 0 0 s ∧ (s.core 0).sr 1 ≠ 0 ∧ (s.core 0).sr 0 = 0 ∧ (1#9).setWidth 16 ≠ 0#16 := by
  unfold Ready; decide +kernel

theorem meets_SpecialRegisterResults :
    let s := one.setReg (mapFld 0).addr 0
    Ready 0 0 s ∧ s.lcOf 0 0 = some 0 ∧ 12 ≤ (12#6).toNat ∧ 6 ≤ (6#6).toNat := by
  unfold Ready; decide +kernel

/-- Data memory of core 0 from word 0: two operand descriptors of GL4 with blocks of 32 and stride 4, a control word with K 128, and a
drain descriptor of 128 lines of 256 bytes. -/
def block : State :=
  let put (s : State) (w : Nat) (v : Nat) : State := s.putBytes (dmemKey 0 (16 * w)) (leBytes 16 v)
  put (put (put (put filled 0 (4 * 2 ^ 48)) 1 (4 * 2 ^ 48)) 2 128) 3 (16 * 2 ^ 32)

def eight : List MOp := List.replicate 8 MOp.reset

theorem meets_MatrixQueueing :
    let word (n : Nat) : BitVec 128 := BitVec.ofNat 128 (block.dmemWord 0 n)
    let full := with0 block fun c => { c with mqueue := eight }
    (Ready 0 0 block ∧ (∀ n < 3, block.dmemPoison 0 n = false) ∧
      mmaCause (block.beaconInPart 0) (word 0) (word 1) (word 2) = none ∧ (block.core 0).mqueue.length < 8) ∧
    (Ready 0 0 full ∧ (∀ n < 3, full.dmemPoison 0 n = false) ∧
      mmaCause (full.beaconInPart 0) (word 0) (word 1) (word 2) = none ∧ (full.core 0).mqueue.length = 8) ∧
    (block.dmemPoison 0 3 = false ∧ mdrainCause (block.beaconInPart 0) (word 3) = none ∧
      mdrainCause (full.beaconInPart 0) (word 3) = none) ∧
    (Ready 0 0 one ∧ one.dmemPoison 0 0 = true) := by
  unfold Ready; decide +kernel

/-- Fields of a VR syllable. -/
def vr (type : BitVec 4) (part : BitVec 2) (n : BitVec 1) (vd va vb : BitVec 5) : VrArgs :=
  { type := type, part := part, n := n, vd := vd, va := va, vb := vb }

theorem meets_VectorLanes :
    Ready 0 0 one ∧
    (∀ o ∈ [LOp.add, .sub, .mul, .fma, .min, .max, .abs, .neg, .cmpeq, .cmpne, .cmplt, .cmple],
      o.accepts (LType.ofCode (vr 6 0 0 1 2 0).type) = true) ∧
    (∀ o ∈ [LOp.div, .sqrt], o.accepts (LType.ofCode (vr 9 0 0 1 2 0).type) = true) ∧
    (∀ o ∈ [LOp.shl, .shr, .sra], o.accepts (LType.ofCode (vr 0 0 0 1 2 0).type) = true) ∧
    (∀ o ∈ [ROp.sum, .max, .min], o.accepts (LType.ofCode (vr 8 0 0 1 2 0).type) = true) ∧
    (vr 0 1 0 0 0 0).part ≠ 0 ∧ (vr 0 0 1 0 0 0).n ≠ 0 ∧ (vr 1 0 0 0 0 0).type ≠ 0 ∧ (vr 0 0 0 0 0 1).vb ≠ 0 ∧
    (vr 0 0 0 0 1 0).va ≠ 0 ∧ (vr 0 0 0 1 0 0).vd ≠ 0 ∧ (vr 2 0 0 0 0 0).type ≠ 1 ∧
    (LType.ofCode 0).isFloat = false ∧ 2 ≤ (vr 8 2 0 0 0 0).part.toNat ∧ 16 ≤ (16#5).toNat ∧ qntSource (LType.ofCode 0) = false ∧
    (let s := with0 one fun c => c.setVreg 2 ⟨BitVec.ofNat 1024 (2 ^ 224), 0⟩
     Ready 0 0 s ∧ qcfgReserved ((s.core 0).vin 2).data.toNat = true) ∧
    (LType.ofCode 10).isLane = false ∧ (LType.ofCode 8).count ≤ (32#7).toNat ∧
    convParts (LType.ofCode 4) (LType.ofCode 4) ≤ (1#2).toNat := by
  unfold Ready; decide +kernel

theorem meets_VectorRegisterResults :
    let s := with0 one fun c => c.setVreg 3 ⟨0, 0x80⟩
    Ready 0 0 s ∧ (LType.ofCode 1).isLane = true ∧ (127#7).toNat < (LType.ofCode 1).count ∧
    laneMark (LType.ofCode 1).width (((s.core 0).vin 2).mark) 127 = false ∧
    laneMark (LType.ofCode 1).width (((s.core 0).vin 3).mark) 127 = true ∧
    (3#2).toNat < convParts (LType.ofCode 0) (LType.ofCode 8) ∧
    (LType.ofCode 8).isFloat = true ∧ (1#2).toNat < 2 ∧ (15#5).toNat < 16 := by
  unfold Ready; decide +kernel

theorem meets_VectorMemory :
    let s := with0 filled fun c => c.setSr 1 65528
    Ready 0 0 s ∧ ((s.core 0).sr 1).toNat + (0#13).toNat + 8 = 65536 ∧ ((s.core 0).sr 1).toNat + (1#13).toNat + 8 = 65537 := by
  unfold Ready; decide +kernel

/-- BF16 lanes of 1.0, but for the first, which is 2^64. -/
def outlier : VReg := ⟨BitVec.ofNat 1024 (leNat ([0x80, 0x5F] ++ (List.replicate 63 [0x80#8, 0x3F#8]).flatten)), 0⟩

theorem meets_QuantiserSyllables :
    let cfg := ((one.core 0).vin 2).data
    Ready 0 0 one ∧ qcfgReserved cfg.toNat = false ∧ qcfgBeacon cfg.toNat = none ∧
    (let a := vr 6 0 0 1 2 0
     qntSource (LType.ofCode a.type) = true ∧ a.part.toNat < 1 ∧ ((one.core 0).vqnt a).sides = []) ∧
    (let a := vr 8 1 0 1 2 0
     qntSource (LType.ofCode a.type) = true ∧ a.part.toNat < 2) ∧
    (let s := with0 one fun c => { (c.setVreg 2 outlier) with quant := { c.quant with qgap := 2, qslim := 1 } }
     let a := vr 6 0 0 1 2 0
     Ready 0 0 s ∧ ((s.core 0).vqnt a).sides ≠ [] ∧
       (s.core 0).quant.qside.toNat + ((s.core 0).vqnt a).sides.length ≤ (s.core 0).quant.qslim.toNat) ∧
    (let s := with0 one fun c => { (c.setVreg 2 outlier) with quant := { c.quant with qgap := 2 } }
     let a := vr 6 0 0 1 2 0
     Ready 0 0 s ∧ ((s.core 0).vqnt a).sides ≠ [] ∧
       (s.core 0).quant.qslim.toNat < (s.core 0).quant.qside.toNat + ((s.core 0).vqnt a).sides.length) := by
  unfold Ready; decide +kernel
/-- Channel 3 of core 0 with a change. -/
def ch3 (f : Chan → Chan) : State := with0 (owned one) fun c => c.setChan 3 (f (c.getChan 3))

theorem meets_MoveSyllables :
    (let x := ((ch3 id).core 0).getChan 3
     Ready 0 0 (ch3 id) ∧ x.xs.toNat % 16 = 0 ∧ natBits x.xb.toNat 24 8 = 0 ∧ natBits x.xb.toNat 15 1 = 0 ∧ natBits x.xb.toNat 16 8 = 0 ∧
      x.queue.length < 8 ∧ x.state = 0) ∧
    (let s := ch3 fun x => { x with xb := 0x10000, xg := 16 }
     Ready 0 0 s ∧ s.beaconInPart 0 0 = true ∧ ((s.core 0).getChan 3).xg ≠ 0) ∧
    (let s := ch3 fun x => { x with xb := 0x10000 + 128 }
     Ready 0 0 s ∧ s.beaconInPart 0 128 = false) ∧
    (let s := ch3 fun x => { x with xb := 0x8000, xs := 1 }
     Ready 0 0 s ∧ natBits ((s.core 0).getChan 3).xb.toNat 15 1 ≠ 0) ∧
    (let s := ch3 fun x => { x with queue := List.replicate 8 ⟨.movs, 0, 0, 0, 0, 0⟩, state := 1 }
     Ready 0 0 s ∧ ((s.core 0).getChan 3).queue.length = 8 ∧ ((s.core 0).getChan 3).state ≠ 0 ∧ ((s.core 0).getChan 3).run = none) ∧
    (let s := (ch3 fun x => { x with run := some XRun.reset, state := 1 }).setCluster 0 { Cluster.reset with lines := [⟨0, 3, 0, 64⟩] }
     Ready 0 0 s ∧ ((s.core 0).getChan 3).run = some XRun.reset ∧ XRun.reset.op.kind ≠ .wpull ∧
       (s.chanLines 0 0 3).isEmpty = false) ∧
    (let s := ch3 fun x => { x with run := some XRun.reset, state := 1 }
     Ready 0 0 s ∧ (s.chanLines 0 0 3).isEmpty = true) ∧
    6 ≤ (6#3).toNat ∧ 2 ≤ (2#3).toNat ∧ 2 ≤ (2#2).toNat := by
  unfold Ready; and_intros <;> decide +kernel

theorem meets_BeaconSyllables :
    let s := with0 (owned one) fun c => ((c.setSr 1 127).setSr 2 128).setSr 3 1
    Ready 0 0 s ∧ (32767#15) ≠ 0 ∧ (((s.core 0).sr 1).toNat / 128 = 0 ∧ ((s.core 0).sr 1).toNat < 20480) ∧
    (127#7) ≠ 0 ∧ s.beaconInPart 0 127 = true ∧ s.beaconInPart 0 128 = false ∧ ((s.core 0).sr 2).toNat / 128 ≠ 0 ∧
    reaches (s.beacon 127) 0 = true ∧ reaches (s.beacon 127) 1 = false ∧ reaches (s.beacon 127) 0x80000001 = true := by
  unfold Ready; decide +kernel

theorem meets_Bundles :
    let s := owned one
    let c := s.core 0
    c.issues = true ∧ (State.reset.core 0).issues = false ∧
    (let u := (s.modPart 0 fun x => { x with pcap := 1 }).wr (Reg.TEL_P_CAP_DUTY 0 0) 0
     (u.core 0).issues = true ∧ (u.core 0).pend = [] ∧ u.dutyOpen 0 0 = false) ∧ s.dutyOpen 0 0 = true ∧
    (let s := with0 s fun c => { c with bundle := [.nop] }
     (s.core 0).issues = true ∧ (s.core 0).branch = none ∧ (s.core 0).pc.toNat + 1 < 32768 ∧ Syl.nop ≠ .noFetch ∧
       (s.core 0).waitOf 0 .nop = none ∧ s.sylCause 0 0 (s.core 0) true [] .nop = none ∧ Syl.nop.unit.toNat ≤ Syl.nop.unit.toNat) ∧
    Ready 0 0 s ∧ c.loop0.test c.pc 2 = none ∧ c.loop1.test c.pc 2 = none ∧ (c.sr 0).toNat / 128 = 0 ∧
    ∃ t, exec (.addi 0 0 false 1 0 1) s = .next t := by
  refine ⟨by decide +kernel, by decide +kernel, by decide +kernel, by decide +kernel, by decide +kernel, by unfold Ready; decide +kernel, by decide +kernel, by decide +kernel,
    by decide +kernel, _, rfl⟩

theorem meets_TrapsAndLandings :
    (one.core 0).pend = [] ∧ (one.reg ((Page.mk .cor 0).base + 0x1C)).getLsbD 16 = false ∧
    (one.core 0).pausing = false ∧ (one.core 0).run ≠ .paused ∧ ((with0 one fun c => { c with pausing := true }).core 0).pausing = true ∧
    (∀ x ∈ [Landing.sreg 1 1, .vreg 1 0 (BitVec.allOnes 128) 0 false false none, .qcfg 0, .seed 0, .clearFlags],
      ((with0 one fun c => { c with pend := [⟨5, x⟩] }).core 0).pend = [⟨5, x⟩]) := by
  decide +kernel

def mma : MOp := { MOp.reset with kind := .mma, w0 := BitVec.ofNat 128 (4 * 2 ^ 48), w1 := BitVec.ofNat 128 (4 * 2 ^ 48), w2 := 128 }
def drain : MOp := { MOp.reset with kind := .mdrain, w0 := BitVec.ofNat 128 (16 * 2 ^ 32) }

/-- An operation at the head of the matrix queue, and one that runs. -/
def queued (o : MOp) : State := with0 one fun c => { c with mqueue := [o] }
def runs (o : MOp) : State := with0 block fun c => { c with mrun := [o] }

theorem meets_MatrixEngine :
    (((queued mma).core 0).mqueue = [mma] ∧ mma.kind = .mma ∧ (Ctl.ofWord mma.w2).clr = false) ∧
    (let clr := { mma with w2 := BitVec.ofNat 128 (2 ^ 48 + 128) }
     let s := with0 one fun c => { c with mqueue := [clr], mrun := [mma] }
     (s.core 0).mqueue = [clr] ∧ (Ctl.ofWord clr.w2).clr = true ∧ mma ∈ (s.core 0).mrun ∧ ((queued clr).core 0).mrun = []) ∧
    ((queued drain).core 0).mqueue = [drain] ∧ drain.kind = .mdrain ∧ ((queued MOp.reset).core 0).mqueue = [MOp.reset] ∧
    (let o := { drain with out := [(dmemKey 0 0, 1#8), (dmemKey 0 1, 2#8)] }
     ((runs o).core 0).mrun = [o] ∧ (∀ b ∈ o.out, b.1 = dmemKey 0 0 ∨ b.1 = dmemKey 0 1) ∧ (Drain.ofWord o.w0).flg = false ∧
       o.poison = false ∧ ∀ b ∈ o.out, (runs o).isClean (unitOf b.1) = true) ∧
    { drain with poison := true }.poison = true ∧ ((runs mma).core 0).mrun = [mma] ∧ (mma.w0 = BitVec.ofNat 128 (4 * 2 ^ 48)) ∧
    (let o := { mma with w0 := 6, w1 := 6 }
     (Opd.ofWord o.w0).fmtOf.isGlim = false ∧ (Opd.ofWord o.w1).fmtOf.isGlim = false) ∧
    ((runs mma).core 0).run ≠ .halted ∧ ((with0 (runs mma) fun c => { c with run := .halted }).core 0).run = .halted := by
  try dsimp only
  decide +kernel

/-- BF16 operands of one K-step raise no escape fault; a GL4 element 0x8 with no sidecar entry raises one. -/
theorem meets_MatrixEngine_done :
    (block.mmaTile 0 { mma with w0 := BitVec.ofNat 128 (6 + 2 ^ 48), w1 := BitVec.ofNat 128 (6 + 2 ^ 48), w2 := 32 }).2 = false ∧
    (let s := (filled.putBytes (dmemKey 0 256) [0x08]).putBytes (dmemKey 0 4096) [0x7F]
     (s.mmaTile 0 { mma with
       w0 := BitVec.ofNat 128 (16 * 2 ^ 16 + 256 * 2 ^ 32 + 2 ^ 48), w2 := 32, image := s.dmemImage 0 }).2 = true) := by
  try dsimp only
  decide +kernel

/-- A FILL of one line. -/
def fill : XRun := { XRun.reset with op := ⟨.fill, 0, 0x10000000000, 64, 0, 0⟩ }

theorem meets_MoveEngine :
    (let s := ch3 fun x => { x with queue := [fill.op] }
     ((s.core 0).getChan 3).run = none ∧ ((s.core 0).getChan 3).queue = [fill.op] ∧ ((s.core 0).getChan 3).held = false ∧
       s.serving ⟨.cor, 0⟩ = true) ∧
    (let s := (ch3 fun x => { x with run := some fill, state := 1 }).setReg (mapFld 0).addr 0
     s.gatherReady 0 = false ∧ s.nextChannel 0 = some (3, 0) ∧ ((s.core 0).getChan 3).run = some fill) ∧
    (let l : Line := ⟨0, 3, 0, 64⟩
     let s := (ch3 fun x => { x with run := some { fill with next := 64 } }).setCluster 0 { Cluster.reset with lines := [l] }
     (s.chanLines 0 0 3).find? (fun m => m.off = l.off) = some l ∧ fill.op.kind = .fill) ∧
    (let s := ch3 fun x => { x with run := some { fill with done := 64 } }
     s.chanLines 0 0 3 = [] ∧ fill.op.total = 64 ∧ fill.pausing = false ∧ fill.stop = none ∧ fill.op.kind ≠ .wpull) := by
  try dsimp only
  decide +kernel
/-- Writes bytes at a place. -/
def put (a : Nat) (b : List (BitVec 8)) (s : State) : State := s.putBytes a b

/-- Cluster 0 of the board with a change. -/
def clu (f : Cluster → Cluster) : State := board.setCluster 0 (f Cluster.reset)

def wpull : XRun := { XRun.reset with op := ⟨.wpull, 0, BitVec.ofNat 48 poolBase, 0, 0, 0⟩ }
def pulls : State :=
  with0 (clu fun c => { c with waiting := [(0, 3)], wq := [List.replicate 64 1#8] }) fun c =>
    c.setChan 3 { Chan.reset with run := some wpull, state := 1 }

/-- A descriptor for any cluster of slice 0; one whose gate is beacon 5 at 1. -/
def descAny : List (BitVec 8) := leBytes 64 (1 + 256)
def descGate : List (BitVec 8) := leBytes 64 (1 + 3 * 256 + 5 * 2 ^ 32 + 2 ^ 64)

def sliced : State := board.setSlice 0 (some { Slice.reset with active := true, pasid := 1 })

/-- Submission ring 0 is configured over the first bytes of granule 32 and holds a descriptor. -/
def ringed (d : List (BitVec 8)) : State :=
  put (sramBase + 2 ^ 23) d
    (((((sliced.wr (Reg.DIS_RING_BASE 0 0) (2 ^ 17)).wr (Reg.DIS_RING_CFG_EN 0 0) 1).wr (Reg.DIS_RING_CFG_LOG2_SIZE 0 0) 6).wr
      (Reg.DIS_RING_CFG_SUBMIT 0 0) 127).setBeacon 127 1)

theorem meets_WorkAndCredits :
    (((pulls.cluster 0).pauseReq = false ∧ (pulls.cluster 0).waiting = [(0, 3)] ∧ (pulls.cluster 0).wq = [List.replicate 64 1#8] ∧
      ((pulls.core 0).getChan 3).run = some wpull) ∧
      (let s1 := pulls.setCluster 0 { pulls.cluster 0 with waiting := [], wq := [], creditOut := 1 }
       s1.target poolBase 64 = .pool 0 ∧ (s1.writeMem (.core 0 0 3) poolBase (List.replicate 64 1#8) false).1.holdHit = [])) ∧
    ((clu fun c => { c with pauseReq := true }).cluster 0).pauseReq = true ∧
    0 < ((clu fun c => { c with creditOut := 1 }).cluster 0).creditOut ∧
    (let s := ringed descAny
     let l := (s.checkRing 0 0).learn (ringWatch 0 0 127 0)
     let x := l.state.readMem (.hub 0 .dis 0) (sramBase + 2 ^ 23) 64
     s.ringServed 0 0 = true ∧ s.clusterGone 0 = false ∧ reaches (s.beacon 127) 1 = true ∧ s.answered (watchKey 0 .dis 0) = none ∧
       (s.cluster 0).watches = [] ∧ l.fired = true ∧ x.2.status = 0 ∧ x.2.poison = false ∧ x.1.descStatus 0 x.2.data = 0) ∧
    (let s := ringed (leBytes 64 2)
     let l := (s.checkRing 0 0).learn (ringWatch 0 0 127 0)
     let x := l.state.readMem (.hub 0 .dis 0) (sramBase + 2 ^ 23) 64
     s.ringServed 0 0 = true ∧ l.fired = true ∧ x.2.status = 0 ∧ x.2.poison = false ∧ x.1.descStatus 0 x.2.data ≠ 0) ∧
    (let s := (ringed descAny).setBeacon 127 0
     s.ringServed 0 0 = true ∧ ((s.checkRing 0 0).learn (ringWatch 0 0 127 0)).fired = false) ∧
    (let d : Desc := { Desc.reset with bytes := descGate }
     let s := (sliced.setDisOf 0 (Dis.reset.setHeld 0 [d])).setBeacon 5 1
     (s.disOf 0).getHeld 0 = [d] ∧ d.ready = false ∧ s.st ⟨.dis, 0⟩ = PS.enabled ∧
       (s.learn (gateWatch 0 0 d.bytes)).fired = true) ∧
    (let d : Desc := { Desc.reset with bytes := descAny, ready := true }
     let s := sliced.setDisOf 0 ((Dis.reset.setHeld 0 [d]).setCredit 0 1)
     s.pauseInForce 0 = false ∧ s.mayServe 0 Engine.dis.num 0 0 1 (s.placeWaits 0) = true ∧ s.serving ⟨.dis, 0⟩ = true ∧ s.nextSource 0 0 = some (0, d, .go 0)) ∧
    (∀ q < 12, board.strictOn q = false) ∧ (∀ q < 12, q ≠ 0 → board.placeWaits 0 q = false) := by
  try dsimp only
  decide +kernel

def sig : Sig := { Sig.reset with srcGc := some 0, bid := 127, add := 1#32 }
def watch : Watch := ⟨127, 2, 9, 0, .dis⟩

theorem meets_Signals :
    ((clu fun c => c.setTable 127 1).cluster 0).getTable 127 ≠ 0 ∧
    (board.setHubSum (hubTableKey 0 .dis 127) 1).hubSum (hubTableKey 0 .dis 127) ≠ 0 ∧
    (let s := { board with signals := [sig] }
     s.signals[0]? = some sig ∧ sig.bid < 20480 ∧ s.clusterGone (sig.bid / 128) = false ∧ s.bcnDropped 0 0 = none) ∧
    board.slotStatus (.fwp 0 0) 127 = 0 ∧ board.slotStatus (.fwp 0 0) 128 ≠ 0 ∧
    board.bcnDropped (hubNode 0) 0 = none ∧ reaches (board.beacon 127) 0 = true ∧ reaches (board.beacon 127) 1 = false ∧
    (board.cluster 0).watches.length < 64 ∧
    ((clu fun c => { c with watches := [watch] }).cluster 0).watches.find? (fun w => w.hub = 0 && w.engine == .dis && w.tag = 9)
      = some watch ∧
    board.answered (watchKey 0 .dis 9) = none ∧ (board.cluster 0).watches = [] ∧
    (board.setAnswered (watchKey 0 .dis 9) (some ⟨127, 2, 0, 5⟩)).answered (watchKey 0 .dis 9) = some ⟨127, 2, 0, 5⟩ := by
  try dsimp only
  decide +kernel

theorem meets_Pausing :
    (board.st ⟨.dis, 0⟩ ≠ PS.off ∧ board.pageGone ⟨.dis, 0⟩ 0x40 = false ∧ board.partHub 0 = 0 ∧ (∀ g ∈ board.clustersOf 0, (board.cluster g).pauseReq = false) ∧ board.resuming 0 = false) ∧
    (let s := (clu fun c => { c with pauseReq := true }).wr (Reg.DIS_PAUSED 0) 1
     natBits (s.rd (Reg.DIS_PAUSED 0)) 0 1 = 1 ∧ ∃ g ∈ s.clustersOf 0, (s.cluster g).pauseReq = true) ∧
    board.partHub 0 ≠ 1 ∧
    (let s := clu fun c => { c with pauseReq := true }
     (s.core 0).run = .running ∧ s.st ⟨.cor, 0⟩ ≠ PS.draining ∧ s.pauseRequested 0 0 = true ∧ (s.core 0).branch = none ∧
       (∀ n < 4, ((s.core 0).getChan n).run = none) ∧ (s.core 0).mqueue = [] ∧ (s.core 0).mrun = [] ∧ (s.cluster 0).lines = []) ∧
    ((with0 (clu fun c => { c with pauseReq := true }) fun c => { c with mqueue := [mma] }).core 0).mqueue ≠ [] ∧
    (let s := with0 ((board.setPart 0 Part.reset).wr (Reg.CLU_PAUSE_REQ 0) 0) fun c => { c with run := .paused }
     s.pauseRequested 0 0 = false ∧ s.st ⟨.cor, 0⟩ ≠ PS.draining ∧ (s.core 0).run = .paused ∧ s.clusterPart 0 = 15 ∧
       ∀ n < 4, ((s.core 0).getChan n).run = none) ∧
    (let s := (with0 (clu fun c => { c with pauseReq := true }) fun c => { c with run := .paused }).wr (Reg.DIS_PAUSE 0) 1
     (s.cluster 0).pauseReq = true ∧ s.clusterPaused 0 = true ∧ s.clusterPart 0 = 0 ∧
       natBits (s.rd (Reg.DIS_PAUSE 0)) 0 1 = 1 ∧ s.clustersOf 0 = [0]) := by
  try dsimp only
  decide +kernel

/-- The page-gather ring of cluster 0, of 256 slots at the start of its pool, holds a command. -/
def gathers (cmd : List (BitVec 8)) : State :=
  put poolBase cmd ((((board.wr (Reg.CLU_PG_CFG_EN 0) 1).wr (Reg.CLU_PG_CFG_LOG2_SIZE 0) 8).wr (Reg.CLU_PG_CFG_SUBMIT 0) 127).setBeacon 127 1)

/-- One page, one line of it. -/
def pgCmd : List (BitVec 8) := leBytes 64 (1 + 2 ^ 32 + 2 ^ 240)

def gatherReady (s : State) : Prop :=
  (s.cluster 0).pgRun = none ∧ s.on (Reg.CLU_PG_CFG_EN 0) = true ∧ s.rd (Reg.CLU_PG_CFG_LOG2_SIZE 0) = 8 ∧ s.st ⟨.clu, 0⟩ = PS.enabled ∧
    s.gatherHeld 0 = false ∧ reaches (s.beacon 127) 1 = true

def fenced : MovCmd := { MovCmd.reset with phase := .fence, acks := [0] }

theorem meets_PageGather :
    (let s := gathers pgCmd
     let x := s.readMem (.gather 0) poolBase 64
     gatherReady s ∧ x.2.status = 0 ∧ x.2.poison = false ∧ x.1.pgCmdOk 0 x.2.data = true) ∧
    (let s := gathers []
     let x := s.readMem (.gather 0) poolBase 64
     gatherReady s ∧ x.2.status = 0 ∧ x.2.poison = false ∧ x.1.pgCmdOk 0 x.2.data = false) ∧
    (let s := (gathers pgCmd).setFilledRegion 112 false
     let x := s.readMem (.gather 0) poolBase 64
     gatherReady s ∧ x.2.status = 0 ∧ x.2.poison = true) ∧
    (let s := (((gathers pgCmd).wr (Reg.CLU_PG_BASE 0) (2 ^ 18 - 1)).setCluster 0 { Cluster.reset with pgTaken := 1 }).setBeacon 127 2
     (s.cluster 0).pgRun = none ∧ s.gatherHeld 0 = false ∧ reaches (s.beacon 127) 2 = true ∧
       (s.readMem (.gather 0) (poolBase + 2 ^ 24) 64).2.status ≠ 0) ∧
    (let r : PgRun := { PgRun.reset with cmd := pgCmd, page := 1 }
     let s := clu fun c => { c with pgRun := some r }
     (s.cluster 0).pgRun = some r ∧ r.lines = [] ∧ r.stop = none ∧ (PgCmd.ofBytes r.cmd).count ≤ r.page ∧
       (PgCmd.ofBytes r.cmd).statusAddr = 0 ∧ s.beaconInPart 0 (PgCmd.ofBytes r.cmd).beacon = true ∧ (s.cluster 0).fences = [] ∧ s.holdHit = []) ∧
    (let s := board.setMovRing 0 { Ring.reset with cmds := [fenced] }
     fenced ∈ (s.movRing 0).cmds ∧ fenced.slot = 0 ∧ 0 ∈ fenced.acks ∧ (s.cluster 0).pgRun = none ∧ (s.cluster 0).fences = []) ∧
    (let r : PgRun := { PgRun.reset with cmd := pgCmd, line := 1, lines := [{ PgLine.reset with page := 0 }] }
     let s := (clu fun c => { c with pgRun := some r }).setMovRing 0 { Ring.reset with cmds := [fenced] }
     fenced ∈ (s.movRing 0).cmds ∧ (s.cluster 0).pgRun = some r ∧ (∃ l ∈ r.lines, l.page < r.page + 1) ∧ (s.cluster 0).fences = []) := by
  unfold gatherReady; try dsimp only
  decide +kernel
/-- Ring of partition 0 for moves or for the prefix index, of one slot at the start of granule 32, with its records after it. -/
def kvRing (k : RingKind) (cmd : List (BitVec 8)) : State :=
  let s := (board.setReg (k.word 0 0 0) (BitVec.ofNat 32 (2 ^ 17 * 64))).setReg (k.word 0 0 4) (BitVec.ofNat 32 (2 ^ 17 * 64 + 4096))
  put (sramBase + 2 ^ 23) cmd ((s.setReg (k.word 0 0 8) (BitVec.ofNat 32 (2 ^ 31 + 127))).setBeacon 127 1)

def kvServed (k : RingKind) (s : State) : Bool :=
  s.st (k.page 0) = PS.enabled && s.ringField k 0 0 8 31 1 = 1 && !s.kvRingBad k 0 0 && s.kvRingOpen k 0 0 &&
    s.mayServe 0 (Engine.ofRing k).num 0 0 1 (s.kvRingWaits k 0) && (s.learn (ringSubmit k 0 0 127 0)).fired

def kvRead (k : RingKind) (s : State) (a : Nat) : State × RdRes :=
  ((s.learn (ringSubmit k 0 0 127 0)).state.served 0 (Engine.ofRing k).num 0 0).readMem (ringReq k 0 0) a 32

def movCmd (op : Nat) : MovCmd := { MovCmd.reset with bytes := leBytes 32 op }
def doneCmd : MovCmd := { movCmd 1 with phase := .done }

theorem meets_KvRings :
    (∀ k ∈ [RingKind.mover, .index],
      let s := kvRing k (leBytes 32 1)
      let x := kvRead k s (sramBase + 2 ^ 23)
      let d := s.modPart 0 fun x => { x with state := .destroying }
      kvServed k s = true ∧ (s.part 0).state = .active ∧ x.2.status = 0 ∧ x.2.poison = false ∧ s.clusterGone 0 = false ∧
        reaches (s.beacon 127) 1 = true ∧ s.answered (watchKey 0 (.ofRing k) 0) = none ∧ (s.cluster 0).watches = [] ∧
        kvServed k d = true ∧ (d.part 0).state = .destroying ∧ ((s.setBeacon 127 0).learn (ringSubmit k 0 0 127 0)).fired = false ∧
        (s.setBeacon 127 0).kvRingOpen k 0 0 = true) ∧
    (let s := (kvRing .mover []).setFilledRegion 6064 false
     let x := kvRead .mover s (sramBase + 2 ^ 23)
     kvServed .mover s = true ∧ x.2.status = 0 ∧ x.2.poison = true) ∧
    (let s := (kvRing .mover []).setReg (RingKind.mover.word 0 0 0) 0
     let x := kvRead .mover s sramBase
     kvServed .mover s = true ∧ x.2.status ≠ 0) ∧
    (movCmd 0).op = 0 ∧ (movCmd 5).op = 5 ∧ 5 < (movCmd 6).op ∧ (movCmd 3).op = 3 ∧
    (∀ k ∈ [RingKind.mover, .index], ((board.modRing k 0 fun r => { r with cmds := [movCmd 1] }).ringOf k 0).cmds = [movCmd 1]) ∧
    (let s := (kvRing .mover []).modRing .mover 0 fun r => { r with cmds := [doneCmd] }
     (s.ringOf .mover 0).cmds = [doneCmd] ∧ doneCmd.phase = .done ∧
       (s.writeMem (ringReq .mover 0 0) (sramBase + 2 ^ 23 + 4096) (List.replicate 32 0) false).1.holdHit = []) := by
  try dsimp only
  decide +kernel

/-- Partition 0's page table is at the start of HBM unit 0, its formats at the end of granule 32. -/
def kv (cmd : List (BitVec 8)) (entry : Nat) : State :=
  let s := ((board.wr (Reg.MOV_PT_COUNT 0 0) 1).wr (Reg.MOV_FMT_BASE 0 0) (2 ^ 17 + 1024)).setMovRing 0
    { Ring.reset with cmds := [{ MovCmd.reset with bytes := cmd }] }
  put (sramBase + 2 ^ 23 + 65536) (leBytes 16 (2 ^ 16 + 2 ^ 24 + 32 * 2 ^ 48 + 32 * 2 ^ 64)) (put 0 (leBytes 16 entry) s)

/-- A mover command: OP, handle 0, ADDR, format 0. -/
def kvCmd (op dest : Nat) : List (BitVec 8) := leBytes 32 (op + dest * 2 ^ 64)

def kvReady (op : Nat) (s : State) : Bool :=
  match s.nextMov 0 op with
  | some m => !s.tornDown 0 && decide (m.handle < s.rd (Reg.MOV_PT_COUNT (s.partHub 0) 0)) && movReserved m.bytes && (s.readPt 0 m.handle).2.1 = 0
  | none => false

theorem meets_PageMover :
    (let s := kv (kvCmd 1 65536) 0
     kvReady 1 s = true ∧ s.pageMapped 65536 = true ∧ s.holdHit = [] ∧
       (s.modPart 0 fun x => { x with state := .destroying }).tornDown 0 = true ∧ destTier 1 Pg.free 65536 ≠ Pg.ssd ∧ s.pageRights (s.movReq 0) 65536 = true ∧ (s.readFmt 0 0).2.wellFormed = true ∧
       (s.readPt 0 0).2.2.state = Pg.free) ∧
    (let s := kv (kvCmd 5 0) (65536 + 2 ^ 48)
     kvReady 5 s = true ∧ (s.readPt 0 0).2.2.state ≠ Pg.free ∧ kvReady 5 (kv (kvCmd 5 0) 0) = true) ∧
    (let s := kv (kvCmd 4 1) (65536 + 2 ^ 48 + 65534 * 2 ^ 64)
     kvReady 4 s = true ∧ ((s.readPt 0 0).2.2.refs : Int) + signedOf 16 1 = 65535) ∧
    (let s := kv (kvCmd 4 65535) (65536 + 2 ^ 48 + 2 ^ 64)
     kvReady 4 s = true ∧ ((s.readPt 0 0).2.2.refs : Int) + signedOf 16 65535 = 0) ∧
    (let s := kv (kvCmd 4 1) (65536 + 2 ^ 48 + 65535 * 2 ^ 64)
     kvReady 4 s = true ∧ ((s.readPt 0 0).2.2.refs : Int) + signedOf 16 1 = 65536) ∧
    kvReady 4 (kv (kvCmd 4 65536) 0) = true ∧ kvReady 4 (kv (kvCmd 4 0) 0) = true ∧
    (let s := kv (kvCmd 3 65536) (t2Base + 2 * 2 ^ 48)
     kvReady 3 s = true ∧ (s.readPt 0 0).2.2.state = Pg.t2 ∧ destTier 3 Pg.t2 65536 = Pg.hbm ∧ (s.readFmt 0 0).2.wellFormed = true) ∧
    (let s := kv (kvCmd 2 t2Base) (65536 + 2 ^ 48)
     kvReady 2 s = true ∧ (s.readPt 0 0).2.2.state = Pg.hbm ∧ destTier 2 Pg.hbm t2Base = Pg.t2 ∧ s.pageRights (s.movReq 0) t2Base = true) ∧
    (let m : MovCmd := { MovCmd.reset with phase := .run }
     let s := board.setMovRing 0 { Ring.reset with cmds := [m] }
     (s.movRing 0).cmds.find? (fun m => m.slot = 0 && m.phase == .run) = some m ∧ (s.nvme 0).cmds = []) ∧
    (let s := ((kv (kvCmd 3 65536) (65536 + 4 * 2 ^ 48)).setMovRing 0 { Ring.reset with cmds := [{ fenced with acks := [159] }] })
     (s.movRing 0).cmds.find? (fun m => m.slot = 0 && m.phase == .fence) = some { fenced with acks := [159] } ∧
       s.clusterGone 159 = true ∧ (s.readPt 0 0).2.1 = 0) := by
  try dsimp only
  decide +kernel
/-- The prefix table of partition 0, of one bucket, is at the start of HBM, where the tokens are too. -/
def pfx (cmd : List (BitVec 8)) : State :=
  board.setPfxRing 0
    { Ring.reset with cmds := [{ MovCmd.reset with bytes := cmd }] }

/-- An index command: OP, handle, ADDR at the tokens. -/
def pfxCmd (op handle : Nat) : List (BitVec 8) := leBytes 32 (op + handle * 2 ^ 32 + (256) * 2 ^ 64)

def pfxReady (op : Nat) (s : State) : Bool :=
  match s.nextPfx 0 op with
  | some m => !s.tornDown 0 && s.pfxFieldsOk 0 m && decide (m.dest % 64 = 0) && decide (m.dest < 2 ^ 48)
  | none => false

/-- An entry of the table: its key, and V. -/
def pfxEntry (key v : Nat) : List (BitVec 8) := leBytes 32 (key + noEntry * 2 ^ 96 + (256) * 2 ^ 128 + v * 2 ^ 176)

theorem meets_PrefixIndex :
    pfxReady 1 (pfx (pfxCmd 1 1)) = true ∧ pfxReady 1 (pfx (pfxCmd 1 4096)) = true ∧ pfxReady 1 (pfx (pfxCmd 1 0)) = true ∧
    pfxReady 1 (pfx (pfxCmd 1 4097)) = true ∧
    (let s := pfx (pfxCmd 2 noEntry)
     pfxReady 2 s = true ∧ (s.parentKey 0 noEntry).2.1 = 0 ∧ (s.parentKey 0 noEntry).2.2 = some 0 ∧
       (s.readTokens 0 (256)).2.1 = 0 ∧ s.pfxBuckets 0 = 1 ∧ (s.readBucket 0 0).2.1 = 0 ∧
       (s.readBucket 0 0).2.2.findIdx? (fun e => ¬ e.valid) = some 0 ∧
       (State.listedWay 0 1 noEntry [] ((List.range 4).zip (s.readBucket 0 0).2.2) s).2 = (0, none)) ∧
    (let s := put 0 ((List.range 4).flatMap fun n => pfxEntry n 1) (pfx (pfxCmd 2 noEntry))
     pfxReady 2 s = true ∧ (s.readBucket 0 0).2.1 = 0 ∧ (s.readBucket 0 0).2.2.findIdx? (fun e => ¬ e.valid) = none ∧
       (State.listedWay 0 9 noEntry [] ((List.range 4).zip (s.readBucket 0 0).2.2) s).2 = (0, none) ∧
       (State.listedWay 0 3 noEntry (List.replicate 256 0) ((List.range 4).zip (s.readBucket 0 0).2.2) s).2 = (0, some 3)) ∧
    ((pfx (pfxCmd 1 1)).modPart 0 fun x => { x with state := .destroying }).tornDown 0 = true ∧
    (let s := put 0 (pfxEntry 5 1) (pfx (pfxCmd 3 0))
     pfxReady 3 s = true ∧ 0 < 4 * s.pfxBuckets 0 ∧ (s.readIndex 0 0).2.1 = 0 ∧
       ((s.readIndex 0 0).2.2.map (·.valid)) = some true ∧ ((s.readIndex 0 3).2.2.map (·.valid)) = some false) := by
  try dsimp only
  decide +kernel

/-- Bucket 0 is the only one: every key falls in it. -/
theorem meets_PrefixIndex_bucket (h : Nat) : h % (pfx (pfxCmd 2 noEntry)).pfxBuckets 0 = 0 := by
  have : (pfx (pfxCmd 2 noEntry)).pfxBuckets 0 = 1 := by decide +kernel
  rw [this]; exact Nat.mod_one h
/-- A page in a state, with nothing else of it changed. -/
def inState (p : Page) (n : Nat) : State := board.wr (Reg.STATE_STATE p) n

def dis : Page := ⟨.dis, 0⟩
def cph : Page := ⟨.cph, 0⟩

theorem meets_PageStates :
    dis.exists? = true ∧ cph.exists? = true ∧
    (let s := (inState cph 1).wr (Reg.CFG_CRC_REF cph) 1
     s.st cph = PS.disabled ∧ s.reg (Reg.CFG_CRC_LIVE cph).addr ≠ s.reg (Reg.CFG_CRC_REF cph).addr) ∧
    (let s := inState cph 1
     s.st cph = PS.disabled ∧ s.reg (Reg.CFG_CRC_LIVE cph).addr = s.reg (Reg.CFG_CRC_REF cph).addr ∧ s.badCfg cph = false ∧
       memUnitsOf cph = []) ∧
    (inState cph 0).st cph = PS.off ∧ (inState cph 2).st cph = PS.enabling ∧ (inState cph 3).st cph = PS.enabled ∧
    (inState cph 4).st cph = PS.draining ∧ (inState cph 5).st cph = PS.fenced ∧ (inState cph 6).st cph = PS.resetting ∧
    (inState ⟨.cor, 0⟩ 2).st ⟨.cor, 0⟩ = PS.enabling ∧
    (let s := with0 (inState ⟨.cor, 0⟩ 4) fun c => { c with run := .halted }
     s.st ⟨.cor, 0⟩ = PS.draining ∧ s.coreQuiet 0 = true ∧ (s.core 0).pend = []) ∧
    dis.errMask.getLsbD 0 = true ∧ (inState dis 4).st dis = PS.draining ∧ (inState cph 5).stuck cph = false ∧
    (inState ⟨.cor, 1⟩ 5).st ⟨.cor, 1⟩ = PS.fenced ∧ (inState ⟨.cor, 1⟩ 5).stuck ⟨.cor, 1⟩ = true := by
  try dsimp only
  decide +kernel

theorem meets_PageConfiguration :
    (let s := inState dis 3
     let live := (s.upsetConfig dis []).wr (Reg.CFG_CRC_LIVE dis) ((s.upsetConfig dis []).cfgCrc dis).toNat
     live.st dis = PS.enabled ∧ live.rd (Reg.CFG_CRC_LIVE dis) ≠ live.rd (Reg.CFG_CRC_REF dis)) ∧
    (let s := (inState dis 3).wr (Reg.CFG_CRC_REF dis) ((inState dis 3).cfgCrc dis).toNat
     s.st dis ≠ PS.off ∧ ((s.upsetConfig dis []).cfgCrc dis).toNat = s.rd (Reg.CFG_CRC_REF dis)) ∧
    (inState dis 1).st dis = PS.disabled ∧ (inState dis 0).st dis = PS.off ∧
    ((inState dis 3).wr (Reg.BUCKET_CFG_PERIOD dis) 1).rd (Reg.BUCKET_CFG_PERIOD dis) ≠ 0 ∧
    (inState dis 3).rd (Reg.BUCKET_LEVEL_LEVEL dis) < (1#32).toNat % 2 ^ 16 ∧
    (inState dis 3).reg (Reg.CFG_CRC_REF dis).addr ≠ 1#32 := by
  try dsimp only
  decide +kernel

def fw0 : Req := .fwp 0 0

theorem meets_RegisterAccesses :
    (wordAt (Reg.CTRL_ENABLE cph).addr = some (cph, 8) ∧ auxMissing cph 8 1 .plain = false ∧ implemented (Reg.CTRL_ENABLE cph).addr 4 true = true ∧
      board.access fw0 (regBase + (Reg.CTRL_ENABLE cph).addr) 4 = 0 ∧ board.pageGone cph 8 = false) ∧
    (wordAt (cph.base + 0x40) = some (cph, 0x40) ∧ implemented (cph.base + 0x40) 4 true = true ∧
      (inState cph 5).pageGone cph 0x40 = true ∧ (inState cph 5).access fw0 (regBase + (cph.base + 0x40)) 4 = St.unitAbsent ∧
      (inState cph 5).target (regBase + (cph.base + 0x40)) 4 = .reg (cph.base + 0x40) ∧ board.fnServes 0 0 = true ∧
      State.reset.fnServes 0 0 = false ∧ board.access (.host 0) (regBase + (Reg.CTRL_ENABLE cph).addr) 4 = 0) ∧
    reachesWord (cph.base + 0xFFC) 4 true = false ∧ board.hostServes fw0 = true ∧
    (wordAt (cph.base + 0xFFC) = none ∧ implemented (cph.base + 0xFFC) 4 true = false ∧
      board.access fw0 (regBase + (cph.base + 0xFFC)) 4 = 0) ∧
    (let s := (board.wr (Reg.D2D_LINK_STATE 40 0) D2d.failed)
     s.access fw0 (regBase + (Page.mk .cor 0).base) 4 ≠ 0 ∧ wordAt (Page.mk .cor 0).base = some (⟨.cor, 0⟩, 0)) ∧
    implemented (cph.base + 0xFFC) 4 true = false ∧ board.permitted fw0 (.reg (cph.base + 0xFFC)) = true ∧
    board.permitted (.slice 0) (.reg (cph.base + 0xFFC)) = false ∧ board.fnServes 0 1 = true ∧
    (inState cph 1).st cph = PS.disabled ∧ (inState cph 3).st cph ≠ PS.disabled := by
  try dsimp only
  decide +kernel

def zeros64 : List (BitVec 8) := List.replicate 64 0

theorem meets_MemoryAccesses :
    (let r : Req := .fwp 0 0
     zeros64.length = 64 ∧ board.hostServes r = true ∧ board.home 0 = 0 ∧ board.chkErrors 0 = 0 ∧ board.isClean 0 = true ∧
       (board.setRegion 0 false).isClean 0 = false ∧ board.target t2Base 64 = .t2 0 ∧ board.chkErrors (alwaysOnKey 0) = 0 ∧ (board.target 0 64).stores = true ∧ board.tgt 0 = board.target 0 64 ∧ board.access r 0 64 = 0 ∧
       board.pendingPart 0 = none ∧ board.armedAt 31 0 = none) ∧
    (let b := t2Base + 32 * t2Size - 64
     let s := pages 3 [⟨.lpc, 7⟩] board
     (s.target b 64).stores = true ∧ s.tgt b = s.target b 64 ∧ s.access fw0 b 64 = 0 ∧ s.armedAt 31 b = none) ∧
    (let s := board.setRegion 0 false
     (s.loadAt 0 64 0).2.poison = true ∧ (s.countRead (s.tgt 0)).armedAt 30 0 = none) ∧
    (State.reset.target 0 64).stores = true ∧ State.reset.access fw0 0 64 ≠ 0 ∧
    (let x : Reply := ⟨fw0, 0, 0, 0, [], false⟩
     let s := { board with replies := [x] }
     s.replies.find? (fun y => y.req = fw0) = some x ∧ s.st (s.pageOf fw0) ≠ PS.fenced ∧ s.st (s.pageOf fw0) ≠ PS.resetting ∧
       s.rd (Reg.STATE_EPOCH (s.pageOf fw0)) = 0 ∧ (s.wr (Reg.STATE_EPOCH (s.pageOf fw0)) 1).rd (Reg.STATE_EPOCH (s.pageOf fw0)) ≠ 0) := by
  try dsimp only
  decide +kernel
theorem meets_Protection :
    (2 ^ 48 ≤ dmemKey 0 0 + 7 ∧ (dmemKey 0 0 + 7) % 8 + 1 ≤ 8 ∧ board.isClean (unitOf (dmemKey 0 0 + 7)) = true ∧
      State.reset.isClean (unitOf (dmemKey 0 0)) = false) ∧
    PatrolCtl.enabled (board.wr (Reg.DIE_SCRUB_CFG_EN 0 0) 0) (.hmc 0) = false ∧
    (let s := board.wr (Reg.DIE_SCRUB_CFG_EN 0 0) 1
     let c : PatrolCtl := .hmc 0
     c.enabled s = true ∧ c.next s 40 (s.rd c.pos) = s.rd c.pos ∧ s.rd c.pos + 1 < c.size ∧ s.unitAbsent (c.unit (s.rd c.pos)) = false) ∧
    (let s := board.setPart 0 { board.part 0 with hbm := 0#80, t2 := 0#32 }
     s.armRefused (.hmc 0) = false ∧ board.armRefused (.hmc 0) = true) ∧
    (let c : PatrolCtl := .hmc 0
     let s := board.modPatrol c.key fun f => { f with due := [2] }
     (s.patrol c.key).due = [2] ∧ s.retired (2 * 4096) = false ∧ (s.retireInto (2 * 4096)).isSome = true) ∧
    (let c : PatrolCtl := .hmc 0
     let s := ((board.retireInto 0).getD board).modPatrol c.key fun f => { f with due := [0] }
     (s.patrol c.key).due = [0] ∧ s.retired 0 = true) ∧
    (let s := (board.retireEntries 0).foldl (fun s e => (s.wr e.1 9999).wr e.2 1) board
     s.retired 0 = false ∧ s.retireInto 0 = none) := by
  try dsimp only
  decide +kernel

/-- A message of an opcode with a payload. -/
def msgOf (op : Nat) (payload : List (BitVec 8)) : List (BitVec 8) :=
  leBytes 2 op ++ [0, 1] ++ leBytes 2 payload.length ++ leBytes 2 7 ++ List.replicate 8 0 ++ payload

/-- The message waits in page 0 of hub 0, sent through link 0. -/
def mail (op : Nat) (payload : List (BitVec 8)) (s : State) : State := Res.stateOr (execMbxGo 0 0 0 (.data (msgOf op payload) false) s) s

/-- A page whose owner serves an opcode and that holds a message of a length. -/
def serves (op n : Nat) (s : State) : Bool := s.serves op 0 0 && decide ((s.message 0 0).length = n)

theorem meets_Mailboxes :
    (board.st (mbxPage 0) = PS.enabled ∧ board.absentPage (mbxPage 0) = false ∧ board.on (Reg.MBX_STAT_BUSY 0) = false) ∧
    board.fnMaster 0 0 = true ∧ State.reset.fnMaster 0 0 = false ∧ board.linkLost 0 = false ∧
    (let s := (mail 1 [] board).modMbx 0 fun b => { b with unread := true }
     (s.mbx 0).unread = true ∧ s.fnMaster (s.rd (Reg.MBX_STAT_LINK 0)) 0 = true) ∧
    (let s := mail 1 [] board
     s.st (mbxPage 0) = PS.enabled ∧ s.on (Reg.MBX_STAT_BUSY 0) = true) ∧
    (let s := pages 3 [mbxPage 62] board
     s.st (mbxPage 62) = PS.enabled ∧ s.on (Reg.MBX_STAT_BUSY 62) = false) ∧
    (let s := (mail 1 [] board).modMbx 0 fun b => { b with reply := some (0, []) }
     (s.mbx 0).reply = some (0, []) ∧ s.on (Reg.MBX_STAT_BUSY 0) = true) ∧
    (let s := mail 0x20 (leBytes 20 (4096 * 2 ^ 64 + 2 ^ 16 * 2 ^ 128)) board
     let m := s.message 0 0
     serves 0x20 20 s = true ∧ fwpExists (m.f 1 1) (m.f 0 1) = true ∧ m.f 2 6 = 0 ∧ m.f 8 8 = 4096 ∧ m.f 16 4 = 2 ^ 16 ∧ m.src.mctp = false) ∧
    (let s := mail 0x21 (leBytes 40 (3840 * 2 ^ 16)) board
     let m := s.message 0 0
     serves 0x21 40 s = true ∧ fwpExists (m.f 1 1) (m.f 0 1) = true ∧ m.f 2 2 = 3840 ∧ m.f 4 4 = 0) := by
  try dsimp only
  decide +kernel

/-- A shape: cluster 1, weight 1, nothing else. -/
def shape (p : Nat) : List (BitVec 8) := leBytes 64 (p + 2 ^ 16 + 2 ^ 65 + 32 * 2 ^ 448)

theorem meets_PartitionLife :
    (let s := pages 3 [⟨.clu, 1⟩] (mail 0x210 (shape 11) board)
     let x := (s.message 0 0).shape
     serves 0x210 64 s = true ∧ (s.message 0 0).f 0 1 = 11 ∧ x.clusters = 2#160 ∧ x.weight = 1#8 ∧ x.rangesOk = true ∧ s.shapeAbsent x = false ∧ (s.message 0 0).f 38 2 = 0 ∧
       (s.begun 0x210 0 0).shapeAbsent x = false ∧ (s.part 11).state = .free ∧ ∀ r < 12, r ≠ 11 → (s.part r).state = .free ∨ x.clash (s.part r) = false) ∧
    (let s := mail 0x210 (leBytes 64 (11 + 2 ^ 16 + 2 ^ 64 + 32 * 2 ^ 448)) board
     let x := (s.message 0 0).shape
     serves 0x210 64 s = true ∧ (s.begun 0x210 0 0).shapeAbsent x = false ∧ (s.part 0).state ≠ .free ∧ x.clash (s.part 0) = true) ∧
    (let s := board.setPart 0 { board.part 0 with state := .creating }
     (s.part 0).state = .creating ∧ (∀ gc ∈ s.clustersOf 0, s.st ⟨.clu, gc⟩ ≠ PS.resetting) ∧
       ∃ gc ∈ (pages 6 [⟨.clu, 0⟩] s).clustersOf 0, (pages 6 [⟨.clu, 0⟩] s).st ⟨.clu, gc⟩ = PS.resetting) ∧
    (let s := mail 0x212 (leBytes 6 (255 * 2 ^ 16)) board
     serves 0x212 6 s = true ∧ (s.message 0 0).f 0 1 = 0 ∧ (s.message 0 0).f 2 1 = 255 ∧ (s.part 0).state = .active) ∧
    (let s := mail 0x212 (leBytes 6 (11 + 2 ^ 16)) board
     serves 0x212 6 s = true ∧ (s.message 0 0).f 0 1 = 11 ∧ (s.part 11).state ≠ .active) ∧
    (let s := mail 0x211 [0] board
     serves 0x211 1 s = true ∧ (s.message 0 0).f 0 1 = 0 ∧ (s.part 0).state = .active ∧ s.slices = [] ∧ (s.begun 0x211 0 0).snapRuns 0 = false) ∧
    (let s := mail 0x211 [0] sliced
     serves 0x211 1 s = true ∧ ∃ e ∈ s.slices, ∃ y ∈ e.2, y.part = 0) ∧
    (let s := board.setPart 0 { board.part 0 with state := .destroying }
     (s.part 0).state = .destroying ∧ (∀ gc ∈ s.clustersOf 0, s.st ⟨.clu, gc⟩ ≠ PS.resetting) ∧
       (pages 6 [⟨.clu, 0⟩] s).st ⟨.clu, 0⟩ = PS.resetting ∧ s.clustersOf 0 = [0]) ∧
    (∀ r < 12, board.strictOn r = false) ∧
    (let s := board.modPart 0 fun x => { x with strict := true, weight := 2 }
     s.strictOn 0 = true ∧ s.mayServe 0 0 0 0 1 (fun _ => true) = true ∧ s.strictOn 1 = false ∧ s.strictOn (2499 / 2500 % 12) = true) ∧
    (let s := board.modPart 0 fun x => { x with weight := 2 }
     s.turnPart 0 0 (fun _ => true) = some 0 ∧ (s.turnOf 0).left = 0 ∧ (s.part 0).weight ≠ 0#8) := by
  try dsimp only
  decide +kernel

/-- SLICE_CREATE of slice 255 in partition 0 on function 3, PASID 2^20 - 1, without a window, with a log of 8 pages. -/
def newSlice (k fn : Nat) : List (BitVec 8) :=
  leBytes 64 (k + fn * 2 ^ 16 + 2 ^ 24 + (2 ^ 20 - 1) * 2 ^ 64 + 8 * 2 ^ 384)

theorem meets_SliceLife :
    (let s := mail 0x220 (newSlice 255 3) board
     let m := s.message 0 0
     serves 0x220 64 s = true ∧ m.f 0 1 = 255 ∧ m.f 2 1 = 3 ∧ m.f 8 4 = 2 ^ 20 - 1 ∧ m.f 48 8 = 8 ∧ m.f 24 8 = 0 ∧ (s.tgt (m.f 16 8)).windowed = true ∧
       m.f 4 2 = ((s.link 0).getFns 3).rid.toNat ∧ m.onLink 0 = true ∧ (s.part 0).state = .active ∧ s.slice 255 = none ∧ s.slices = []) ∧
    (let s := mail 0x220 (newSlice 255 1) (board.setSlice 0 (some { Slice.reset with pasid := 0xFFFFF#20 }))
     serves 0x220 64 s = true ∧ s.beaconOfPart 0 ((s.message 0 0).f 12 2) = true ∧
       ∃ e ∈ s.slices, ∃ x ∈ e.2, s.partHub x.part = 0 ∧ x.rid.toNat = 0 ∧ x.pasid.toNat = 2 ^ 20 - 1) ∧
    (let s := mail 0x220 (newSlice 255 1) board
     serves 0x220 64 s = true ∧ ((s.setPart 0 { s.part 0 with link := 1 }).part 0).state ≠ .free ∧ (s.message 0 0).onLink 1 = false) ∧
    (let s := mail 0x221 [0] sliced
     serves 0x221 1 s = true ∧ (s.message 0 0).onLink 0 = true ∧ ((s.slice 0).map (·.dying)) = some none) ∧
    (let s := mail 0x222 [0] (board.setSlice 0 (some { Slice.reset with dlog := true }))
     serves 0x222 1 s = true ∧ ((s.slice 0).map (·.dlog)) = some true) ∧
    (let x : Slice := { Slice.reset with dlog := true, logPages := 8 }
     x.inLog 32767 1 = true ∧ x.inLog 32768 1 = false ∧ x.missed ≠ 0xFFFFFFFF#32 ∧ (newSlice 255 3).length = 64 ∧ 7 ∈ touched 32767 1) := by
  try dsimp only
  decide +kernel

/-- Core 0 is in STUB, and the image table of cluster 0 is at 32 in HBM. -/
def stub (s : State) : State := (with0 s fun c => { c with run := .stub }).wr (Reg.CLU_FW_BASE_LO 0) 32

theorem meets_StubRuns :
    ((with0 board fun c => { c with run := .stub }).core 0).run = .stub ∧ board.rd (Reg.CLU_FW_BASE_LO 0) = 0 ∧
    (let s := put 32 (leBytes 16 (256 + 4 * 2 ^ 64 + (crc32c [0, 0, 0, 0]).toNat * 2 ^ 96)) (stub board)
     let x := s.readMem fw0 32 32
     let e := ImageEntry.ofBytes x.2.data
     s.rd (Reg.CLU_FW_BASE_LO 0) = 32 ∧ s.lcOf 0 0 = some 0 ∧ x.2.whole = 0 ∧ x.1.rangeHeld 0 e.codeAddr e.codeBytes = true ∧ e.dataBytes = 0 ∧
       e.bad = false ∧ x.1.inTiers e.codeAddr e.codeBytes = true ∧ (x.1.readMem fw0 e.codeAddr e.codeBytes).2.whole = 0 ∧
       crc32c (x.1.readMem fw0 e.codeAddr e.codeBytes).2.data = BitVec.ofNat 32 e.codeCrc) ∧
    (let s := put 32 (leBytes 16 (256 + 4 * 2 ^ 64)) (stub board)
     let x := s.readMem fw0 32 32
     let e := ImageEntry.ofBytes x.2.data
     x.2.whole = 0 ∧ e.bad = false ∧
       crc32c (x.1.readMem fw0 e.codeAddr e.codeBytes).2.data ≠ BitVec.ofNat 32 e.codeCrc) ∧
    (let s := put 32 (leBytes 16 (256 + 4 * 2 ^ 64)) (stub ((board.setPart 0 { board.part 0 with hbm := 0#80 })))
     let x := s.readMem fw0 32 32
     let e := ImageEntry.ofBytes x.2.data
     x.2.whole = 0 ∧ ¬ x.1.rangeHeld 0 e.codeAddr e.codeBytes = true) ∧
    (((stub board).setRegion 0 false).readMem fw0 32 32).2.whole ≠ 0 ∧
    (board.reg ((Page.mk .cor 0).base + 0x1C)).getLsbD 17 = false := by
  try dsimp only
  decide +kernel
/-- A slice on function 1 with a window of 4 KiB at the start of HBM, and job queue 15 of it. -/
def win : Slice := { Slice.reset with active := true, pasid := 1, beacon := 5, winSize := 4096 }
def job : JobQ := { JobQ.reset with sqTail := 1, post := 9, log2Stage := 1, stageBase := 0x20000#20 }
def jobs (q : JobQ) : State := (board.setSlice 0 (some win)).setJobq 15 (some q)

def read9 : Tag := { Tag.reset with tag := 16383, fn := 1, req := .read (.slice 0) 0 64 }
def tagged (t : Tag) : State := board.modLink 0 fun k => { k with tags := [t] }

theorem meets_HostWindows :
    (board.fnServes 0 0 = true ∧ 0 + (BarAccess.read 4).size ≤ 2 ^ (board.link 0).getBar2Log2 0 ∧ (board.target 0 4).windowed = true ∧
      2 ^ (board.link 0).getBar2Log2 0 < 2 ^ (board.link 0).getBar2Log2 0 - 3 + (BarAccess.read 4).size) ∧
    (let s := jobs job
     s.fnServes 0 1 = true ∧ s.pf1Slice 0 0 = some win ∧ 4092 + (BarAccess.read 4).size ≤ win.winSize.toNat ∧
       win.winSize.toNat < 4093 + (BarAccess.read 4).size) ∧
    (BarAccess.read 4).size ≤ board.maxPayload 0 0 ∧ (board.target (2 ^ 47) 4).windowed = false ∧ (BarAccess.read 4).poison = false ∧
    (let s := jobs job
     let part := 2 ^ (s.link 0).getBar2Log2 1 / 256
     4 ≤ s.maxPayload 0 1 ∧ 4092 / part = 0 ∧ 4093 / part = 0 ∧ 4093 % part + 4 = 4097 ∧ 4093 + 4 ≤ 2 ^ (s.link 0).getBar2Log2 1 ∧
       s.pf1Slice 0 1 = none) ∧
    (let s := board.modLink 0 fun k => k.setFns 1 { Fn.reset with d3 := true }
     s.fnServes 0 1 = false ∧ (s.link 0).up = true ∧ ((s.link 0).getFns 1).d3 = true) ∧
    (board.st (pcePage 0) ≠ PS.off ∧ board.pageGone (pcePage 0) (0x800 + 16 * 63) = false ∧ board.pageGone (pcePage 0) 0x70 = false) ∧
    (board.link 0).up = true ∧ board.fnServes 0 3 = true ∧
    (let f : Fn := { Fn.reset with bme := true, msixEn := true, pba := [(2047, true)] }
     let s := board.modLink 0 fun k => k.setFns 1 f
     s.fnServes 0 1 = true ∧ ((s.link 0).getFns 1).msixEn = true ∧ ((s.link 0).getFns 1).bme = true ∧ s.pba 0 1 2047 = true) ∧
    ((tagged read9).link 0).tags.find? (fun y => y.tag = 16383 && !y.quar) = some read9 ∧
    ((tagged { read9 with quar := true, flr := true }).link 0).tags.find? (fun y => y.tag = 16383) = some { read9 with quar := true, flr := true } ∧
    (board.link 0).tags.find? (fun y => y.tag = 16383) = none := by
  try dsimp only
  decide +kernel

theorem meets_JobQueueService :
    (let s := jobs job
     s.fnServes 0 1 = true ∧ s.pf1Slice 0 0 = some win ∧ win.suspended = false ∧ s.liveJobq 15 = some job ∧ s.slice 0 = some win ∧
       s.jqRuns 0 job = true ∧ job.sqHead ≠ job.sqTail ∧ s.st ⟨.dis, 0⟩ = PS.enabled) ∧
    (let s := jobs job
     let r := s.sliceRead 0 0 64 (.data descAny false)
     r.2.status = St.ok ∧ r.2.poison = false ∧ r.2.data.length = 64 ∧ fieldAt r.2.data 12 1 = 0 ∧ r.1.descStatus 0 r.2.data = St.ok ∧
       r.1.descStatus 0 (leBytes 64 2) = St.badParam ∧ St.badParam ∈ St.order) ∧
    ((jobs job).sliceRead 0 0 64 (.data descAny true)).2.poison = true ∧
    (let x := { win with suspended := true }
     (board.setSlice 0 (some x)).pf1Slice 0 0 = some x ∧ board.pf1Slice 0 0 = none) ∧
    (let s := (jobs { job with sqTail := 0 }).setBeacon 9 1
     let w := s.learn (postWatch 0 15 job)
     w.fired = true ∧ (w.state.readMem (.hub 0 .job 0) (sramBase + 0x20000 * 64) 25).2.status = St.ok ∧
       (w.state.readMem (.hub 0 .job 0) (sramBase + 0x20000 * 64) 25).2.poison = false ∧
       ((jobs job).learn (postWatch 0 15 job)).fired = false) ∧
    ((board.setSlice 0 (some win)).pf1Slice 0 0 = some win ∧ (board.setSlice 0 (some win)).liveJobq 15 = none) ∧
    HostRead.data descAny true ≠ .timeout ∧
    (let q := { job with ready := [([1], false)], written := 1, vector := 2047 }
     (jobs q).liveJobq 15 = some q ∧ (jobs q).jqRuns 0 q = true ∧ q.written - q.released < 2 ^ q.log2Cq ∧ q.vector.toNat < 2048) := by
  try dsimp only
  decide +kernel

/-- JQ_CREATE of queue 15 of slice 0, with its beacons at 0 and staging of 2^12 slots. -/
def newJq : List (BitVec 8) := leBytes 36 (15 * 2 ^ 8 + 12 * 2 ^ 200 + 2047 * 2 ^ 208 + (2 ^ 20 - 1) * 2 ^ 224)

theorem meets_JobQueueLife :
    (let s := mail 0x120 newJq (board.setSlice 0 (some win))
     let m := s.message 0 0
     serves 0x120 36 s = true ∧ s.slice 0 = some win ∧ win.dying = none ∧ m.onLink (s.partHub 0) = true ∧ win.func = 1 ∧ m.f 1 1 = 15 ∧
       m.f 25 1 = 12 ∧ m.f 26 2 = 2047 ∧ m.f 28 4 = 2 ^ 20 - 1 ∧ s.beaconOfPart 0 (m.f 32 2) = true ∧ s.beaconOfPart 0 (m.f 34 2) = true ∧
       s.liveJobq 15 = none) ∧
    (let s := mail 0x120 newJq (jobs job)
     serves 0x120 36 s = true ∧ s.liveJobq 15 ≠ none) ∧
    (let s := mail 0x121 [0, 15] (jobs job)
     serves 0x121 2 s = true ∧ s.liveJobq 15 ≠ none ∧ serves 0x121 2 (mail 0x121 [0, 15] (board.setSlice 0 (some win))) = true) ∧
    (let s := board.wr (Reg.FWP_LINK_STATE 0 0) LinkSt.attached
     s.rd (Reg.FWP_LINK_STATE 0 0) = LinkSt.attached ∧
       ((s.setLossOf 0 { armed := true, cause := 0#8 }).lossOf 0).armed = true ∧
       (s.reg ((Page.mk .fwp 0).base + 0x1C)).getLsbD 18 = false ∧ (s.lossOf 0).armed = false) ∧
    (let s := board.wr (Reg.FWP_LINK_STATE 0 0) LinkSt.lost
     s.rd (Reg.FWP_LINK_STATE 0 0) = LinkSt.lost ∧ ((s.link 0).getFns 0).bme = true ∧ ((s.link 1).getFns 0).bme = false) ∧
    (let s := mail 0x2 [0, 0, 0, 0] (board.wr (Reg.FWP_LINK_STATE 0 0) LinkSt.reattach)
     serves 0x2 4 s = true ∧ (s.message 0 0).src.mctp = false) ∧
    (let s := mail 0x3 [1] (board.wr (Reg.FWP_LINK_STATE 0 0) LinkSt.reattach)
     serves 0x3 1 s = true ∧ (s.message 0 0).f 0 1 = 1 ∧ s.rd (Reg.FWP_LINK_STATE 0 0) = LinkSt.reattach) ∧
    (let s := mail 0x3 [1] (board.wr (Reg.FWP_LINK_STATE 0 0) LinkSt.attached)
     serves 0x3 1 s = true ∧ s.rd (Reg.FWP_LINK_STATE 0 0) ≠ LinkSt.reattach) := by
  try dsimp only
  decide +kernel

/-- Port 0 in a state at a rate, on a pair, with lanes locked. -/
def eth (st rate pair lanes degrade : Nat) : State :=
  (((((board.wr (Reg.ETH_LINK_STATE 0) st).wr (Reg.ETH_LINK_RATE 0) rate).wr (Reg.ETH_LINK_PAIR 0) pair).wr (Reg.ETH_LINK_LANES_OK 0) lanes).wr
    (Reg.ETH_CFG_DEGRADE_EN 0) degrade)

def ethQuiet (s : State) : Bool :=
  let w := s.reg ((ethPage 0).base + 0x1C)
  !w.getLsbD 16 && !w.getLsbD 17 && !w.getLsbD 3

theorem meets_EthernetPorts :
    (let s := eth EthSt.down 0 0 0 0
     s.st (ethPage 0) = PS.enabled ∧ s.pageGone (ethPage 0) 0x44 = false ∧ s.rd (Reg.ETH_LINK_STATE 0) = EthSt.down ∧ s.ethMayTrain 0 = true ∧
       ({ s with pins := { s.pins with lostGroups := 0x8000#16 } } : State).ethMayTrain 0 = false) ∧
    (let s := eth EthSt.train800 0 0 15 1
     s.rd (Reg.ETH_LINK_STATE 0) = EthSt.train800 ∧ s.rd (Reg.ETH_LINK_LANES_OK 0) = 15 ∧ s.on (Reg.ETH_CFG_DEGRADE_EN 0) = true ∧
       s.pairLocked 0 0 = true) ∧
    ((eth EthSt.train800 0 0 14 1).pairLocked 0 0 = false ∧ (eth EthSt.train800 0 0 14 1).pairLocked 0 1 = true ∧
      (eth EthSt.train800 0 0 14 1).rd (Reg.ETH_LINK_LANES_OK 0) ≠ 15 ∧ (eth EthSt.train800 0 0 14 0).on (Reg.ETH_CFG_DEGRADE_EN 0) = false ∧
      (eth EthSt.train800 0 0 6 1).pairLocked 0 0 = false ∧ (eth EthSt.train800 0 0 6 1).pairLocked 0 1 = false) ∧
    (let s := eth EthSt.train400 0 1 15 1
     s.rd (Reg.ETH_LINK_STATE 0) = EthSt.train400 ∧ s.pairLocked 0 (s.rd (Reg.ETH_LINK_PAIR 0)) = true ∧ ethQuiet s = true ∧
       (s.port 0).tried.getLsbD 0 = false ∧ s.pairLocked 0 0 = true) ∧
    (let s := eth EthSt.up 2 0 15 1
     s.rd (Reg.ETH_LINK_STATE 0) = EthSt.up ∧ ethQuiet s = true ∧ s.rd (Reg.ETH_LINK_RATE 0) = 2 ∧
       (s.wr (Reg.ETH_LINK_LANES_OK 0) 14).pairLocked 0 1 = true ∧ (s.wr (Reg.ETH_LINK_LANES_OK 0) 7).pairLocked 0 0 = true) ∧
    (let s := eth EthSt.up 1 1 12 1
     s.rd (Reg.ETH_LINK_RATE 0) ≠ 2 ∧ 3 / 2 = s.rd (Reg.ETH_LINK_PAIR 0) ∧ 1 / 2 ≠ s.rd (Reg.ETH_LINK_PAIR 0)) ∧
    board.sramWriteHeld fw0 = false ∧ board.pageGone (clsPage 0) 0x58 = false ∧
    ((board.modSnap 0 fun x => { x with held := [{ addr := sramBase, runs := [], who := some fw0, owed := none, engine := false }] }).sramWriteHeld fw0 = true) ∧
    board.st (clsPage 0) ≠ PS.fenced ∧ board.st (clsPage 0) ≠ PS.resetting ∧ board.st (clsPage 0) ≠ PS.off ∧
    (pages 5 [clsPage 0] board).st (clsPage 0) = PS.fenced := by
  try dsimp only
  decide +kernel
/-! ## Witnesses: Ethernet frames, security associations, egress -/

/-- A 64-byte frame of a type, its FCS in order; a UDP frame to a port. -/
def plain (etype : Nat) : List (BitVec 8) :=
  let f := List.replicate 12 2#8 ++ beBytes 2 etype ++ List.replicate 46 0#8
  f ++ fcs f
def udp (dport : Nat) : List (BitVec 8) :=
  let f := List.replicate 12 2#8 ++ beBytes 2 0x800 ++ [0x45#8, 0#8] ++ beBytes 2 68 ++ [0#8, 0#8, 0#8, 0#8, 64#8, 17#8] ++
    List.replicate 10 0#8 ++ beBytes 2 0 ++ beBytes 2 dport ++ beBytes 2 48 ++ List.replicate 42 0#8
  f ++ fcs f

/-- Port 0 is UP; classifier 0 has a table of one leaf of an action and a queue at the start of hub SRAM. -/
def ruled (action queue : Nat) : State :=
  let s := ((eth EthSt.up 2 0 15 1).wr (Reg.CLS_TBL_COUNT 0) 1).wr (Reg.CLS_PARSE_SDT_PORT 0) 4791
  (s.wr (Reg.CLS_TBL_BASE 0) 2048).hubPut 0 (2048 * 64) (leBytes 8 (2 ^ 63 + 2 ^ 61 + action * 2 ^ 48 + queue * 2 ^ 32) ++ leBytes 8 0)

def fate (s : State) (frame : List (BitVec 8)) : State × Fate :=
  let u := (s.hubNow 0 0).portNow 0 0
  let f := frame.take (frame.length - 4)
  ((u.step64 (Reg.ETH_RX_FRAMES_LO 0)).step64 (Reg.ETH_RX_BYTES_LO 0) frame.length).classify 0 0
    ((parse f (s.rd (Reg.CLS_PARSE_SDT_PORT 0)) (s.rd (Reg.CLS_PARSE_VXLAN_PORT 0))).key f 0) frame.length 0

/-- Function 3 of link 0 may master, slice 0 belongs to it, and queue pair 4095 is a given one. -/
def netted (q : NicQp) : State :=
  ((board.modLink 0 fun k => k.setFns 3 { Fn.reset with bme := true }).setSlice 0 (some { win with func := 3 })).setNicqp (qpKey 0 4095) (some q)

theorem meets_FramesReceived :
    State.reset.rd (Reg.ETH_LINK_STATE 7) ≠ EthSt.up ∧ HostRead.data [] false ≠ .timeout ∧
    (fate (ruled 3 0) (plain 0)).1.fwState (fwpKey 0 2) = Fw.running ∧
    (fate ((ruled 3 0).wr (Reg.FWP_RUN_STATE 2) 0) (plain 0)).1.fwState (fwpKey 0 2) ≠ Fw.running ∧
    (let s := ruled 3 0
     s.rd (Reg.ETH_LINK_STATE 0) = EthSt.up ∧ s.st (clsPage 0) = PS.enabled ∧ (plain 0).length = 64 ∧
       (plain 0).drop 60 = fcs ((plain 0).take 60) ∧ 64 ≤ s.rd (Reg.ETH_CFG_MAX_FRAME 0) ∧ be16 ((plain 0).take 60) 12 ≠ 0x8808 ∧
       be16 ((plain 0x8808).take 60) 12 = 0x8808 ∧ (plain 0x8808).drop 60 = fcs ((plain 0x8808).take 60)) ∧
    ([0#8, 0#8, 0#8].length < 4 ∧ (let f := List.replicate 59 0#8 ++ fcs (List.replicate 59 0#8); f.length = 63 ∧ f.drop 59 = fcs (f.take 59))) ∧
    (pages 5 [clsPage 0] (ruled 3 0)).st (clsPage 0) ≠ PS.enabled ∧
    ((fate (ruled 4 0) (plain 0)).2 == .drop) = true ∧
    ((fate (ruled 3 0) (plain 0)).2 == .fw none) = true ∧
    (let f := (udp 4791).take 82
     (parse f 4791 0).sdt = true ∧ ((fate (ruled 2 0) (udp 4791)).2 == .sdt none) = true ∧ (fate (ruled 2 0) (udp 4791)).1.serving ⟨.sdt, 0⟩ = true ∧
       (parse ((udp 4790).take 82) 4791 0).sdt = false ∧ ((fate (ruled 2 0) (udp 4790)).2 == .sdt none) = true) ∧
    ((fate (ruled 1 4095) (plain 0)).2 == .nic 4095 0) = true ∧
    (let y := { NicQp.reset with rxTail := 1 }
     let v := netted y
     board.nicqp (qpKey 0 4095) = none ∧ v.nicqp (qpKey 0 4095) = some y ∧ v.qpRuns 0 y = true ∧ y.rxHead ≠ y.rxTail ∧ y.room = true ∧
       v.qpRuns 0 { y with error := true } = false) := by
  try dsimp only
  decide +kernel

def newQp : List (BitVec 8) := leBytes 64 (4095 + 0x10000 * 2 ^ 64 + (1 + 15 * 16) * 2 ^ 256 + 16 * 2 ^ 264 + 2047 * 2 ^ 272 + 1023 * 2 ^ 288)
def sendAny (len flags : Nat) : List (BitVec 8) := leBytes 32 (len * 2 ^ 64 + flags * 2 ^ 96)
/-- An IPv4 frame of protocol 50 (ESP) with an SPI of zeros. -/
def espFrame : List (BitVec 8) :=
  List.replicate 12 2#8 ++ beBytes 2 0x800 ++ [0x45#8, 0#8] ++ beBytes 2 68 ++ [0#8, 0#8, 0#8, 0#8, 64#8, 50#8] ++ List.replicate 58 0#8

def oneQp : NicQp := { NicQp.reset with txTail := 1 }
def saLast (iv : BitVec 64) : Sa := { Sa.reset with inbound := false, qp := 4095, spi := List.replicate 4 0#8, iv := iv }

theorem meets_QueuePairs :
    (let s := mail 0x310 newQp ((netted oneQp).setNicqp (qpKey 0 4095) none)
     let m := s.message 0 0
     serves 0x310 64 s = true ∧ s.pf3Slice 0 (m.f 2 1) = some { win with func := 3 } ∧ s.subqPart (m.f 36 2) = 0 ∧ m.src.mctp = false ∧
       m.f 0 2 = 4095 ∧ m.f 3 5 = 0 ∧ (m.bytesAt 38 26).any (· ≠ 0#8) = false ∧ m.f 8 8 = 0x10000 ∧ m.f 16 8 = 0 ∧ m.f 24 8 = 0 ∧
       m.f 32 1 = 241 ∧ m.f 33 1 = 16 ∧ m.f 34 2 = 2047 ∧ m.f 36 2 = 1023 ∧ m.src.link = 0 ∧ s.nicqp (qpKey 0 4095) = none) ∧
    (let s := mail 0x310 newQp (netted oneQp)
     serves 0x310 64 s = true ∧ s.nicqp (qpKey 0 4095) ≠ none) ∧
    (netted oneQp).nicqp (qpKey 0 4095) ≠ none ∧ (board.freeTag 0 3).isSome = true ∧
    (let s := mail 0x311 [255, 15] (netted oneQp)
     serves 0x311 2 s = true ∧ s.nicqp (qpKey 0 ((s.message 0 0).f 0 2)) ≠ none) ∧
    (let s := mail 0x311 [254, 15] (netted oneQp)
     serves 0x311 2 s = true ∧ s.nicqp (qpKey 0 ((s.message 0 0).f 0 2)) = none) ∧
    (let s := netted oneQp
     s.fnServes 0 3 = true ∧ s.nicqp (qpKey 0 0) = none ∧ s.nicqp (qpKey 0 4095) = some oneQp ∧
       s.slice oneQp.slice = some { win with func := 3 } ∧ oneQp.wait = none ∧ s.qpRuns 0 oneQp = true ∧ oneQp.txHead ≠ oneQp.txTail ∧
       oneQp.room = true) ∧
    (let x := { oneQp with wait := some (List.replicate 60 0#8, 7) }
     (netted x).nicqp (qpKey 0 4095) = some x) ∧
    (let r := (netted oneQp).sliceRead 0 0 32 (.data (sendAny 64 3) true)
     r.2.status = St.ok ∧ r.2.poison = true) ∧
    (let r := (netted oneQp).sliceRead 0 0 32 (.data (sendAny 59 0) false)
     r.2.status = St.ok ∧ r.2.poison = false ∧ fieldAt r.2.data 8 4 = 59) ∧
    (let r := (netted oneQp).sliceRead 0 0 32 (.data (sendAny 60 3) false)
     let most := r.1.rd (Reg.ETH_CFG_MAX_FRAME (r.1.qEntry 0 0).home) - 4
     let b := r.1.sliceRead 0 0 60 (.data (List.replicate 60 0#8) false)
     r.2.status = St.ok ∧ r.2.poison = false ∧ fieldAt r.2.data 8 4 = 60 ∧ 60 ≤ most ∧ fieldAt r.2.data 12 1 = 3 ∧
       fieldAt r.2.data 13 3 = 0 ∧ fieldAt r.2.data 24 8 = 0 ∧ b.2.status = St.ok ∧ b.2.poison = false ∧
       (b.1.espSeal 0 4095 0 b.2.data (parse b.2.data 0 0) true none).2.2 = St.ok) ∧
    (let s := (netted oneQp).setSa (qpKey 0 9) (some (saLast (BitVec.allOnes 64)))
     (s.espSeal 0 4095 0 espFrame (parse espFrame 0 0) true none).2.2 ≠ St.ok) ∧
    (let e : NicSend := { slot := 0, cookie := List.replicate 8 0#8, len := 60, status := some St.ok }
     let x := { oneQp with sends := [e] }
     (netted x).nicqp (qpKey 0 4095) = some x ∧ (netted x).qpRuns 0 x = true ∧ x.room = true) := by
  try dsimp only
  decide +kernel

/-- NIC_SA_ADD of association 4095: outbound for queue pair 4095, or inbound for slice 0. -/
def saOutAdd : List (BitVec 8) := leBytes 32 (4095 + 4095 * 2 ^ 32 + 31 * 2 ^ 48 + 2 ^ 64)
def saInAdd : List (BitVec 8) := leBytes 32 (4095 + 2 ^ 16 + 31 * 2 ^ 48 + 2 ^ 64 + 2 ^ 128)
def keyed (s : State) : State := s.setKey 31 (some { KeySlot.reset with key := List.replicate 32 1#8 })

theorem meets_SecurityAssociations :
    (let s := mail 0x318 saOutAdd (keyed (netted oneQp))
     let m := s.message 0 0
     serves 0x318 32 s = true ∧ s.pf3Slice 0 (m.f 3 1) = some { win with func := 3 } ∧ s.keySlotIn 0 (m.f 6 2) = true ∧ m.src.mctp = false ∧
       m.f 0 2 = 4095 ∧ m.f 2 1 = 0 ∧ m.f 4 2 = 4095 ∧ (m.bytesAt 16 16).any (· ≠ 0#8) = false ∧ s.keyUse (m.f 6 2) false = true ∧
       s.sa (qpKey 0 4095) = none) ∧
    (let s := mail 0x318 saInAdd (keyed (netted oneQp))
     let m := s.message 0 0
     serves 0x318 32 s = true ∧ s.keySlotIn 0 (m.f 6 2) = true ∧ m.f 2 1 = 1 ∧ m.f 4 2 = 0 ∧ s.keyUse (m.f 6 2) false = true) ∧
    (let a := { saLast 0 with inbound := true }
     let s := mail 0x319 [255, 15] ((netted oneQp).setSa (qpKey 0 4095) (some a))
     serves 0x319 2 s = true ∧ s.sa (qpKey 0 ((s.message 0 0).f 0 2)) = some a) ∧
    (let a := saLast 0
     let s := mail 0x319 [255, 15] ((netted oneQp).setSa (qpKey 0 4095) (some a))
     serves 0x319 2 s = true ∧ s.sa (qpKey 0 ((s.message 0 0).f 0 2)) = some a ∧ s.nicqp (qpKey 0 a.qp) ≠ none) ∧
    (let s := (keyed (netted oneQp)).setSa (qpKey 0 9) (some (saLast 0))
     let p := parse espFrame 0 0
     s.saOut 0 4095 = some (qpKey 0 9, saLast 0) ∧ (parse (udp 9) 0 0).pkt.proto ≠ 50 ∧ p.pkt.proto = 50 ∧ p.pkt.level ≠ 0 ∧ p.frag = false ∧
       take0 espFrame p.pkt.l4 4 = (saLast 0).spi ∧ (saLast 0).iv ≠ 0xFFFFFFFFFFFFFFFF#64 ∧ s.key (saLast 0).keyslot = none ∧
       s.key 31 ≠ none ∧ p.tunnel = false ∧ p.pkt.l4 + 32 ≤ p.pkt.stop ∧ s.saIn 0 0 (List.replicate 4 0#8) (List.replicate 16 0#8) = none) ∧
    (let a := { saLast 0 with inbound := true, dip := (parse espFrame 0 0).pkt.dip, keyslot := 31 }
     let s := (keyed (netted oneQp)).setSa (qpKey 0 9) (some a)
     s.saIn 0 0 (take0 espFrame (parse espFrame 0 0).pkt.l4 4) (parse espFrame 0 0).pkt.dip = some a ∧ s.key a.keyslot ≠ none) ∧
    (let s := (keyed (netted oneQp)).setSa (qpKey 0 9) (some { saLast 0 with keyslot := 31 })
     s.saOut 0 4095 = some (qpKey 0 9, { saLast 0 with keyslot := 31 }) ∧ s.key 31 ≠ none) := by
  try dsimp only
  decide +kernel
/-! ## Witnesses: egress and the cipher pipes -/

/-- Egress of hub 0: queue 1023 on node 63, whose entry any partition may use, each with a buffer and a weight. -/
def shaped (buf : Nat) : State :=
  let s := (ruled 3 0).setPart 0 { Part.reset with state := .active, subqCount := 16 }
  let s := (s.wr (Reg.TSH_QTBL_BASE 0) 4096).wr (Reg.TSH_NTBL_BASE 0) 8192
  let s := s.hubPut 0 (4096 * 64 + 32 * 1023) (leBytes 8 (2 ^ 63 + 63 * 2 ^ 52 + 2 ^ 44 + buf * 2 ^ 32))
  s.hubPut 0 (8192 * 64 + 32 * 63) (leBytes 8 (2 ^ 63 + 15 * 2 ^ 56 + 2 ^ 44))

/-- The same with a frame in the lane of queue 1023 at port 0. -/
def offered : State := Res.stateOr (execEgressEnqueue 0 1023 (some 0) (some 0) (plain 0) (shaped 1)) (shaped 1)

def sending : State := ((((offered.hubNow 0 0).portNow 0 0).moveLanes 0).freshPort 0 0)
def ncOf (s : State) : Child := (pickChild (s.nodeChildren 0 0)).getD { idx := 0, fin := 0, len := 0, committed := false }
def lcOf (s : State) : Child := (s.nodeLane 0 0 63).getD { idx := 0, fin := 0, len := 0, committed := false }

def cphWith (f : Cph → Cph) : State := board.modCphOf 0 f
def waitingOp : PipeOp := { PipeOp.reset with cls := 3, part := 0, len := 4096 }

theorem meets_EgressAndPipes :
    (let s := shaped 1
     s.st (tshPage 0) = PS.enabled ∧ s.refuses 0 1023 0 0 = false ∧ (s.lane (laneKey 1023 0)).frames = [] ∧ 1 ≤ (s.qEntry 0 1023).buf ∧
       s.bufferUsed 0 + (plain 0).length = 64) ∧
    (let s := shaped 0
     s.st (tshPage 0) = PS.enabled ∧ s.refuses 0 1023 0 0 = false ∧ (s.qEntry 0 1023).buf = 0) ∧
    ((shaped 1).refuses 0 1022 0 0 = true ∧ (shaped 1).refuses 0 16384 0 0 = true) ∧
    (let s := offered
     s.rd (Reg.ETH_LINK_STATE 0) = 3 ∧ s.serving (tshPage 0) = true ∧ (s.port 0).busy ≤ 0 ∧ sending.rd (Reg.TSH_PORT_PIR 0 0) = 0) ∧
    (pickChild (sending.nodeChildren 0 0) = some (ncOf sending) ∧ (ncOf sending).idx = 63 ∧
      sending.nodeLane 0 0 (ncOf sending).idx = some (lcOf sending) ∧ (lcOf sending).idx = 1023 ∧
      ((sending.lane (laneKey 1023 0)).frames.headD Frame.reset).owner = .other) ∧
    (let s := (board.wr (Reg.TSH_COMMIT_GCL 0 0) 1).wr (Reg.TSH_GCL_LEN 0 0) 16
     s.on (Reg.TSH_COMMIT_GCL 0 0) = true ∧ (s.port 0).gclLen = 0 ∧ gclBad 16 (s.shadowGcl 0 0 16) = true ∧ gclBad 0 (s.shadowGcl 0 0 0) = false) ∧
    (let s := (((board.wr (Reg.TSH_COMMIT_GCL 0 0) 1).wr (Reg.TSH_GCL_LEN 0 0) 1).wr (Reg.TSH_GCL_DURATION 0 0 0) 1000).wr (Reg.TSH_GCL_OPEN_LO 0 0 0) 1
     gclBad 1 (s.shadowGcl 0 0 1) = false) ∧
    (let s := board.wr (Reg.TSH_COMMIT_WMAP 0 0) 1
     s.on (Reg.TSH_COMMIT_WMAP 0 0) = true ∧ (s.port 0).wmap = none) ∧
    (let s := cphWith fun c => { c with ops := [waitingOp] }
     let c := s.cphOf 0
     s.serving (cphPage 0) = true ∧ s.idlePipe 0 0 = some 0 ∧
       ((List.range 4).map fun i => (c.turn + 1 + i) % 4).find? (fun i => (c.ops.find? fun o => o.cls = i && s.pipeOpen 0 0 o).isSome) = some 3 ∧
       c.ops.find? (fun o => o.cls = 3 && s.pipeOpen 0 0 o) = some waitingOp) ∧
    ((pages 5 [cphPage 0] board).serving (cphPage 0) = false ∧
      (cphWith fun c => (List.range 16).foldl (fun c i => c.setBusy i 1) c).idlePipe 0 0 = none) ∧
    (let s := (cphWith fun c => c.setParity 15 [0, 0])
     (s.cphOf 0).parityTwice 15 = true ∧ natBits (s.rd (Reg.CPH_PIPE_OK 0)) 15 1 = 1 ∧ (s.reg ((cphPage 0).base + 0x1C)).getLsbD 18 = false ∧
       (s.cphOf 0).parityTwice 0 = false) ∧
    (board.st (tshPage 0) ≠ PS.off ∧ board.pageGone (tshPage 0) 0x10C = false ∧ (board.port 0).gclLen = 0 ∧
      (board.setPort 0 { Port.reset with gclLen := 1, wmap := some [] }).port 0 = { Port.reset with gclLen := 1, wmap := some [] }) := by
  try dsimp only
  decide +kernel
/-! ## Witnesses: SDT -/

/-- SDT_CONN_OPEN of connection 4095 over rings of 2 slots at granules 32 and 33. -/
def newConn : List (BitVec 8) :=
  leBytes 64 (4095 + 31 * 2 ^ 80 + 1 * 2 ^ 304 + (131072 + 2 ^ 20) * 2 ^ 320 + (135168 + 2 ^ 20) * 2 ^ 352 + 127 * 2 ^ 384)

def bigFrames (s : State) : State := [0, 1, 2, 3].foldl (fun s p => s.wr (Reg.ETH_CFG_MAX_FRAME p) 4222) s

/-- An open connection 4095 of partition 0 with a change, its SUBMIT beacon 5 reading 1. -/
def conned (f : Conn → Conn) : State :=
  ((keyed board).setConn 4095 (f { Conn.reset with
    state := .opened, keyslot := 31, sqBase := 131072, log2Sq := 1, rqBase := 135168, log2Rq := 1, bSubmit := 5, bRcredit := 5 })).setBeacon 5 1
def entry (op : Nat) : SMsg := { SMsg.reset with op := BitVec.ofNat 8 op, laddr := 0x100, len := 64 }

theorem meets_SdtConnections :
    (let s := mail 0x410 newConn (bigFrames (keyed board))
     let m := s.message 0 0
     let n := m.f 0 2
     let p := s.connPart n
     let h := s.partHub p
     let sq := m.f 40 4
     let rq := m.f 44 4
     let id (i : Nat) : Nat := m.f (48 + 2 * i) 2
     serves 0x410 64 s = true ∧ n = 4095 ∧ p = 0 ∧ s.absentPage (sdtPage h) = false ∧ m.onLink h = true ∧ s.keySlotIn p (m.f 10 2) = true ∧
       s.subqPart (m.f 14 2) = p ∧ (∀ i < 5, s.beaconOfPart p (id i) = true) ∧ m.f 8 1 = 0 ∧
       (m.bytesAt 58 6).any (· ≠ 0#8) = false ∧ m.f 12 2 = 0 ∧ (m.bytesAt 20 12).any (· ≠ 0#8) = false ∧ m.f 38 2 = 1 ∧
       sq = 131072 + 2 ^ 20 ∧ rq = 135168 + 2 ^ 20 ∧ s.sramHeld h p (sq % 2 ^ 20 * 64) (2 ^ natBits sq 20 4 * 96) = true ∧
       s.sramHeld h p (rq % 2 ^ 20 * 64) (2 ^ natBits rq 20 4 * 32) = true ∧
       (∀ k < 4, 4222 ≤ s.rd (Reg.ETH_CFG_MAX_FRAME (4 * h + k))) ∧ s.keyUse (m.f 10 2) false = true ∧ (s.conn n).state = .closed ∧
       (s.part p).state = .active ∧ (∀ y ∈ s.conns, y.2.state = .opened → y.2.keyslot ≠ m.f 10 2)) ∧
    (let s := mail 0x411 [255, 15] (conned id)
     let m := s.message 0 0
     serves 0x411 2 s = true ∧ s.connPart (m.f 0 2) = 0 ∧ m.onLink (s.partHub 0) = true ∧ (s.conn (m.f 0 2)).state = .opened ∧
       (s.conn 0).state = .closed) ∧
    (let s := conned fun c => { c with state := .closing }
     let u := { s with beacons := [] }
     (u.conn 4095).state = .closing ∧ (u.conn 4095).ctl = [] ∧ (u.conn 4095).msgs = [] ∧ (u.conn 4095).rmsgs = [] ∧
       u.sdtPosted (u.conn 4095) = false ∧ (conned id).conn 4095 ≠ Conn.reset ∧ ((conned id).conn 4095).state ≠ .closing ∧
       s.sdtPosted (s.conn 4095) = true ∧ s.serving (sdtPage 0) = true ∧ (pages 5 [sdtPage 0] s).serving (sdtPage 0) = false) ∧
    (let s := mail 0x418 (leBytes 16 (4095 + 2 ^ 24)) (board.setSlice 0 (some win))
     let m := s.message 0 0
     serves 0x418 16 s = true ∧ m.src.mctp = false ∧ (m.bytesAt 5 11).any (· ≠ 0#8) = false ∧ m.f 0 2 = 4095 ∧ m.f 2 1 = 0 ∧ m.f 3 1 = 1 ∧
       m.f 4 1 = 0 ∧ (s.part 0).state = .active ∧ m.onLink (s.partHub 0) = true ∧ s.slice 0 = some win ∧ win.func = 1 ∧ win.dying = none ∧
       s.grantedKey 4095 = none) ∧
    (let s := mail 0x419 [255, 15] (board.setSkey 4095 (some { granted := true, tag := 1, part := 0, host := false, slice := 0 }))
     serves 0x419 2 s = true ∧ (s.message 0 0).src.mctp = false ∧ s.grantedKey ((s.message 0 0).f 0 2) = some { granted := true, tag := 1, part := 0, host := false, slice := 0 } ∧
       (s.message 0 0).onLink (s.partHub 0) = true ∧ ((s.modPart 0 fun x => { x with link := 1 }).message 0 0).onLink
         ((s.modPart 0 fun x => { x with link := 1 }).partHub 0) = false) ∧
    (let s := mail 0x419 [254, 15] board
     serves 0x419 2 s = true ∧ s.grantedKey ((s.message 0 0).f 0 2) = none) ∧
    (let s := conned id
     let c := s.conn 4095
     let w := s.learn (c.submitWatch 4095)
     let b := w.state.readMem c.req (sramBase + 131072 * 64) 64
     c.state = .opened ∧ s.serving (sdtPage c.hub) = true ∧ c.halted = false ∧ c.waiting = none ∧ w.fired = true ∧ c.msgs = [] ∧
       (s.part 0).state = .active ∧ ((s.modPart 0 fun x => { x with state := .destroying }).part 0).state ≠ .active ∧
       ((s.setBeacon 5 0).learn (c.submitWatch 4095)).fired = false ∧
       b.2.status = St.ok ∧ b.2.data.length = 64 ∧ b.2.poison = false ∧ entryBad b.2.data = true) ∧
    (let s := (conned id).writeHome (sramBase + 131072 * 64) (leBytes 64 3) false
     let b := s.readMem (s.conn 4095).req (sramBase + 131072 * 64) 64
     b.2.status = St.ok ∧ b.2.poison = false ∧ entryBad b.2.data = false ∧ fieldAt b.2.data 0 1 = 3) ∧
    (let s := (conned id).writeHome (sramBase + 131072 * 64) (leBytes 64 0) true
     (s.readMem (s.conn 4095).req (sramBase + 131072 * 64) 64).2.poison = true) ∧
    (let s := conned fun c => { c with msgs := [entry 1] }
     let c := s.conn 4095
     c.fresh 1#8 = some (entry 1) ∧ s.sourceStatus c.req 0x100 64 = St.ok ∧ s.sourceStatus c.req (2 ^ 48 - 1) 64 ≠ St.ok ∧ c.msn < 2 ^ 32 ∧
       c.unfinished < 2048 ∧ s.sdtContexts c.hub < 131072 ∧ 2 ^ 32 ≤ ({ c with msn := 2 ^ 32 }).msn) ∧
    ((conned fun c => { c with msgs := [entry 2] }).conn 4095).fresh 2#8 = some (entry 2) ∧
    (let s := conned fun c => { c with msgs := [entry 3] }
     (s.conn 4095).waiting = none ∧ (s.conn 4095).fresh 3#8 = some (entry 3) ∧ s.beaconOfPart 0 0x100 = false ∧ s.beaconOfPart 0 127 = true ∧
       ((conned fun c => { c with msgs := [{ entry 3 with laddr := 127 }] }).conn 4095).fresh 3#8 = some { entry 3 with laddr := 127 }) ∧
    (let s := conned fun c => { c with waiting := some (5, 1) }
     let k := watchKey 0 .sdt 4095
     (s.conn 4095).waiting = some (5, 1) ∧ (s.setAnswered k (some ⟨5, 1, 0, 1⟩)).waitAnswer (s.conn 4095) 4095 5 1 = some 0 ∧
       (s.setAnswered k (some ⟨5, 1, 3, 0⟩)).waitAnswer (s.conn 4095) 4095 5 1 = some 3 ∧ s.waitAnswer (s.conn 4095) 4095 5 1 = none) ∧
    (let e := { entry 3 with status := some St.ok }
     let s := conned fun c => { c with msgs := [e] }
     let w := (s.writeMem (s.conn 4095).req (sramBase + 131072 * 64 + 128) (List.replicate 32 0#8) false).1
     (s.conn 4095).msgs = [e] ∧ s.serving (sdtPage (s.conn 4095).hub) = true ∧
       ((((w.modConn 4095 fun c => { c with msgs := [], recorded := 1 }).sigHub 0 .sdt 0 1#32).sigHub 0 .sdt 0 1#32).sdtCount 0).holdHit = []) := by
  and_intros <;> decide +kernel
/-- A message of 4097 bytes of connection 4095 that has its MSN and one packet in flight; a message of which nothing is sent yet. -/
def pk0 (lost : Bool) : SPkt := { SPkt.reset with sends := 1, sent := true, lost := lost, bytes := 4096 }
def flight (lost : Bool) : SMsg := { entry 1 with len := 4097, begun := true, msn := some 0, nextPkt := 1, pkts := [pk0 lost] }
def unsent : SMsg := { entry 1 with begun := true, msn := some 0 }

/-- The oldest frame of hub 0's engine carries a version, a header and a body of zeros, from port 4791. -/
def heardOf (ver : Nat) (x : SHdr) (n : Nat) (s : State) : State :=
  let f := List.replicate 12 2#8 ++ beBytes 2 0x800 ++ [0x45#8, 0#8] ++ beBytes 2 (68 + n) ++ [0#8, 0#8, 0#8, 0#8, 64#8, 17#8] ++
    List.replicate 10 0#8 ++ beBytes 2 0xC000 ++ beBytes 2 4791 ++ beBytes 2 (48 + n) ++ [0#8, 0#8, BitVec.ofNat 8 (16 * ver + x.typ)] ++
    x.bytes.drop 1 ++ List.replicate n 0#8
  (s.wr (Reg.CLS_PARSE_SDT_PORT 0) 4791).modClsOf 0 fun c => { c with sdtq := [⟨0, none, f⟩] }

def frontOf (s : State) : Rx := (s.sdtFront 0).getD { port := 0, hdr := SHdr.zero, ver := 0, body := [], ce := false, path := 0 }
def sdtHdr (typ : Nat) : SHdr := { SHdr.zero with typ := typ, conn := 4095, mlen := 1 }

/-- What every received packet of an open connection shares. -/
def mineOf (s : State) : Bool :=
  let r := frontOf s
  decide (s.sdtFront 0 = some r) && s.serving (sdtPage 0) && s.cipherUp 0 && r.ver = 1 && r.hdr.flags < 16 && (s.conn r.hdr.conn).state == .opened &&
    (s.conn r.hdr.conn).hub = 0 && r.hdr.gen = (s.conn r.hdr.conn).gen.toNat

theorem meets_SdtPackets_sending :
    (let s := (((conned fun c => { c with msgs := [unsent] }.setPaths 0 { SPath.reset with cwnd := 4096 }).wr (Reg.ETH_LINK_STATE 0) EthSt.up).hubNow 0 0)
     let c := s.conn 4095
     let u := s.served 0 Engine.sdt.num c.part 0
     let src := u.lineRead c.req 0x100 64 0 (.data [] false)
     c.state = .opened ∧ c.ctl = [] ∧ s.serving (sdtPage 0) = true ∧ s.cipherUp 0 = true ∧ s.mayServe 0 Engine.sdt.num c.part 0 1 (s.sdtWaits 0) = true ∧
       ((s.nextPath c).map (·.1)) = some 0 ∧ s.pathPacket c 0 = some (unsent, 0) ∧ HostRead.data [] false ≠ .timeout ∧
       s.pathFull c 0 (unsent.size 0) = false ∧ unsent.size 0 = 64 ∧ src.2.status = St.ok ∧ unsent.pkts.any (·.index = 0) = false) ∧
    (let s := conned fun c => { c with msgs := [flight false] }
     let c := s.conn 4095
     c.state = .opened ∧ c.msgs.find? (fun y => y.msn = some 0 && y.status.isNone) = some (flight false) ∧
       (flight false).pkts.find? (·.index = 0) = some (pk0 false) ∧ (pk0 false).lost = false ∧ (pk0 false).held = false ∧ (pk0 false).acked = false ∧ (pk0 false).sends = 1 ∧
       max 1 (s.rd (Reg.SDT_TUNE_RTO_MIN 0)) * 1250 < 2 ^ 32 ∧ 1 < max 1 (s.rd (Reg.SDT_TUNE_RETRY_MAX 0)) + 1 ∧ (c.getPaths 0).srtt = 0) ∧
    (let l := flight true
     ((conned fun c => { c with msgs := [l] }).conn 4095).msgs = [l] ∧ l.pkts = [pk0 true] ∧ (pk0 true).sends = 1) ∧
    (let m : RMsg := { RMsg.reset with status := St.notPermitted }
     let s := conned fun c => { c with rmsgs := [m] }
     let c := s.conn 4095
     c.rmsgs.find? (fun y => y.msn = c.d && (y.complete || y.status ≠ St.ok)) = some m ∧ s.sdtCredit c = true ∧ s.serving (sdtPage 0) = true ∧ m.flush = false ∧ m.status ≠ St.ok) ∧
    (let m : RMsg := { RMsg.reset with mlen := 1, bits := [(0, true)] }
     let s := conned fun c => { c with rmsgs := [m] }
     let c := s.conn 4095
     c.rmsgs.find? (fun y => y.msn = c.d && (y.complete || y.status ≠ St.ok)) = some m ∧ m.status = St.ok ∧ s.holdHit = []) := by
  try dsimp only
  decide +kernel

theorem meets_SdtPackets_receiving :
    (let s := heardOf 0 (sdtHdr PT.data) 17 (conned id)
     s.sdtFront 0 = some (frontOf s) ∧ s.cipherUp 0 = true ∧ (frontOf s).ver ≠ 1 ∧ (frontOf s).hdr.typ = PT.data ∧ (frontOf s).body.length = 17 ∧ s.holdHit = []) ∧
    (let s := heardOf 1 (sdtHdr PT.data) 17 board
     s.sdtFront 0 = some (frontOf s) ∧ (frontOf s).ver = 1 ∧ (s.conn (frontOf s).hdr.conn).state ≠ .opened) ∧
    (let m : RMsg := { RMsg.reset with mlen := 1, bits := [(0, true)] }
     let s := heardOf 1 (sdtHdr PT.data) 17 (conned fun c => { c with rmsgs := [m] })
     let x := (frontOf s).hdr
     mineOf s = true ∧ x.offset = 0 ∧ x.mlen = 1 ∧ (s.conn x.conn).d = 0 ∧ (s.conn x.conn).rmsgs.find? (·.msn = 0#32) = some m ∧ m.status = St.ok ∧
       m.getBits 0 = true ∧ m.flush = false) ∧
    (let s := heardOf 1 (sdtHdr PT.data) 17 ((conned fun c => { c with keyslot := 30 }).setSkey 0
       (some { granted := true, tag := 0, part := 0, host := false, slice := 0 }))
     let x := (frontOf s).hdr
     let u := ((s.sdtPop 0).hubNow 0 0).pipeOp 0 Cls.sdtRx 0 30 1
     let w := u.place (s.conn x.conn) x [] false .done
     let m : RMsg := { RMsg.reset with msn := 0, mlen := 1, flush := false, sent := false }
     let t := ((w.1.putRmsg 4095 (m.setBits 0 true)).sdtCount 0).sdtAnswer 4095 (frontOf s).path { SHdr.zero with
       typ := PT.ack, epath := (frontOf s).path, mlen := 1 }
     mineOf s = true ∧ (s.conn x.conn).rmsgs.find? (·.msn = 0#32) = none ∧ s.sdtContexts 0 < 131072 ∧ u.key 30 = none ∧ w.2 = St.ok ∧
       t.holdHit = [] ∧ ((((t.tagFail 0).err (sdtPage 0) 16 Sev.contained 0).bucket (sdtPage 0)).connFail 4095 St.doNotTrust true).holdHit = []) ∧
    ((conned id).place ((conned id).conn 4095) (sdtHdr PT.data) [] false .done).2 = St.notPermitted ∧
    (let s := heardOf 1 (sdtHdr PT.ack) 16 (conned fun c => { c with msgs := [flight false] })
     mineOf s = true ∧ (frontOf s).body.length = 16 ∧ (frontOf s).hdr.flags = 0 ∧ (s.conn 4095).flying 0 0 = true ∧ (s.conn 4095).flying 1 0 = false ∧
       (s.conn 4095).wasSent 1 0 = false ∧ (s.conn 4095).wasSent 0 0 = true ∧
       (s.conn 4095).msgs.any (fun y => y.msn = some 0#32 && y.status.isNone) = true) ∧
    (let s := heardOf 1 { sdtHdr PT.nack with status := St.stale } 16 (conned fun c => { c with msgs := [flight false] })
     mineOf s = true ∧ (frontOf s).body.length = 16 ∧ (frontOf s).hdr.typ = PT.nack ∧ (frontOf s).hdr.status = St.stale) ∧
    (let s := heardOf 1 (sdtHdr PT.close) 16 (conned id)
     mineOf s = true ∧ (frontOf s).body.length = 16 ∧ (frontOf s).hdr.typ = PT.close) := by
  try dsimp only
  decide +kernel
/-! ## Witnesses: NVMe and storage -/

def nvq (size head tail cq : Nat) : NvQ := { NvQ.reset with size := size, head := head, tail := tail, cq := cq }

/-- Controller 0 serves: its function masters, the admin queues of 8 entries stand with an entry waiting, and its fields are changed. -/
def nvm (f : Nvme → Nvme) : State :=
  ((board.modLink 0 fun k => k.setFns nvFn { Fn.reset with bme := true }).modNvme 0 fun _ =>
    f ((({ Nvme.reset with en := true, rdy := true }).setSqs 0 (nvq 8 0 1 0)).setCqs 0 (nvq 8 0 0 0))).setNs 1
      (some { Ns.reset with part := 0, volatile := true, lbaf := true, keyslot := 30, size := 16 })

def admitted (s : State) : Bool := s.nvServes 0 && s.adminRuns 0 && s.sqWaits 0 0 && s.canPost 0 0
def admin (d10 d11 : BitVec 32) (prp : BitVec 64) : AdminCmd := { cid := 7, flags := 0, nsid := 1, prps := [prp], cdw10 := d10, cdw11 := d11, writes := ⟨.done, .done⟩ }
/-- What the controller holds once the admin entry is taken. -/
def after0 (s : State) : Nvme := (s.sqAdvance 0 0).nvme 0
def q5 (v : Nvme) : Nvme := (v.setSqs 16384 (nvq 2 0 0 16384)).setCqs 16384 (nvq 2 0 0 0)

theorem meets_NvmeControllers :
    admitted (nvm id) = true ∧
    ((board.nvme 0).en = false ∧ board.fnServes 0 nvFn = true ∧ (nvm id).fnServes 0 nvFn = true ∧ board.st ⟨.nvc, 0⟩ = PS.enabled) ∧
    (let s := nvm fun v => { v with cmds := [{ NvCmd.reset with sq := 1 }] }
     (s.nvme 0).rdy = true ∧ ∃ y ∈ (s.nvme 0).cmds, y.sq < moverSq) ∧
    ((nvm id).nvme 0).cmds = [] ∧
    (let w := after0 (nvm id)
     (w.getCqs 16384).size = 0 ∧ (w.getCqs 0).size = 8 ∧ (w.getSqs 16384).size = 0 ∧
       (admin (16384 + 65536) 1 4096).d10 0 16 = 16384 ∧ (admin (16384 + 65536) 1 4096).d10 16 16 = 1 ∧
       (admin (16384 + 65536) 1 4096).d11 0 1 = 1 ∧ (admin 0 1 4096).prp1.toNat % 4096 = 0 ∧ (admin 0 1 4095).prp1.toNat % 4096 ≠ 0 ∧
       (admin 1 (2048 * 65536 + 3) 0).d11 16 16 = 2048 ∧ (admin 1 (2048 * 65536 + 3) 0).d11 1 1 = 1 ∧ (admin 1 1 0).d11 1 1 = 0) ∧
    (let s := nvm q5
     let w := after0 s
     admitted s = true ∧ (w.getCqs 16384).size ≠ 0 ∧ (admin 16384 (16384 * 65536 + 1) 0).d11 16 16 = 16384 ∧ (w.getSqs 16384).size ≠ 0 ∧
       (∃ y ∈ w.sqs, y.2.size ≠ 0 ∧ y.2.cq = 16384)) ∧
    (let s := nvm fun v => (q5 v).setSqs 16384 (nvq 2 0 0 0)
     admitted s = true ∧ ∀ y ∈ (after0 s).sqs, y.2.size = 0 ∨ y.2.cq ≠ 16384) ∧
    ((admin 4 0 0).d10 0 8 = 4 ∧ (admin 5 0 0).d10 0 8 = 5 ∧ (admin 0xB 0 0).d10 0 8 = 11 ∧ (admin 0 0 0).nsid.toNat < 0xFFFFFFFE) ∧
    (let s := nvm fun v => { v with aers := List.replicate 8 (0#16, .done) }
     admitted s = true ∧ 8 ≤ (after0 s).aers.length) ∧
    (let s := nvm fun v => { v with aers := List.replicate 7 (0#16, .done), events := [1#32] }
     admitted s = true ∧ (after0 s).aers.length = 7 ∧ (after0 s).events = [1#32] ∧ (after0 (nvm id)).events = []) ∧
    (let x := { win with func := 2 }
     let s := (nvm id).setSlice 255 (some x)
     admitted s = true ∧ (admin 16384 255 0).d11 0 8 = 255 ∧ (admin 16384 255 0).d11 31 1 = 0 ∧ s.slice 255 = some x ∧ s.partHub x.part = 0 ∧
       s.slice 0 = none ∧ (admin 1 0x80000000 0).d11 31 1 = 1 ∧ (after0 s).getBind 16384 = 0) ∧
    (let x := { win with func := 2 }
     let s := (nvm fun v => v.setBind 16384 1).setSlice 0 (some x)
     admitted s = true ∧ (after0 s).getBind 16384 = 0 + 1 ∧ s.slice 0 = some x ∧ x.dying = none ∧ (1#1024 &&& ~~~ s.partNs x.part = 0#1024) ∧
       (2#1024 &&& ~~~ s.partNs x.part ≠ 0#1024)) := by
  try dsimp only
  decide +kernel

theorem meets_NvmeControllers_others :
    (State.reset.fnServes 0 nvFn = false ∧ { admin 0 0 0 with flags := 1 }.flags ≠ 0#8 ∧ (admin 0 0 0).flags = 0#8 ∧
      ((nvm id).nsOfLink 0).flatMap (fun y => y.2.members) = [] ∧
      (((nvm id).setNs 2 (some { Ns.reset with part := 0, members := [Member.reset] })).nsOfLink 0).flatMap (fun y => y.2.members) ≠ []) ∧
    (let s := (nvm fun v => v.setBind 16384 1).sqAdvance 0 0
     let u := s.fromPrps 0 none [4096] 128 (.data (leBytes 128 1) false)
     u.2.status = St.ok ∧ u.2.poison = false ∧ (u.1.nvme 0).getBind 16384 = 0 + 1 ∧
       (s.fromPrps 0 none [4096] 128 (.data [] true)).2.poison = true) := by
  try dsimp only
  decide +kernel

/-- An I/O queue 16384 with an entry waiting; a command of an opcode that has started; namespace 1024 in tier 2 or on member 0. -/
def io (op : BitVec 8) (slba : BitVec 64) : IoCmd :=
  { opc := op, flags := 0, cid := 9, nsid := 1024, prps := [], slba := slba, cdw11 := 0, cdw12 := 0, ranges := [], writes := ⟨.done, .done⟩ }
def nsOf (volatile : Bool) : Ns :=
  { Ns.reset with
    volatile := volatile, lbaf := true, keyslot := 30, size := 16, members := [Member.reset] }
def started (op : BitVec 8) : NvCmd := { NvCmd.reset with sq := 16384, opc := op, nsid := 1024, nlb := 1, started := true }
def ioState (volatile : Bool) (f : Nvme → Nvme) : State :=
  (nvm fun v => f { ((v.setSqs 16384 (nvq 2 0 1 16384)).setCqs 16384 (nvq 2 0 0 0)) with fetched := 1 }).setNs 1024 (some (nsOf volatile))
def runsIo (volatile : Bool) (op : BitVec 8) : State := ioState volatile fun v => { v with cmds := [started op] }
def readyFor (volatile : Bool) (op : BitVec 8) : Bool := (runsIo volatile op).readyIo 0 0 op == some (started op, nsOf volatile)

theorem meets_StorageCommands :
    (let s := ioState true id
     s.nvServes 0 = true ∧ s.sqWaits 0 16384 = true ∧ s.canPost 0 16384 = true ∧ s.ioRefusal 0 16384 (io Io.read 15) = none ∧
       s.ns 1024 = some (nsOf true) ∧ s.ioRefusal 0 16384 (io Io.read 16) = some Nv.lbaRange ∧
       (s.nvme 0).locksHeld + (ioEntry 16384 (nsOf true) (io Io.read 15)).locks.length ≤ lockMax) ∧
    (let c := started Io.read
     let s := ioState true fun v => { v with cmds := [{ c with started := false }] }
     (s.nvme 0).cmds.find? (fun c => c.num = 0) = some { c with started := false } ∧ c.dead = false ∧ c.sq < moverSq ∧
       s.mayServe 0 Engine.storage.num (s.cmdPart c) 0 1 (s.storageWaits 0) = true ∧ (s.nvme 0).free { c with started := false } = true) ∧
    (let a : NvCmd := { started Io.write with locks := [(0, 1, true)] }
     let b : NvCmd := { started Io.read with num := 1, started := false, locks := [(0, 1, false)] }
     let s := ioState true fun v => { v with cmds := [a, b] }
     (s.nvme 0).cmds.find? (fun c => c.num = 1) = some b ∧ (s.nvme 0).free b = false) ∧
    (∀ v ∈ [true, false], ∀ op ∈ [Io.flush, Io.write, Io.zeroes, Io.read, Io.compare, Io.dsm], readyFor v op = true) ∧
    (∀ op ∈ [Io.write, Io.zeroes],
      let s := runsIo true op
      (s.ioWrite 0 (started op) (nsOf true) (List.replicate 512 0#8) [] none).holdHit = []) ∧
    ((runsIo true Io.dsm).holdHit = [] ∧ ((runsIo true Io.dsm).endCmd 0 (started Io.dsm) Nv.ok).holdHit = [] ∧ (started Io.dsm).ranges = [] ∧
      (let c : NvCmd := { started Io.dsm with ranges := [(0, 16)] }
       (ioState false fun v => { v with cmds := [c] }).readyIo 0 0 Io.dsm = some (c, nsOf false))) ∧
    (let e : SsdCmd := { SsdCmd.reset with cid := 255, opc := Io.read, nlb := 1 }
     let s := (runsIo false Io.read).modSlot 15 fun x => { x with cmds := [e] }
     (s.slot 15).cmds.find? (fun y => y.cid = 255) = some e ∧ (s.slot 15).cmds.find? (fun y => y.cid = 0) = none ∧
       (s.nvme e.link).cmds.find? (fun c => c.num = e.num) = some (started Io.read) ∧ s.ns 1024 = some (nsOf false) ∧ e.aborted = false ∧
       ((runsIo false Io.compare).nvme 0).cmds.find? (fun c => c.num = e.num) = some (started Io.compare)) := by
  try dsimp only
  decide +kernel

theorem meets_StorageCommands_data :
    (let s := runsIo true Io.write
     let r := s.fromPrps 0 (s.nvSlice 0 16384) [] 512 (.data (List.replicate 512 0#8) false)
     let e := s.fromPrps 0 (s.nvSlice 0 16384) [] 512 .refused
     let m := s.fromPrps 0 (s.nvSlice 0 16384) [] 512 (.data (List.replicate 512 0#8) true)
     r.2.status = St.ok ∧ r.2.poison = false ∧ (r.1.ioWrite 0 (started Io.write) (nsOf true) r.2.data [] none).holdHit = [] ∧
       e.2.status ≠ St.ok ∧ (e.1.endCmd 0 (started Io.write) Nv.transfer).holdHit = [] ∧ m.2.status = St.ok ∧ m.2.poison = true ∧
       (m.1.ioWrite 0 (started Io.write) (nsOf true) m.2.data [0] none).holdHit = []) ∧
    (let s := runsIo true Io.read
     let r := (s.pipeBlocks (nsOf true) 1).getVolatile 1024 (nsOf true) 0 1
     r.bad = [] ∧ r.status = St.ok ∧ (((s.setRegion 0 false).pipeBlocks (nsOf true) 1).getVolatile 1024 (nsOf true) 0 1).bad ≠ []) := by
  try dsimp only
  decide +kernel
/-! ## Witnesses: slots, namespaces, keys, attestation -/

/-- Slot 15 in a state, with a change. -/
def slotted (n : Nat) (f : Slot → Slot) : State := (board.wr (Reg.PRP_SLOT_STATE 15) n).modSlot 15 f
def nsOn (m : Member) : Ns := { nsOf false with members := [m] }

/-- NS_CREATE of namespace 1024 of 16 blocks in tier 2, or on the first of two members. -/
def newVolatile : List (BitVec 8) := leBytes 32 (1024 + 2 ^ 24 + 31 * 2 ^ 32 + 16 * 2 ^ 64 + t2Base * 2 ^ 128)
def newBacked : List (BitVec 8) := leBytes 64 (1024 + 31 * 2 ^ 32 + 2 * 2 ^ 48 + 32 * 2 ^ 64 + 1 * 2 ^ 384)
def xtsKeyed (s : State) : State := s.setKey 31 (some { KeySlot.reset with alg := 1, key := List.replicate 64 1#8 })
def slotOk : List Backing := [0, 1].map fun p => { port := p, nsid := 0, lbaf := false, blocks := 16, uncorrectable := true, atom := 1 }

theorem tier2_span (s : State) (h : (s.bru.mapBuilt && !s.bru.t2Mapped.getLsbD 0) = false) (hp : s.unitPart 80 = 0) :
    ∀ i < 65536, ∃ y, s.tgt (t2Base + i) = .t2 y ∧ s.unitPart (80 + y) = 0 := by
  intro i hi
  have hq : (t2Base + i - t2Base) / t2Size = 0 := by simp only [t2Base, t2Size]; omega
  refine ⟨0, ?_, hp⟩
  unfold State.tgt
  rw [if_neg (by simp only [t2Base, hbmEnd]; omega), if_neg (by simp only [t2Base]; omega), if_pos (by simp only [t2Base, t2Size]; omega), hq]
  show (if (s.bru.mapBuilt && !s.bru.t2Mapped.getLsbD 0) = true then Tgt.unmapped else Tgt.t2 0) = Tgt.t2 0
  rw [h]
  rfl

theorem meets_SlotsAndNamespaces_blocks :
    let s := mail 0x510 newVolatile (xtsKeyed board)
    ∀ i < (s.message 0 0).f 8 8 * 4096, ∃ y, s.tgt ((s.message 0 0).f 16 8 + i) = .t2 y ∧ s.unitPart (80 + y) = 0 := by
  intro s
  have h1 : (s.message 0 0).f 8 8 * 4096 = 65536 := by decide +kernel
  have h2 : (s.message 0 0).f 16 8 = t2Base := by decide +kernel
  rw [h1, h2]
  exact tier2_span s (by decide +kernel) (by decide +kernel)

theorem meets_SlotsAndNamespaces :
    (fws [fwpKey 1 1] board).fwState (fwpKey (15 / 8) 1) = Fw.running ∧
    (let on : Slot → Slot := fun x => { x with inputs := 2 }
     let s (n : Nat) := slotted n on
     (s 0).slotSt 15 = SlotSt.empty ∧ ((s 0).slot 15).present = true ∧ (s SlotSt.off).slotSt 15 = SlotSt.off ∧
       (s SlotSt.powerOn).slotSt 15 = SlotSt.powerOn ∧ (s SlotSt.linking).slotSt 15 = SlotSt.linking ∧ (s 0).nss = [] ∧
       (s SlotSt.active).slotSt 15 = SlotSt.active ∧ (s SlotSt.fault).slotSt 15 = SlotSt.fault ∧ ((slotted SlotSt.fault id).slot 15).present = false) ∧
    (let s := slotted SlotSt.active fun x => { x with button := true }
     (s.slot 15).button = true ∧ s.slotSt 15 = SlotSt.active ∧ s.dependents 15 = [] ∧
       (s.setNs 1 (some (nsOn { port := 15, nsid := 1, start := 0 }))).dependents 15 ≠ []) ∧
    (board.st ⟨.prp, 15⟩ = PS.off ∧ (pages 3 [⟨.prp, 15⟩] board).st ⟨.prp, 15⟩ ≠ PS.off ∧
      (pages 3 [⟨.prp, 15⟩] board).pageGone ⟨.prp, 15⟩ 0x44 = false) ∧
    ((slotted SlotSt.ejectWait id).slotSt 15 = SlotSt.ejectWait ∧ ((slotted 0 fun x => { x with resetting := true }).slot 15).resetting = true) ∧
    (let s := mail 0x510 newVolatile (xtsKeyed board)
     let m := s.message 0 0
     serves 0x510 32 s = true ∧ m.f 6 1 = 0 ∧ m.f 3 1 = 1 ∧ m.f 7 1 = 0 ∧ m.f 24 8 = 0 ∧ m.f 0 2 = 1024 ∧ m.f 2 1 = 0 ∧
       (s.part 0).state = .active ∧ m.onLink (s.partHub 0) = true ∧ s.keySlotIn 0 (m.f 4 2) = true ∧ s.keyUse (m.f 4 2) true = true ∧
       m.f 16 8 % 65536 = 0 ∧ m.f 16 8 < 2 ^ 48 ∧ m.f 8 8 = 16 ∧ s.ns 1024 = none) ∧
    (let s := mail 0x510 newBacked (xtsKeyed ((board.wr (Reg.PRP_SLOT_STATE 0) SlotSt.active).wr (Reg.PRP_SLOT_STATE 1) SlotSt.active))
     let m := s.message 0 0
     serves 0x510 64 s = true ∧ m.f 6 1 = 2 ∧ m.f 3 1 = 0 ∧ m.f 7 1 = 0 ∧ m.f 24 8 = 0 ∧ (∀ i < 2, m.f (33 + 16 * i) 3 = 0) ∧ m.f 0 2 = 1024 ∧
       m.f 2 1 = 0 ∧ s.keySlotIn 0 (m.f 4 2) = true ∧ s.keyUse (m.f 4 2) true = true ∧ m.f 16 8 = 0 ∧ m.f 8 8 * 4096 % (65536 * 2) = 0 ∧
       m.f 8 8 = 32 ∧ s.ns 1024 = none ∧
       (∀ y ∈ (List.range 2).map m.member, y.port < 16 ∧ y.port / 8 = s.partHub 0 ∧ s.slotSt y.port = SlotSt.active ∧
         ∃ b ∈ slotOk, slotOk.find? (fun b => b.port = y.port && b.nsid = y.nsid) = some b ∧ b.lbaf = false ∧ b.uncorrectable = true ∧
           y.start + 16 ≤ b.blocks) ∧
       (m.member 1).port ≠ (m.member 0).port) ∧
    (let n := nsOf true
     let s := mail 0x511 [0, 4] (board.setNs 1024 (some n))
     serves 0x511 2 s = true ∧ s.ns ((s.message 0 0).f 0 2) = some n ∧ (s.message 0 0).onLink (s.partHub n.part) = true ∧ n.dying = none ∧
       (s.nvme (s.partHub n.part)).cmds = []) ∧
    (let s := mail 0x511 [0, 4] (ioState true fun v => { v with cmds := [started Io.read] })
     serves 0x511 2 s = true ∧ (∃ c ∈ (s.nvme 0).cmds, c.nsid = (s.message 0 0).f 0 2) ∧
       (let t := s.modMbx 0 fun b => { b with started := true }
        (t.mbx 0).started = true ∧ (t.message 0 0).opcode = 0x511 ∧ t.mbxWaits 0 = true)) := by
  and_intros <;> decide +kernel
/-- Security state of the board with a change. -/
def secured (f : Sec → Sec) : State := { board with sec := f board.sec }
/-- KEY_LOAD of a 32-byte key into slot 1023 of partition 0. -/
def loadKey : List (BitVec 8) := leBytes 72 (1023 + 2 ^ 64)
def pw8 : List (BitVec 8) := List.replicate 8 0x70#8
def owner0 : OwnerSet := { keyHash := List.replicate 32 1#8, salt := List.replicate 16 2#8, pwHash := List.replicate 32 0#8, signed := none }

theorem meets_KeysOwnerAndDebug :
    (let s := mail 0x610 loadKey board
     let m := s.message 0 0
     let key := m.bytesAt 8 64 ++ List.replicate (64 - (m.bytesAt 8 64).length) 0#8
     s.fnMaster (s.rd (Reg.MBX_STAT_LINK 0)) 0 = true ∧ serves 0x610 72 s = true ∧ m.src.mctp = false ∧ m.f 0 2 = 1023 ∧ m.f 2 1 = 0 ∧ s.keySlotIn 0 1023 = true ∧ m.onLink (s.partHub 0) = true ∧
       m.f 3 1 = 0 ∧ m.f 4 4 = 0 ∧ allZero (key.drop 32) = true ∧ (s.part 0).state = .active ∧ s.key 1023 = none ∧
       (s.setKey 1023 (some KeySlot.reset)).key 1023 ≠ none) ∧
    (let s := mail 0x610 (leBytes 72 (1023 + 2 ^ 24 + 2 ^ 64)) board
     let key := (s.message 0 0).bytesAt 8 64
     (s.message 0 0).f 3 1 = 1 ∧ key.length = 64 ∧ key.take 32 ≠ (key.drop 32).take 32) ∧
    (let s := mail 0x611 [31, 0, 0] (keyed board)
     serves 0x611 3 s = true ∧ s.keySlotIn 0 31 = true ∧ (s.part 0).state ≠ .free ∧ s.keyNamed 31 = false) ∧
    (let s := mail 0x611 [31, 0, 0] (conned id)
     serves 0x611 3 s = true ∧ s.keyNamed 31 = true) ∧
    (let s := mail 0x618 [] board
     serves 0x618 0 s = true ∧ owner0.keyHash.length = 32 ∧ owner0.salt.length = 16 ∧ owner0.pwHash.length = 32 ∧ s.sec.ownerKey = none ∧
       owner0.signed = none ∧ (secured fun x => { x with ownerKey := some [1] }).sec.ownerKey = some [1]) ∧
    (let w (h : List (BitVec 8)) := { (mail 0x621 [] board) with
       parts := [], sec := { board.sec with ownerKey := some [1], pwHash := some h } }
     let s := w (sm3 (board.sec.salt ++ pw8))
     serves 0x621 0 s = true ∧ s.sec.ownerKey = some [1] ∧ s.sec.pwHash ≠ none ∧ 8 ≤ pw8.length ∧ pw8.length ≤ 64 ∧
       (∀ q < 12, (s.part q).state = .free) ∧ s.rd (Reg.SEC_DBG_WAIT 0) = 0 ∧ s.sec.pwHash = some (sm3 (s.sec.salt ++ pw8)) ∧
       (w []).sec.pwHash ≠ some (sm3 ((w []).sec.salt ++ pw8))) ∧
    (serves 0x620 0 (mail 0x620 [] board) = true ∧ serves 0x622 0 (mail 0x622 [] board) = true ∧
      (mail 0x621 [] board).sec.ownerKey = none) := by
  try dsimp only
  decide +kernel

/-- The device end of link 0 after some requests, with sessions. -/
def spdm (steps : BitVec 3) (l : List SpdmSess) : State := (board.setSteps (.doe 0) steps).setSessions l

theorem meets_Attestation :
    (let s := spdm 0 []
     s.spdmUp (.doe 0) = true ∧ s.spdmUp .mctp = true ∧ s.spdmSteps (.doe 0) &&& 1#3 ≠ 1#3 ∧ s.hasIdentity = false) ∧
    (let s := (spdm 7 [{ id := 5, conn := (SpdmVia.doe 0).conn, done := false }]).wr (Reg.SEC_STATE_PUF_OK 0) 1
     s.spdmUp (.doe 0) = true ∧ s.spdmSteps (.doe 0) &&& 7#3 = 7#3 ∧ s.hasIdentity = true ∧ s.sec.sessions.length < 4 ∧
       (s.sec.sessions.any fun x => x.id = 5 && x.conn = (SpdmVia.doe 0).conn && x.done == false) = true ∧
       (s.sec.sessions.any fun x => x.id = 5 && x.conn = (SpdmVia.doe 0).conn && x.done == true) = false) ∧
    (let s := (spdm 7 (List.replicate 4 { id := 5, conn := (SpdmVia.doe 0).conn, done := true })).wr (Reg.SEC_STATE_PUF_OK 0) 1
     s.hasIdentity = true ∧ s.sec.sessions.length = 4 ∧
       (s.sec.sessions.any fun x => x.id = 5 && x.conn = (SpdmVia.doe 0).conn && x.done == true) = true ∧
       (s.sec.sessions.any fun x => x.id = 5 && x.conn = (SpdmVia.doe 0).conn && x.done == false) = false) ∧
    (secured fun x => { x with ownerKey := some [1] }).sec.ownerKey = some [1] := by
  try dsimp only
  decide +kernel
/-! ## Witnesses: firmware, faults -/

/-- Slot 1 in a state; the last processor of hub 1 in a state; a partition 0 that is paused. -/
def imaged (x : SlotState) : State := board.setFwslot 1 { FwSlot.reset with state := x, bytes := [1] }
def fwAt (k n : Nat) : State := board.wr (Reg.FWP_RUN_STATE k) n
def paused0 : State := board.setReg (Reg.DIS_PAUSED 0).addr 1
def loadCores : List (BitVec 8) := leBytes 32 (0x2000 * 2 ^ 64 + 0x2400 * 2 ^ 128 + 0x2800 * 2 ^ 192)

theorem meets_FirmwareProcessors :
    (let s := mail 0x10 ([1, 0, 0, 0, 0, 0, 0, 0, 7]) (imaged .empty)
     let m := s.message 0 0
     serves 0x10 9 s = true ∧ m.f 0 1 = 1 ∧ m.f 1 3 = 0 ∧ m.f 4 4 = 0 ∧ s.slotNamed 1 = false ∧ s.slotNamed 0 = true ∧
       (let s := mail 0x10 ([1, 0, 0, 0, 1, 0, 0, 0, 7]) (imaged .empty)
        (s.message 0 0).f 4 4 = (s.fwslot 1).bytes.length ∧ serves 0x10 9 s = true) ∧
       serves 0x10 9 (mail 0x10 ([1, 0, 0, 0, 2, 0, 0, 0, 7]) board) = true ∧
       (let s := mail 0x10 ([0, 0, 0, 0, 0, 0, 0, 0, 7]) board; serves 0x10 9 s = true ∧ s.slotNamed 0 = true)) ∧
    (let s := mail 0x11 [1] (imaged .empty)
     serves 0x11 1 s = true ∧ (s.fwslot ((s.message 0 0).f 0 1)).state = .empty) ∧
    (let s := mail 0x11 [1] (imaged .trial)
     serves 0x11 1 s = true ∧ (s.fwslot ((s.message 0 0).f 0 1)).state = .trial) ∧
    (let s := mail 0x12 [1, 31] (imaged .valid)
     serves 0x12 2 s = true ∧ (s.fwslot ((s.message 0 0).f 0 1)).state = .valid ∧ (s.message 0 0).f 1 1 = 31 ∧ s.pwr.emerg = false ∧
       serves 0x12 2 (mail 0x12 [1, 0] (imaged .valid)) = true ∧
       (let s := mail 0x12 [1, 31] { imaged .valid with pwr := { board.pwr with emerg := true } }
        serves 0x12 2 s = true ∧ s.pwr.emerg = true)) ∧
    (let s := mail 0x13 [1] (imaged .tried)
     serves 0x13 1 s = true ∧ (s.fwslot ((s.message 0 0).f 0 1)).state = .tried) ∧
    (let s := mail 0x13 [1] (imaged .bad)
     serves 0x13 1 s = true ∧ (s.fwslot ((s.message 0 0).f 0 1)).state = .bad) ∧
    (fwpKey 0 4 ∈ allProcs ∧ board.fwState (fwpKey 0 4) = Fw.running ∧ board.fwState (fwpKey 1 15) ≠ Fw.running ∧
      board.fwState (fwpKey 1 15) ≠ Fw.booting) ∧
    (let s := board.modFwp 0 fun x => { x with faults := [60000, 2, 1] }
     ((s.fwp 0).faults.filter fun t => 60000 < t + 60000).length = 3 ∧ ((s.fwp 0).faults.filter fun t => 60001 < t + 60000).length < 3) ∧
    (pages 3 [⟨.fwp, 16⟩] board).st ⟨.fwp, 16⟩ ≠ PS.off ∧ (pages 3 [⟨.fwp, 16⟩] board).pageGone ⟨.fwp, 16⟩ 0x44 = false ∧
    (fwAt 16 Fw.restarting).fwState 16 = Fw.restarting ∧
    ((fwAt 0 Fw.failed).fwState 0 = Fw.failed ∧ (fwAt 0 Fw.failed).fwState 16 = Fw.held ∧ board.fwState 0 ≠ Fw.failed) ∧
    (let s := mail 0x30 loadCores paused0
     let m := s.message 0 0
     let u := s.begun 0x30 0 0
     let r := u.readManifest (m.f 8 8) (m.f 16 8)
     let ranges := u.loadRanges 0 (m.f 8 8) (m.f 16 8) (m.f 24 8) 1
     let v := u.setPart 0 { u.part 0 with hbm := 0#80 }
     serves 0x30 32 s = true ∧ m.f 0 1 = 0 ∧ m.f 1 7 = 0 ∧ (s.part 0).state = .active ∧ u.clustersOf 0 = [0] ∧
       (∀ e ∈ ranges, u.rangeAbsent e.1 e.2 = false) ∧ (∀ e ∈ ranges, u.rangeHeld 0 e.1 e.2 = true) ∧ v.rangeHeld 0 (m.f 8 8) 1 = false ∧
       natBits (s.reg (Reg.DIS_PAUSED (s.part 0).link).addr).toNat 0 1 = 1 ∧ (s.cluster 0).wq = [] ∧ r.2.2 = false ∧
       (r.1.answer m.src St.authFail []).holdHit = []) := by
  try dsimp only
  decide +kernel

def placedBoard : State :=
  (List.range 16).foldl (fun s k => (s.wr (Reg.NOC_MAP_SLOT 0 0 k) k).wr (Reg.NOC_MAP_ABSENT 0 0 k) 0) board

theorem meets_FaultsAndSpares :
    board.absentPage ⟨.cor, 0⟩ = false ∧
    (let s := placedBoard
     s.lcOf 0 0 = some 0 ∧ s.st ⟨.cor, 0⟩ = PS.enabled ∧ (s.fencePage ⟨.cor, 0⟩).spareOf 0 = some 16 ∧ s.bru.ledger.length < ledgerMax) ∧
    (let s := mail 0x41 [0, 0] placedBoard
     serves 0x41 2 s = true ∧ (s.message 0 0).f 0 2 = 0 ∧ s.clusterGone 0 = false ∧ s.slotOf 0 = some 0 ∧ s.absentPage ⟨.cor, 0⟩ = false ∧
       s.clusterPart 0 = 0 ∧ (s.message 0 0).onLink (s.partHub 0) = true) ∧
    (let s := mail 0x41 [0, 0] (placedBoard.setPart 0 { placedBoard.part 0 with link := 1 })
     serves 0x41 2 s = true ∧ s.clusterPart 0 = 0 ∧ s.absentPage ⟨.cor, 0⟩ = false ∧ (s.message 0 0).onLink (s.partHub 0) = false) ∧
    (board.st ⟨.clu, 0⟩ = PS.enabled ∧ board.absentPage ⟨.clu, 0⟩ = false) ∧
    (let s := (pages 3 [⟨.d2d, 1⟩] board).setD2d 0 ⟨D2d.up, 2, 0⟩
     s.pageGone ⟨.d2d, 1⟩ 0x48 = false ∧ linkAt 1 0 = some 0 ∧ s.st ⟨.d2d, 1⟩ ≠ PS.off ∧ (s.d2dWord 0).state = D2d.up ∧ s.d2dState 0 = D2d.up ∧
       ((pages 3 [⟨.d2d, 1⟩] board).d2dWord 0).state ≠ D2d.up ∧ ((pages 3 [⟨.d2d, 1⟩] board).d2dWord 0).state ≠ D2d.failed) ∧
    (board.bru.memDone.getLsbD 111 = true ∧ board.bru.memBad.getLsbD 111 = false ∧ board.bru.started = true ∧
      ({ board with bru := { board.bru with memBad := 1 } } : State).bru.memBad.getLsbD 0 = true) ∧
    serves 0x40 4 (mail 0x40 [0, 0, 0, 0] board) = true ∧
    ((Page.mk .tel 1).inst < Blk.tel.count ∧ board.bbx.buffer.length < 96) ∧
    (let r : BbRec := { BbRec.reset with typ := 1 }
     let s := { board with bbx := { board.bbx with buffer := [r] } }
     State.reset.bru.started = false ∧ s.bbx.buffer ≠ [] ∧ s.bbx.suspended = false ∧ board.bbx.flushLeft = 0 ∧ board.bbx.buffer = []) := by
  try dsimp only
  decide +kernel
/-! ## Witnesses: Lantern, endpoints, power, bring-up -/

/-- A configuration of partition 0 with a step beacon 1, a release beacon 2, a done beacon 3 and a scope. -/
def snapCfg (modes : Nat) : List (BitVec 8) :=
  leBytes 60 (modes * 2 ^ 8 + 2 ^ 24 + 1 * 2 ^ 32 + 2 * 2 ^ 48 + 3 * 2 ^ 64 + 1 * 2 ^ 80 + 24 * 2 ^ 256)
def takeMsg (mode : Nat) : List (BitVec 8) := leBytes 44 (mode * 2 ^ 8 + 2 ^ 16 + 2 ^ 96 + 65536 * 2 ^ 256)
/-- Partition 0 in a snapshot state, with a change of its set-up. -/
def snapped (n : Nat) (f : Snap → Snap) : State :=
  (board.setSnap 0 (f { Snap.reset with setup := true, cfg := snapCfg 6, take := takeMsg 1 })).wr (Reg.SNP_STATE_STATE 0 0) n

/-- A manifest of the beacons of cluster 0, all zero. -/
def manifest1 : List (BitVec 8) :=
  let e := snapEntry (2 ^ 49) 1 0xFFFFFFFF 0 (List.replicate 32 0#8)
  leBytes 32 (0x4E535850 + 2 ^ 32 + 5 * 2 ^ 64) ++ leBytes 32 (2 ^ 32 + 2 ^ 128) ++ sm3 e ++ List.replicate 32 0#8 ++ e
def restoreMsg : List (BitVec 8) := leBytes 16 (2 ^ 8)

theorem meets_LanternSnapshots_requests :
    (let s := mail 0x50 (leBytes 60 0) board
     serves 0x50 60 s = true ∧ s.serving (snpPage (s.partHub 0)) = true ∧ (s.message 0 0).onLink (s.partHub 0) = true ∧
       (s.part 0).state = .active ∧ s.snapRuns 0 = false ∧ ((s.message 0 0).payload.drop 1).all (· = 0#8) = true) ∧
    (let s := mail 0x50 (snapCfg 6) board
     let y : Snap := { Snap.reset with cfg := (s.message 0 0).bytesAt 0 60 }
     serves 0x50 60 s = true ∧ ((s.message 0 0).payload.drop 1).all (· = 0#8) = false ∧ s.beaconOfPart 0 y.done = true ∧ y.steps = true ∧
       s.beaconOfPart 0 y.step = true ∧ s.beaconOfPart 0 y.release = true ∧ y.c 1 1 < 8 ∧ y.c 3 1 < 0x40 ∧ y.c 3 1 &&& 0x28 = 0 ∧
       y.c 4 2 < 2 ^ 15 ∧ y.c 6 2 < 2 ^ 15 ∧ y.c 8 2 < 2 ^ 15 ∧ y.c 12 4 = 0 ∧ y.c 33 7 = 0 ∧ y.c 2 1 ≤ 15 ∧ y.c 10 2 ≠ 0 ∧
       y.c 16 8 % 65536 = 0 ∧ y.c 24 8 % 4096 = 0 ∧ y.dedup = false ∧ y.c 24 8 = 0 ∧ y.c 32 1 = 24) ∧
    (let s := mail 0x51 (takeMsg 1) (snapped SnapSt.idle id)
     let m := s.message 0 0
     serves 0x51 44 s = true ∧ m.f 1 1 = 1 ∧ m.f 2 1 = 1 ∧ m.f 3 1 = 0 ∧ m.f 2 1 &&& 0x28 = 0 ∧ (s.snap 0).steps = true ∧ m.f 8 4 < m.f 12 4 ∧
       m.f 24 8 % 4096 = 0 ∧ (s.snap 0).setup = true ∧ (s.part 0).state = .active ∧ s.snapRuns 0 = false) ∧
    (let s := mail 0x51 (takeMsg 1) (snapped SnapSt.copying id)
     serves 0x51 44 s = true ∧ s.snapRuns 0 = true) ∧
    (let s := mail 0x52 [0] (snapped SnapSt.copying id)
     serves 0x52 1 s = true ∧ s.snapRuns 0 = true ∧ serves 0x52 1 (mail 0x52 [0] board) = true ∧ (mail 0x52 [0] board).snapRuns 0 = false) ∧
    (let s := mail 0x53 restoreMsg ((snapped SnapSt.idle id).setReg (Reg.DIS_PAUSED 0).addr 1)
     let m := s.message 0 0
     serves 0x53 16 s = true ∧ m.f 1 1 = 1 ∧ m.f 2 2 = 0 ∧ m.f 4 4 = 0 ∧ (s.part 0).state = .active ∧
       (s.reg (Reg.DIS_PAUSED (s.partHub 0)).addr).getLsbD 0 = true ∧ s.snapRuns 0 = false ∧ (s.snap 0).setup = true ∧ s.lanternHost 0 = true ∧
       ((s.begun 0x53 0 0).lanternReads 0 [.data [] false]).2.filter Man.ok = [] ∧ ((s.begun 0x53 0 0).lanternReads 0 [.data manifest1 false]).2.filter Man.ok = [manifest1] ∧
       [HostRead.data manifest1 false].contains .timeout = false ∧ fieldAt manifest1 32 4 = 0 ∧
       fieldAt manifest1 36 4 = 1 ∧ (∀ e ∈ Man.entries manifest1, s.entryHeld 0 e = true) ∧ (∀ e ∈ Man.entries manifest1, s.entryGone 0 e = false) ∧
       (∀ e ∈ Man.entries manifest1, Ent.stored e = false)) := by
  try dsimp only
  decide +kernel

theorem meets_LanternSnapshots_engine :
    (let s := (snapped SnapSt.idle id).setBeacon 1 1
     let x := s.snap 0
     x.setup = true ∧ x.steps = true ∧ s.cutReached 0 = false ∧ s.serving (snpPage (s.partHub 0)) = true ∧ (s.learn (s.stepWatch 0)).fired = true ∧
       ((s.setBeacon 1 0).learn (s.stepWatch 0)).fired = false ∧ 1#32 ≠ x.stepSeen ∧ x.warned = 0 ∧
       (let s := s.modSnap 0 fun x => { x with warned := 1, lastAuto := some 1000 }
        (s.snap 0).warned ≠ 0 ∧ (s.snap 0).lastAuto = some 1000 ∧ 1000 + (s.snap 0).c 10 2 ≤ 2 ^ 20) ∧
       x.autoOn = true ∧ s.snapSt 0 = SnapSt.idle ∧ x.lastAuto = none ∧ x.c 3 1 % 64 ≠ 0) ∧
    (let s := (snapped SnapSt.waitCut fun x => { x with mode := 1, auto := true }).setBeacon 1 1
     s.snapSt 0 = SnapSt.waitCut ∧ (s.snap 0).mode = 1#8 ∧ (s.learn (s.cutWatch 0)).fired = true ∧
       ((s.setBeacon 1 0).learn ((s.setBeacon 1 0).cutWatch 0)).fired = false) ∧
    (let s := snapped SnapSt.waitCut id
     s.snapSt 0 = SnapSt.waitCut ∧ (s.snap 0).mode = 0#8 ∧ (s.reg (Reg.DIS_PAUSE 0).addr).getLsbD 0 = false ∧ (s.snap 0).steps = true ∧
       (let s := (s.setReg (Reg.DIS_PAUSE 0).addr 1).setReg (Reg.DIS_PAUSED 0).addr 1
        (s.reg (Reg.DIS_PAUSE 0).addr).getLsbD 0 = true ∧ (s.reg (Reg.DIS_PAUSED 0).addr).getLsbD 0 = true ∧ s.snapSt 0 = SnapSt.waitCut)) ∧
    (let s := (snapped SnapSt.copying fun x => { x with items := [2 ^ 49], slotEnd := 1 }).setBeacon 0 1
     let g := (s.served 0 Engine.lantern.num 0 0).granule 0 (2 ^ 49)
     s.snapSt 0 = SnapSt.copying ∧ s.mayServe 0 Engine.lantern.num 0 0 1 s.snapCopies = true ∧ (s.snap 0).urgent = [] ∧ (s.snap 0).items.head? = some (2 ^ 49) ∧ g.2.lost = false ∧
       (g.1.storeGranule 0 (2 ^ 49) g.2 (.data [] false)).2 = St.ok) ∧
    (let s := snapped SnapSt.copying fun x => { x with items := [2 ^ 49], take := [] }
     let g := (s.served 0 Engine.lantern.num 0 0).granule 0 (2 ^ 49)
     g.2.lost = false ∧ (g.1.storeGranule 0 (2 ^ 49) g.2 (.data [] false)).2 ≠ St.ok) ∧
    (let s := snapped SnapSt.copying fun x => { x with items := [2 ^ 49 + 159] }
     ((s.served 0 Engine.lantern.num 0 0).granule 0 (2 ^ 49 + 159)).2.lost = true ∧ (s.snap 0).items.head? = some (2 ^ 49 + 159)) ∧
    (let s := (snapped SnapSt.copying fun x => { x with pendingG := [2 ^ 33], slotEnd := 1 }).setBeacon 0 1
     let g := (s.served 0 Engine.lantern.num 0 0).granule 0 (2 ^ 49)
     (s.snap 0).urgent = [] ∧ (s.snap 0).items = [] ∧ (s.snap 0).pendingG.head? = some (2 ^ 49 / 65536) ∧ g.2.lost = false ∧
       (g.1.storeGranule 0 (2 ^ 49) g.2 (.data [] false)).2 = St.ok) ∧
    (let s := snapped SnapSt.copying id
     (s.snap 0).urgent = [] ∧ (s.snap 0).items = [] ∧ (s.snap 0).pendingG = [] ∧ s.lanternHost 0 = true ∧ 128 ≤ (s.snap 0).area.2.1 ∧ HostRead.data [] false ≠ .timeout ∧
       (s.modSnap 0 fun x => { x with take := [] }).lanternHost 0 = true ∧ ((s.modSnap 0 fun x => { x with take := [] }).snap 0).area.2.1 < 128 ∧
       (s.wr (Reg.FWP_LINK_STATE 0 0) 1).lanternHost 0 = false) ∧
    (board.snap 0).setup = false := by
  try dsimp only
  decide +kernel
def linked (f : Link → Link) : State := board.modLink 0 f

theorem meets_EndpointFunctions :
    (board.nicqp (qpKey 0 4095) = none ∧ (linked fun k => k.setFns 3 { Fn.reset with bme := true }).nicqp 0 = none) ∧
    (let s := (netted oneQp).modLink 0 fun y => y.setFns 3 { (y.getFns 3) with bme := false }
     s.nicqp (qpKey 0 4095) = some oneQp ∧ qpKey 0 4095 / 4096 = 0 ∧ oneQp.error = false) ∧
    (let s := linked fun k => { k with up := false, training := true }
     (s.link 0).training = true ∧ ({ s with pins := { s.pins with refclk := 31#5 } } : State).linkMayTrain 0 = true) ∧
    ((board.link 0).training = false ∧ (board.link 0).up = true ∧ (board.link 0).configReady = true ∧
      (board.reg ((pcePage 0).base + 0x1C)).getLsbD 20 = false ∧ State.reset.reg ((pcePage 0).base + 0x1C) = board.reg ((pcePage 0).base + 0x1C) ∧
      (board.link 1).up = false ∧ board.bru.started = true ∧ board.on (Reg.PCE_CTL_FORCE_A 0) = false ∧
      (board.link 1).configReady = false) ∧
    (State.reset.fnServes 0 2 = false ∧ board.fnServes 0 1 = true ∧ board.fnRead 0 1 0x100000 4 = some (leBytes 4 (((board.link 0).getFns 1).tableWord 0)) ∧
      board.fnRead 0 1 0x3FFFFC 4 = none) ∧
    (let x := { win with func := 3, rid := 0xFFFB }
     let s := board.setSlice 255 (some x)
     s.slice 255 = some x ∧ s.partHub x.part = 0 ∧ x.func = 3 ∧ x.rid = ((0xFFFA#16 &&& 0xFFF8#16) ||| BitVec.ofNat 16 3) ∧
       x.rid ≠ ((0#16 &&& 0xFFF8#16) ||| BitVec.ofNat 16 3)) := by
  try dsimp only
  decide +kernel

def powered (f : Pwr → Pwr) : State := { board with pwr := f board.pwr }

theorem meets_PowerAndTelemetry :
    (board.powerUp = true ∧ atLimit (board.dieHot 9) board.tThrottle = false ∧ atLimit (board.dieHot 9) (board.tThrottle - 12) = false ∧
      (board.pwr.getDies 9).coolMs = 0) ∧
    (let s := board.modDie 9 fun x => { x with coolMs := 9 }
     9 ≤ (s.pwr.getDies 9).coolMs ∧ atLimit (s.dieHot 9) (s.tThrottle - 12) = false) ∧
    (let s := Res.stateOr (execSensorSample (.die 144 0) 0x7FFF 0 board) board
     atLimit (s.dieHot 9) s.tThrottle = true) ∧
    (board.pins.thermAlert = false ∧ board.pins.romDone = true ∧ State.reset.pins.thermAlert = false ∧ State.reset.pins.romDone = false) ∧
    (let s := board.modDie 9 fun x => { x with hold := true }
     (s.pwr.getDies 9).hold = true ∧ atLimit (s.dieHot 9) tripOff = false) ∧
    ((powered fun x => { x with pmEmerg := 8 }).pwr.pmEmerg ≠ 0#4 ∧ (powered fun x => { x with pmEmerg := 8 }).pwr.emerg = false) ∧
    ((powered fun x => { x with emerg := true }).pwr.pmEmerg = 0#4 ∧ (powered fun x => { x with emerg := true }).pwr.emerg = true) ∧
    ((board.part 0).state = .active ∧ (board.part 0).pcap = 0#16) ∧
    (let s := ({ board with parts := [] } : State)
     s.powerUp = true ∧ (∀ q < 12, (s.part q).state ≠ .active) ∧ s.on (Reg.TEL_CFG_RING_EN 0) = false ∧ s.on (Reg.TEL_CFG_UDP_EN 0) = false) ∧
    (let s := (board.wr (Reg.TEL_CFG_RING_EN 0) 1)
     s.on (Reg.TEL_CFG_RING_EN 0) = true ∧ s.fnMaster 0 0 = true ∧
       (s.rd (Reg.TEL_RING_HEAD 0) + 2 ^ 32 - s.rd (Reg.TEL_RING_TAIL 0)) % 2 ^ 32 < s.ringSize 0) ∧
    board.serving (telPage 0) = true ∧ (pages 5 [telPage 0] board).serving (telPage 0) = false ∧
    (board.st (telPage 0) ≠ PS.off ∧ board.pageGone (telPage 0) 0x60 = false ∧ board.on (Reg.TEL_PAIR_CTL_GO 0) = false ∧
      (board.wr (Reg.TEL_PAIR_CTL_GO 0) 1).on (Reg.TEL_PAIR_CTL_GO 0) = true) := by
  try dsimp only
  decide +kernel

theorem meets_PowerLimit :
    (board.powerUp = true ∧ (board.wr (Reg.PWR_LIMIT 0) 100).rd (Reg.PWR_LIMIT 0) = 100) ∧
    (let s := (board.wr (Reg.PWR_LIMIT 0) 100).wr (Reg.PWR_DIE_STAT_POINT 0 3) 6
     s.powerUp = true ∧ (∀ d < 10, s.rd (Reg.PWR_DIE_STAT_POINT 0 d) ≤ 6) ∧ 0 < s.rd (Reg.PWR_DIE_STAT_POINT 0 3) ∧
       (s.pwr.getDies 3).hold = false ∧ s.pwr.emerg = false ∧ 6 ≤ (s.pwr.getDies 3).thermLimit ∧
       6 ≤ min 6 ((s.wr (Reg.PWR_DIE_REQ_POINT 0 3) 6).rd (Reg.PWR_DIE_REQ_POINT 0 3))) ∧
    (let s := { (board.modDie 3 fun x => { x with devLimit := 5 }) with pwr := { (board.modDie 3 fun x => { x with devLimit := 5 }).pwr with lowered := [3] } }
     s.pwr.lowered = [3] ∧ (s.pwr.getDies 3).devLimit < 6 ∧ s.powerUp = true) ∧
    board.pwr.lowered = [] := by
  try dsimp only
  decide +kernel
def pinned (f : Pins → Pins) : State := { board with pins := f board.pins }
/-- The BRU page is ENABLED and the steps of some masks are finished, accepted and running. -/
def brought (fin acc run : BitVec 12) (s : State) : State :=
  pages 3 [bruPage] { s with bru := { s.bru with finished := fin, accepted := acc, running := run } }

theorem meets_Bringup_pins :
    (State.reset.pins.porst = true ∧ board.pins.porst = false ∧ State.reset.pins.pwrOk ≠ 0 ∧ board.pins.romDone = true ∧
      board.bbx.suspended = false ∧ State.reset.pins.romDone = false) ∧
    ({ State.reset with pins := { State.reset.pins with pwrOk := 0#16 } } : State).pins.pwrOk ≠ 0xFFFF#16 ∧
    (let s : State := { State.reset with pins := { State.reset.pins with pwrOk := 0xFFFF#16, refclk := 31#5 } }
     s.pins.porst = true ∧ s.pins.pwrOk = 0xFFFF#16 ∧ s.pins.refclk.getLsbD 0 = true) ∧
    ({ board with bbx := { board.bbx with suspended := true } } : State).bbx.suspended = true ∧
    (board.bru.memDone.getLsbD 79 = true ∧ board.bru.memDone.getLsbD (80 + 31) = true) := by
  try dsimp only
  decide +kernel

theorem meets_Bringup_steps :
    (∀ k < 12, 2 ≤ k → (brought (BitVec.ofNat 12 (2 ^ k - 2)) (BitVec.ofNat 12 (2 ^ k - 2)) 0 board).stepAllowed k = true) ∧
    (let s := pages PS.disabled ((List.range 20).map fun k => ⟨.hmc, k⟩) board
     ∀ k < 20, s.st ⟨.hmc, k⟩ = PS.disabled ∧ s.badCfg ⟨.hmc, k⟩ = false) ∧
    (let s := brought 0x3FE 0x3FE 0 (board.wr (Reg.BRU_CFG_FILL 0) 1)
     s.stepAllowed 9 = false ∧ (brought 0x1FE 0x1FE 0 (board.wr (Reg.BRU_CFG_FILL 0) 1)).stepAllowed 9 = true ∧
       natBits (s.rd (Reg.BRU_CFG_FILL 0)) 0 1 = 1 ∧ s.unitAbsent 0 = false ∧ (s.retiredIn 0).contains 0 = false) ∧
    (let s := brought 0x3FE 0x3FE 0 ((board.wr (Reg.BRU_FW_MANIFEST_LO 0) 0xFFFFF).wr (Reg.BRU_FW_MANIFEST_HI 0) 0xFFFF)
     s.stepAllowed 10 = true ∧ s.inTiers (s.bruAddr (Reg.BRU_FW_MANIFEST_LO 0) (Reg.BRU_FW_MANIFEST_HI 0)) 1 = false) ∧
    (let s := brought 0x7FE 0x7FE 0 board
     s.stepAllowed 11 = true ∧ ((List.range 17).any fun k => s.d2dState k = D2d.failed) = false ∧ s.bru.hubArray = false ∧
       (({ s with bru := { s.bru with hubArray := true } } : State).stepAllowed 11 = true)) ∧
    (let s := board.setD2d 16 ⟨D2d.training, 0, 0⟩
     (s.d2dWord 16).state = D2d.training ∧ s.bru.fast = false ∧ s.groupLost (.link 16 ⟨2, by decide⟩ ⟨0, by decide⟩) = false ∧
       (board.d2dWord 16).state ≠ D2d.training ∧ (board.d2dWord 16).state ≠ D2d.retraining) ∧
    (let s := { pages 3 [⟨.hmc, 19⟩, ⟨.lpc, 7⟩] board with bru := { board.bru with memDone := 0 } }
     s.groupLost (.hbm 79 0 false) = false ∧ s.bru.memDone.getLsbD 79 = false ∧ s.st (ctrlPage 79) = PS.enabled ∧
       s.groupLost (.package 31 0) = false ∧ s.bru.memDone.getLsbD (80 + 31) = false ∧ s.st (ctrlPage (80 + 31)) = PS.enabled) ∧
    (board.running 9 = false ∧ (brought 0 0 0x200 board).running 9 = true ∧ (brought 0 0 0x200 board).unitsDone 9 = true) := by
  try dsimp only
  decide +kernel

theorem meets_RefusedSteps :
    (brought 0x3FE 0x3FE 0x200 board).running 9 = true ∧ (brought 0x3FE 0x3FE 0x200 board).stepAllowed 9 = false ∧
    State.reset.stepAllowed 2 = false := by
  try dsimp only
  decide +kernel

/-- A signal to cluster 159, of cluster 0 or of a hub's engine, with the page of cluster 159 in a state. -/
def dropping (src : Option Nat) (n : Nat) : State :=
  { (pages n [⟨.clu, 159⟩] board) with signals := [{ Sig.reset with srcGc := src, bid := 159 * 128 + 127, add := 1 }] }

theorem meets_DiscardedSignals :
    (∀ n ∈ [PS.fenced, PS.resetting, PS.off], (dropping (some 0) n).st ⟨.clu, (159 * 128 + 127) / 128⟩ = n ∧ (dropping none n).signals.length = 1) ∧
    (dropping (some 0) PS.fenced).bcnDropped (0 / 16) 159 = none ∧ (dropping none PS.fenced).bcnDropped (hubNode 0) 159 = none := by
  try dsimp only
  decide +kernel

theorem meets_EnginesAndPartitionsComplete :
    (∀ o ∈ [mma, drain, { mma with kind := .mclr }], ((queued o).core 0).mqueue = [o] ∧ ((queued o).core 0).mrun = []) ∧
    (let o := { mma with w0 := 6, w1 := 6 }
     ((runs o).core 0).mrun = [o] ∧ ((runs o).mmaTile 0 o).2 = false) ∧
    ((runs drain).core 0).mrun = [drain] ∧
    (let s := mail 0x210 (shape 11) (pages 3 [⟨.clu, 1⟩] board)
     let x := (s.message 0 0).shape
     serves 0x210 64 s = true ∧ (s.message 0 0).f 0 1 = 11 ∧ x.clusters ≠ 0#160 ∧ x.weight ≠ 0#8 ∧ x.rangesOk = true ∧ x.strict = false ∧
       s.shapeAbsent x = false ∧ (s.part 11).state = .free ∧ (s.part 0).state = .active ∧ ∀ r < 12, (s.part r).state = .free ∨ x.clash (s.part r) = false) ∧
    (∀ st ∈ [PartState.creating, .destroying], ((board.setPart 0 { board.part 0 with state := st }).part 0).state = st) ∧
    (let s := mail 0x211 [0] board
     serves 0x211 1 s = true ∧ (s.part 0).state = .active ∧ s.slices = [] ∧ s.snapRuns 0 = false) := by
  and_intros <;> decide +kernel

/-- The reset state has a canonical form, a command at the front of its queue completes, and the state after is another. -/
theorem meets_StepKeepsCanonical : State.reset.Canonical ∧ (step { State.reset with pending := [.pfailN] } matches .next _) = true := by
  constructor
  · exact ⟨by decide +kernel, by decide +kernel⟩
  · rfl

theorem meets_CommandsLeaveTheQueue :
    ({ State.reset with pending := [Instr.wrstN] } : State).Canonical ∧ (exec .pfailN { State.reset with pending := [.wrstN] } matches .next _) = true :=
  ⟨⟨by decide +kernel, by decide +kernel⟩, rfl⟩

theorem meets_StepRunsTheFront :
    ({ State.reset with pending := [Instr.pfailN, .wrstN] } : State).pending = .pfailN :: [.wrstN] ∧ State.reset.pending = [] := ⟨rfl, rfl⟩
/-! ## Worked examples of the spec -/

-- the listing of spec/05 and its words
theorem test_li : decodeSyl 0x85C80100 = (true, .li 2 0x0100) := by decide +kernel
theorem test_loopi : decodeSyl 0x8A804002 = (true, .loopi 0 4 2) := by decide +kernel
theorem test_addi : decodeSyl 0x04088003 = (false, .alui .add 2 2 3) := by decide +kernel
theorem test_mma : decodeSyl 0x90220000 = (true, .mop .mma 1 2 0) := by decide +kernel
theorem test_mdrain : decodeSyl 0x90400110 = (true, .mop .mdrain 0 0 0x0110) := by decide +kernel
theorem test_waiti : decodeSyl 0xC1828001 = (true, .waiti 5 1) := by decide +kernel

-- R50: four bytes of zeros; GB/T 32905: SM3("abc"); IEEE 802.3: the check value of "123456789"
theorem test_crc32c : crc32c [0, 0, 0, 0] = 0x48674BC7 := by decide +kernel
theorem test_sm3 : sm3 [0x61, 0x62, 0x63] = beBytes 32 0x66C7F0F462EEEDD9D1F2D46BDC10E4E24167C4875CF2F7A2297DA02B8F4BA8E0 := by
  decide +kernel
theorem test_fcs : fcs ((List.range 9).map fun i => BitVec.ofNat 8 (0x31 + i)) = leBytes 4 0xCBF43926 := by decide +kernel

-- spec/01 and spec/06: data memory windows of logical cores 1,937 and 1,952
theorem test_window : State.reset.tgt 0x110079100005 = .dmem 1937 5 ∧ State.reset.tgt 0x11007A084000 = .dmem 1952 0x84000 := by
  decide +kernel
-- spec/07: a line of die 7's share of section 1 lies in unit 61 of stack 15
theorem test_unit : (board.setReg (Reg.HMC_MODE_GLOBAL 0).addr 0).hbmUnit 0x009900003A40 = (15, 61) := by decide +kernel
-- spec/18: the D2D page of die 3's E link and LPC_PKG of package 21; spec/19: the NOC page of die 2
theorem test_pages :
    (Page.mk .d2d 13).base = 0x01C02000 ∧ (Page.mk .lpc 5).base + 0x120 = 0x0021C120 ∧ (Reg.NOC_MAP_SLOT 2 10 3).addr = 0x0180C38C := by
  decide +kernel

-- spec/03: the partials of the block pair; the block 3.0, -1.1, 0.2, 0.06
theorem test_partials : partials [⟨false, 0⟩, ⟨false, -1⟩, ⟨true, -3⟩, ⟨false, -6⟩] = (72, 16) := by decide +kernel
theorem test_quantise :
    let b := quantBlock .gl4 none false
      (([0x40400000, 0xBF8CCCCD, 0x3E4CCCCD, 0x3D75C28F] ++ List.replicate 28 0).map fun x => .flt (FFmt.fp32.decode x)) 1
    b.scale = 0x84 ∧ packElems 4 b.codes = 0xB6 := by
  try dsimp only
  decide +kernel
-- spec/04: VEXP of 0, -1, minus infinity and -1.5, VCVT of the second to seven decimals; T[256]
theorem test_exp :
    [0, 0xBF800000, 0xFF800000, 0xBFC00000].map (fun x => (expLane (FFmt.fp32.decode x)).code) = [0, 0x7D1D, 0x4000, 0x7BAC] := by
  decide +kernel
theorem test_gl16 :
    let digits (x : Nat) : Nat := match FFmt.fp32.decode x with
      | .fin _ m e => (m * 10 ^ 7 * 2 + 2 ^ (-e).toNat) / (2 * 2 ^ (-e).toNat)
      | _ => 0
    digits (gl16ToFp32 0x7D1D) = 3677101 ∧ gl16ToFp32 0x0100 = 0x3FB504F3 := by
  try dsimp only
  decide +kernel

-- spec/12: nodes 4, 6 and 7 of the example
theorem test_nodes :
    let node (link body : Nat) := leBytes 8 link ++ leBytes 8 body
    let at16 (l : List (BitVec 8)) := List.replicate 16 0#8 ++ l ++ List.replicate 40 0#8
    let test := node 0x8100001400070000 0x86DD1100FFFFFF00
    (readNode test (at16 [0x86, 0xDD, 0x11, 9]) matches .goto 5) = true ∧ (readNode test (at16 [8, 0, 0x11, 0]) matches .goto 7) = true ∧
    (readNode (node 0xB801001100640042 3) [] matches .leaf ⟨some 3, some 0x42, 1, 17, 100⟩) = true ∧
    (readNode (node 0xA003000000650000 0) [] matches .leaf ⟨none, none, 3, 0, 101⟩) = true := by
  try dsimp only
  decide +kernel
-- spec/13: the nonce of packet 100, the packets of 1,000,000 bytes
theorem test_nonce :
    ({ SHdr.zero with typ := 1, conn := 256, gen := 7, msn := 0x1F40, offset := 100 * 4096 } : SHdr).nonce false =
      [0, 0x40, 0x1F, 0, 0, 0x64, 0, 7, 0, 0, 1, 0] := by decide +kernel
theorem test_packets : ({ entry 1 with len := 1000000 } : SMsg).packets = 245 ∧ ({ entry 1 with len := 1000000 } : SMsg).size 244 = 576 := by
  decide +kernel
-- spec/14: wire clocks at 800 and 400 Gb/s, and node 1's new finish tag
theorem test_wire :
    (eth EthSt.up 2 0 15 0).wireClocks 0 4218 = 53 ∧ (eth EthSt.up 1 0 15 0).wireClocks 0 4218 = 106 ∧
      (eth EthSt.up 1 0 15 0).wireClocks 0 300 = 8 ∧ board.finish 999000 4218 1 = 278740568 := by
  try dsimp only
  decide +kernel
-- spec/15: blocks 40 and 48 of a namespace of three members
theorem test_place :
    let n : Ns := { Ns.reset with members := [⟨4, 1, 7⟩, ⟨5, 1, 0x1000⟩, ⟨6, 1, 9⟩] }
    (n.place 40).1 = 2 ∧ (n.place 40).2.2 = 9 + 8 ∧ n.place 48 = (0, ⟨4, 1, 7⟩, 7 + 16) := by
  try dsimp only
  decide +kernel
-- spec/11: the record at 0x7F00_0123_4F40 sets bit 4 of byte 582 of bitmap B
theorem test_dirty :
    let x : Slice := { Slice.reset with dlog := true, logBase := 0x100000, logIova := 0x7F0000000000, logPages := 262144 }
    x.logBytes 0x7F0001234F40 32 = [(0x100000 + 582, 1#8 <<< 4)] := by decide +kernel

/-! ## Ill-formed commands are refused -/

def noPage : Page := ⟨.hub, 2⟩
theorem test_ill_pages :
    WellFormed (.blockEnable noPage) = false ∧ WellFormed (.blockReady noPage) = false ∧ WellFormed (.blockDisable noPage) = false ∧
    WellFormed (.blockDrain noPage) = false ∧ WellFormed (.drainDone noPage) = false ∧ WellFormed (.resetDone noPage) = false ∧
    WellFormed (.blockFence noPage none) = false ∧ WellFormed (.crcSweepEnd noPage []) = false ∧ WellFormed (.bucketPeriodEnd noPage) = false ∧
    WellFormed (.errStatWrite noPage 0) = false ∧ WellFormed (.cfgCrcRefWrite noPage 0) = false ∧
    WellFormed (.bucketCfgWrite noPage 0) = false ∧ WellFormed (.bbxRecord 0 0 (some noPage) 0 []) = false := by
  try dsimp only
  decide +kernel
-- MBX_GO and step 7 of BRU_STEP read what lies outside the device; the status word of page 0 of hub 0 is implemented
theorem test_ill_aux :
    WellFormed (.registerWrite (.host 0) (BitVec.ofNat 26 ((mbxPage 0).base + 0x48)) 1 none .plain) = false ∧
    WellFormed (.registerWrite (.host 0) (BitVec.ofNat 26 (bruPage.base + 0x40)) 7 none .plain) = false := by
  try dsimp only
  decide +kernel
theorem test_ill_place :
    WellFormed (.unimplementedAccess (.pages (.host 0) (BitVec.ofNat 26 bruPage.base)) 4 false) = false := by decide +kernel
theorem test_well_formed :
    WellFormed (.blockEnable ⟨.hub, 1⟩) = true ∧ WellFormed (.bbxRecord 0 0 none 0 []) = true ∧
    WellFormed (.registerWrite (.host 0) (BitVec.ofNat 26 (bruPage.base + 0x40)) 3 none .plain) = true ∧
    WellFormed (.unimplementedAccess (.pages (.host 0) 0x3FFFFFC) 4 false) = true := by
  try dsimp only
  decide +kernel

end Sys2Proof.Tests
end

section
/-! PROOFS. The signals that find no cluster (R186, obligation O19): first what a report of an error leaves unchanged, then the
discard itself. -/
namespace Sys2Proof.Machine
open Sys2Proof

/-! ## The frame of an error report -/

/-- A report of errors leads from s to t: signals, beacons and replies stay, and so does every register whose BAR0 offset is in
K. -/
structure ReportFrame (K : Nat → Prop) (s t : State) : Prop where
  signals : t.signals = s.signals
  beacons : t.beacons = s.beacons
  replies : t.replies = s.replies
  reg : ∀ a, K a → t.reg a = s.reg a

namespace ReportFrame
variable {K : Nat → Prop} {s t u : State}

theorem refl (K : Nat → Prop) (s : State) : ReportFrame K s s := ⟨rfl, rfl, rfl, fun _ _ => rfl⟩

theorem trans (h : ReportFrame K s t) (h' : ReportFrame K t u) : ReportFrame K s u where
  signals := h'.signals.trans h.signals
  beacons := h'.beacons.trans h.beacons
  replies := h'.replies.trans h.replies
  reg a ha := (h'.reg a ha).trans (h.reg a ha)

theorem mono {K' : Nat → Prop} (h : ReportFrame K s t) (hK : ∀ a, K' a → K a) : ReportFrame K' s t :=
  { h with reg := fun a ha => h.reg a (hK a ha) }

/-- A field in a kept register reads as before. -/
theorem rd (h : ReportFrame K s t) (f : Fld) (hf : K f.addr) : t.rd f = s.rd f := by
  unfold State.rd; rw [h.reg _ hf]

theorem ite {c : Prop} [Decidable c] (ht : ReportFrame K s t) (hu : ReportFrame K s u) :
    ReportFrame K s (if c then t else u) := by
  split
  · exact ht
  · exact hu

theorem setReg (h : ReportFrame K s t) {a : Nat} (v : BitVec 32) (ha : ¬ K a) : ReportFrame K s (t.setReg a v) :=
  h.trans ⟨rfl, rfl, rfl, fun _ hb => t.setReg_reg_ne v fun e => ha (e ▸ hb)⟩

theorem wr (h : ReportFrame K s t) {f : Fld} (v : Nat) (hf : ¬ K f.addr) : ReportFrame K s (t.wr f v) := h.setReg _ hf

theorem bump (h : ReportFrame K s t) {f : Fld} (hf : ¬ K f.addr) : ReportFrame K s (t.bump f) := h.wr _ hf

theorem out (h : ReportFrame K s t) (o : Out) : ReportFrame K s (t.out o) := h.trans ⟨rfl, rfl, rfl, fun _ _ => rfl⟩

theorem modLink (h : ReportFrame K s t) (l : Nat) (f : Link → Link) : ReportFrame K s (t.modLink l f) :=
  h.trans ⟨rfl, rfl, rfl, fun _ _ => rfl⟩

theorem preWarn (h : ReportFrame K s t) (qs : List Nat) : ReportFrame K s (t.preWarn qs) := by
  unfold State.preWarn
  induction qs generalizing t with
  | nil => exact h
  | cons q qs ih => exact ih (h.trans ⟨rfl, rfl, rfl, fun _ _ => rfl⟩)

theorem updateHalf (h : ReportFrame K s t) (p : Page) (hp : ¬ K (p.base + 0x28)) : ReportFrame K s (t.updateHalf p) :=
  ((h.wr _ hp).preWarn _).ite (h.wr _ hp)

theorem pmeAlert (h : ReportFrame K s t) (l : Nat) : ReportFrame K s (t.pmeAlert l) :=
  have wake : ReportFrame K s ({ t.modLink l fun k => { k with pmeStatus := true } with
      pins := { t.pins with wake := true } }.out (.wake true)) := h.trans ⟨rfl, rfl, rfl, fun _ _ => rfl⟩
  h.ite (((h.modLink _ _).ite wake).ite (((h.modLink _ _).out _).ite h))

end ReportFrame

/-! ## Reports leave the counters of a HUB page -/

/-- Offsets within HUB pages, but for their STATE and ERR_STAT (R41, R42): what no report of a hub's error writes. -/
def hubCounter (a : Nat) : Prop := a % 0x100000 < 0x1000 ∧ a % 0x1000 ≠ 0x0C ∧ a % 0x1000 ≠ 0x18

theorem not_hubCounter_pce (l : Nat) {off : Nat} (h : off < 0x1000) : ¬ hubCounter ((Page.mk .pce l).base + off) := by
  simp only [hubCounter, Page.base]; omega

theorem not_hubCounter_bbx {off : Nat} (h : off < 0x1000) : ¬ hubCounter (bbxPage.base + off) := by
  simp only [hubCounter, bbxPage, Page.base]; omega

theorem not_hubCounter_state (h : Nat) : ¬ hubCounter (Reg.STATE_STATE ⟨.hub, h⟩).addr := by
  simp only [hubCounter, Reg.STATE_STATE, Page.base]; omega

theorem not_hubCounter_errStat (h : Nat) : ¬ hubCounter ((Page.mk .hub h).base + 0x18) := by
  simp only [hubCounter, Page.base]; omega

theorem hubCounter_sigDrop (h : Nat) : hubCounter (Reg.HUB_SIG_DROP h).addr := by
  simp only [hubCounter, Reg.HUB_SIG_DROP, Page.base]; omega

theorem hubCounter_level (h : Nat) : hubCounter (Reg.BUCKET_LEVEL_LEVEL ⟨.hub, h⟩).addr := by
  simp only [hubCounter, Reg.BUCKET_LEVEL_LEVEL, Page.base]; omega

namespace ReportFrame
variable {s t : State}

theorem updateInta (h : ReportFrame hubCounter s t) (l : Nat) : ReportFrame hubCounter s (t.updateInta l) :=
  h.ite (((h.modLink _ _).wr _ (not_hubCounter_pce l (by decide))).out _)

theorem setPba (h : ReportFrame hubCounter s t) (l f v : Nat) (b : Bool) : ReportFrame hubCounter s (t.setPba l f v b) := by
  refine ite (h.setReg _ ?_) (h.modLink _ _)
  split
  · exact not_hubCounter_pce l (by decide)
  · exact not_hubCounter_pce l (by decide)

theorem vector (h : ReportFrame hubCounter s t) (l f v : Nat) : ReportFrame hubCounter s (t.vector l f v) :=
  have intx := (h.wr (f := Reg.PCE_INTX_PEND l) 1 (not_hubCounter_pce l (by decide))).ite (h.modLink _ _)
  ite (ite (intx.updateInta l) (h.setPba _ _ _ _)) ((h.setPba _ _ _ _).ite (h.out _))

theorem bbPut (h : ReportFrame hubCounter s t) (typ : Nat) (sev : BitVec 2) (src : Option Page) (part : Nat) (payload : Bytes) :
    ReportFrame hubCounter s (t.bbPut typ sev src part payload) := by
  unfold State.bbPut
  extract_lets seq r drawn numbered bbx buffered pended
  have drawn_ : ReportFrame hubCounter s drawn := h.trans ⟨rfl, rfl, rfl, fun _ _ => rfl⟩
  have numbered_ : ReportFrame hubCounter s numbered := drawn_.wr _ (not_hubCounter_bbx (by decide))
  have buffered_ : ReportFrame hubCounter s buffered := numbered_.trans ⟨rfl, rfl, rfl, fun _ _ => rfl⟩
  have pended_ : ReportFrame hubCounter s pended := buffered_.wr _ (not_hubCounter_bbx (by decide))
  exact (pended_.vector 0 0 0).vector 1 0 0

theorem fenceBare_bbx (h : ReportFrame hubCounter s t) : ReportFrame hubCounter s (t.fenceBare bbxPage) :=
  h.ite (h.wr _ (not_hubCounter_bbx (by decide)))

theorem bbxBit (h : ReportFrame hubCounter s t) (n : Nat) : ReportFrame hubCounter s (t.bbxBit n) := by
  have bit := h.setReg (t.reg (bbxPage.base + 0x18) ||| (1#32 <<< n)) (not_hubCounter_bbx (off := 0x18) (by decide))
  have alert := ((bit.out (.alert bbxPage.base n)).pmeAlert 0).pmeAlert 1
  have dropped := alert.bump (f := Reg.BBX_DROPPED 0) (not_hubCounter_bbx (by decide))
  unfold State.bbxBit
  extract_lets a fences sev bitSet alerted s1
  have all : ReportFrame hubCounter s s1 := bit.ite (dropped.ite (alert.bbPut _ _ _ _ _))
  exact all.fenceBare_bbx.ite all

theorem bbDrop (h : ReportFrame hubCounter s t) : ReportFrame hubCounter s t.bbDrop := by
  have counted := ((h.bump (f := Reg.BBX_DROPPED 0) (not_hubCounter_bbx (by decide))).bump
    (f := Reg.BUCKET_LEVEL_LEVEL bbxPage) (not_hubCounter_bbx (by decide))).updateHalf bbxPage (not_hubCounter_bbx (by decide))
  exact ((counted.bbxBit 17).bbxBit 3).ite (counted.bbxBit 17)

theorem bbAdd (h : ReportFrame hubCounter s t) (typ : Nat) (sev : BitVec 2) (src : Option Page) (part : Nat) (payload : Bytes) :
    ReportFrame hubCounter s (t.bbAdd typ sev src part payload) :=
  h.bbDrop.ite (h.bbPut _ _ _ _ _)

theorem errBit_hub (h : ReportFrame hubCounter s t) (hub n : Nat) (sev : BitVec 2) (part : Nat) :
    ReportFrame hubCounter s (t.errBit ⟨.hub, hub⟩ n sev part) :=
  have bit := h.setReg _ (not_hubCounter_errStat hub)
  bit.ite ((((bit.out _).bbAdd _ _ _ _ _).pmeAlert 0).pmeAlert 1)

/-- No unit loses anything by the fence of a HUB page. -/
theorem fencePage_hub (h : ReportFrame hubCounter s t) (hub : Nat) : ReportFrame hubCounter s (t.fencePage ⟨.hub, hub⟩) :=
  h.ite (h.wr _ (not_hubCounter_state hub))

theorem err_hub (h : ReportFrame hubCounter s t) (hub n : Nat) (sev : BitVec 2) (part : Nat) :
    ReportFrame hubCounter s (t.err ⟨.hub, hub⟩ n sev part) :=
  have bit := h.errBit_hub hub n _ part
  (bit.fencePage_hub hub).ite bit

end ReportFrame

/-! ## Counters -/

/-- A saturating counter reads one more, up to its largest value. -/
theorem State.bump_rd (s : State) (f : Fld) {len : Nat} (hlen : f.len = len) (h : f.lo + len ≤ 32) :
    (s.bump f).rd f = min (s.rd f + 1) (2 ^ len - 1) := by
  subst hlen
  have : 0 < 2 ^ f.len := Nat.two_pow_pos f.len
  rw [State.bump, State.wr_rd _ _ _ h, Nat.mod_eq_of_lt (by omega)]

theorem State.bump_rd_ne (s : State) {f g : Fld} (h : g.addr ≠ f.addr) : (s.bump f).rd g = s.rd g := s.wr_rd_ne _ h

/-- Counting after the signals are set to l changes the registers and the signals alone. -/
theorem State.bump_only_regs (s : State) (l : List Sig) (f : Fld) :
    let t := ({ s with signals := l } : State).bump f
    t = { s with regs := t.regs, signals := t.signals } := rfl

/-- HALF follows LEVEL in the same register and leaves it (R52). -/
theorem State.updateHalf_level (s : State) (p : Page) :
    (s.updateHalf p).rd (Reg.BUCKET_LEVEL_LEVEL p) = s.rd (Reg.BUCKET_LEVEL_LEVEL p) := by
  have level (v : Nat) : (s.wr (Reg.BUCKET_LEVEL_HALF p) v).rd (Reg.BUCKET_LEVEL_LEVEL p) = s.rd (Reg.BUCKET_LEVEL_LEVEL p) :=
    s.wr_rd_disjoint _ _ v (by simp [Reg.BUCKET_LEVEL_LEVEL]) (by simp [Reg.BUCKET_LEVEL_LEVEL, Reg.BUCKET_LEVEL_HALF])
  unfold State.updateHalf
  extract_lets _ half rises t
  split
  · exact (((ReportFrame.refl (fun _ => True) t).preWarn _).rd _ trivial).trans (level _)
  · exact level _

/-- A counted event of a HUB page (R53): LEVEL rises by 1 up to 65,535, and what the bucket reports leaves the page's other
counters, the signals, the beacons and the replies. -/
theorem State.bucket_hub (s : State) (hub : Nat) :
    ReportFrame (fun a => hubCounter a ∧ a ≠ (Page.mk .hub hub).base + 0x28) s (s.bucket ⟨.hub, hub⟩) ∧
    (s.bucket ⟨.hub, hub⟩).rd (Reg.BUCKET_LEVEL_LEVEL ⟨.hub, hub⟩) =
      min (s.rd (Reg.BUCKET_LEVEL_LEVEL ⟨.hub, hub⟩) + 1) 65535 := by
  let p : Page := ⟨.hub, hub⟩
  let t := (s.bump (Reg.BUCKET_LEVEL_LEVEL p)).updateHalf p
  have counted : ReportFrame (fun a => hubCounter a ∧ a ≠ p.base + 0x28) s t :=
    ((ReportFrame.refl _ s).bump (f := Reg.BUCKET_LEVEL_LEVEL p) (fun h => h.2 rfl)).updateHalf p (fun h => h.2 rfl)
  have level : t.rd (Reg.BUCKET_LEVEL_LEVEL p) = min (s.rd (Reg.BUCKET_LEVEL_LEVEL p) + 1) 65535 :=
    calc t.rd (Reg.BUCKET_LEVEL_LEVEL p)
      _ = (s.bump (Reg.BUCKET_LEVEL_LEVEL p)).rd (Reg.BUCKET_LEVEL_LEVEL p) := State.updateHalf_level _ p
      _ = min (s.rd (Reg.BUCKET_LEVEL_LEVEL p) + 1) (2 ^ 16 - 1) := s.bump_rd (len := 16) _ rfl (by simp [Reg.BUCKET_LEVEL_LEVEL])
      _ = min (s.rd (Reg.BUCKET_LEVEL_LEVEL p) + 1) 65535 := by simp only [Nat.reducePow, Nat.reduceSub]
  have report : ReportFrame hubCounter t (s.bucket p) := ((ReportFrame.refl _ t).err_hub hub 3 _ _).ite (.refl _ t)
  exact ⟨counted.trans (report.mono fun _ => And.left), (report.rd _ (hubCounter_level hub)).trans level⟩

/-! ## The discard -/

/-- The signals under way have no part in the routes: a message is dropped on its way or not, whichever they are. -/
theorem State.bcnDropped_signals (s : State) (l : List Sig) (src gc : Nat) (h : s.bcnDropped src gc = none) :
    ({ s with signals := l } : State).bcnDropped src gc = none := by
  unfold State.bcnDropped at h ⊢
  rw [Option.map_eq_none_iff] at h ⊢
  exact h

/-- A cluster whose page is FENCED, RESETTING or OFF is gone (R176, R187). -/
theorem State.clusterGone_of (s : State) (gc : Nat)
    (h : s.st ⟨.clu, gc⟩ = PS.fenced ∨ s.st ⟨.clu, gc⟩ = PS.resetting ∨ s.st ⟨.clu, gc⟩ = PS.off) : s.clusterGone gc = true := by
  simpa [State.clusterGone, State.absentPage, or_assoc] using h

/-- The node a signal sets out from: its cluster's die, or its engine's hub (R185). -/
def Sig.srcNode (g : Sig) : Nat :=
  match g.srcGc with
  | some c => c / 16
  | none => hubNode g.srcHub

/-- What the sender of a discarded signal counts (R186). -/
def State.countDiscard (s : State) (g : Sig) : State :=
  match g.srcGc with
  | some gc => s.bump (Reg.CLU_SIG_DROP gc)
  | none => (s.bump (Reg.HUB_SIG_DROP g.srcHub)).bucket ⟨.hub, g.srcHub⟩

theorem exec_signalArrive (n : Nat) (s : State) : exec (.signalArrive n) s = execSignalArrive n s := rfl

/-- A signal that reaches a cluster that is gone leaves the beacon channel, and its sender counts it. -/
theorem exec_signalArrive_gone {n : Nat} {g : Sig} {s : State} (hg : s.signals[n]? = some g)
    (hgone : s.clusterGone (g.bid / 128) = true) (hroute : s.bcnDropped g.srcNode (g.bid / 128) = none) :
    exec (.signalArrive n) s = .next (({ s with signals := s.signals.eraseIdx n } : State).countDiscard g) := by
  have hroute' := s.bcnDropped_signals (s.signals.eraseIdx n) _ _ hroute
  have hgone' : ({ s with signals := s.signals.eraseIdx n } : State).clusterGone (g.bid / 128) = true := hgone
  rw [exec_signalArrive, execSignalArrive, State.countDiscard]
  cases hsrc : g.srcGc with
  | some gc =>
    simp only [Sig.srcNode, hsrc] at hroute'
    simp [hg, hroute', hgone', hsrc]
  | none =>
    simp only [Sig.srcNode, hsrc] at hroute'
    simp [hg, hroute', hgone', hsrc]

theorem State.countDiscard_cluster (s : State) {g : Sig} {gc : Nat} (h : g.srcGc = some gc) :
    s.countDiscard g = s.bump (Reg.CLU_SIG_DROP gc) := by
  simp [State.countDiscard, h]

theorem State.countDiscard_hub (s : State) {g : Sig} (h : g.srcGc = none) :
    s.countDiscard g = (s.bump (Reg.HUB_SIG_DROP g.srcHub)).bucket ⟨.hub, g.srcHub⟩ := by
  simp [State.countDiscard, h]

/-- No discard sends a reply, moves a beacon or touches another signal, whoever sent it. -/
theorem State.countDiscard_frame (s : State) (g : Sig) : ReportFrame (fun _ => False) s (s.countDiscard g) := by
  have bumped (f : Fld) : ReportFrame (fun _ => False) s (s.bump f) := (ReportFrame.refl _ s).bump id
  cases h : g.srcGc with
  | some gc => rw [s.countDiscard_cluster h]; exact bumped _
  | none =>
    rw [s.countDiscard_hub h]
    exact (bumped _).trans (((State.bucket_hub _ _).1).mono nofun)

/-- A sending cluster's counter reads one more. -/
theorem State.countDiscard_cluster_rd (s : State) {g : Sig} {gc : Nat} (h : g.srcGc = some gc) :
    (s.countDiscard g).rd (Reg.CLU_SIG_DROP gc) = min (s.rd (Reg.CLU_SIG_DROP gc) + 1) (2 ^ 32 - 1) := by
  rw [s.countDiscard_cluster h, s.bump_rd (len := 32) _ rfl (by simp [Reg.CLU_SIG_DROP])]

/-- A sending hub's counter and the LEVEL of its bucket read one more. -/
theorem State.countDiscard_hub_rd (s : State) {g : Sig} (h : g.srcGc = none) :
    (s.countDiscard g).rd (Reg.HUB_SIG_DROP g.srcHub) = min (s.rd (Reg.HUB_SIG_DROP g.srcHub) + 1) (2 ^ 32 - 1) ∧
    (s.countDiscard g).rd (Reg.BUCKET_LEVEL_LEVEL ⟨.hub, g.srcHub⟩) =
      min (s.rd (Reg.BUCKET_LEVEL_LEVEL ⟨.hub, g.srcHub⟩) + 1) 65535 := by
  have apart : (Reg.HUB_SIG_DROP g.srcHub).addr ≠ (Reg.BUCKET_LEVEL_LEVEL ⟨.hub, g.srcHub⟩).addr := by
    simp [Reg.HUB_SIG_DROP, Reg.BUCKET_LEVEL_LEVEL]
  obtain ⟨frame, level⟩ := (s.bump (Reg.HUB_SIG_DROP g.srcHub)).bucket_hub g.srcHub
  rw [s.countDiscard_hub h]
  constructor
  · rw [frame.rd _ ⟨hubCounter_sigDrop _, apart⟩, s.bump_rd (len := 32) _ rfl (by simp [Reg.HUB_SIG_DROP])]
  · rw [level, s.bump_rd_ne apart.symm]

/-- Settles O19: the signal finds its cluster gone, so it leaves the channel and only its sender's counters move; the frame of the
HUB page's bucket keeps the beacons, the replies and HUB_SIG_DROP through whatever the bucket reports. -/
theorem discardedSignals : Obligations.DiscardedSignals := by
  unfold Obligations.DiscardedSignals
  intro n g s to_ hub hg hst hroute
  let s' : State := { s with signals := s.signals.eraseIdx n }
  have hrd (f : Fld) : s.rd f = s'.rd f := rfl
  have frame := s'.countDiscard_frame g
  simp only [hrd]
  refine ⟨s'.countDiscard g, exec_signalArrive_gone hg (s.clusterGone_of _ hst) hroute,
    frame.signals, frame.beacons, frame.replies, fun gc hgc => ⟨s'.countDiscard_cluster_rd hgc, ?_⟩,
    fun hnone => s'.countDiscard_hub_rd hnone⟩
  rw [s'.countDiscard_cluster hgc]
  exact State.bump_only_regs s _ _

end Sys2Proof.Machine
end

section
/-! PROOFS. The steps of bring-up that are not accepted (R484, obligation O56): first what the report of an error leaves unchanged on
any page, then a refused write, then the steps. -/
namespace Sys2Proof.Machine
open Sys2Proof

/-! ## Where a report is written -/

/-- Offsets whose page, within its MiB of BAR0, has the number of PCE or of BBX (R41, R42): the registers that a report writes. -/
def reportReg (a : Nat) : Prop := a % 0x100000 / 0x1000 = 0x02 ∨ a % 0x100000 / 0x1000 = 0x23

theorem reportReg_pce (l : Nat) {off : Nat} (h : off < 0x1000) : reportReg ((Page.mk .pce l).base + off) := by
  simp only [reportReg, Page.base]; omega

theorem reportReg_bbx {off : Nat} (h : off < 0x1000) : reportReg (bbxPage.base + off) := by
  simp only [reportReg, bbxPage, Page.base]; omega

theorem not_reportReg_bru {off : Nat} (h : off < 0x1000) : ¬ reportReg (bruPage.base + off) := by
  simp only [reportReg, bruPage, Page.base]; omega

/-- The state without what a report may change: registers, links, pins, the black box, pre-warnings, outputs and the number of draws. -/
def State.sansReports (s : State) : State :=
  { s with regs := [], links := [], pins := State.reset.pins, bbx := State.reset.bbx, snaps := [], outs := [], freeCtr := 0 }

/-- From s to t errors were reported and nothing else happened (R53, R290, R307, R520): t differs from s in what a report may
change alone, and of the registers in those of the PCE and BBX pages. -/
structure ReportsOnly (s t : State) : Prop where
  rest : t.sansReports = s.sansReports
  reg : ∀ a, ¬ reportReg a → t.reg a = s.reg a

namespace ReportsOnly
variable {s t u : State}

theorem refl (s : State) : ReportsOnly s s := ⟨rfl, fun _ _ => rfl⟩

theorem trans (h : ReportsOnly s t) (h' : ReportsOnly t u) : ReportsOnly s u where
  rest := h'.rest.trans h.rest
  reg a ha := (h'.reg a ha).trans (h.reg a ha)

theorem ite {c : Prop} [Decidable c] (ht : ReportsOnly s t) (hu : ReportsOnly s u) : ReportsOnly s (if c then t else u) := by
  split
  · exact ht
  · exact hu

theorem setReg (h : ReportsOnly s t) {a : Nat} (v : BitVec 32) (ha : reportReg a) : ReportsOnly s (t.setReg a v) :=
  h.trans ⟨rfl, fun _ hb => t.setReg_reg_ne v fun e => hb (e ▸ ha)⟩

theorem wr (h : ReportsOnly s t) {f : Fld} (v : Nat) (hf : reportReg f.addr) : ReportsOnly s (t.wr f v) := h.setReg _ hf

theorem bump (h : ReportsOnly s t) {f : Fld} (hf : reportReg f.addr) : ReportsOnly s (t.bump f) := h.wr _ hf

theorem out (h : ReportsOnly s t) (o : Out) : ReportsOnly s (t.out o) := h.trans ⟨rfl, fun _ _ => rfl⟩

theorem modLink (h : ReportsOnly s t) (l : Nat) (f : Link → Link) : ReportsOnly s (t.modLink l f) := h.trans ⟨rfl, fun _ _ => rfl⟩

theorem preWarn (h : ReportsOnly s t) (qs : List Nat) : ReportsOnly s (t.preWarn qs) := by
  unfold State.preWarn
  induction qs generalizing t with
  | nil => exact h
  | cons q qs ih => exact ih (h.trans ⟨rfl, fun _ _ => rfl⟩)

theorem updateHalf_bbx (h : ReportsOnly s t) : ReportsOnly s (t.updateHalf bbxPage) :=
  have half := h.wr (f := Reg.BUCKET_LEVEL_HALF bbxPage) _ (reportReg_bbx (by decide))
  (half.preWarn _).ite half

theorem pmeAlert (h : ReportsOnly s t) (l : Nat) : ReportsOnly s (t.pmeAlert l) :=
  have wake : ReportsOnly s ({ t.modLink l fun k => { k with pmeStatus := true } with
      pins := { t.pins with wake := true } }.out (.wake true)) := h.trans ⟨rfl, fun _ _ => rfl⟩
  h.ite (((h.modLink _ _).ite wake).ite (((h.modLink _ _).out _).ite h))

theorem updateInta (h : ReportsOnly s t) (l : Nat) : ReportsOnly s (t.updateInta l) :=
  h.ite (((h.modLink _ _).wr _ (reportReg_pce l (by decide))).out _)

theorem setPba (h : ReportsOnly s t) (l f v : Nat) (b : Bool) : ReportsOnly s (t.setPba l f v b) := by
  refine ite (h.setReg _ ?_) (h.modLink _ _)
  split
  · exact reportReg_pce l (by decide)
  · exact reportReg_pce l (by decide)

theorem vector (h : ReportsOnly s t) (l f v : Nat) : ReportsOnly s (t.vector l f v) :=
  have pend := (h.wr (f := Reg.PCE_INTX_PEND l) 1 (reportReg_pce l (by decide))).ite (h.modLink _ _)
  ite (ite (pend.updateInta l) (h.setPba _ _ _ _)) ((h.setPba _ _ _ _).ite (h.out _))

/-- A record in the black box numbers itself, waits in the buffer and raises a vector of each link. -/
theorem bbPut (h : ReportsOnly s t) (typ : Nat) (sev : BitVec 2) (src : Option Page) (part : Nat) (payload : Bytes) :
    ReportsOnly s (t.bbPut typ sev src part payload) := by
  unfold State.bbPut
  extract_lets seq r drawn numbered bbx buffered pended
  have h_numbered : ReportsOnly s numbered := (h.trans (u := drawn) ⟨rfl, fun _ _ => rfl⟩).wr _ (reportReg_bbx (by decide))
  have h_pended : ReportsOnly s pended :=
    (h_numbered.trans (u := buffered) ⟨rfl, fun _ _ => rfl⟩).wr _ (reportReg_bbx (by decide))
  exact (h_pended.vector 0 0 0).vector 1 0 0

theorem fenceBare_bbx (h : ReportsOnly s t) : ReportsOnly s (t.fenceBare bbxPage) :=
  h.ite (h.wr _ (reportReg_bbx (by decide)))

theorem bbxBit (h : ReportsOnly s t) (n : Nat) : ReportsOnly s (t.bbxBit n) := by
  have bit := h.setReg (t.reg (bbxPage.base + 0x18) ||| (1#32 <<< n)) (reportReg_bbx (off := 0x18) (by decide))
  have alert := ((bit.out (.alert bbxPage.base n)).pmeAlert 0).pmeAlert 1
  have dropped := alert.bump (f := Reg.BBX_DROPPED 0) (reportReg_bbx (by decide))
  unfold State.bbxBit
  extract_lets a fences sev bitSet alerted reported
  have h_reported : ReportsOnly s reported := bit.ite (dropped.ite (alert.bbPut _ _ _ _ _))
  exact h_reported.fenceBare_bbx.ite h_reported

theorem bbDrop (h : ReportsOnly s t) : ReportsOnly s t.bbDrop :=
  have counted := ((h.bump (f := Reg.BBX_DROPPED 0) (reportReg_bbx (by decide))).bump
    (f := Reg.BUCKET_LEVEL_LEVEL bbxPage) (reportReg_bbx (by decide))).updateHalf_bbx
  ((counted.bbxBit 17).bbxBit 3).ite (counted.bbxBit 17)

theorem bbAdd (h : ReportsOnly s t) (typ : Nat) (sev : BitVec 2) (src : Option Page) (part : Nat) (payload : Bytes) :
    ReportsOnly s (t.bbAdd typ sev src part payload) :=
  h.bbDrop.ite (h.bbPut _ _ _ _ _)

end ReportsOnly

/-- Beyond the bit itself, an error bit of any page does what its report does, and no more (R53). -/
theorem State.errBit_reports (s : State) (p : Page) (n : Nat) (sev : BitVec 2) (part : Nat) :
    ReportsOnly (s.setReg (p.base + 0x18) (s.reg (p.base + 0x18) ||| (1#32 <<< n))) (s.errBit p n sev part) :=
  (ReportsOnly.refl _).ite (((((ReportsOnly.refl _).out _).bbAdd _ _ _ _ _).pmeAlert 0).pmeAlert 1)

/-! ## Refused writes (R54) -/

/-- IGN_WRITE holds a refused write at an offset of a page. -/
def State.ignCounted (s : State) (p : Page) (off : Nat) : State :=
  (s.bump (Reg.IGN_WRITE_COUNT p)).wr (Reg.IGN_WRITE_OFFSET p) off

/-- IGNORED_WRITE never fences (R52): the refused write is its record in IGN_WRITE, its bit in ERR_STAT, and the report. -/
theorem State.ignoreWrite_reports (s : State) (p : Page) (off : Nat) :
    ReportsOnly ((s.ignCounted p off).setReg (p.base + 0x18) ((s.ignCounted p off).reg (p.base + 0x18) ||| 1#32))
      (s.ignoreWrite p off) := by
  have bit : s.ignoreWrite p off = (s.ignCounted p off).errBit p 0 0#2 0xFF := by
    simp [State.ignoreWrite, State.err, State.ignCounted]
  rw [bit]
  exact State.errBit_reports _ p 0 _ _

theorem State.ignoreWrite_sansReports (s : State) (p : Page) (off : Nat) : (s.ignoreWrite p off).sansReports = s.sansReports :=
  (s.ignoreWrite_reports p off).rest

/-- Every register but the page's ERR_STAT and IGN_WRITE and those a report writes reads as before. -/
theorem State.ignoreWrite_reg (s : State) (p : Page) (off : Nat) {a : Nat} (ha : ¬ reportReg a) (herr : a ≠ p.base + 0x18)
    (hign : a ≠ p.base + 0x20) : (s.ignoreWrite p off).reg a = s.reg a := by
  rw [(s.ignoreWrite_reports p off).reg a ha, State.setReg_reg_ne _ _ herr, State.ignCounted, State.wr_reg_ne _ _ hign,
    State.bump, State.wr_reg_ne _ _ hign]

/-- The ERR_STAT bit of a refused write is set. -/
theorem State.ignoreWrite_errStat (s : State) (p : Page) (off : Nat) (hp : ¬ reportReg (p.base + 0x18)) :
    ((s.ignoreWrite p off).reg (p.base + 0x18)).getLsbD 0 = true := by
  rw [(s.ignoreWrite_reports p off).reg _ hp]
  simp

/-- IGN_WRITE reads as it was recorded, whatever the report did. -/
theorem State.ignoreWrite_rd (s : State) (p : Page) (off : Nat) (hp : ¬ reportReg (p.base + 0x20)) {f : Fld}
    (hf : f.addr = p.base + 0x20) : (s.ignoreWrite p off).rd f = (s.ignCounted p off).rd f := by
  have reg : (s.ignoreWrite p off).reg f.addr = (s.ignCounted p off).reg f.addr := by
    rw [hf, (s.ignoreWrite_reports p off).reg _ hp, State.setReg_reg_ne _ _ (by omega)]
  unfold State.rd; rw [reg]

/-- A refused write counts, up to 65,535. -/
theorem State.ignoreWrite_count (s : State) (p : Page) (off : Nat) (hp : ¬ reportReg (p.base + 0x20)) :
    (s.ignoreWrite p off).rd (Reg.IGN_WRITE_COUNT p) = min (s.rd (Reg.IGN_WRITE_COUNT p) + 1) 65535 := by
  have counted := s.bump_rd (len := 16) (Reg.IGN_WRITE_COUNT p) rfl (by simp [Reg.IGN_WRITE_COUNT])
  simp only [Nat.reducePow, Nat.reduceSub] at counted
  rw [s.ignoreWrite_rd p off hp rfl, State.ignCounted,
    State.wr_rd_disjoint _ _ _ off (by simp [Reg.IGN_WRITE_COUNT]) (by simp [Reg.IGN_WRITE_COUNT, Reg.IGN_WRITE_OFFSET]), counted]

/-- The offset of the latest refused write is kept. -/
theorem State.ignoreWrite_offset (s : State) (p : Page) (off : Nat) (hp : ¬ reportReg (p.base + 0x20)) :
    (s.ignoreWrite p off).rd (Reg.IGN_WRITE_OFFSET p) = off % 4096 := by
  rw [s.ignoreWrite_rd p off hp rfl]
  exact State.wr_rd _ (Reg.IGN_WRITE_OFFSET p) off (by simp [Reg.IGN_WRITE_OFFSET])

/-! ## Steps that are not accepted (R484) -/

/-- The steps that are driven, each number with its command (R483); `Instr` has more constructors than compiled code can tag. -/
noncomputable def drivenSteps (found : SelfFound) : List (Nat × Instr) :=
  [(2, .trainD2d), (3, .trainHbm), (4, .trainLpddr), (5, .trainEth), (6, .trainSsd), (7, .selfTest found), (8, .buildMap),
    (9, .memFill), (10, .loadFw), (11, .start)]

theorem State.stepAllowed_of_running {s : State} {k : Nat} (h : s.running k = true) : s.stepAllowed k = false := by
  simp [State.stepAllowed, h]

theorem runStep_of_not_allowed {s : State} {k : Nat} (h : s.stepAllowed k = false) (f : State → State) :
    runStep k s f = .next (s.ignoreWrite bruPage 0x40) := by
  simp [runStep, h]

/-- Every step's command runs as `runStep` does, with an effect of its own once it has begun. -/
theorem exec_drivenStep {k : Nat} {c : Instr} {found : SelfFound} (h : (k, c) ∈ drivenSteps found) (s : State) :
    ∃ f, exec c s = runStep k s f := by
  simp only [drivenSteps, List.mem_cons, Prod.mk.injEq, List.not_mem_nil, or_false] at h
  obtain ⟨rfl, rfl⟩ | ⟨rfl, rfl⟩ | ⟨rfl, rfl⟩ | ⟨rfl, rfl⟩ | ⟨rfl, rfl⟩ |
    ⟨rfl, rfl⟩ | ⟨rfl, rfl⟩ | ⟨rfl, rfl⟩ | ⟨rfl, rfl⟩ | ⟨rfl, rfl⟩ := h
  · exact ⟨_, show execTrainD2d s = _ from rfl⟩
  · exact ⟨_, show execTrainHbm s = _ from rfl⟩
  · exact ⟨_, show execTrainLpddr s = _ from rfl⟩
  · exact ⟨_, show execTrainEth s = _ from rfl⟩
  · exact ⟨_, show execTrainSsd s = _ from rfl⟩
  · exact ⟨_, show execSelfTest found s = _ from rfl⟩
  · exact ⟨_, show execBuildMap s = _ from rfl⟩
  · exact ⟨_, show execMemFill s = _ from rfl⟩
  · exact ⟨_, show execLoadFw s = _ from rfl⟩
  · exact ⟨_, show execStart s = _ from rfl⟩

/-- A write of a number to BRU_STEP runs the step of that number, or is refused where no step has it. -/
theorem State.stepWrite_cases (s : State) (k : Nat) (aux : RegAux) :
    s.stepWrite k aux = s.ignoreWrite bruPage 0x40 ∨ ∃ f, s.stepWrite k aux = Res.stateOr (runStep k s f) s := by
  unfold State.stepWrite
  split
  case h_11 => exact .inl rfl
  all_goals exact .inr ⟨_, rfl⟩

theorem State.stepWrite_of_not_allowed {s : State} {k : Nat} (h : s.stepAllowed k = false) (aux : RegAux) :
    s.stepWrite k aux = s.ignoreWrite bruPage 0x40 := by
  obtain refused | ⟨f, run⟩ := s.stepWrite_cases k aux
  · exact refused
  · exact run.trans (congrArg (Res.stateOr · s) (runStep_of_not_allowed h f))

/-- Settles O56: the command and the write both come to `ignoreWrite`, which fences nothing and, with the report that it raises, leaves
all of the BRU page but ERR_STAT and IGN_WRITE. -/
theorem refusedSteps : Obligations.RefusedSteps := by
  unfold Obligations.RefusedSteps
  intro k found aux s u steps
  refine ⟨State.stepAllowed_of_running, fun refused => ?_⟩
  have command : ∀ c, (k, c) ∈ steps → exec c s = .next u := fun c hc => by
    obtain ⟨f, run⟩ := exec_drivenStep (found := found) hc s
    rw [run, runStep_of_not_allowed refused f]
  have rest : u.sansReports = s.sansReports := s.ignoreWrite_sansReports bruPage 0x40
  have status : u.reg (bruPage.base + 0x44) = s.reg (bruPage.base + 0x44) :=
    s.ignoreWrite_reg bruPage 0x40 (not_reportReg_bru (by decide)) (by omega) (by omega)
  exact ⟨command, State.stepWrite_of_not_allowed refused aux, s.ignoreWrite_count _ _ (not_reportReg_bru (by decide)),
    s.ignoreWrite_offset _ _ (not_reportReg_bru (by decide)), s.ignoreWrite_errStat _ _ (not_reportReg_bru (by decide)), status,
    congrArg (·.bru) rest, congrArg (·.mem) rest, congrArg (·.cores) rest, congrArg (·.beacons) rest⟩

end Sys2Proof.Machine
end

section
/-! PROOFS. The device power limit (R560, obligation O54): first what showing a point of a die changes, then the parts of the tick
(the power shown, the limit of a die moved) and the die it picks, then the tick itself. -/
namespace Sys2Proof.Machine
open Sys2Proof

/-! ## Registers and power state alone -/

/-- From s to t nothing changed but registers and the power state. -/
def PowerOnly (s t : State) : Prop := t = { s with regs := t.regs, pwr := t.pwr }

theorem PowerOnly.refl (s : State) : PowerOnly s s := rfl

theorem PowerOnly.trans {s t u : State} (h : PowerOnly s t) (h' : PowerOnly t u) : PowerOnly s u :=
  Eq.trans h' (congrArg (fun x : State => { x with regs := u.regs, pwr := u.pwr }) h)

theorem State.bothWr_powerOnly (s : State) (f : Nat → Fld) (v : Nat) : PowerOnly s (s.bothWr f v) := rfl

/-- A field of another register than the field's two reads as before. -/
theorem State.bothWr_rd_ne (s : State) {f : Nat → Fld} {g : Fld} (v : Nat) (h0 : g.addr ≠ (f 0).addr) (h1 : g.addr ≠ (f 1).addr) :
    (s.bothWr f v).rd g = s.rd g := by
  rw [State.bothWr, State.wr_rd_ne _ v h1, State.wr_rd_ne _ v h0]

/-- Hub 0 reads what both hubs show. -/
theorem State.bothWr_rd (s : State) {f : Nat → Fld} (v : Nat) (hlen : (f 0).lo + (f 0).len ≤ 32) (h : (f 0).addr ≠ (f 1).addr) :
    (s.bothWr f v).rd (f 0) = v % 2 ^ (f 0).len := by
  rw [State.bothWr, State.wr_rd_ne _ v h, State.wr_rd _ _ v hlen]

/-! ## The point in force (R557) -/

/-- PWR_DIE_STAT of a die shows a point and what limits it. -/
def State.showPoint (s : State) (d point cause : Nat) : State :=
  (s.bothWr (fun h => Reg.PWR_DIE_STAT_POINT h d) point).bothWr (fun h => Reg.PWR_DIE_STAT_LIMIT_CAUSE h d) cause

theorem State.showPoint_powerOnly (s : State) (d point cause : Nat) : PowerOnly s (s.showPoint d point cause) :=
  (s.bothWr_powerOnly _ point).trans (State.bothWr_powerOnly _ _ cause)

theorem State.showPoint_rd_ne (s : State) {d : Nat} (point cause : Nat) {g : Fld}
    (h : ∀ hub, g.addr ≠ (Reg.PWR_DIE_STAT_POINT hub d).addr) : (s.showPoint d point cause).rd g = s.rd g := by
  rw [State.showPoint, State.bothWr_rd_ne _ cause (h 0) (h 1), State.bothWr_rd_ne _ point (h 0) (h 1)]

/-- The cause shares the register of the point and leaves it. -/
theorem State.showPoint_point (s : State) (d point cause : Nat) :
    (s.showPoint d point cause).rd (Reg.PWR_DIE_STAT_POINT 0 d) = point % 8 := by
  have hubs : (Reg.PWR_DIE_STAT_POINT 0 d).addr ≠ (Reg.PWR_DIE_STAT_POINT 1 d).addr := by
    simp only [Reg.PWR_DIE_STAT_POINT, Page.base]; omega
  have apart (s : State) (hub : Nat) :
      (s.wr (Reg.PWR_DIE_STAT_LIMIT_CAUSE hub d) cause).rd (Reg.PWR_DIE_STAT_POINT 0 d) = s.rd (Reg.PWR_DIE_STAT_POINT 0 d) :=
    s.wr_rd_disjoint _ _ cause (by simp [Reg.PWR_DIE_STAT_POINT]) (by simp [Reg.PWR_DIE_STAT_POINT, Reg.PWR_DIE_STAT_LIMIT_CAUSE])
  rw [State.showPoint, State.bothWr, apart, apart]
  exact s.bothWr_rd (f := fun h => Reg.PWR_DIE_STAT_POINT h d) point (by simp [Reg.PWR_DIE_STAT_POINT]) hubs

/-- Whatever limits a die, updating its point shows some point, or nothing while the processor does not run. -/
theorem State.updatePoint_cases (s : State) (d : Nat) : s.updatePoint d = s ∨ ∃ p c, s.updatePoint d = s.showPoint d p c := by
  unfold State.updatePoint
  extract_lets x put req p
  split
  · exact .inr ⟨0, 4, rfl⟩
  · split
    · exact .inl rfl
    · split
      · exact .inr ⟨0, 3, rfl⟩
      · exact .inr ⟨p, _, rfl⟩

@[simp] theorem State.updatePoint_pwr (s : State) (d : Nat) : (s.updatePoint d).pwr = s.pwr := by
  obtain same | ⟨p, c, shown⟩ := s.updatePoint_cases d
  · rw [same]
  · rw [shown]; rfl

theorem State.updatePoint_powerOnly (s : State) (d : Nat) : PowerOnly s (s.updatePoint d) := by
  obtain same | ⟨p, c, shown⟩ := s.updatePoint_cases d
  · rw [same]; exact .refl s
  · rw [shown]; exact s.showPoint_powerOnly d p c

theorem State.updatePoint_rd_ne (s : State) {d : Nat} {g : Fld} (h : ∀ hub, g.addr ≠ (Reg.PWR_DIE_STAT_POINT hub d).addr) :
    (s.updatePoint d).rd g = s.rd g := by
  obtain same | ⟨p, c, shown⟩ := s.updatePoint_cases d
  · rw [same]
  · rw [shown, State.showPoint_rd_ne _ p c h]

/-- The point of a die that neither hardware nor an emergency holds at 0: the least of what is asked and its two limits. -/
theorem State.updatePoint_point {s : State} {d : Nat} (up : s.powerUp = true) (hold : (s.pwr.getDies d).hold = false)
    (emerg : s.pwr.emerg = false) :
    (s.updatePoint d).rd (Reg.PWR_DIE_STAT_POINT 0 d) =
      min (min 6 (s.rd (Reg.PWR_DIE_REQ_POINT 0 d))) (min (s.pwr.getDies d).thermLimit (s.pwr.getDies d).devLimit) := by
  unfold State.updatePoint
  extract_lets x put req p
  rw [if_neg (by simp [x, hold]), if_neg (by simp [up]), if_neg (by simp [emerg])]
  have small : p < 8 := by omega
  rw [show put p _ = s.showPoint d p _ from rfl, State.showPoint_point, Nat.mod_eq_of_lt small]

/-! ## The parts of the tick -/

/-- The tick shows the power and counts the milliseconds above the limit (R559). -/
def State.metered (s : State) (w : Nat) : State :=
  let t := s.bothWr (fun h => Reg.PWR_DEV_WATTS h) w
  let ms := if decide (s.rd (Reg.PWR_LIMIT 0) < w) then t.pwr.overMs + 1 else 0
  ({ t with pwr := { t.pwr with overMs := ms } } : State).cond 3 (decide (10 < ms))

/-- A die's device limit and the list of the dies lowered, as the tick leaves them, before the point follows. -/
def State.withLimit (s : State) (d limit : Nat) (lowered : List Nat) : State :=
  { s with pwr := { s.pwr.setDies d { s.pwr.getDies d with devLimit := limit } with lowered := lowered } }

/-- The tick moves a die's device limit, and the die's point follows. -/
def State.limitDie (s : State) (d limit : Nat) (lowered : List Nat) : State := (s.withLimit d limit lowered).updatePoint d

section metered
variable (s : State) (w : Nat)

@[simp] theorem State.metered_getDies (d : Nat) : (s.metered w).pwr.getDies d = s.pwr.getDies d := rfl
@[simp] theorem State.metered_lowered : (s.metered w).pwr.lowered = s.pwr.lowered := rfl
theorem State.metered_powerOnly : PowerOnly s (s.metered w) := rfl

theorem State.metered_rd_ne {g : Fld} (h : ∀ hub, g.addr ≠ (Reg.PWR_DEV_WATTS hub).addr) : (s.metered w).rd g = s.rd g :=
  s.bothWr_rd_ne (f := fun h => Reg.PWR_DEV_WATTS h) w (h 0) (h 1)

theorem State.metered_watts (h : w < 2 ^ 16) : (s.metered w).rd (Reg.PWR_DEV_WATTS 0) = w := by
  have shown := s.bothWr_rd (f := fun h => Reg.PWR_DEV_WATTS h) w (by simp [Reg.PWR_DEV_WATTS])
    (by simp [Reg.PWR_DEV_WATTS, Page.base])
  exact shown.trans (Nat.mod_eq_of_lt h)

@[simp] theorem State.metered_point (d : Nat) :
    (s.metered w).rd (Reg.PWR_DIE_STAT_POINT 0 d) = s.rd (Reg.PWR_DIE_STAT_POINT 0 d) :=
  s.metered_rd_ne w fun hub => by simp only [Reg.PWR_DIE_STAT_POINT, Reg.PWR_DEV_WATTS, Page.base]; omega

theorem State.metered_reqPoint {d : Nat} (h : d < 10) :
    (s.metered w).rd (Reg.PWR_DIE_REQ_POINT 0 d) = s.rd (Reg.PWR_DIE_REQ_POINT 0 d) :=
  s.metered_rd_ne w fun hub => by simp only [Reg.PWR_DIE_REQ_POINT, Reg.PWR_DEV_WATTS, Page.base]; omega

/-- The page and the status of a firmware processor lie apart from the power page. -/
@[simp] theorem State.metered_powerUp : (s.metered w).powerUp = s.powerUp := by
  have page : (s.metered w).rd (Reg.STATE_STATE ⟨.fwp, 4⟩) = s.rd (Reg.STATE_STATE ⟨.fwp, 4⟩) :=
    s.metered_rd_ne w fun hub => by simp only [Reg.STATE_STATE, Reg.PWR_DEV_WATTS, Page.base]; omega
  have run : (s.metered w).rd (Reg.FWP_RUN_STATE 4) = s.rd (Reg.FWP_RUN_STATE 4) :=
    s.metered_rd_ne w fun hub => by simp only [Reg.FWP_RUN_STATE, Reg.PWR_DEV_WATTS, Page.base]; omega
  rw [State.powerUp, State.powerUp, State.fwState, State.fwState, State.st, State.st, page, run]

end metered

section limitDie
variable (s : State) (d limit : Nat) (lowered : List Nat)

theorem State.withLimit_getDies :
    (s.withLimit d limit lowered).pwr.getDies d = { s.pwr.getDies d with devLimit := limit } :=
  SMap.get_set_self _ _ _ _

@[simp] theorem State.limitDie_devLimit : ((s.limitDie d limit lowered).pwr.getDies d).devLimit = limit := by
  rw [State.limitDie, State.updatePoint_pwr, State.withLimit_getDies]

theorem State.limitDie_getDies_ne {k : Nat} (h : k ≠ d) : (s.limitDie d limit lowered).pwr.getDies k = s.pwr.getDies k := by
  rw [State.limitDie, State.updatePoint_pwr]
  exact SMap.get_set_ne _ _ _ h

@[simp] theorem State.limitDie_lowered : (s.limitDie d limit lowered).pwr.lowered = lowered := by
  rw [State.limitDie, State.updatePoint_pwr, State.withLimit]

theorem State.limitDie_powerOnly : PowerOnly s (s.limitDie d limit lowered) :=
  PowerOnly.trans (t := s.withLimit d limit lowered) rfl (State.updatePoint_powerOnly _ d)

theorem State.limitDie_rd_ne {g : Fld} (h : ∀ hub, g.addr ≠ (Reg.PWR_DIE_STAT_POINT hub d).addr) :
    (s.limitDie d limit lowered).rd g = s.rd g :=
  State.updatePoint_rd_ne _ h

theorem State.limitDie_watts : (s.limitDie d limit lowered).rd (Reg.PWR_DEV_WATTS 0) = s.rd (Reg.PWR_DEV_WATTS 0) :=
  s.limitDie_rd_ne d limit lowered fun hub => by
    simp only [Reg.PWR_DIE_STAT_POINT, Reg.PWR_DEV_WATTS, Page.base]; omega

/-- Another die's point stays. -/
theorem State.limitDie_point_ne {k : Nat} (hk : k < 10) (hd : d < 10) (h : k ≠ d) :
    (s.limitDie d limit lowered).rd (Reg.PWR_DIE_STAT_POINT 0 k) = s.rd (Reg.PWR_DIE_STAT_POINT 0 k) :=
  s.limitDie_rd_ne d limit lowered fun hub => by simp only [Reg.PWR_DIE_STAT_POINT, Page.base]; omega

/-- Where neither hold nor emergency, the request nor the thermal limit is below it, the device limit is the die's point. -/
theorem State.limitDie_point (up : s.powerUp = true) (hold : (s.pwr.getDies d).hold = false) (emerg : s.pwr.emerg = false)
    (req : limit ≤ min 6 (s.rd (Reg.PWR_DIE_REQ_POINT 0 d))) (therm : limit ≤ (s.pwr.getDies d).thermLimit) :
    (s.limitDie d limit lowered).rd (Reg.PWR_DIE_STAT_POINT 0 d) = limit := by
  have dies := s.withLimit_getDies d limit lowered
  have point := State.updatePoint_point (s := s.withLimit d limit lowered) (d := d) up (by rw [dies]; exact hold) emerg
  rw [dies] at point
  calc (s.limitDie d limit lowered).rd (Reg.PWR_DIE_STAT_POINT 0 d)
    _ = min (min 6 (s.rd (Reg.PWR_DIE_REQ_POINT 0 d))) (min (s.pwr.getDies d).thermLimit limit) := point
    _ = limit := by rw [Nat.min_eq_right therm, Nat.min_eq_right req]

end limitDie

/-! ## The die with the highest point -/

/-- A scan that moves on only to a higher value ends at the lowest-numbered of the highest. -/
theorem foldl_highest_spec (f : Nat → Nat) (n : Nat) :
    let m := (List.range n).foldl (fun m d => if f m < f d then d else m) 0
    (m = 0 ∨ m < n) ∧ (∀ d < n, f d ≤ f m) ∧ ∀ d < m, f d < f m := by
  induction n with
  | zero => simp
  | succ n ih =>
    simp only [List.range_succ, List.foldl_append, List.foldl_cons, List.foldl_nil]
    generalize (List.range n).foldl (fun m d => if f m < f d then d else m) 0 = m at ih ⊢
    obtain ⟨place, top, lowest⟩ := ih
    split
    case isTrue higher =>
      exact ⟨.inr n.lt_succ_self, Nat.forall_lt_succ_right.2 ⟨fun d hd => Nat.le_trans (top d hd) (Nat.le_of_lt higher), Nat.le_refl _⟩,
        fun d hd => Nat.lt_of_le_of_lt (top d hd) higher⟩
    case isFalse same =>
      exact ⟨by omega, Nat.forall_lt_succ_right.2 ⟨top, Nat.le_of_not_lt same⟩, lowest⟩

/-- The die that R560 lowers. -/
theorem State.highestDie_spec (s : State) :
    s.highestDie < 10 ∧ (∀ d < 10, s.rd (Reg.PWR_DIE_STAT_POINT 0 d) ≤ s.rd (Reg.PWR_DIE_STAT_POINT 0 s.highestDie)) ∧
    ∀ d < s.highestDie, s.rd (Reg.PWR_DIE_STAT_POINT 0 d) < s.rd (Reg.PWR_DIE_STAT_POINT 0 s.highestDie) := by
  obtain ⟨place, top, lowest⟩ := foldl_highest_spec (fun d => s.rd (Reg.PWR_DIE_STAT_POINT 0 d)) 10
  exact ⟨place.elim (fun zero => Nat.lt_of_le_of_lt (Nat.le_of_eq zero) (by decide)) id, top, lowest⟩

/-- Showing the power moves no point, and so leaves the choice. -/
theorem State.metered_highestDie (s : State) (w : Nat) : (s.metered w).highestDie = s.highestDie := by
  simp only [State.highestDie, State.metered_point]

/-! ## The tick -/

theorem exec_powerLimitTick (watts : BitVec 16) (s : State) : exec (.powerLimitTick watts) s = execPowerLimitTick watts s := rfl

section tick
variable {watts : BitVec 16} {s : State} (up : s.powerUp = true)
include up

/-- Above the limit the die with the highest point is lowered, where that point is not 0. -/
theorem exec_powerLimitTick_above (above : s.rd (Reg.PWR_LIMIT 0) < watts.toNat) :
    let m := s.metered watts.toNat
    let p := s.rd (Reg.PWR_DIE_STAT_POINT 0 s.highestDie)
    exec (.powerLimitTick watts) s =
      .next (if p = 0 then m else m.limitDie s.highestDie (p - 1) (s.highestDie :: s.pwr.lowered)) := by
  intro m p
  have same : m.highestDie = s.highestDie := s.metered_highestDie _
  have point : m.rd (Reg.PWR_DIE_STAT_POINT 0 s.highestDie) = p := s.metered_point _ _
  rw [← point, ← same, exec_powerLimitTick, execPowerLimitTick, if_neg (by simp [up])]
  extract_lets w limit beyond
  rw [if_pos (decide_eq_true above), apply_ite Host.Outcome.next]
  rfl

/-- 5 % below the limit the die lowered last is raised, and off its device limit once no earlier lowering of it is left. -/
theorem exec_powerLimitTick_below {d : Nat} {rest : List Nat} (below : watts.toNat * 100 ≤ s.rd (Reg.PWR_LIMIT 0) * 95)
    (last : s.pwr.lowered = d :: rest) :
    exec (.powerLimitTick watts) s = .next ((s.metered watts.toNat).limitDie d
      (if rest.contains d then (s.pwr.getDies d).devLimit + 1 else 6) rest) := by
  have notAbove : ¬ s.rd (Reg.PWR_LIMIT 0) < watts.toNat := by omega
  rw [exec_powerLimitTick, execPowerLimitTick, if_neg (by simp [up])]
  extract_lets w limit beyond shown ms src t
  have metered : t = s.metered watts.toNat := rfl
  rw [if_neg (by simp [beyond, limit, w, notAbove]), if_pos below]
  simp only [metered, State.metered_lowered, last]
  rfl

/-- Between the two, and with no die lowered, the tick moves no limit. -/
theorem exec_powerLimitTick_idle (notAbove : watts.toNat ≤ s.rd (Reg.PWR_LIMIT 0))
    (idle : s.rd (Reg.PWR_LIMIT 0) * 95 < watts.toNat * 100 ∨ s.pwr.lowered = []) :
    exec (.powerLimitTick watts) s = .next (s.metered watts.toNat) := by
  rw [exec_powerLimitTick, execPowerLimitTick, if_neg (by simp [up])]
  extract_lets w limit beyond shown ms src t
  have metered : t = s.metered watts.toNat := rfl
  rw [if_neg (by simp [beyond, limit, w, notAbove])]
  obtain between | empty := idle
  · rw [if_neg (by omega), metered]
  · simp only [metered, State.metered_lowered, empty, ite_self]

end tick

/-- A die lowered by one point shows it, where nothing else holds it lower. -/
theorem State.metered_limitDie_point {s : State} {d : Nat} (w : Nat) (lowered : List Nat) (up : s.powerUp = true) (hd : d < 10)
    (hold : (s.pwr.getDies d).hold = false) (emerg : s.pwr.emerg = false)
    (therm : s.rd (Reg.PWR_DIE_STAT_POINT 0 d) ≤ (s.pwr.getDies d).thermLimit)
    (req : s.rd (Reg.PWR_DIE_STAT_POINT 0 d) ≤ min 6 (s.rd (Reg.PWR_DIE_REQ_POINT 0 d))) :
    ((s.metered w).limitDie d (s.rd (Reg.PWR_DIE_STAT_POINT 0 d) - 1) lowered).rd (Reg.PWR_DIE_STAT_POINT 0 d) =
      s.rd (Reg.PWR_DIE_STAT_POINT 0 d) - 1 := by
  refine (s.metered w).limitDie_point _ _ _ ((s.metered_powerUp w).trans up) hold emerg ?_ (Nat.le_trans (Nat.sub_le _ 1) therm)
  rw [s.metered_reqPoint w hd]
  exact Nat.le_trans (Nat.sub_le _ 1) req

/-- Settles O54: the three ranges of the power are the three ways the tick runs, and each moves at most the limit of one die. -/
theorem powerLimit : Obligations.PowerLimit := by
  unfold Obligations.PowerLimit
  intro watts s up point w limit
  let m := s.metered w
  have shown : m.rd (Reg.PWR_DEV_WATTS 0) = w := s.metered_watts w watts.isLt
  have still : PowerOnly s m := s.metered_powerOnly w
  refine ⟨fun above => ?above, fun j rest below last => ?below, fun notAbove idle => ?idle⟩
  case above =>
    obtain ⟨inside, top, lowest⟩ := s.highestDie_spec
    refine ⟨s.highestDie, _, inside, top, lowest, exec_powerLimitTick_above up above, ?_⟩
    split
    case isTrue zero =>
      exact ⟨shown, fun d _ => s.metered_getDies w d, fun d _ _ => s.metered_point w d,
        fun positive => absurd zero (Nat.ne_of_gt positive), still⟩
    case isFalse =>
      exact ⟨(m.limitDie_watts ..).trans shown, fun d ne => m.limitDie_getDies_ne _ _ _ ne,
        fun d hd ne => (m.limitDie_point_ne _ _ _ hd inside ne).trans (s.metered_point w d),
        fun _ => ⟨m.limitDie_devLimit .., m.limitDie_lowered .., State.metered_limitDie_point w _ up inside⟩,
        still.trans (m.limitDie_powerOnly ..)⟩
  case below =>
    refine ⟨_, exec_powerLimitTick_below up below last, m.limitDie_lowered .., fun d ne => m.limitDie_getDies_ne _ _ _ ne,
      fun limited => ?_, still.trans (m.limitDie_powerOnly ..)⟩
    rw [State.limitDie_devLimit]
    split
    · exact Nat.lt_succ_self _
    · exact limited
  case idle =>
    exact ⟨m, exec_powerLimitTick_idle up notAbove idle, s.metered_getDies w, s.metered_lowered w, still⟩

end Sys2Proof.Machine
end
